-- ==== Sys2Proof/Word.lean ====
section
/-! DEFINITION. The word types of the module: a 32-bit register (R5), a byte, a 256-bit image row or stack entry
(R84, R88), a 64-bit scalar (R89), a 64-byte memory line (R279), and plain little-endian byte arithmetic. -/
namespace Sys2Proof

/-- One register (R5). -/
abbrev Word := BitVec 32
/-- One byte. -/
abbrev Byte := BitVec 8
/-- One image row, or one operand-stack entry: lane i is bit i (R88). -/
abbrev Row := BitVec 256
/-- A scalar (R89). -/
abbrev W64 := BitVec 64
/-- A 64-byte line of memory: byte k is bits [8k+7:8k] (R88, R100). -/
abbrev Line64 := BitVec 512

end Sys2Proof
end

