-- ==== Sys2Proof/Frames.lean ====
section
/-! DEFINITION. What the commands carry: who issues an instruction and when, the requesters of the register bus, and the frames that
arrive from outside, as their fields after parsing. -/
namespace Sys2Proof

/-- When an engine runs an instruction: the engine, the instant at which it completes (2^-16 ns; station time never runs back), and
the waits it meets, in ps (held to the worst of Table 5.2, R119). -/
structure Issue where
  eng : Nat
  at_ : Nat
  wait : Nat
  deriving DecidableEq, Repr

/-- Who makes a register access (R25, R26): the management engine or MGT's own logic as O0, a Lorat session, an engine. -/
inductive Req where
  | mgt
  | session (n : Nat)
  | engine (e : Nat)
  deriving DecidableEq, Repr

/-- A received CAN frame (R383): identifier, flags, DLC, data, and the SOF counter captured. -/
structure CanFrame where
  id : Nat
  ide : Bool
  fdf : Bool
  brs : Bool
  esi : Bool
  rtr : Bool
  dlc : Nat
  data : List Byte
  sof : Nat
  deriving DecidableEq, Repr

/-- What every Ethernet frame carries to NET (R305, R307, R310): port, length, receive stamp (2^-16 ns), FCS good, dropped at
intake, addresses, the VLAN tag (TCI; 0x10000 untagged), an outer tag of 0x88A8 or 0x9100, and the redundancy trailer or tag
(sequence number, LAN or path identifier), if it has a valid one. -/
structure NetHead where
  port : Nat
  len : Nat
  stamp : Nat
  fcs : Bool
  overload : Bool
  dmac : Nat
  src : Nat
  tci : Nat
  outer : Bool
  red : Option (Nat × Nat)
  deriving DecidableEq, Repr

/-- One BER value of a dataset: tag, length, value (bit strings with bit k of the string at bit k). -/
structure BerVal where
  tag : Nat
  len : Nat
  val : Nat
  deriving DecidableEq, Repr

/-- A GOOSE PDU (R317 to R319): APPID, CRCs of gocbRef and datSet, counters, timeAllowedToLive (ms), confRev, flags, and the dataset's
top-level count and values in BER order. -/
structure GoosePdu where
  appid : Nat
  refcrc : Nat
  dscrc : Nat
  stNum : Nat
  sqNum : Nat
  tal : Nat
  confrev : Nat
  ndscom : Bool
  test : Bool
  sim : Bool
  entries : Nat
  vals : List BerVal
  deriving DecidableEq, Repr

/-- One ASDU of an SV frame (R325). -/
structure Asdu where
  smpCnt : Nat
  confrev : Nat
  synch : Nat
  rate : Option Nat
  ok : Bool
  chans : List (Nat × Nat)
  deriving DecidableEq, Repr

/-- An SV frame (R325): APPID, CRC of svID, simulation flag, ASDUs, and its bytes as the archive stores them. -/
structure SvPdu where
  appid : Nat
  svidcrc : Nat
  sim : Bool
  asdus : List Asdu
  bytes : List Byte
  deriving DecidableEq, Repr

/-- A UDP datagram (R331): IP version 6, without unsupported options or fragments, checksum good or absent where allowed. -/
structure Udp where
  v6 : Bool
  plain : Bool
  sumOk : Bool
  raddr : Nat
  laddr : Nat
  rport : Nat
  lport : Nat
  data : List Byte
  deriving DecidableEq, Repr

/-- A Lorat datagram's header as received (R337): session (0 in Recovery), SEQ, whether format and lengths agree, whether its tag verifies, FLAGS, the
receive stamp (2^-16 ns), its port and whether over IPv6, and in Recovery the remote endpoint. -/
structure LorHead where
  session : Nat
  seq : Nat
  fmt : Bool
  tag : Bool
  flags : Nat
  stamp : Nat
  port : Nat
  v6 : Bool
  ep : Nat
  deriving DecidableEq, Repr

/-- A Lorat request (Table 14.5) with its fields; `bad` on a scantling chunk says that STO fails to write it (code 0x21). -/
inductive LorCmd where
  | status
  | close
  | imgRead (space rows first : Nat)
  | imgWrite (entries : List (Nat × Row × Row))
  | imgForce (entries : List (Nat × Nat × Nat × Row × Row))
  | regRead (addrs : List Nat)
  | regWrite (entries : List (Nat × Nat))
  | nvsRead (region len off pw : Nat)
  | nvsWrite (region len off pw : Nat) (bytes : List Byte)
  | almRead (count first : Nat)
  | almFreeze (op : Nat)
  | arcRead (sub most lo hi cursor : Nat)
  | arcTrig (t p q : Nat)
  | splLoad (off : Nat) (bytes : List Byte)
  | splApply (owner : Nat)
  | splConfirm (owner : Nat)
  | splRollback (owner : Nat)
  | scnLoad (off : Nat) (bytes : List Byte) (bad : Bool)
  | scnCommit
  | scnConfirm
  | scnRollback
  | modeSet (scope owner target kind : Nat)
  | plumb (t : Nat)
  deriving DecidableEq, Repr

/-- A pair message as received (R241): its SEQ, whether its tag verifies, and whether it came under EtherType 0x88B6. -/
structure PairHead where
  seq : Nat
  tag : Bool
  bulk : Bool
  deriving DecidableEq, Repr

/-- What a HELLO says (Table 10.3): serial, PAIRID, base claim, mode, role, nonce, transport key, pair digest. -/
structure Hello where
  serial : Nat
  pairid : Nat
  base : Nat
  mode : Nat
  role : Nat
  nonce : Nat
  pub : Nat
  digest : Nat
  deriving DecidableEq, Repr

/-- An item of a state transfer (Table 10.3 XFER): a data line; the current version of an IN, OUT or MRK row (stamp and writer); a SEM row; a task's
release and context, with its wait and staged rows; a loop's state words and the output not yet committed; a ring's enable bits and indices; an owner's run
state and tokens; an owner's annex (splice number, records as state and package); an owner's splice state (Table 9.10) with what is left of its window in s. -/
inductive XferItem where
  | line (va : Nat) (data : Line64)
  | row (row : Nat) (val : Row) (stamp writer : Nat)
  | sem (row : Nat) (val : Row)
  | ctx (task : Nat) (stack : List Row) (rstack : List Nat) (pc epoch : Nat) (wait : Option (Nat × Bool × Nat × Nat)) (staged : List (Nat × Row × Row))
  | loop (i : Nat) (iTerm f x u yhat region : Nat) (pend : Option (Nat × Nat))
  | ring (q en pidx cidx : Nat)
  | own (st : Nat) (tokens : List Nat)
  | annex (num : Nat) (recs : List (Nat × List Byte))
  | spl (st left : Nat)
  deriving DecidableEq, Repr

/-- What the supervisor meets at supply valid (Table 2.3): the OCXO time, the bus and bank voltages in mV, the bank's capacitance in 10 µF, the strap
SP7, and the physical conditions: domains out of limits, the self-test of step 4, bents that fail step 5, whether the newest Almanac checkpoint and the newest
save image cannot be read, and the calendar (0 kept, 1 its oscillator stopped, 2 the backup domain lost). -/
structure PowerUp where
  at_ : Nat
  busMv : Nat
  bankMv : Nat
  bank : Nat
  strap : Bool := false
  failed : List Nat := []
  storeOk : Bool := true
  badBents : List Nat := []
  almBad : Bool := false
  nvsBad : Bool := false
  cal : Nat := 0
  deriving DecidableEq, Repr

/-- One sample of the sensors of Table 21.1: domain voltages in mV and the domains that have been outside their limit for 50 µs, the 24 temperatures in
0.1 °C, input voltage (0.1 V), current (mA) and power (0.1 W), and the bus (10 mV). -/
structure Sensors where
  volts : List (Nat × Nat)
  sustained : List Nat
  temps : List Int
  vin : Nat
  iin : Nat
  pin : Nat
  v48 : Nat
  deriving DecidableEq, Repr

/-- An Announce data set as a port holds it (R359). -/
structure Ann where
  gm : Nat := 0
  prio1 : Nat := 255
  cls : Nat := 255
  acc : Nat := 0
  var : Nat := 0
  prio2 : Nat := 255
  steps : Nat := 0
  src : Nat := 0
  deriving DecidableEq, Repr

end Sys2Proof
end

