-- ==== Sys2Proof/Syntax.lean ====
section
/-! DEFINITION. The commands: one constructor per row of spec/opcode_table.json, in its order, with the row's operands. A `Req` says whose register access it is. -/
namespace Sys2Proof

/-- A command to the module. -/
inductive Instr where
  -- Modes, supply, start and scantling update (chapters 2, 3, 21, 22).
  | supplyValid (p : PowerUp)
  | leanRetry (p : PowerUp)
  | configureComplete
  | powerFailWarning (cause busMv : Nat)
  | seatedLoopBreak
  | drainComplete (ok : Bool)
  | supplyLossNoDrain
  | removalRequest (heldMs : Nat)
  | removalConfirmTimeout
  | modecmdStop (r : Req) (kind : Nat)
  | modecmdRun (r : Req) (kind : Nat)
  | modecmdTest (r : Req) (kind : Nat)
  | modecmdDrain (r : Req) (kind : Nat)
  | runStart (t : Nat)
  | holdQuietExpiry
  | ownerQuietExpiry (n : Nat)
  | ownerStop (n : Nat)
  | ownerStart (n t : Nat)
  | scnLoad (h : LorHead) (off : Nat) (bytes : List Byte) (bad : Bool)
  | loadTimeout (n : Nat)
  | scnCommit (h : LorHead)
  | planeStreamDone
  | planeSwap
  | updateFail
  | scnConfirm (h : LorHead)
  | scnRollback (h : LorHead)
  | updateWindowExpiry
  | rollbackSwap (force : Bool)
  -- The Guaris instructions (chapter 5): `q` says which engine runs it and when.
  | nop (q : Issue)
  | dup (q : Issue)
  | drop (q : Issue)
  | swap (q : Issue)
  | over (q : Issue)
  | rot (q : Issue)
  | nip (q : Issue)
  | pick (q : Issue)
  | and_ (q : Issue)
  | or_ (q : Issue)
  | xor (q : Issue)
  | not_ (q : Issue)
  | andn (q : Issue)
  | orn (q : Issue)
  | mux (q : Issue)
  | lshu (q : Issue)
  | lshd (q : Issue)
  | lrot (q : Issue)
  | bcast (q : Issue)
  | any (q : Issue)
  | all (q : Issue)
  | popc (q : Issue)
  | lmask (q : Issue)
  | rise (q : Issue)
  | fall (q : Issue)
  | ton (q : Issue)
  | tof (q : Issue)
  | tp (q : Issue)
  | trst (q : Issue)
  | add (q : Issue)
  | sub (q : Issue)
  | neg (q : Issue)
  | inc (q : Issue)
  | dec (q : Issue)
  | mul (q : Issue)
  | mulh (q : Issue)
  | mulhu (q : Issue)
  | div (q : Issue)
  | divu (q : Issue)
  | rem (q : Issue)
  | remu (q : Issue)
  | shl (q : Issue)
  | shr (q : Issue)
  | sar (q : Issue)
  | min (q : Issue)
  | max (q : Issue)
  | minu (q : Issue)
  | maxu (q : Issue)
  | abs (q : Issue)
  | addsat (q : Issue)
  | subsat (q : Issue)
  | fadd (q : Issue) (dbl : Bool)
  | fsub (q : Issue) (dbl : Bool)
  | fmul (q : Issue) (dbl : Bool)
  | fdiv (q : Issue) (dbl : Bool)
  | fsqrt (q : Issue) (dbl : Bool)
  | fma (q : Issue) (dbl : Bool)
  | fneg (q : Issue) (dbl : Bool)
  | fabs (q : Issue) (dbl : Bool)
  | fmin (q : Issue) (dbl : Bool)
  | fmax (q : Issue) (dbl : Bool)
  | eq (q : Issue)
  | ne (q : Issue)
  | lt (q : Issue)
  | le (q : Issue)
  | gt (q : Issue)
  | ge (q : Issue)
  | ltu (q : Issue)
  | leu (q : Issue)
  | gtu (q : Issue)
  | geu (q : Issue)
  | req (q : Issue)
  | feq (q : Issue) (dbl : Bool)
  | flt (q : Issue) (dbl : Bool)
  | fle (q : Issue) (dbl : Bool)
  | fun (q : Issue) (dbl : Bool)
  | sx (q : Issue) (form : Nat)
  | zx (q : Issue) (form : Nat)
  | i2s (q : Issue)
  | i2d (q : Issue)
  | u2s (q : Issue)
  | u2d (q : Issue)
  | s2i (q : Issue)
  | d2i (q : Issue)
  | s2d (q : Issue)
  | d2s (q : Issue)
  | wext (q : Issue)
  | wins (q : Issue)
  | yield (q : Issue)
  | wait (q : Issue)
  | signal (q : Issue)
  | end_ (q : Issue)
  | ret (q : Issue)
  | trap (q : Issue)
  | enq (q : Issue)
  | enq2 (q : Issue)
  | deq (q : Issue)
  | deq2 (q : Issue)
  | rcnt (q : Issue)
  | din (q : Issue)
  | dout (q : Issue)
  | now (q : Issue)
  | nowe (q : Issue)
  | elapsed (q : Issue)
  | elapsedh (q : Issue)
  | br (q : Issue) (off : Nat)
  | bz (q : Issue) (off : Nat)
  | bnz (q : Issue) (off : Nat)
  | call (q : Issue) (off : Nat)
  | lit (q : Issue) (imm : Nat)
  | ext (q : Issue) (imm : Nat)
  | ldb (q : Issue) (sp md : Nat)
  | stb (q : Issue) (sp md : Nat)
  | ldr (q : Issue) (sp md : Nat)
  | str (q : Issue) (sp md : Nat)
  | strm (q : Issue) (sp md : Nat)
  | ldw (q : Issue) (sp md : Nat)
  | stw (q : Issue) (sp md : Nat)
  | ldl (q : Issue) (sp md : Nat)
  | stl (q : Issue) (sp md : Nat)
  | lr (q : Issue) (sp md : Nat)
  | sc (q : Issue) (sp md : Nat)
  | tset (q : Issue) (sp md : Nat)
  | ldc (q : Issue) (sp md : Nat)
  -- Engines, SEQ, IMG and rings (chapters 4 to 8).
  | storeLineWrite (e : Nat)
  | reservationExpiry (e : Nat)
  | paceReport (m ps : Nat)
  | bentSelfTest (r : Req) (e : Nat)
  | selfTestDone (m : Nat) (pass : Bool)
  | bentGateOff (m : Nat)
  | bentWakeComplete (m : Nat)
  | cyclicRelease
  | eventRelease
  | pendingRelease
  | preemption (e : Nat)
  | budgetExceeded (k : Nat)
  | deadlineMiss (k : Nat)
  | mutualWaitDetected (n : Nat)
  | waitEvent (k : Nat)
  | waitDeadline (k : Nat)
  | releaseHoldEnd
  | commit (n : Nat)
  | stagedStoreResume (e : Nat)
  | poolStallLimit (e : Nat)
  | sysRowUpdate (n row : Nat)
  | ringEnable (r : Req) (q : Nat)
  | ringEnableDone (q : Nat)
  | ringDisable (r : Req) (q : Nat)
  | ringDisableDone (q : Nat)
  | hwRingEntry (q : Nat) (bytes : List Byte)
  | hwRingTake (q : Nat)
  -- Splices (chapter 9).
  | splLoad (h : LorHead) (off : Nat) (bytes : List Byte)
  | splApply (h : LorHead) (owner : Nat)
  | spliceApplyInstant (n : Nat)
  | spliceApplyTimeout (n : Nat)
  | splConfirm (h : LorHead) (owner : Nat)
  | splRollback (h : LorHead) (owner : Nat)
  | spliceWindowExpiry (n : Nat)
  | spliceRollbackInstant (n : Nat)
  | spliceForcedRollback (n : Nat)
  -- Hot-standby pairs (chapter 10).
  | hello (x : Hello)
  | helloSend
  | keyconf (tag : Nat)
  | heartbeatSend
  | heartbeat (h : PairHead) (mode role flevel suspect epoch : Nat) (off : Int)
  | partnerLost
  | takeoverComplete
  | holdTakeover
  | digest (h : PairHead) (l : List (Nat × Nat × Nat × Nat × Nat))
  | digestMissing
  | role (h : PairHead) (op cause t : Nat)
  | leave (h : PairHead) (cause : Nat)
  | stopcmd (h : PairHead) (cause : Nat)
  | seqmap (h : PairHead) (l : List (Nat × Nat × Nat × Nat × Nat))
  | splice (h : PairHead) (op code n e : Nat)
  | event (h : PairHead) (k t : Nat)
  | rows (h : PairHead) (l : List (Nat × Nat × Nat × Row × Row))
  | ringe (h : PairHead) (q esize pidx : Nat) (bytes : List Byte)
  | xfer (h : PairHead) (kind n count : Nat) (items : List XferItem)
  | pkg (h : PairHead) (n off : Nat) (bytes : List Byte)
  | xferCut
  | xferShadowEntry
  | xferTimeout
  | switch (r : Req)
  | clrsusp (r : Req)
  | switchoverT
  | switchoverDriversOff
  | switchoverComplete
  | autoSwitchover
  | claimCycle (other : Nat) (bad : Bool)
  | inputDisagreement (k : Nat)
  | pairLinkDown (k : Nat)
  -- Memory and storage (chapters 11 and 12).
  | pageInDone (n page t : Nat)
  | pageOutDone (n page : Nat)
  | erase (r : Req) (n : Nat)
  | eraseComplete (n : Nat)
  | stagingFlush (k avg most : Nat)
  | packageFailed (spare : Nat) (lost : List Nat)
  | rebuildDone
  | archiveWindowEnd
  | archiveDisable (r : Req)
  | archiveEnable (r : Req)
  -- Network (chapter 13).
  | gooseFrame (h : NetHead) (p : GoosePdu)
  | gooseTalExpiry (k : Nat)
  | gooseRetransmit (p : Nat)
  | svFrame (h : NetHead) (p : SvPdu)
  | svMissExpiry (v : Nat)
  | supervisionFrame (h : NetHead)
  | supervisionSend
  | dupEntryAging
  | udpDatagram (i : Nat) (u : Udp) (stamp : Nat)
  | udpSend (n e : Nat)
  | arpRequest (i target sender : Nat)
  | icmpEcho (i : Nat) (v6 echo : Bool) (dst remote : Nat)
  | ndp (i kind target : Nat)
  | neighbourTimeout (i : Nat) (v6 : Bool) (a : Nat)
  | portDisable (r : Req) (i : Nat)
  | portEnable (r : Req) (i : Nat)
  | linkDown (i : Nat)
  | linkUp (i : Nat)
  -- Lorat (chapter 14).
  | open_ (h : LorHead) (n serial : Nat)
  | halfOpenTimeout (k : Nat)
  | sessionTimeout (k : Nat)
  | heldRequestTimeout (k : Nat)
  | status (h : LorHead)
  | close (h : LorHead)
  | imgRead (h : LorHead) (space rows first : Nat)
  | imgWrite (h : LorHead) (entries : List (Nat × Row × Row))
  | imgForce (h : LorHead) (entries : List (Nat × Nat × Nat × Row × Row))
  | regRead (h : LorHead) (addrs : List Nat)
  | regWrite (h : LorHead) (entries : List (Nat × Nat))
  | nvsRead (h : LorHead) (region len off pw : Nat)
  | nvsWrite (h : LorHead) (region len off pw : Nat) (bytes : List Byte)
  | almRead (h : LorHead) (count first : Nat)
  | almFreeze (h : LorHead) (op : Nat)
  | arcRead (h : LorHead) (sub most lo hi cursor : Nat)
  | arcTrig (h : LorHead) (t p q : Nat)
  | modeSet (h : LorHead) (scope owner target kind : Nat)
  | plumb (h : LorHead) (t : Nat)
  -- Station time (chapter 15).
  | ptpSync (i dom kind srcId seq origin corr rx : Nat)
  | ptpAnnounce (i dom : Nat) (a : Ann) (utcOff : Int) (utcValid : Bool) (leap : Nat)
  | pdelayReq (i dom seq : Nat)
  | pdelayResp (i dom t1 t2 t3 t4 : Nat)
  | syncSend (i kind : Nat)
  | announceTimeout (i : Nat)
  | holdoverDegrade
  | ppsEdge (inp t : Nat)
  | irigFrame (t : Nat) (ok hasYear : Bool) (year doy hour min_ sec x : Nat) (am : Bool)
  | sourceQualified (k : Nat)
  | timeStep
  | compareFire (u : Nat)
  | compareTargetWrite (r : Req) (u v : Nat)
  | compareArm (r : Req) (u : Nat) (arm : Bool)
  | ppsOutput
  | calendarAutoWrite
  | calendarHold (r : Req) (hold : Bool)
  | calendarModeChange (r : Req)
  | oscillatorStopped
  -- CAN (chapter 16).
  | canFrameReceived (k : Nat) (f : CanFrame) (arb : Bool)
  | canFrameSent (k sof tdcv : Nat)
  | canTxreq (r : Req) (k j : Nat)
  | canPeriodicTx (k j : Nat)
  | canBusError (k dTec dRec : Nat) (ours : Bool)
  | canRejoin (k : Nat)
  | recover (r : Req) (k : Nat)
  | capreq (r : Req) (k : Nat)
  | canCapture
  | canModeWrite (r : Req) (k m : Nat)
  | canDisable (r : Req) (k : Nat)
  | canEnable (r : Req) (k : Nat)
  -- Field I/O and loops (chapters 17 and 18).
  | barrierDownlink (kind : Nat)
  | barrierUplink (kind term codeA codeB : Nat)
  | inputChange (k : Nat) (new : Bool) (t : Nat)
  | sillRefreshLost
  | logicRefreshLost
  | groupSupplyFault (g volt : Nat)
  | groupSupplyReturn (g volt : Nat)
  | outputFault (k kind : Nat)
  | outputRetry (k : Nat) (still : Bool)
  | complianceLost (k : Nat)
  | complianceRestored (k : Nat)
  | calibrationWrite (r : Req) (which k v : Nat)
  | loopSample
  | loopDisable (r : Req) (i : Nat)
  | loopEnable (r : Req) (i : Nat)
  -- Faults and watchdogs (chapter 19).
  | faultFiring (src task det1 det2 : Nat)
  | historyWrite
  | stormEnd
  | sourceInactive (src : Nat)
  | force (r : Req) (src : Nat) (v : Bool)
  | clr (r : Req)
  | nowPlumb (r : Req)
  | armPlumb (r : Req)
  | cancelPlumb (r : Req)
  | scheduledPlumb
  | wdgWindowOpen (w : Nat)
  | wdgExpiry (w : Nat)
  | serviceArm (r : Req) (w : Nat)
  | service (r : Req) (w : Nat)
  | disableArm (r : Req) (w : Nat)
  | wdgDisable (r : Req) (w : Nat)
  | wdgPeriod (r : Req) (w v : Nat)
  | wdgEnable (r : Req) (w : Nat)
  | wdgLock (r : Req) (w : Nat)
  | wdgFallback (w : Nat)
  | wdgTimebaseReturn (w : Nat)
  -- NVS, the Almanac and MGT (chapters 20 and 21).
  | nvsPsel (r : Req) (n region dir : Nat)
  | nvsPpwd (r : Req) (n pw : Nat)
  | nvsPdataRead (r : Req) (n : Nat)
  | nvsPdataWrite (r : Req) (n v : Nat)
  | setrd (r : Req) (n : Nat)
  | setwr (r : Req) (n : Nat)
  | almanacWrite
  | almanacCheckpoint
  | mgtEngineRelease
  | sensorSample (x : Sensors)
  | bankMeasure (c : Nat)
  | mgtLogsel (r : Req) (num : Nat)
  | go (r : Req)
  | strapRelease
  -- Register accesses (chapter 1).
  | registerWrite (r : Req) (a v : Nat)
  | rcRegisterRead (r : Req) (a : Nat)
  | rlLowRead (r : Req) (a : Nat)
  -- The rest, in the table's order.
  | startwaitExpiry
  | referenceInputLost (b : Nat)
  | referenceInputReturn
  | ocxoFault
  | leapSecond
  | pdelayReqSend
  | transceiverFault (k : Nat)
  | arpReply (i a : Nat)
  | arpRequestRepeat (i a : Nat)
  | arpCacheAging (i : Nat)
  | duplicateAddressDetectionDone (i : Nat)
  | framePrepared
  | restoreFactoryDone
  | moduleSeated
  | stationInputOutOfRange (v : Nat)
  | stationInputInRange (v : Nat)
  deriving DecidableEq, Repr

end Sys2Proof
end

