-- ==== Sys2Proof/Config.lean ====
section
/-! DEFINITION. What an implementation fixes and what the spec leaves open. Every constant here is OPAQUE: nothing can
prove a value of it, so a claim about the model holds whatever the open value is. A free value is one of these functions
applied to the model's own plain counter `State.free` (log entry 1); the cryptographic primitives are standards the spec
names and does not give (log entry 2). -/
namespace Sys2Proof

/-- A fresh open number; the use says how it is bounded. -/
opaque Config.free : Nat → Nat
/-- A fresh open row (a stack slot or a byte the spec does not give). -/
opaque Config.freeRow : Nat → Row
/-- SHA-384 (R54, R55, R56). -/
opaque Config.sha384 : List Byte → Nat
/-- HMAC-SHA-384 under a key, over bytes (R55, R57). -/
opaque Config.hmac384 : Nat → List Byte → Nat
/-- ECDSA P-384 verification under mask-ROM key k, of a 96-byte signature over bytes (R54). -/
opaque Config.ecdsaOk : Nat → List Byte → List Byte → Bool
/-- KEYW unwrap: ECDH with the module's transport key, HKDF and AES-256-GCM over a KEYW body for an owner; none where GCM
authentication fails (R57). -/
opaque Config.keyUnwrap : Nat → Nat → List Byte → Option Nat
/-- What a stream's RMS field holds while fewer samples than a cycle have arrived (R327 gives no value; VALID is 0). -/
opaque Config.rms : List Int → Nat
/-- cos (2 pi j / m) and sin (2 pi j / m) in binary64, whose rounding R327 leaves open. -/
opaque Config.cos64 : Nat → Nat → Nat
opaque Config.sin64 : Nat → Nat → Nat
/-- The module's own random draws (TRNG nonces). -/
opaque Config.trng : Nat → Nat
/-- HMAC tag of a key-confirmation or HELLO exchange under the pair key (R238, R239). -/
opaque Config.pairTag : Nat → List Nat → Nat

/-- The module's own PTP clockIdentity (R359), which the spec does not give. -/
opaque Config.clockId : Nat
/-- The MAC address of a port (the spec gives none). -/
opaque Config.mac : Nat → Nat

/-- A power domain's nominal voltage in mV (the spec gives none). -/
opaque Config.nominalMv : Nat → Nat

end Sys2Proof
end

