-- ==== Sys2Proof/Machine/Map.lean ====
section
/-! DEFINITION. Sparse maps from natural-number keys, in one canonical form: keys strictly rising, and (for a map with a
default) no entry equal to what an unlisted key reads as. Every register file, row store, line store and table of the
model is one of these, so equal contents are equal data. Also the bit-field helpers every block uses. -/
namespace Sys2Proof

/-- A sparse map: (key, value) pairs with strictly rising keys. -/
abbrev SMap (α : Type) := List (Nat × α)

/-- The entry of a key, if listed. -/
def SMap.find? {α : Type} : SMap α → Nat → Option α
  | [], _ => none
  | (k, v) :: rest, key => if k = key then some v else SMap.find? rest key

/-- What a key reads as: its entry, or the default. -/
def SMap.get {α : Type} (d : α) (m : SMap α) (key : Nat) : α := (SMap.find? m key).getD d

/-- Put an entry at its place, replacing one of the same key. -/
def SMap.insert {α : Type} (m : SMap α) (key : Nat) (v : α) : SMap α :=
  match m with
  | [] => [(key, v)]
  | (k, w) :: rest =>
    if key < k then (key, v) :: (k, w) :: rest
    else if key = k then (key, v) :: rest
    else (k, w) :: SMap.insert rest key v

/-- Drop the entry of a key. -/
def SMap.erase {α : Type} (m : SMap α) (key : Nat) : SMap α := m.filter (fun e => e.1 != key)

/-- Write a key of a map whose unlisted keys read `d`: writing `d` drops the entry. -/
def SMap.set {α : Type} [DecidableEq α] (d : α) (m : SMap α) (key : Nat) (v : α) : SMap α :=
  if v = d then m.erase key else m.insert key v

/-- Change the value of a key. -/
def SMap.modify {α : Type} [DecidableEq α] (d : α) (m : SMap α) (key : Nat) (f : α → α) : SMap α :=
  m.set d key (f (m.get d key))

/-- Change every listed value (values that become the default stay out). -/
def SMap.mapAll {α : Type} [DecidableEq α] (d : α) (f : Nat → α → α) : SMap α → SMap α
  | [] => []
  | (k, v) :: rest =>
    let v' := f k v
    if v' = d then SMap.mapAll d f rest else (k, v') :: SMap.mapAll d f rest

/-- Keep the entries a test keeps. -/
def SMap.keep {α : Type} (p : Nat → α → Bool) (m : SMap α) : SMap α := m.filter (fun e => p e.1 e.2)

/-- The first entry a test accepts. -/
def SMap.search {α : Type} (m : SMap α) (p : Nat → α → Bool) : Option (Nat × α) := List.find? (fun e => p e.1 e.2) m

/-- Keys above a bound, strictly rising. -/
def SMap.sortedFrom {α : Type} : Nat → SMap α → Bool
  | _, [] => true
  | lo, (k, _) :: rest => decide (lo ≤ k) && SMap.sortedFrom (k + 1) rest

/-- The canonical form: keys strictly rising, and no entry equal to its key's default. -/
def SMap.wf {α : Type} [DecidableEq α] (d : Nat → α) (m : SMap α) : Bool :=
  SMap.sortedFrom 0 m && m.all (fun e => !decide (e.2 = d e.1))

/-- Bits [lo+len-1:lo] of a number. -/
def bits (v lo len : Nat) : Nat := (v >>> lo) % 2 ^ len

/-- Bit i of a number. -/
def bit (v i : Nat) : Bool := (v >>> i) % 2 == 1

/-- 1 or 0. -/
def b2n (b : Bool) : Nat := if b then 1 else 0

/-- v with bits [lo+len-1:lo] replaced by the low bits of x. -/
def putBits (v lo len x : Nat) : Nat :=
  v - (bits v lo len) * 2 ^ lo + (x % 2 ^ len) * 2 ^ lo

/-- A number below 2^n read as a signed n-bit number. -/
def signed (n v : Nat) : Int := if v % 2 ^ n < 2 ^ (n - 1) then (v % 2 ^ n : Nat) else (v % 2 ^ n : Nat) - (2 ^ n : Nat)

/-- An integer in n-bit two's complement. -/
def unsigned (n : Nat) (i : Int) : Nat := (i % (2 ^ n : Nat)).toNat

/-- Little-endian number of a byte list. -/
def leNat : List Byte → Nat
  | [] => 0
  | b :: rest => b.toNat + 256 * leNat rest

/-- Big-endian number of a byte list. -/
def beNat (bs : List Byte) : Nat := bs.foldl (fun a b => a * 256 + b.toNat) 0

/-- n little-endian bytes of a number. -/
def leBytes : Nat → Nat → List Byte
  | 0, _ => []
  | n + 1, v => BitVec.ofNat 8 v :: leBytes n (v / 256)

/-- The n-byte little-endian field at offset o of a body (bytes beyond the end read 0). -/
def field (bs : List Byte) (o n : Nat) : Nat := leNat ((bs.drop o).take n)

/-- Ceiling division. -/
def cdiv (a b : Nat) : Nat := (a + b - 1) / b

/-- The `i`-th element replaced, if there is one. -/
def setAt {α : Type} (l : List α) (i : Nat) (v : α) : List α := l.set i v

/-- Saturating addition of a 32-bit counter: it stops at 0xFFFF_FFFF. -/
def sat32 (v : Nat) : Nat := if v < 0xFFFFFFFF then v else 0xFFFFFFFF

end Sys2Proof
end

