-- ==== Sys2Proof/Machine/Regs.lean ====
section
/-! DEFINITION. The register map, transcribed from the register and field tables of the spec (Tables 2.6, 3.6, 4.12, 6.7,
6.9, 7.8, 7.10, 8.7, 9.7, 10.11, 11.7, 11.9, 11.11, 12.7, 12.9, 13.12, 13.14, 14.8, 15.9, 15.11, 15.13, 16.5, 16.6,
17.10, 17.12, 18.2, 19.7, 19.9, 20.6, 20.8, 21.7): a name for every register's address, and one descriptor per register
family with the bits of each access type (Table 0.4), the reset value, and the place of its plumb shadow (R12). -/
namespace Sys2Proof

/-- Place of a register in a 64-bit quantity (R5, R9, R10). -/
inductive RegPair where
  | one | lo | hi
  deriving DecidableEq, Repr

/-- Who may reach a register instance inside a granted block (R16, R25): everyone reads and O0 writes, O0
only, or the owner of the indexed thing. -/
inductive Scope where
  | glob | o0 | own | eng | bent | task | ring | loop | sub | pub | strm | sess | cu | can | dch | ach | src | hist | reg | wdg
  deriving DecidableEq, Repr

/-- One register family: base address, up to three strides with their counts, masks of RW, W1C, RC and WO bits (the rest reads
as RO), reset value, pairing, scope, and the base and strides of its shadow (0: none). -/
structure RegDesc where
  base : Nat
  s1 : Nat := 0
  n1 : Nat := 1
  s2 : Nat := 0
  n2 : Nat := 1
  s3 : Nat := 0
  n3 : Nat := 1
  rw : Nat := 0
  w1c : Nat := 0
  rc : Nat := 0
  wo : Nat := 0
  reset : Nat := 0
  pair : RegPair := .one
  scope : Scope := .glob
  shB : Nat := 0
  sh1 : Nat := 0
  sh2 : Nat := 0
  deriving DecidableEq, Repr

namespace Reg
open RegPair Scope

abbrev MGT_MODE : Nat := 0x40
abbrev MGT_MODECMD : Nat := 0x44
abbrev MGT_OWNSTATE : Nat := 0x48
abbrev MGT_SCNSTAT : Nat := 0x80
abbrev MGT_SCNREFUSE : Nat := 0x84
abbrev MGT_SCNBUILD : Nat := 0x88
abbrev MGT_SCNBUILD_H : Nat := 0x8C
abbrev MGT_SCNPBUILD : Nat := 0x90
abbrev MGT_SCNPBUILD_H : Nat := 0x94
abbrev MGT_SCNSETFMT : Nat := 0x98
abbrev MGT_SCNLOAD : Nat := 0x9C
abbrev ENG_STAT (n : Nat) : Nat := 0x2000000 + n * 0x1000
abbrev ENG_PC (n : Nat) : Nat := 0x2000004 + n * 0x1000
abbrev ENG_EXC (n : Nat) : Nat := 0x2000008 + n * 0x1000
abbrev ENG_EXCPC (n : Nat) : Nat := 0x200000C + n * 0x1000
abbrev ENG_EXCFLOW (n : Nat) : Nat := 0x2000010 + n * 0x1000
abbrev ENG_EXCDET (n : Nat) : Nat := 0x2000014 + n * 0x1000
abbrev ENG_EXCADDR (n : Nat) : Nat := 0x2000018 + n * 0x1000
abbrev ENG_EXCADDR_H (n : Nat) : Nat := 0x200001C + n * 0x1000
abbrev ENG_PACE (n : Nat) : Nat := 0x2000020 + n * 0x1000
abbrev ENG_PACEMAX (n : Nat) : Nat := 0x2000024 + n * 0x1000
abbrev ENG_PACEMAX_S (n : Nat) : Nat := 0x2000824 + n * 0x1000
abbrev ENG_HSCNT (n : Nat) : Nat := 0x2000028 + n * 0x1000
abbrev ENG_HSCNT_S (n : Nat) : Nat := 0x2000828 + n * 0x1000
abbrev ENG_HSCNT_H (n : Nat) : Nat := 0x200002C + n * 0x1000
abbrev ENG_HSCNT_H_S (n : Nat) : Nat := 0x200082C + n * 0x1000
abbrev ENG_EXCCNT (n : Nat) : Nat := 0x2000030 + n * 0x1000
abbrev ENG_EXCCNT_S (n : Nat) : Nat := 0x2000830 + n * 0x1000
abbrev ENG_SBFULL (n : Nat) : Nat := 0x2000034 + n * 0x1000
abbrev ENG_SBFULL_S (n : Nat) : Nat := 0x2000834 + n * 0x1000
abbrev ENG_PECC (n : Nat) : Nat := 0x2000038 + n * 0x1000
abbrev ENG_PECC_S (n : Nat) : Nat := 0x2000838 + n * 0x1000
abbrev ENG_STEST (n : Nat) : Nat := 0x2000040 + n * 0x1000
abbrev IMG_STAT : Nat := 0x3000000
abbrev IMG_POOLFREE : Nat := 0x3000004
abbrev IMG_RESFREE : Nat := 0x3000008
abbrev IMG_XBARMAX : Nat := 0x300000C
abbrev IMG_XBARMAX_S : Nat := 0x300080C
abbrev IMG_ESCCNT : Nat := 0x3000010
abbrev IMG_ESCCNT_S : Nat := 0x3000810
abbrev IMG_ESCCNT_H : Nat := 0x3000014
abbrev IMG_ESCCNT_H_S : Nat := 0x3000814
abbrev IMG_ECCCOR : Nat := 0x3000018
abbrev IMG_ECCCOR_S : Nat := 0x3000818
abbrev IMG_ECCUNC : Nat := 0x300001C
abbrev IMG_ECCUNC_S : Nat := 0x300081C
abbrev IMG_CLAMPCNT : Nat := 0x3000020
abbrev IMG_CLAMPCNT_S : Nat := 0x3000820
abbrev IMG_INBASE (n : Nat) : Nat := 0x3001000 + n * 0x100
abbrev IMG_INLEN (n : Nat) : Nat := 0x3001004 + n * 0x100
abbrev IMG_OUTBASE (n : Nat) : Nat := 0x3001008 + n * 0x100
abbrev IMG_OUTLEN (n : Nat) : Nat := 0x300100C + n * 0x100
abbrev IMG_MRKBASE (n : Nat) : Nat := 0x3001010 + n * 0x100
abbrev IMG_MRKLEN (n : Nat) : Nat := 0x3001014 + n * 0x100
abbrev IMG_SYSBASE (n : Nat) : Nat := 0x3001018 + n * 0x100
abbrev IMG_SYSLEN (n : Nat) : Nat := 0x300101C + n * 0x100
abbrev IMG_SEMBASE (n : Nat) : Nat := 0x3001020 + n * 0x100
abbrev IMG_SEMLEN (n : Nat) : Nat := 0x3001024 + n * 0x100
abbrev IMG_GUARD (n : Nat) : Nat := 0x3001028 + n * 0x100
abbrev IMG_STALLLIM (n : Nat) : Nat := 0x300102C + n * 0x100
abbrev IMG_QUOTA (n : Nat) : Nat := 0x3001030 + n * 0x100
abbrev IMG_INUSE (n : Nat) : Nat := 0x3001034 + n * 0x100
abbrev IMG_SOERING (n : Nat) : Nat := 0x3001038 + n * 0x100
abbrev IMG_OSTAT (n : Nat) : Nat := 0x300103C + n * 0x100
abbrev IMG_COMMITS (n : Nat) : Nat := 0x3001040 + n * 0x100
abbrev IMG_COMMITS_S (n : Nat) : Nat := 0x3001080 + n * 0x100
abbrev IMG_COMMITS_H (n : Nat) : Nat := 0x3001044 + n * 0x100
abbrev IMG_COMMITS_H_S (n : Nat) : Nat := 0x3001084 + n * 0x100
abbrev IMG_VERSIONS (n : Nat) : Nat := 0x3001048 + n * 0x100
abbrev IMG_VERSIONS_S (n : Nat) : Nat := 0x3001088 + n * 0x100
abbrev IMG_VERSIONS_H (n : Nat) : Nat := 0x300104C + n * 0x100
abbrev IMG_VERSIONS_H_S (n : Nat) : Nat := 0x300108C + n * 0x100
abbrev IMG_OVLCNT (n : Nat) : Nat := 0x3001050 + n * 0x100
abbrev IMG_OVLCNT_S (n : Nat) : Nat := 0x3001090 + n * 0x100
abbrev IMG_LATECNT (n : Nat) : Nat := 0x3001054 + n * 0x100
abbrev IMG_LATECNT_S (n : Nat) : Nat := 0x3001094 + n * 0x100
abbrev IMG_SKEWCNT (n : Nat) : Nat := 0x3001058 + n * 0x100
abbrev IMG_SKEWCNT_S (n : Nat) : Nat := 0x3001098 + n * 0x100
abbrev IMG_STALLCNT (n : Nat) : Nat := 0x300105C + n * 0x100
abbrev IMG_STALLCNT_S (n : Nat) : Nat := 0x300109C + n * 0x100
abbrev IMG_SOECNT (n : Nat) : Nat := 0x3001060 + n * 0x100
abbrev IMG_SOECNT_S (n : Nat) : Nat := 0x30010A0 + n * 0x100
abbrev IMG_SOEDROP (n : Nat) : Nat := 0x3001064 + n * 0x100
abbrev IMG_SOEDROP_S (n : Nat) : Nat := 0x30010A4 + n * 0x100
abbrev IMG_INUSEMAX (n : Nat) : Nat := 0x3001068 + n * 0x100
abbrev IMG_INUSEMAX_S (n : Nat) : Nat := 0x30010A8 + n * 0x100
abbrev SEQ_TCFG (n : Nat) : Nat := 0x1000000 + n * 0x100
abbrev SEQ_TPERIOD (n : Nat) : Nat := 0x1000004 + n * 0x100
abbrev SEQ_TPHASE (n : Nat) : Nat := 0x1000008 + n * 0x100
abbrev SEQ_TDEADLINE (n : Nat) : Nat := 0x100000C + n * 0x100
abbrev SEQ_TBUDGET (n : Nat) : Nat := 0x1000010 + n * 0x100
abbrev SEQ_TBIND (n : Nat) : Nat := 0x1000014 + n * 0x100
abbrev SEQ_TSTAT (n : Nat) : Nat := 0x1000018 + n * 0x100
abbrev SEQ_TFLAG (n : Nat) : Nat := 0x100001C + n * 0x100
abbrev SEQ_TRELCNT (n : Nat) : Nat := 0x1000020 + n * 0x100
abbrev SEQ_TRELCNT_S (n : Nat) : Nat := 0x10000A0 + n * 0x100
abbrev SEQ_TRELCNT_H (n : Nat) : Nat := 0x1000024 + n * 0x100
abbrev SEQ_TRELCNT_H_S (n : Nat) : Nat := 0x10000A4 + n * 0x100
abbrev SEQ_TOVRCNT (n : Nat) : Nat := 0x1000028 + n * 0x100
abbrev SEQ_TOVRCNT_S (n : Nat) : Nat := 0x10000A8 + n * 0x100
abbrev SEQ_TBUDCNT (n : Nat) : Nat := 0x100002C + n * 0x100
abbrev SEQ_TBUDCNT_S (n : Nat) : Nat := 0x10000AC + n * 0x100
abbrev SEQ_TDLCNT (n : Nat) : Nat := 0x1000030 + n * 0x100
abbrev SEQ_TDLCNT_S (n : Nat) : Nat := 0x10000B0 + n * 0x100
abbrev SEQ_TPREEMPT (n : Nat) : Nat := 0x1000034 + n * 0x100
abbrev SEQ_TPREEMPT_S (n : Nat) : Nat := 0x10000B4 + n * 0x100
abbrev SEQ_TLASTHS (n : Nat) : Nat := 0x1000038 + n * 0x100
abbrev SEQ_TMAXHS (n : Nat) : Nat := 0x100003C + n * 0x100
abbrev SEQ_TMAXHS_S (n : Nat) : Nat := 0x10000BC + n * 0x100
abbrev SEQ_TLASTEL (n : Nat) : Nat := 0x1000040 + n * 0x100
abbrev SEQ_TMAXEL (n : Nat) : Nat := 0x1000044 + n * 0x100
abbrev SEQ_TMAXEL_S (n : Nat) : Nat := 0x10000C4 + n * 0x100
abbrev SEQ_TMAXDISP (n : Nat) : Nat := 0x1000048 + n * 0x100
abbrev SEQ_TMAXDISP_S (n : Nat) : Nat := 0x10000C8 + n * 0x100
abbrev SEQ_TEPOCH (n : Nat) : Nat := 0x100004C + n * 0x100
abbrev SEQ_TEPOCH_H (n : Nat) : Nat := 0x1000050 + n * 0x100
abbrev SEQ_TNOREL (n : Nat) : Nat := 0x1000054 + n * 0x100
abbrev SEQ_TNOREL_S (n : Nat) : Nat := 0x10000D4 + n * 0x100
abbrev SEQ_TCOALESCE (n : Nat) : Nat := 0x1000058 + n * 0x100
abbrev SEQ_TCOALESCE_S (n : Nat) : Nat := 0x10000D8 + n * 0x100
abbrev SEQ_OSTAT (n : Nat) : Nat := 0x1020000 + n * 0x100
abbrev SEQ_OPOOL (n : Nat) : Nat := 0x1020004 + n * 0x100
abbrev SEQ_OPOOL_H (n : Nat) : Nat := 0x1020008 + n * 0x100
abbrev SEQ_OCFG (n : Nat) : Nat := 0x102000C + n * 0x100
abbrev SEQ_OUTIL (n : Nat) : Nat := 0x1020010 + n * 0x100
abbrev SEQ_OMWCNT (n : Nat) : Nat := 0x1020014 + n * 0x100
abbrev SEQ_OMWCNT_S (n : Nat) : Nat := 0x1020054 + n * 0x100
abbrev SEQ_OAWAKE (n : Nat) : Nat := 0x1020018 + n * 0x100
abbrev SEQ_STAT : Nat := 0x1030000
abbrev SEQ_EPOCHMAX : Nat := 0x1030004
abbrev SEQ_EPOCHMAX_H : Nat := 0x1030008
abbrev SEQ_CTXCOR : Nat := 0x103000C
abbrev SEQ_CTXCOR_S : Nat := 0x103080C
abbrev SEQ_CTXUNC : Nat := 0x1030010
abbrev SEQ_CTXUNC_S : Nat := 0x1030810
abbrev RING_CFG (n : Nat) : Nat := 0x1100000 + n * 0x40
abbrev RING_BASE (n : Nat) : Nat := 0x1100004 + n * 0x40
abbrev RING_BASE_H (n : Nat) : Nat := 0x1100008 + n * 0x40
abbrev RING_BIND (n : Nat) : Nat := 0x110000C + n * 0x40
abbrev RING_CTL (n : Nat) : Nat := 0x1100010 + n * 0x40
abbrev RING_STAT (n : Nat) : Nat := 0x1100014 + n * 0x40
abbrev RING_PIDX (n : Nat) : Nat := 0x1100018 + n * 0x40
abbrev RING_CIDX (n : Nat) : Nat := 0x110001C + n * 0x40
abbrev RING_ENQCNT (n : Nat) : Nat := 0x1100020 + n * 0x40
abbrev RING_ENQCNT_S (n : Nat) : Nat := 0x1140020 + n * 0x40
abbrev RING_ENQCNT_H (n : Nat) : Nat := 0x1100024 + n * 0x40
abbrev RING_ENQCNT_H_S (n : Nat) : Nat := 0x1140024 + n * 0x40
abbrev RING_DEQCNT (n : Nat) : Nat := 0x1100028 + n * 0x40
abbrev RING_DEQCNT_S (n : Nat) : Nat := 0x1140028 + n * 0x40
abbrev RING_DEQCNT_H (n : Nat) : Nat := 0x110002C + n * 0x40
abbrev RING_DEQCNT_H_S (n : Nat) : Nat := 0x114002C + n * 0x40
abbrev RING_DROP (n : Nat) : Nat := 0x1100030 + n * 0x40
abbrev RING_DROP_S (n : Nat) : Nat := 0x1140030 + n * 0x40
abbrev RING_FULLCNT (n : Nat) : Nat := 0x1100034 + n * 0x40
abbrev RING_FULLCNT_S (n : Nat) : Nat := 0x1140034 + n * 0x40
abbrev RING_DISCARD (n : Nat) : Nat := 0x1100038 + n * 0x40
abbrev RING_DISCARD_S (n : Nat) : Nat := 0x1140038 + n * 0x40
abbrev RING_HWM (n : Nat) : Nat := 0x110003C + n * 0x40
abbrev RING_HWM_S (n : Nat) : Nat := 0x114003C + n * 0x40
abbrev SPL_STAT (n : Nat) : Nat := 0x1040000 + n * 0x100
abbrev SPL_NUM (n : Nat) : Nat := 0x1040004 + n * 0x100
abbrev SPL_APPLY (n : Nat) : Nat := 0x1040008 + n * 0x100
abbrev SPL_APPLY_H (n : Nat) : Nat := 0x104000C + n * 0x100
abbrev SPL_CONFLEFT (n : Nat) : Nat := 0x1040010 + n * 0x100
abbrev SPL_BOUND (n : Nat) : Nat := 0x1040014 + n * 0x100
abbrev SPL_LASTNS (n : Nat) : Nat := 0x1040018 + n * 0x100
abbrev SPL_TRIES (n : Nat) : Nat := 0x104001C + n * 0x100
abbrev SPL_ANNEX (n : Nat) : Nat := 0x1040020 + n * 0x100
abbrev SPL_APPCNT (n : Nat) : Nat := 0x1040024 + n * 0x100
abbrev SPL_APPCNT_S (n : Nat) : Nat := 0x1040064 + n * 0x100
abbrev SPL_RBCNT (n : Nat) : Nat := 0x1040028 + n * 0x100
abbrev SPL_RBCNT_S (n : Nat) : Nat := 0x1040068 + n * 0x100
abbrev SPL_REFCNT (n : Nat) : Nat := 0x104002C + n * 0x100
abbrev SPL_REFCNT_S (n : Nat) : Nat := 0x104006C + n * 0x100
abbrev RED_STAT : Nat := 0x180000
abbrev RED_CFG : Nat := 0x180004
abbrev RED_PAIRID : Nat := 0x180008
abbrev RED_PARTNER : Nat := 0x18000C
abbrev RED_PARTNER_H : Nat := 0x180010
abbrev RED_CLAIM : Nat := 0x180014
abbrev RED_CMD : Nat := 0x180018
abbrev RED_XFER : Nat := 0x18001C
abbrev RED_DIGTX : Nat := 0x180020
abbrev RED_DIGTX_S : Nat := 0x180820
abbrev RED_DIGTX_H : Nat := 0x180024
abbrev RED_DIGTX_H_S : Nat := 0x180824
abbrev RED_DIGMIS : Nat := 0x180028
abbrev RED_DIGMIS_S : Nat := 0x180828
abbrev RED_DIGMISSING : Nat := 0x18002C
abbrev RED_DIGMISSING_S : Nat := 0x18082C
abbrev RED_DISCRUN : Nat := 0x180030
abbrev RED_DISCRUN_S : Nat := 0x180830
abbrev RED_HBLOST : Nat := 0x180034
abbrev RED_HBLOST_S : Nat := 0x180834
abbrev RED_SEQSLIP : Nat := 0x180038
abbrev RED_SEQSLIP_S : Nat := 0x180838
abbrev RED_FWDCNT : Nat := 0x18003C
abbrev RED_FWDCNT_S : Nat := 0x18083C
abbrev RED_FWDCNT_H : Nat := 0x180040
abbrev RED_FWDCNT_H_S : Nat := 0x180840
abbrev RED_FWDLAT : Nat := 0x180044
abbrev RED_FWDLAT_S : Nat := 0x180844
abbrev RED_INCMP : Nat := 0x180048
abbrev RED_INCMP_S : Nat := 0x180848
abbrev RED_SWCNT : Nat := 0x18004C
abbrev RED_SWCNT_S : Nat := 0x18084C
abbrev RED_LASTSW : Nat := 0x180050
abbrev RED_LASTSW_H : Nat := 0x180054
abbrev RED_LINK : Nat := 0x180058
abbrev RED_LINKERR : Nat := 0x18005C
abbrev RED_LINKERR_S : Nat := 0x18085C
abbrev RED_CONSDISC : Nat := 0x180060
abbrev RED_CONSDISC_S : Nat := 0x180860
abbrev RED_DRVAGE : Nat := 0x180064
abbrev MMU_STAT : Nat := 0x4000000
abbrev MMU_FRAMEFREE : Nat := 0x4000004
abbrev MMU_TBLFREE : Nat := 0x4000008
abbrev MMU_PREP : Nat := 0x400000C
abbrev MMU_ECCCOR : Nat := 0x4000010
abbrev MMU_ECCCOR_S : Nat := 0x4000810
abbrev MMU_ECCUNC : Nat := 0x4000014
abbrev MMU_ECCUNC_S : Nat := 0x4000814
abbrev MMU_OSTAT (n : Nat) : Nat := 0x4001000 + n * 0x100
abbrev MMU_OCMD (n : Nat) : Nat := 0x4001004 + n * 0x100
abbrev MMU_ROOT (n : Nat) : Nat := 0x4001008 + n * 0x100
abbrev MMU_ROOT_H (n : Nat) : Nat := 0x400100C + n * 0x100
abbrev MMU_DRLIM (n : Nat) : Nat := 0x4001010 + n * 0x100
abbrev MMU_PINLIM (n : Nat) : Nat := 0x4001014 + n * 0x100
abbrev MMU_RESIDENT (n : Nat) : Nat := 0x4001018 + n * 0x100
abbrev MMU_PINNED (n : Nat) : Nat := 0x400101C + n * 0x100
abbrev MMU_RESMAX (n : Nat) : Nat := 0x4001020 + n * 0x100
abbrev MMU_RESMAX_S (n : Nat) : Nat := 0x40010A0 + n * 0x100
abbrev MMU_BACKPG (n : Nat) : Nat := 0x4001024 + n * 0x100
abbrev MMU_LASTVA (n : Nat) : Nat := 0x4001028 + n * 0x100
abbrev MMU_LASTVA_H (n : Nat) : Nat := 0x400102C + n * 0x100
abbrev MMU_PAGEIN (n : Nat) : Nat := 0x4001030 + n * 0x100
abbrev MMU_PAGEIN_S (n : Nat) : Nat := 0x40010B0 + n * 0x100
abbrev MMU_PAGEIN_H (n : Nat) : Nat := 0x4001034 + n * 0x100
abbrev MMU_PAGEIN_H_S (n : Nat) : Nat := 0x40010B4 + n * 0x100
abbrev MMU_PAGEOUT (n : Nat) : Nat := 0x4001038 + n * 0x100
abbrev MMU_PAGEOUT_S (n : Nat) : Nat := 0x40010B8 + n * 0x100
abbrev MMU_PAGEOUT_H (n : Nat) : Nat := 0x400103C + n * 0x100
abbrev MMU_PAGEOUT_H_S (n : Nat) : Nat := 0x40010BC + n * 0x100
abbrev MMU_ALLOC (n : Nat) : Nat := 0x4001040 + n * 0x100
abbrev MMU_ALLOC_S (n : Nat) : Nat := 0x40010C0 + n * 0x100
abbrev MMU_TAGFAIL (n : Nat) : Nat := 0x4001044 + n * 0x100
abbrev MMU_TAGFAIL_S (n : Nat) : Nat := 0x40010C4 + n * 0x100
abbrev MMU_POISONWR (n : Nat) : Nat := 0x4001048 + n * 0x100
abbrev MMU_POISONWR_S (n : Nat) : Nat := 0x40010C8 + n * 0x100
abbrev MMU_WALKFLT (n : Nat) : Nat := 0x400104C + n * 0x100
abbrev MMU_WALKFLT_S (n : Nat) : Nat := 0x40010CC + n * 0x100
abbrev MMU_WALKDEV (n : Nat) : Nat := 0x4001050 + n * 0x100
abbrev MMU_WALKDEV_S (n : Nat) : Nat := 0x40010D0 + n * 0x100
abbrev MMU_SECTFAIL (n : Nat) : Nat := 0x4001054 + n * 0x100
abbrev MMU_SECTFAIL_S (n : Nat) : Nat := 0x40010D4 + n * 0x100
abbrev MMU_DETPAGE (n : Nat) : Nat := 0x4001058 + n * 0x100
abbrev MMU_DETPAGE_S (n : Nat) : Nat := 0x40010D8 + n * 0x100
abbrev MMU_TCHIT (n : Nat) : Nat := 0x4004000 + n * 0x40
abbrev MMU_TCHIT_S (n : Nat) : Nat := 0x4004020 + n * 0x40
abbrev MMU_TCHIT_H (n : Nat) : Nat := 0x4004004 + n * 0x40
abbrev MMU_TCHIT_H_S (n : Nat) : Nat := 0x4004024 + n * 0x40
abbrev MMU_TCMISS (n : Nat) : Nat := 0x4004008 + n * 0x40
abbrev MMU_TCMISS_S (n : Nat) : Nat := 0x4004028 + n * 0x40
abbrev MMU_TCINV (n : Nat) : Nat := 0x400400C + n * 0x40
abbrev MMU_TCINV_S (n : Nat) : Nat := 0x400402C + n * 0x40
abbrev MMU_TCMAXW (n : Nat) : Nat := 0x4004010 + n * 0x40
abbrev MMU_TCMAXW_S (n : Nat) : Nat := 0x4004030 + n * 0x40
abbrev STO_STAT : Nat := 0x5000000
abbrev STO_ACTL : Nat := 0x5000004
abbrev STO_STAGE : Nat := 0x5000008
abbrev STO_STAGEMAX : Nat := 0x500000C
abbrev STO_STAGEMAX_S : Nat := 0x500080C
abbrev STO_WEAR : Nat := 0x5000010
abbrev STO_SPARE : Nat := 0x5000014
abbrev STO_PAGSIZE : Nat := 0x5000018
abbrev STO_ARCSIZE : Nat := 0x500001C
abbrev STO_ARETAIN : Nat := 0x5000020
abbrev STO_AWINS : Nat := 0x5000024
abbrev STO_AOLDEST : Nat := 0x5000028
abbrev STO_AOLDEST_H : Nat := 0x500002C
abbrev STO_WRBYTES : Nat := 0x5000030
abbrev STO_WRBYTES_S : Nat := 0x5000830
abbrev STO_WRBYTES_H : Nat := 0x5000034
abbrev STO_WRBYTES_H_S : Nat := 0x5000834
abbrev STO_RDBYTES : Nat := 0x5000038
abbrev STO_RDBYTES_S : Nat := 0x5000838
abbrev STO_RDBYTES_H : Nat := 0x500003C
abbrev STO_RDBYTES_H_S : Nat := 0x500083C
abbrev STO_UNCRD : Nat := 0x5000040
abbrev STO_UNCRD_S : Nat := 0x5000840
abbrev STO_RECOV : Nat := 0x5000044
abbrev STO_RECOV_S : Nat := 0x5000844
abbrev STO_RWAIT : Nat := 0x5000048
abbrev STO_RWAIT_S : Nat := 0x5000848
abbrev STO_AWINREL : Nat := 0x500004C
abbrev STO_AWINREL_S : Nat := 0x500084C
abbrev STO_OTRIG (n : Nat) : Nat := 0x5001000 + n * 0x100
abbrev STO_OTRIG_S (n : Nat) : Nat := 0x5001080 + n * 0x100
abbrev STO_OWIN (n : Nat) : Nat := 0x5001004 + n * 0x100
abbrev STO_ORETAIN (n : Nat) : Nat := 0x5001008 + n * 0x100
abbrev STO_ODROP (n : Nat) : Nat := 0x500100C + n * 0x100
abbrev STO_ODROP_S (n : Nat) : Nat := 0x500108C + n * 0x100
abbrev STO_OFRAMES (n : Nat) : Nat := 0x5001010 + n * 0x100
abbrev STO_OFRAMES_S (n : Nat) : Nat := 0x5001090 + n * 0x100
abbrev STO_OFRAMES_H (n : Nat) : Nat := 0x5001014 + n * 0x100
abbrev STO_OFRAMES_H_S (n : Nat) : Nat := 0x5001094 + n * 0x100
abbrev NET_PCTL (n : Nat) : Nat := 0x6000000 + n * 0x4000
abbrev NET_PSTAT (n : Nat) : Nat := 0x6000004 + n * 0x4000
abbrev NET_PMODE (n : Nat) : Nat := 0x6000008 + n * 0x4000
abbrev NET_PVLAN (n : Nat) : Nat := 0x600000C + n * 0x4000
abbrev NET_PRXFRM (n : Nat) : Nat := 0x6000010 + n * 0x4000
abbrev NET_PRXFRM_S (n : Nat) : Nat := 0x6000810 + n * 0x4000
abbrev NET_PRXFRM_H (n : Nat) : Nat := 0x6000014 + n * 0x4000
abbrev NET_PRXFRM_H_S (n : Nat) : Nat := 0x6000814 + n * 0x4000
abbrev NET_PRXBYTE (n : Nat) : Nat := 0x6000018 + n * 0x4000
abbrev NET_PRXBYTE_S (n : Nat) : Nat := 0x6000818 + n * 0x4000
abbrev NET_PRXBYTE_H (n : Nat) : Nat := 0x600001C + n * 0x4000
abbrev NET_PRXBYTE_H_S (n : Nat) : Nat := 0x600081C + n * 0x4000
abbrev NET_PTXFRM (n : Nat) : Nat := 0x6000020 + n * 0x4000
abbrev NET_PTXFRM_S (n : Nat) : Nat := 0x6000820 + n * 0x4000
abbrev NET_PTXFRM_H (n : Nat) : Nat := 0x6000024 + n * 0x4000
abbrev NET_PTXFRM_H_S (n : Nat) : Nat := 0x6000824 + n * 0x4000
abbrev NET_PTXBYTE (n : Nat) : Nat := 0x6000028 + n * 0x4000
abbrev NET_PTXBYTE_S (n : Nat) : Nat := 0x6000828 + n * 0x4000
abbrev NET_PTXBYTE_H (n : Nat) : Nat := 0x600002C + n * 0x4000
abbrev NET_PTXBYTE_H_S (n : Nat) : Nat := 0x600082C + n * 0x4000
abbrev NET_PGOOSE (n : Nat) : Nat := 0x6000030 + n * 0x4000
abbrev NET_PGOOSE_S (n : Nat) : Nat := 0x6000830 + n * 0x4000
abbrev NET_PGOOSE_H (n : Nat) : Nat := 0x6000034 + n * 0x4000
abbrev NET_PGOOSE_H_S (n : Nat) : Nat := 0x6000834 + n * 0x4000
abbrev NET_PSV (n : Nat) : Nat := 0x6000038 + n * 0x4000
abbrev NET_PSV_S (n : Nat) : Nat := 0x6000838 + n * 0x4000
abbrev NET_PSV_H (n : Nat) : Nat := 0x600003C + n * 0x4000
abbrev NET_PSV_H_S (n : Nat) : Nat := 0x600083C + n * 0x4000
abbrev NET_PFCS (n : Nat) : Nat := 0x6000040 + n * 0x4000
abbrev NET_PFCS_S (n : Nat) : Nat := 0x6000840 + n * 0x4000
abbrev NET_PFILT (n : Nat) : Nat := 0x6000044 + n * 0x4000
abbrev NET_PFILT_S (n : Nat) : Nat := 0x6000844 + n * 0x4000
abbrev NET_POVF (n : Nat) : Nat := 0x6000048 + n * 0x4000
abbrev NET_POVF_S (n : Nat) : Nat := 0x6000848 + n * 0x4000
abbrev NET_PDUP (n : Nat) : Nat := 0x600004C + n * 0x4000
abbrev NET_PDUP_S (n : Nat) : Nat := 0x600084C + n * 0x4000
abbrev NET_POUTWIN (n : Nat) : Nat := 0x6000050 + n * 0x4000
abbrev NET_POUTWIN_S (n : Nat) : Nat := 0x6000850 + n * 0x4000
abbrev NET_PWRONGLAN (n : Nat) : Nat := 0x6000054 + n * 0x4000
abbrev NET_PWRONGLAN_S (n : Nat) : Nat := 0x6000854 + n * 0x4000
abbrev NET_PTXDROP (n : Nat) : Nat := 0x6000058 + n * 0x4000
abbrev NET_PTXDROP_S (n : Nat) : Nat := 0x6000858 + n * 0x4000
abbrev NET_PSUP (n : Nat) : Nat := 0x600005C + n * 0x4000
abbrev NET_PSUP_S (n : Nat) : Nat := 0x600085C + n * 0x4000
abbrev NET_PHSRFWD (n : Nat) : Nat := 0x6000060 + n * 0x4000
abbrev NET_PHSRFWD_S (n : Nat) : Nat := 0x6000860 + n * 0x4000
abbrev NET_PIPDROP (n : Nat) : Nat := 0x6000064 + n * 0x4000
abbrev NET_PIPDROP_S (n : Nat) : Nat := 0x6000864 + n * 0x4000
abbrev NET_PLINKDN (n : Nat) : Nat := 0x6000068 + n * 0x4000
abbrev NET_PLINKDN_S (n : Nat) : Nat := 0x6000868 + n * 0x4000
abbrev NET_GSSTAT (n : Nat) : Nat := 0x6200000 + n * 0x20
abbrev NET_GSST (n : Nat) : Nat := 0x6200004 + n * 0x20
abbrev NET_GSSQ (n : Nat) : Nat := 0x6200008 + n * 0x20
abbrev NET_GSRX (n : Nat) : Nat := 0x620000C + n * 0x20
abbrev NET_GSRX_S (n : Nat) : Nat := 0x6220000 + n * 0x10
abbrev NET_GSINV (n : Nat) : Nat := 0x6200010 + n * 0x20
abbrev NET_GSINV_S (n : Nat) : Nat := 0x6220004 + n * 0x10
abbrev NET_GSLAST (n : Nat) : Nat := 0x6200014 + n * 0x20
abbrev NET_GSLAST_H (n : Nat) : Nat := 0x6200018 + n * 0x20
abbrev NET_GSTAL (n : Nat) : Nat := 0x620001C + n * 0x20
abbrev NET_GPSTAT (n : Nat) : Nat := 0x6240000 + n * 0x20
abbrev NET_GPST (n : Nat) : Nat := 0x6240004 + n * 0x20
abbrev NET_GPSQ (n : Nat) : Nat := 0x6240008 + n * 0x20
abbrev NET_GPTX (n : Nat) : Nat := 0x624000C + n * 0x20
abbrev NET_GPTX_S (n : Nat) : Nat := 0x6250000 + n * 0x10
abbrev NET_GPMERGE (n : Nat) : Nat := 0x6240010 + n * 0x20
abbrev NET_GPMERGE_S (n : Nat) : Nat := 0x6250004 + n * 0x10
abbrev NET_GPLAST (n : Nat) : Nat := 0x6240014 + n * 0x20
abbrev NET_GPLAST_H (n : Nat) : Nat := 0x6240018 + n * 0x20
abbrev NET_GPINT (n : Nat) : Nat := 0x624001C + n * 0x20
abbrev NET_SVSTAT (n : Nat) : Nat := 0x6260000 + n * 0x20
abbrev NET_SVCNT (n : Nat) : Nat := 0x6260004 + n * 0x20
abbrev NET_SVRX (n : Nat) : Nat := 0x6260008 + n * 0x20
abbrev NET_SVRX_S (n : Nat) : Nat := 0x6270000 + n * 0x10
abbrev NET_SVGAP (n : Nat) : Nat := 0x626000C + n * 0x20
abbrev NET_SVGAP_S (n : Nat) : Nat := 0x6270004 + n * 0x10
abbrev NET_SVINV (n : Nat) : Nat := 0x6260010 + n * 0x20
abbrev NET_SVINV_S (n : Nat) : Nat := 0x6270008 + n * 0x10
abbrev NET_SVLAST (n : Nat) : Nat := 0x6260014 + n * 0x20
abbrev NET_SVLAST_H (n : Nat) : Nat := 0x6260018 + n * 0x20
abbrev NET_UEPSTAT (n m : Nat) : Nat := 0x6280000 + n * 0x100 + m * 0x10
abbrev NET_UEPRX (n m : Nat) : Nat := 0x6280004 + n * 0x100 + m * 0x10
abbrev NET_UEPRX_S (n m : Nat) : Nat := 0x6290004 + n * 0x100 + m * 0x10
abbrev NET_UEPTX (n m : Nat) : Nat := 0x6280008 + n * 0x100 + m * 0x10
abbrev NET_UEPTX_S (n m : Nat) : Nat := 0x6290008 + n * 0x100 + m * 0x10
abbrev NET_UEPDROP (n m : Nat) : Nat := 0x628000C + n * 0x100 + m * 0x10
abbrev NET_UEPDROP_S (n m : Nat) : Nat := 0x629000C + n * 0x100 + m * 0x10
abbrev NET_STAT : Nat := 0x6300000
abbrev NET_DUPUSE : Nat := 0x6300004
abbrev NET_DUPFULLCNT : Nat := 0x6300008
abbrev NET_DUPFULLCNT_S : Nat := 0x6300808
abbrev NET_PARSEDROP : Nat := 0x630000C
abbrev NET_PARSEDROP_S : Nat := 0x630080C
abbrev NET_LSSTAT (n : Nat) : Nat := 0x6310000 + n * 0x20
abbrev NET_LSREQ (n : Nat) : Nat := 0x6310004 + n * 0x20
abbrev NET_LSREQ_S (n : Nat) : Nat := 0x6310014 + n * 0x20
abbrev NET_LSRETRY (n : Nat) : Nat := 0x6310008 + n * 0x20
abbrev NET_LSRETRY_S (n : Nat) : Nat := 0x6310018 + n * 0x20
abbrev NET_LSBAD (n : Nat) : Nat := 0x631000C + n * 0x20
abbrev NET_LSBAD_S (n : Nat) : Nat := 0x631001C + n * 0x20
abbrev TIM_STAT : Nat := 0x140000
abbrev TIM_NOW : Nat := 0x140004
abbrev TIM_NOW_H : Nat := 0x140008
abbrev TIM_CFG : Nat := 0x14000C
abbrev TIM_SRCCFG : Nat := 0x140010
abbrev TIM_UTCOFF : Nat := 0x140014
abbrev TIM_OFFSET : Nat := 0x140018
abbrev TIM_FREQ : Nat := 0x14001C
abbrev TIM_HOLDS : Nat := 0x140020
abbrev TIM_STEPAMT : Nat := 0x140024
abbrev TIM_STEPAMT_H : Nat := 0x140028
abbrev TIM_STEPAT : Nat := 0x14002C
abbrev TIM_STEPAT_H : Nat := 0x140030
abbrev TIM_OUTCFG : Nat := 0x140034
abbrev TIM_OUTOFF : Nat := 0x140038
abbrev TIM_OUTFREQ : Nat := 0x14003C
abbrev TIM_INSTAT : Nat := 0x140040
abbrev TIM_PTPSTAT : Nat := 0x140044
abbrev TIM_GMID : Nat := 0x140048
abbrev TIM_GMID_H : Nat := 0x14004C
abbrev TIM_STEPCNT : Nat := 0x140050
abbrev TIM_STEPCNT_S : Nat := 0x140850
abbrev TIM_SRCCHG : Nat := 0x140054
abbrev TIM_SRCCHG_S : Nat := 0x140854
abbrev TIM_QDEGCNT : Nat := 0x140058
abbrev TIM_QDEGCNT_S : Nat := 0x140858
abbrev TIM_CUTGT (n : Nat) : Nat := 0x141000 + n * 0x20
abbrev TIM_CUTGT_H (n : Nat) : Nat := 0x141004 + n * 0x20
abbrev TIM_CURELOAD (n : Nat) : Nat := 0x141008 + n * 0x20
abbrev TIM_CUCTL (n : Nat) : Nat := 0x14100C + n * 0x20
abbrev TIM_CUSTAT (n : Nat) : Nat := 0x141010 + n * 0x20
abbrev TIM_CUFIRE (n : Nat) : Nat := 0x141014 + n * 0x20
abbrev TIM_CUFIRE_S (n : Nat) : Nat := 0x141018 + n * 0x20
abbrev TIM_PPSTAT (n : Nat) : Nat := 0x142000 + n * 0x20
abbrev TIM_PPDELAY (n : Nat) : Nat := 0x142004 + n * 0x20
abbrev TIM_PPASYM (n : Nat) : Nat := 0x142008 + n * 0x20
abbrev TIM_PPRX (n : Nat) : Nat := 0x14200C + n * 0x20
abbrev TIM_PPRX_S (n : Nat) : Nat := 0x143000 + n * 0x10
abbrev TIM_PPTX (n : Nat) : Nat := 0x142010 + n * 0x20
abbrev TIM_PPTX_S (n : Nat) : Nat := 0x143004 + n * 0x10
abbrev TIM_PPERR (n : Nat) : Nat := 0x142014 + n * 0x20
abbrev TIM_PPERR_S (n : Nat) : Nat := 0x143008 + n * 0x10
abbrev TIM_CALCTL : Nat := 0x144000
abbrev TIM_CALSTAT : Nat := 0x144004
abbrev TIM_CALSEC : Nat := 0x144008
abbrev TIM_CALSEC_H : Nat := 0x14400C
abbrev TIM_CALSUB : Nat := 0x144010
abbrev TIM_CALDATE : Nat := 0x144014
abbrev TIM_CALTIME : Nat := 0x144018
abbrev TIM_CALOFF : Nat := 0x14401C
abbrev TIM_CALRAM (n : Nat) : Nat := 0x144020 + n * 0x4
abbrev CAN_CTL (n : Nat) : Nat := 0x400000 + n * 0x8000
abbrev CAN_STAT (n : Nat) : Nat := 0x400004 + n * 0x8000
abbrev CAN_CFG (n : Nat) : Nat := 0x400008 + n * 0x8000
abbrev CAN_NBT (n : Nat) : Nat := 0x40000C + n * 0x8000
abbrev CAN_DBT (n : Nat) : Nat := 0x400010 + n * 0x8000
abbrev CAN_ERR (n : Nat) : Nat := 0x400014 + n * 0x8000
abbrev CAN_RING (n : Nat) : Nat := 0x400018 + n * 0x8000
abbrev CAN_SOFCNT (n : Nat) : Nat := 0x40001C + n * 0x8000
abbrev CAN_CAPCNT (n : Nat) : Nat := 0x400020 + n * 0x8000
abbrev CAN_CAPTIME (n : Nat) : Nat := 0x400024 + n * 0x8000
abbrev CAN_CAPTIME_H (n : Nat) : Nat := 0x400028 + n * 0x8000
abbrev CAN_RXCNT (n : Nat) : Nat := 0x40002C + n * 0x8000
abbrev CAN_RXCNT_S (n : Nat) : Nat := 0x40082C + n * 0x8000
abbrev CAN_RXCNT_H (n : Nat) : Nat := 0x400030 + n * 0x8000
abbrev CAN_RXCNT_H_S (n : Nat) : Nat := 0x400830 + n * 0x8000
abbrev CAN_TXCNT (n : Nat) : Nat := 0x400034 + n * 0x8000
abbrev CAN_TXCNT_S (n : Nat) : Nat := 0x400834 + n * 0x8000
abbrev CAN_TXCNT_H (n : Nat) : Nat := 0x400038 + n * 0x8000
abbrev CAN_TXCNT_H_S (n : Nat) : Nat := 0x400838 + n * 0x8000
abbrev CAN_RXNOMATCH (n : Nat) : Nat := 0x40003C + n * 0x8000
abbrev CAN_RXNOMATCH_S (n : Nat) : Nat := 0x40083C + n * 0x8000
abbrev CAN_RXLOST (n : Nat) : Nat := 0x400040 + n * 0x8000
abbrev CAN_RXLOST_S (n : Nat) : Nat := 0x400840 + n * 0x8000
abbrev CAN_TXDROP (n : Nat) : Nat := 0x400044 + n * 0x8000
abbrev CAN_TXDROP_S (n : Nat) : Nat := 0x400844 + n * 0x8000
abbrev CAN_TXREPL (n : Nat) : Nat := 0x400048 + n * 0x8000
abbrev CAN_TXREPL_S (n : Nat) : Nat := 0x400848 + n * 0x8000
abbrev CAN_ERRFRM (n : Nat) : Nat := 0x40004C + n * 0x8000
abbrev CAN_ERRFRM_S (n : Nat) : Nat := 0x40084C + n * 0x8000
abbrev CAN_BUSOFF (n : Nat) : Nat := 0x400050 + n * 0x8000
abbrev CAN_BUSOFF_S (n : Nat) : Nat := 0x400850 + n * 0x8000
abbrev CAN_ARBLOST (n : Nat) : Nat := 0x400054 + n * 0x8000
abbrev CAN_ARBLOST_S (n : Nat) : Nat := 0x400854 + n * 0x8000
abbrev CAN_REMOTE (n : Nat) : Nat := 0x400058 + n * 0x8000
abbrev CAN_REMOTE_S (n : Nat) : Nat := 0x400858 + n * 0x8000
abbrev OBJCFG (n m : Nat) : Nat := 0x401000 + n * 0x8000 + m * 0x80
abbrev OBJID (n m : Nat) : Nat := 0x401004 + n * 0x8000 + m * 0x80
abbrev OBJMASK (n m : Nat) : Nat := 0x401008 + n * 0x8000 + m * 0x80
abbrev OBJMAP (n m : Nat) : Nat := 0x40100C + n * 0x8000 + m * 0x80
abbrev OBJSTAT (n m : Nat) : Nat := 0x401010 + n * 0x8000 + m * 0x80
abbrev OBJSOF (n m : Nat) : Nat := 0x401014 + n * 0x8000 + m * 0x80
abbrev OBJTIME (n m : Nat) : Nat := 0x401018 + n * 0x8000 + m * 0x80
abbrev OBJTIME_H (n m : Nat) : Nat := 0x40101C + n * 0x8000 + m * 0x80
abbrev OBJTXREQ (n m : Nat) : Nat := 0x401020 + n * 0x8000 + m * 0x80
abbrev OBJCNT (n m : Nat) : Nat := 0x401024 + n * 0x8000 + m * 0x80
abbrev OBJCNT_S (n m : Nat) : Nat := 0x401028 + n * 0x8000 + m * 0x80
abbrev OBJDATA (n m k : Nat) : Nat := 0x401040 + n * 0x8000 + m * 0x80 + k * 0x4
abbrev FIO_STAT : Nat := 0x300000
abbrev FIO_GSTAT : Nat := 0x300004
abbrev FIO_GVOLT (n : Nat) : Nat := 0x300010 + n * 0x4
abbrev FIO_DTHR (n : Nat) : Nat := 0x300020 + n * 0x4
abbrev FIO_EVTCNT : Nat := 0x300030
abbrev FIO_EVTCNT_S : Nat := 0x300830
abbrev FIO_EVTCNT_H : Nat := 0x300034
abbrev FIO_EVTCNT_H_S : Nat := 0x300834
abbrev FIO_EVTLOST : Nat := 0x300038
abbrev FIO_EVTLOST_S : Nat := 0x300838
abbrev FIO_CRCERR : Nat := 0x30003C
abbrev FIO_CRCERR_S : Nat := 0x30083C
abbrev FIO_MISSED : Nat := 0x300040
abbrev FIO_MISSED_S : Nat := 0x300840
abbrev FIO_RLOSTCNT : Nat := 0x300044
abbrev FIO_RLOSTCNT_S : Nat := 0x300844
abbrev FIO_DCFG (n : Nat) : Nat := 0x301000 + n * 0x20
abbrev FIO_DMAP (n : Nat) : Nat := 0x301004 + n * 0x20
abbrev FIO_DSTAT (n : Nat) : Nat := 0x301008 + n * 0x20
abbrev FIO_DCHG (n : Nat) : Nat := 0x30100C + n * 0x20
abbrev FIO_DCHG_S (n : Nat) : Nat := 0x301018 + n * 0x20
abbrev FIO_DLAST (n : Nat) : Nat := 0x301010 + n * 0x20
abbrev FIO_DLAST_H (n : Nat) : Nat := 0x301014 + n * 0x20
abbrev FIO_ACFG (n : Nat) : Nat := 0x302000 + n * 0x40
abbrev FIO_AMAP (n : Nat) : Nat := 0x302004 + n * 0x40
abbrev FIO_ARB (n : Nat) : Nat := 0x302008 + n * 0x40
abbrev FIO_ASTAT (n : Nat) : Nat := 0x30200C + n * 0x40
abbrev FIO_ASET (n : Nat) : Nat := 0x302010 + n * 0x40
abbrev FIO_AMEAS (n : Nat) : Nat := 0x302014 + n * 0x40
abbrev FIO_ATRIMG (n : Nat) : Nat := 0x302018 + n * 0x40
abbrev FIO_ATRIMO (n : Nat) : Nat := 0x30201C + n * 0x40
abbrev FIO_ACOMPL (n : Nat) : Nat := 0x302020 + n * 0x40
abbrev FIO_ACOMPL_S (n : Nat) : Nat := 0x302024 + n * 0x40
abbrev LOP_CFG (n : Nat) : Nat := 0x200000 + n * 0x400
abbrev LOP_PERIOD (n : Nat) : Nat := 0x200004 + n * 0x400
abbrev LOP_PHASE (n : Nat) : Nat := 0x200008 + n * 0x400
abbrev LOP_PVADDR (n : Nat) : Nat := 0x20000C + n * 0x400
abbrev LOP_SPADDR (n : Nat) : Nat := 0x200010 + n * 0x400
abbrev LOP_WADDR (n : Nat) : Nat := 0x200014 + n * 0x400
abbrev LOP_UADDR (n : Nat) : Nat := 0x200018 + n * 0x400
abbrev LOP_STADDR (n : Nat) : Nat := 0x20001C + n * 0x400
abbrev LOP_EXPA (n : Nat) : Nat := 0x200020 + n * 0x400
abbrev LOP_EXPB (n : Nat) : Nat := 0x200024 + n * 0x400
abbrev LOP_UMIN (n : Nat) : Nat := 0x200028 + n * 0x400
abbrev LOP_UMAX (n : Nat) : Nat := 0x20002C + n * 0x400
abbrev LOP_SAFEU (n : Nat) : Nat := 0x200030 + n * 0x400
abbrev LOP_HYST (n : Nat) : Nat := 0x200034 + n * 0x400
abbrev LOP_BOUND (n m : Nat) : Nat := 0x200038 + n * 0x400 + m * 0x4
abbrev LOP_OSCBAND (n : Nat) : Nat := 0x200054 + n * 0x400
abbrev LOP_OSCCFG (n : Nat) : Nat := 0x200058 + n * 0x400
abbrev LOP_PLCFG (n : Nat) : Nat := 0x20005C + n * 0x400
abbrev LOP_PLA (n : Nat) : Nat := 0x200060 + n * 0x400
abbrev LOP_PLB (n : Nat) : Nat := 0x200064 + n * 0x400
abbrev LOP_PLC (n : Nat) : Nat := 0x200068 + n * 0x400
abbrev LOP_PLTOL (n : Nat) : Nat := 0x20006C + n * 0x400
abbrev LOP_COEF (n m k : Nat) : Nat := 0x200080 + n * 0x400 + m * 0x10 + k * 0x4
abbrev LOP_CTL (n : Nat) : Nat := 0x200100 + n * 0x400
abbrev LOP_STAT (n : Nat) : Nat := 0x200104 + n * 0x400
abbrev LOP_I (n : Nat) : Nat := 0x200108 + n * 0x400
abbrev LOP_F (n : Nat) : Nat := 0x20010C + n * 0x400
abbrev LOP_X (n : Nat) : Nat := 0x200110 + n * 0x400
abbrev LOP_U (n : Nat) : Nat := 0x200114 + n * 0x400
abbrev LOP_YHAT (n : Nat) : Nat := 0x200118 + n * 0x400
abbrev LOP_LASTK (n : Nat) : Nat := 0x20011C + n * 0x400
abbrev LOP_LASTK_H (n : Nat) : Nat := 0x200120 + n * 0x400
abbrev LOP_SAMPLES (n : Nat) : Nat := 0x200124 + n * 0x400
abbrev LOP_SAMPLES_S (n : Nat) : Nat := 0x200324 + n * 0x400
abbrev LOP_SAMPLES_H (n : Nat) : Nat := 0x200128 + n * 0x400
abbrev LOP_SAMPLES_H_S (n : Nat) : Nat := 0x200328 + n * 0x400
abbrev LOP_MISSED (n : Nat) : Nat := 0x20012C + n * 0x400
abbrev LOP_MISSED_S (n : Nat) : Nat := 0x20032C + n * 0x400
abbrev LOP_SATCNT (n : Nat) : Nat := 0x200130 + n * 0x400
abbrev LOP_SATCNT_S (n : Nat) : Nat := 0x200330 + n * 0x400
abbrev LOP_FRZCNT (n : Nat) : Nat := 0x200134 + n * 0x400
abbrev LOP_FRZCNT_S (n : Nat) : Nat := 0x200334 + n * 0x400
abbrev LOP_OSCCNT (n : Nat) : Nat := 0x200138 + n * 0x400
abbrev LOP_OSCCNT_S (n : Nat) : Nat := 0x200338 + n * 0x400
abbrev LOP_PLCNT (n : Nat) : Nat := 0x20013C + n * 0x400
abbrev LOP_PLCNT_S (n : Nat) : Nat := 0x20033C + n * 0x400
abbrev LOP_OVFCNT (n : Nat) : Nat := 0x200140 + n * 0x400
abbrev LOP_OVFCNT_S (n : Nat) : Nat := 0x200340 + n * 0x400
abbrev LOP_REGCHG (n : Nat) : Nat := 0x200144 + n * 0x400
abbrev LOP_REGCHG_S (n : Nat) : Nat := 0x200344 + n * 0x400
abbrev FLT_STAT : Nat := 0x80000
abbrev FLT_HOLDQ : Nat := 0x80004
abbrev FLT_HOLDALW : Nat := 0x80008
abbrev FLT_QLEFT : Nat := 0x8000C
abbrev FLT_RECOV : Nat := 0x80010
abbrev FLT_RECOVCNT : Nat := 0x80014
abbrev FLT_RECOVCNT_S : Nat := 0x80814
abbrev FLT_HCOUNT : Nat := 0x80018
abbrev FLT_HCOUNT_S : Nat := 0x80818
abbrev FLT_HCOUNT_H : Nat := 0x8001C
abbrev FLT_HCOUNT_H_S : Nat := 0x8081C
abbrev FLT_HLOST : Nat := 0x80020
abbrev FLT_HLOST_S : Nat := 0x80820
abbrev FLT_FECLR : Nat := 0x80024
abbrev FLT_PLUMBCTL : Nat := 0x80028
abbrev FLT_PLUMBTGT : Nat := 0x8002C
abbrev FLT_PLUMBTGT_H : Nat := 0x80030
abbrev FLT_PLUMBAT : Nat := 0x80034
abbrev FLT_PLUMBAT_H : Nat := 0x80038
abbrev FLT_PLUMBCNT : Nat := 0x8003C
abbrev FLT_PLUMBCNT_S : Nat := 0x8083C
abbrev FLT_OSTAT (n : Nat) : Nat := 0x80100 + n * 0x20
abbrev FLT_OSEC (n : Nat) : Nat := 0x80104 + n * 0x20
abbrev FLT_OSEC_S (n : Nat) : Nat := 0x80904 + n * 0x20
abbrev FLT_ORECOV (n : Nat) : Nat := 0x80108 + n * 0x20
abbrev FLT_ORECOV_S (n : Nat) : Nat := 0x80908 + n * 0x20
abbrev FLT_FE (n : Nat) : Nat := 0x80200 + n * 0x4
abbrev FLT_HIST (n m : Nat) : Nat := 0x81000 + n * 0x20 + m * 0x4
abbrev FLT_SCFG (n : Nat) : Nat := 0x82000 + n * 0x10
abbrev FLT_SSTAT (n : Nat) : Nat := 0x82004 + n * 0x10
abbrev FLT_SCNT (n : Nat) : Nat := 0x82008 + n * 0x10
abbrev FLT_SCNT_S (n : Nat) : Nat := 0x90000 + n * 0x4
abbrev FLT_SFORCE (n : Nat) : Nat := 0x8200C + n * 0x10
abbrev WDG_CTL (n : Nat) : Nat := 0x40000 + n * 0x40
abbrev WDG_KEY (n : Nat) : Nat := 0x40004 + n * 0x40
abbrev WDG_PERIOD (n : Nat) : Nat := 0x40008 + n * 0x40
abbrev WDG_STAT (n : Nat) : Nat := 0x4000C + n * 0x40
abbrev WDG_REMAIN (n : Nat) : Nat := 0x40010 + n * 0x40
abbrev WDG_SRVCNT (n : Nat) : Nat := 0x40014 + n * 0x40
abbrev WDG_SRVCNT_S (n : Nat) : Nat := 0x40814 + n * 0x40
abbrev WDG_EXPCNT (n : Nat) : Nat := 0x40018 + n * 0x40
abbrev WDG_EXPCNT_S (n : Nat) : Nat := 0x40818 + n * 0x40
abbrev WDG_VIOCNT (n : Nat) : Nat := 0x4001C + n * 0x40
abbrev WDG_VIOCNT_S (n : Nat) : Nat := 0x4081C + n * 0x40
abbrev NVS_STAT : Nat := 0xC0000
abbrev NVS_SAVESEQ : Nat := 0xC0004
abbrev NVS_SAVESEQ_H : Nat := 0xC0008
abbrev NVS_ECCCOR : Nat := 0xC000C
abbrev NVS_ECCCOR_S : Nat := 0xC080C
abbrev NVS_ECCUNC : Nat := 0xC0010
abbrev NVS_ECCUNC_S : Nat := 0xC0810
abbrev NVS_SAVES : Nat := 0xC0014
abbrev NVS_SAVES_S : Nat := 0xC0814
abbrev NVS_RCFG (n : Nat) : Nat := 0xC1000 + n * 0x20
abbrev NVS_RBASE (n : Nat) : Nat := 0xC1004 + n * 0x20
abbrev NVS_RSIZE (n : Nat) : Nat := 0xC1008 + n * 0x20
abbrev NVS_RSTAT (n : Nat) : Nat := 0xC100C + n * 0x20
abbrev NVS_RWRCNT (n : Nat) : Nat := 0xC1010 + n * 0x20
abbrev NVS_RWRCNT_S (n : Nat) : Nat := 0xC1014 + n * 0x20
abbrev NVS_PSEL (n : Nat) : Nat := 0xC2000 + n * 0x40
abbrev NVS_PPWD (n : Nat) : Nat := 0xC2004 + n * 0x40
abbrev NVS_PPWD_H (n : Nat) : Nat := 0xC2008 + n * 0x40
abbrev NVS_POFF (n : Nat) : Nat := 0xC200C + n * 0x40
abbrev NVS_PDATA (n : Nat) : Nat := 0xC2010 + n * 0x40
abbrev NVS_PSTAT (n : Nat) : Nat := 0xC2014 + n * 0x40
abbrev NVS_PNEW (n : Nat) : Nat := 0xC2018 + n * 0x40
abbrev NVS_PNEW_H (n : Nat) : Nat := 0xC201C + n * 0x40
abbrev NVS_PCMD (n : Nat) : Nat := 0xC2020 + n * 0x40
abbrev ALM_STAT : Nat := 0x100000
abbrev ALM_NEXT : Nat := 0x100004
abbrev ALM_OLDEST : Nat := 0x100008
abbrev ALM_FIFO : Nat := 0x10000C
abbrev ALM_HOURS : Nat := 0x100010
abbrev ALM_CYCLES : Nat := 0x100014
abbrev ALM_LOST : Nat := 0x100018
abbrev ALM_LOST_S : Nat := 0x100818
abbrev ALM_CRCERR : Nat := 0x10001C
abbrev ALM_CRCERR_S : Nat := 0x10081C
abbrev ALM_RDLOST : Nat := 0x100020
abbrev ALM_RDLOST_S : Nat := 0x100820
abbrev ALM_FIFOMAX : Nat := 0x100024
abbrev ALM_FIFOMAX_S : Nat := 0x100824
abbrev MGT_STAT : Nat := 0x0
abbrev MGT_SERIAL : Nat := 0x4
abbrev MGT_SERIAL_H : Nat := 0x8
abbrev MGT_VARIANT : Nat := 0xC
abbrev MGT_UNUSABLE : Nat := 0x10
abbrev MGT_UNUSABLE_H : Nat := 0x14
abbrev MGT_UPDSTAT : Nat := 0xA0
abbrev MGT_UPDLEFT : Nat := 0xA4
abbrev MGT_QPAT : Nat := 0xA8
abbrev MGT_QPAT_H : Nat := 0xAC
abbrev MGT_QPWAIT : Nat := 0xB0
abbrev MGT_FACTPWD : Nat := 0xC0
abbrev MGT_FACTPWD_H : Nat := 0xC4
abbrev MGT_FACTCMD : Nat := 0xC8
abbrev MGT_FACTSTAT : Nat := 0xCC
abbrev MGT_ENGSTAT : Nat := 0x100
abbrev MGT_ENGEXC : Nat := 0x104
abbrev MGT_ENGPC : Nat := 0x108
abbrev MGT_ENGRUNS : Nat := 0x10C
abbrev MGT_ENGRUNS_S : Nat := 0x90C
abbrev MGT_ENGOVR : Nat := 0x110
abbrev MGT_ENGOVR_S : Nat := 0x910
abbrev MGT_VIN : Nat := 0x200
abbrev MGT_IIN : Nat := 0x204
abbrev MGT_PIN : Nat := 0x208
abbrev MGT_V48 : Nat := 0x20C
abbrev MGT_BANK : Nat := 0x210
abbrev MGT_PINMAX : Nat := 0x214
abbrev MGT_TEMP (n : Nat) : Nat := 0x240 + n * 0x4
abbrev MGT_TEMPMAX : Nat := 0x2A0
abbrev MGT_LOGSTAT : Nat := 0x300
abbrev MGT_LOGSEL : Nat := 0x304
abbrev MGT_LOGNEXT : Nat := 0x308
abbrev MGT_LOGDATA (n : Nat) : Nat := 0x320 + n * 0x4
abbrev MGT_PDSTAT (n : Nat) : Nat := 0x1000 + n * 0x20
abbrev MGT_PDVOLT (n : Nat) : Nat := 0x1004 + n * 0x20
abbrev MGT_PDFAILCNT (n : Nat) : Nat := 0x1008 + n * 0x20
abbrev MGT_PDFAILCNT_S (n : Nat) : Nat := 0x1010 + n * 0x20
abbrev MGT_PDONCNT (n : Nat) : Nat := 0x100C + n * 0x20
abbrev MGT_PDONCNT_S (n : Nat) : Nat := 0x1014 + n * 0x20
abbrev LOP_GSTAT : Nat := 0x240000
abbrev LOP_ECCCOR : Nat := 0x240004
abbrev LOP_ECCCOR_S : Nat := 0x240804
abbrev LOP_ECCUNC : Nat := 0x240008
abbrev LOP_ECCUNC_S : Nat := 0x240808
abbrev HPCFG (n : Nat) : Nat := 0x400100 + n * 0x8000
abbrev HPID (n : Nat) : Nat := 0x400104 + n * 0x8000
abbrev HPMASK (n : Nat) : Nat := 0x400108 + n * 0x8000
abbrev HPMAP (n : Nat) : Nat := 0x40010C + n * 0x8000
abbrev HPSTAT (n : Nat) : Nat := 0x400110 + n * 0x8000
abbrev HPSOF (n : Nat) : Nat := 0x400114 + n * 0x8000
abbrev HPTIME (n : Nat) : Nat := 0x400118 + n * 0x8000
abbrev HPTIME_H (n : Nat) : Nat := 0x40011C + n * 0x8000
abbrev HPCNT (n : Nat) : Nat := 0x400124 + n * 0x8000
abbrev HPCNT_S (n : Nat) : Nat := 0x400128 + n * 0x8000
abbrev HPDATA (n m : Nat) : Nat := 0x400140 + n * 0x8000 + m * 0x4

/-- The MGT block's registers. -/
def tableMGT : List RegDesc :=
  [
    { base := 0x40, w1c := 0x30000, reset := 0x2, scope := .o0 },
    { base := 0x44, wo := 0x3F, scope := .o0 },
    { base := 0x48, reset := 0xFFFC, scope := .o0 },
    { base := 0x80, scope := .o0 },
    { base := 0x84, w1c := 0x80000000, scope := .o0 },
    { base := 0x88, pair := .lo, scope := .o0 },
    { base := 0x8C, pair := .hi, scope := .o0 },
    { base := 0x90, pair := .lo, scope := .o0 },
    { base := 0x94, pair := .hi, scope := .o0 },
    { base := 0x98, scope := .o0 },
    { base := 0x9C, scope := .o0 },
    { base := 0x0, w1c := 0x70000, scope := .o0 },
    { base := 0x4, pair := .lo, scope := .o0 },
    { base := 0x8, pair := .hi, scope := .o0 },
    { base := 0xC, scope := .o0 },
    { base := 0x10, pair := .lo, scope := .o0 },
    { base := 0x14, pair := .hi, scope := .o0 },
    { base := 0xA0, w1c := 0x30000, scope := .o0 },
    { base := 0xA4, scope := .o0 },
    { base := 0xA8, pair := .lo, scope := .o0 },
    { base := 0xAC, pair := .hi, scope := .o0 },
    { base := 0xB0, scope := .o0 },
    { base := 0xC0, wo := 0xFFFFFFFF, pair := .lo, scope := .o0 },
    { base := 0xC4, wo := 0xFFFFFFFF, pair := .hi, scope := .o0 },
    { base := 0xC8, wo := 0x1, scope := .o0 },
    { base := 0xCC, w1c := 0x10000, scope := .o0 },
    { base := 0x100, scope := .o0 },
    { base := 0x104, w1c := 0x80000000, scope := .o0 },
    { base := 0x108, scope := .o0 },
    { base := 0x10C, scope := .o0, shB := 0x90C },
    { base := 0x110, scope := .o0, shB := 0x910 },
    { base := 0x200, scope := .o0 },
    { base := 0x204, scope := .o0 },
    { base := 0x208, scope := .o0 },
    { base := 0x20C, scope := .o0 },
    { base := 0x210, scope := .o0 },
    { base := 0x214, rc := 0xFFFFFFFF, scope := .o0 },
    { base := 0x240, s1 := 0x4, n1 := 24, scope := .o0 },
    { base := 0x2A0, rc := 0xFFFFFFFF, scope := .o0 },
    { base := 0x300, scope := .o0 } ] ++
  [
    { base := 0x304, rw := 0xFFFFFFFF, scope := .o0 },
    { base := 0x308, scope := .o0 },
    { base := 0x320, s1 := 0x4, n1 := 8, scope := .o0 },
    { base := 0x1000, s1 := 0x20, n1 := 80, w1c := 0x10000, scope := .o0 },
    { base := 0x1004, s1 := 0x20, n1 := 80, scope := .o0 },
    { base := 0x1008, s1 := 0x20, n1 := 80, scope := .o0, shB := 0x1010, sh1 := 0x20 },
    { base := 0x100C, s1 := 0x20, n1 := 80, scope := .o0, shB := 0x1014, sh1 := 0x20 } ]

/-- The ENG block's registers. -/
def tableENG : List RegDesc :=
  [
    { base := 0x2000000, s1 := 0x1000, n1 := 256, scope := .eng },
    { base := 0x2000004, s1 := 0x1000, n1 := 256, scope := .eng },
    { base := 0x2000008, s1 := 0x1000, n1 := 256, w1c := 0x80000000, scope := .eng },
    { base := 0x200000C, s1 := 0x1000, n1 := 256, scope := .eng },
    { base := 0x2000010, s1 := 0x1000, n1 := 256, scope := .eng },
    { base := 0x2000014, s1 := 0x1000, n1 := 256, scope := .eng },
    { base := 0x2000018, s1 := 0x1000, n1 := 256, pair := .lo, scope := .eng },
    { base := 0x200001C, s1 := 0x1000, n1 := 256, pair := .hi, scope := .eng },
    { base := 0x2000020, s1 := 0x1000, n1 := 256, reset := 0x109C4, scope := .eng },
    { base := 0x2000024, s1 := 0x1000, n1 := 256, rc := 0xFFF, scope := .eng, shB := 0x2000824, sh1 := 0x1000 },
    { base := 0x2000028, s1 := 0x1000, n1 := 256, pair := .lo, scope := .eng, shB := 0x2000828, sh1 := 0x1000 },
    { base := 0x200002C, s1 := 0x1000, n1 := 256, pair := .hi, scope := .eng, shB := 0x200082C, sh1 := 0x1000 },
    { base := 0x2000030, s1 := 0x1000, n1 := 256, scope := .eng, shB := 0x2000830, sh1 := 0x1000 },
    { base := 0x2000034, s1 := 0x1000, n1 := 256, scope := .eng, shB := 0x2000834, sh1 := 0x1000 },
    { base := 0x2000038, s1 := 0x1000, n1 := 256, scope := .eng, shB := 0x2000838, sh1 := 0x1000 },
    { base := 0x2000040, s1 := 0x1000, n1 := 256, wo := 0x1, scope := .eng } ]

/-- The IMG block's registers. -/
def tableIMG : List RegDesc :=
  [
    { base := 0x3000000, w1c := 0x10000 },
    { base := 0x3000004 },
    { base := 0x3000008 },
    { base := 0x300000C, rc := 0x1FF, shB := 0x300080C },
    { base := 0x3000010, pair := .lo, shB := 0x3000810 },
    { base := 0x3000014, pair := .hi, shB := 0x3000814 },
    { base := 0x3000018, shB := 0x3000818 },
    { base := 0x300001C, shB := 0x300081C },
    { base := 0x3000020, shB := 0x3000820 },
    { base := 0x3001000, s1 := 0x100, n1 := 8, scope := .own },
    { base := 0x3001004, s1 := 0x100, n1 := 8, scope := .own },
    { base := 0x3001008, s1 := 0x100, n1 := 8, scope := .own },
    { base := 0x300100C, s1 := 0x100, n1 := 8, scope := .own },
    { base := 0x3001010, s1 := 0x100, n1 := 8, scope := .own },
    { base := 0x3001014, s1 := 0x100, n1 := 8, scope := .own },
    { base := 0x3001018, s1 := 0x100, n1 := 8, scope := .own },
    { base := 0x300101C, s1 := 0x100, n1 := 8, scope := .own },
    { base := 0x3001020, s1 := 0x100, n1 := 8, scope := .own },
    { base := 0x3001024, s1 := 0x100, n1 := 8, scope := .own },
    { base := 0x3001028, s1 := 0x100, n1 := 8, scope := .own },
    { base := 0x300102C, s1 := 0x100, n1 := 8, reset := 0x64, scope := .own },
    { base := 0x3001030, s1 := 0x100, n1 := 8, scope := .own },
    { base := 0x3001034, s1 := 0x100, n1 := 8, scope := .own },
    { base := 0x3001038, s1 := 0x100, n1 := 8, scope := .own },
    { base := 0x300103C, s1 := 0x100, n1 := 8, w1c := 0x1F00, scope := .own },
    { base := 0x3001040, s1 := 0x100, n1 := 8, pair := .lo, scope := .own, shB := 0x3001080, sh1 := 0x100 },
    { base := 0x3001044, s1 := 0x100, n1 := 8, pair := .hi, scope := .own, shB := 0x3001084, sh1 := 0x100 },
    { base := 0x3001048, s1 := 0x100, n1 := 8, pair := .lo, scope := .own, shB := 0x3001088, sh1 := 0x100 },
    { base := 0x300104C, s1 := 0x100, n1 := 8, pair := .hi, scope := .own, shB := 0x300108C, sh1 := 0x100 },
    { base := 0x3001050, s1 := 0x100, n1 := 8, scope := .own, shB := 0x3001090, sh1 := 0x100 },
    { base := 0x3001054, s1 := 0x100, n1 := 8, scope := .own, shB := 0x3001094, sh1 := 0x100 },
    { base := 0x3001058, s1 := 0x100, n1 := 8, scope := .own, shB := 0x3001098, sh1 := 0x100 },
    { base := 0x300105C, s1 := 0x100, n1 := 8, scope := .own, shB := 0x300109C, sh1 := 0x100 },
    { base := 0x3001060, s1 := 0x100, n1 := 8, scope := .own, shB := 0x30010A0, sh1 := 0x100 },
    { base := 0x3001064, s1 := 0x100, n1 := 8, scope := .own, shB := 0x30010A4, sh1 := 0x100 },
    { base := 0x3001068, s1 := 0x100, n1 := 8, rc := 0xFFFFFFFF, scope := .own, shB := 0x30010A8, sh1 := 0x100 } ]

/-- The SEQ block's registers. -/
def tableSEQ : List RegDesc :=
  [
    { base := 0x1000000, s1 := 0x100, n1 := 512, scope := .task },
    { base := 0x1000004, s1 := 0x100, n1 := 512, scope := .task },
    { base := 0x1000008, s1 := 0x100, n1 := 512, scope := .task },
    { base := 0x100000C, s1 := 0x100, n1 := 512, scope := .task },
    { base := 0x1000010, s1 := 0x100, n1 := 512, scope := .task },
    { base := 0x1000014, s1 := 0x100, n1 := 512, scope := .task },
    { base := 0x1000018, s1 := 0x100, n1 := 512, scope := .task },
    { base := 0x100001C, s1 := 0x100, n1 := 512, w1c := 0x1F, scope := .task },
    { base := 0x1000020, s1 := 0x100, n1 := 512, pair := .lo, scope := .task, shB := 0x10000A0, sh1 := 0x100 },
    { base := 0x1000024, s1 := 0x100, n1 := 512, pair := .hi, scope := .task, shB := 0x10000A4, sh1 := 0x100 },
    { base := 0x1000028, s1 := 0x100, n1 := 512, scope := .task, shB := 0x10000A8, sh1 := 0x100 },
    { base := 0x100002C, s1 := 0x100, n1 := 512, scope := .task, shB := 0x10000AC, sh1 := 0x100 },
    { base := 0x1000030, s1 := 0x100, n1 := 512, scope := .task, shB := 0x10000B0, sh1 := 0x100 },
    { base := 0x1000034, s1 := 0x100, n1 := 512, scope := .task, shB := 0x10000B4, sh1 := 0x100 },
    { base := 0x1000038, s1 := 0x100, n1 := 512, scope := .task },
    { base := 0x100003C, s1 := 0x100, n1 := 512, rc := 0xFFFFFFFF, scope := .task, shB := 0x10000BC, sh1 := 0x100 },
    { base := 0x1000040, s1 := 0x100, n1 := 512, scope := .task },
    { base := 0x1000044, s1 := 0x100, n1 := 512, rc := 0xFFFFFFFF, scope := .task, shB := 0x10000C4, sh1 := 0x100 },
    { base := 0x1000048, s1 := 0x100, n1 := 512, rc := 0xFFFF, scope := .task, shB := 0x10000C8, sh1 := 0x100 },
    { base := 0x100004C, s1 := 0x100, n1 := 512, pair := .lo, scope := .task },
    { base := 0x1000050, s1 := 0x100, n1 := 512, pair := .hi, scope := .task },
    { base := 0x1000054, s1 := 0x100, n1 := 512, scope := .task, shB := 0x10000D4, sh1 := 0x100 },
    { base := 0x1000058, s1 := 0x100, n1 := 512, scope := .task, shB := 0x10000D8, sh1 := 0x100 },
    { base := 0x1020000, s1 := 0x100, n1 := 8, w1c := 0x80000000, scope := .own },
    { base := 0x1020004, s1 := 0x100, n1 := 8, pair := .lo, scope := .own },
    { base := 0x1020008, s1 := 0x100, n1 := 8, pair := .hi, scope := .own },
    { base := 0x102000C, s1 := 0x100, n1 := 8, reset := 0x1, scope := .own },
    { base := 0x1020010, s1 := 0x100, n1 := 8, scope := .own },
    { base := 0x1020014, s1 := 0x100, n1 := 8, scope := .own, shB := 0x1020054, sh1 := 0x100 },
    { base := 0x1020018, s1 := 0x100, n1 := 8, scope := .own },
    { base := 0x1030000, w1c := 0x10000 },
    { base := 0x1030004, pair := .lo },
    { base := 0x1030008, pair := .hi },
    { base := 0x103000C, shB := 0x103080C },
    { base := 0x1030010, shB := 0x1030810 },
    { base := 0x1100000, s1 := 0x40, n1 := 4096, scope := .ring },
    { base := 0x1100004, s1 := 0x40, n1 := 4096, pair := .lo, scope := .ring },
    { base := 0x1100008, s1 := 0x40, n1 := 4096, pair := .hi, scope := .ring },
    { base := 0x110000C, s1 := 0x40, n1 := 4096, scope := .ring },
    { base := 0x1100010, s1 := 0x40, n1 := 4096, rw := 0x1, scope := .ring } ] ++
  [
    { base := 0x1100014, s1 := 0x40, n1 := 4096, w1c := 0x700, scope := .ring },
    { base := 0x1100018, s1 := 0x40, n1 := 4096, scope := .ring },
    { base := 0x110001C, s1 := 0x40, n1 := 4096, scope := .ring },
    { base := 0x1100020, s1 := 0x40, n1 := 4096, pair := .lo, scope := .ring, shB := 0x1140020, sh1 := 0x40 },
    { base := 0x1100024, s1 := 0x40, n1 := 4096, pair := .hi, scope := .ring, shB := 0x1140024, sh1 := 0x40 },
    { base := 0x1100028, s1 := 0x40, n1 := 4096, pair := .lo, scope := .ring, shB := 0x1140028, sh1 := 0x40 },
    { base := 0x110002C, s1 := 0x40, n1 := 4096, pair := .hi, scope := .ring, shB := 0x114002C, sh1 := 0x40 },
    { base := 0x1100030, s1 := 0x40, n1 := 4096, scope := .ring, shB := 0x1140030, sh1 := 0x40 },
    { base := 0x1100034, s1 := 0x40, n1 := 4096, scope := .ring, shB := 0x1140034, sh1 := 0x40 },
    { base := 0x1100038, s1 := 0x40, n1 := 4096, scope := .ring, shB := 0x1140038, sh1 := 0x40 },
    { base := 0x110003C, s1 := 0x40, n1 := 4096, rc := 0x1FFFF, scope := .ring, shB := 0x114003C, sh1 := 0x40 },
    { base := 0x1040000, s1 := 0x100, n1 := 8, w1c := 0x803F0000, scope := .own },
    { base := 0x1040004, s1 := 0x100, n1 := 8, scope := .own },
    { base := 0x1040008, s1 := 0x100, n1 := 8, pair := .lo, scope := .own },
    { base := 0x104000C, s1 := 0x100, n1 := 8, pair := .hi, scope := .own },
    { base := 0x1040010, s1 := 0x100, n1 := 8, scope := .own },
    { base := 0x1040014, s1 := 0x100, n1 := 8, scope := .own },
    { base := 0x1040018, s1 := 0x100, n1 := 8, scope := .own },
    { base := 0x104001C, s1 := 0x100, n1 := 8, scope := .own },
    { base := 0x1040020, s1 := 0x100, n1 := 8, scope := .own },
    { base := 0x1040024, s1 := 0x100, n1 := 8, scope := .own, shB := 0x1040064, sh1 := 0x100 },
    { base := 0x1040028, s1 := 0x100, n1 := 8, scope := .own, shB := 0x1040068, sh1 := 0x100 },
    { base := 0x104002C, s1 := 0x100, n1 := 8, scope := .own, shB := 0x104006C, sh1 := 0x100 } ]

/-- The RED block's registers. -/
def tableRED : List RegDesc :=
  [
    { base := 0x180000, w1c := 0x7F0000, scope := .o0 },
    { base := 0x180004, scope := .o0 },
    { base := 0x180008, scope := .o0 },
    { base := 0x18000C, pair := .lo, scope := .o0 },
    { base := 0x180010, pair := .hi, scope := .o0 },
    { base := 0x180014, scope := .o0 },
    { base := 0x180018, wo := 0x3, scope := .o0 },
    { base := 0x18001C, scope := .o0 },
    { base := 0x180020, pair := .lo, scope := .o0, shB := 0x180820 },
    { base := 0x180024, pair := .hi, scope := .o0, shB := 0x180824 },
    { base := 0x180028, scope := .o0, shB := 0x180828 },
    { base := 0x18002C, scope := .o0, shB := 0x18082C },
    { base := 0x180030, rc := 0xFFFFFFFF, scope := .o0, shB := 0x180830 },
    { base := 0x180034, scope := .o0, shB := 0x180834 },
    { base := 0x180038, scope := .o0, shB := 0x180838 },
    { base := 0x18003C, pair := .lo, scope := .o0, shB := 0x18083C },
    { base := 0x180040, pair := .hi, scope := .o0, shB := 0x180840 },
    { base := 0x180044, rc := 0xFFFF, scope := .o0, shB := 0x180844 },
    { base := 0x180048, scope := .o0, shB := 0x180848 },
    { base := 0x18004C, scope := .o0, shB := 0x18084C },
    { base := 0x180050, pair := .lo, scope := .o0 },
    { base := 0x180054, pair := .hi, scope := .o0 },
    { base := 0x180058, scope := .o0 },
    { base := 0x18005C, scope := .o0, shB := 0x18085C },
    { base := 0x180060, scope := .o0, shB := 0x180860 },
    { base := 0x180064, scope := .o0 } ]

/-- The MMU block's registers. -/
def tableMMU : List RegDesc :=
  [
    { base := 0x4000000, w1c := 0x10000 },
    { base := 0x4000004 },
    { base := 0x4000008 },
    { base := 0x400000C },
    { base := 0x4000010, shB := 0x4000810 },
    { base := 0x4000014, shB := 0x4000814 },
    { base := 0x4001000, s1 := 0x100, n1 := 8, w1c := 0x3F00, scope := .own },
    { base := 0x4001004, s1 := 0x100, n1 := 8, wo := 0x1, scope := .own },
    { base := 0x4001008, s1 := 0x100, n1 := 8, pair := .lo, scope := .own },
    { base := 0x400100C, s1 := 0x100, n1 := 8, pair := .hi, scope := .own },
    { base := 0x4001010, s1 := 0x100, n1 := 8, scope := .own },
    { base := 0x4001014, s1 := 0x100, n1 := 8, scope := .own },
    { base := 0x4001018, s1 := 0x100, n1 := 8, scope := .own },
    { base := 0x400101C, s1 := 0x100, n1 := 8, scope := .own },
    { base := 0x4001020, s1 := 0x100, n1 := 8, rc := 0xFFFFFFFF, scope := .own, shB := 0x40010A0, sh1 := 0x100 },
    { base := 0x4001024, s1 := 0x100, n1 := 8, scope := .own },
    { base := 0x4001028, s1 := 0x100, n1 := 8, pair := .lo, scope := .own },
    { base := 0x400102C, s1 := 0x100, n1 := 8, pair := .hi, scope := .own },
    { base := 0x4001030, s1 := 0x100, n1 := 8, pair := .lo, scope := .own, shB := 0x40010B0, sh1 := 0x100 },
    { base := 0x4001034, s1 := 0x100, n1 := 8, pair := .hi, scope := .own, shB := 0x40010B4, sh1 := 0x100 },
    { base := 0x4001038, s1 := 0x100, n1 := 8, pair := .lo, scope := .own, shB := 0x40010B8, sh1 := 0x100 },
    { base := 0x400103C, s1 := 0x100, n1 := 8, pair := .hi, scope := .own, shB := 0x40010BC, sh1 := 0x100 },
    { base := 0x4001040, s1 := 0x100, n1 := 8, scope := .own, shB := 0x40010C0, sh1 := 0x100 },
    { base := 0x4001044, s1 := 0x100, n1 := 8, scope := .own, shB := 0x40010C4, sh1 := 0x100 },
    { base := 0x4001048, s1 := 0x100, n1 := 8, scope := .own, shB := 0x40010C8, sh1 := 0x100 },
    { base := 0x400104C, s1 := 0x100, n1 := 8, scope := .own, shB := 0x40010CC, sh1 := 0x100 },
    { base := 0x4001050, s1 := 0x100, n1 := 8, scope := .own, shB := 0x40010D0, sh1 := 0x100 },
    { base := 0x4001054, s1 := 0x100, n1 := 8, scope := .own, shB := 0x40010D4, sh1 := 0x100 },
    { base := 0x4001058, s1 := 0x100, n1 := 8, scope := .own, shB := 0x40010D8, sh1 := 0x100 },
    { base := 0x4004000, s1 := 0x40, n1 := 64, pair := .lo, scope := .bent, shB := 0x4004020, sh1 := 0x40 },
    { base := 0x4004004, s1 := 0x40, n1 := 64, pair := .hi, scope := .bent, shB := 0x4004024, sh1 := 0x40 },
    { base := 0x4004008, s1 := 0x40, n1 := 64, scope := .bent, shB := 0x4004028, sh1 := 0x40 },
    { base := 0x400400C, s1 := 0x40, n1 := 64, scope := .bent, shB := 0x400402C, sh1 := 0x40 },
    { base := 0x4004010, s1 := 0x40, n1 := 64, rc := 0xFFF, scope := .bent, shB := 0x4004030, sh1 := 0x40 } ]

/-- The STO block's registers. -/
def tableSTO : List RegDesc :=
  [
    { base := 0x5000000, w1c := 0xF0000 },
    { base := 0x5000004, rw := 0x1 },
    { base := 0x5000008 },
    { base := 0x500000C, rc := 0xFFFFFFFF, shB := 0x500080C },
    { base := 0x5000010 },
    { base := 0x5000014 },
    { base := 0x5000018 },
    { base := 0x500001C },
    { base := 0x5000020 },
    { base := 0x5000024 },
    { base := 0x5000028, pair := .lo },
    { base := 0x500002C, pair := .hi },
    { base := 0x5000030, pair := .lo, shB := 0x5000830 },
    { base := 0x5000034, pair := .hi, shB := 0x5000834 },
    { base := 0x5000038, pair := .lo, shB := 0x5000838 },
    { base := 0x500003C, pair := .hi, shB := 0x500083C },
    { base := 0x5000040, shB := 0x5000840 },
    { base := 0x5000044, shB := 0x5000844 },
    { base := 0x5000048, shB := 0x5000848 },
    { base := 0x500004C, shB := 0x500084C },
    { base := 0x5001000, s1 := 0x100, n1 := 8, scope := .own, shB := 0x5001080, sh1 := 0x100 },
    { base := 0x5001004, s1 := 0x100, n1 := 8, scope := .own },
    { base := 0x5001008, s1 := 0x100, n1 := 8, scope := .own },
    { base := 0x500100C, s1 := 0x100, n1 := 8, scope := .own, shB := 0x500108C, sh1 := 0x100 },
    { base := 0x5001010, s1 := 0x100, n1 := 8, pair := .lo, scope := .own, shB := 0x5001090, sh1 := 0x100 },
    { base := 0x5001014, s1 := 0x100, n1 := 8, pair := .hi, scope := .own, shB := 0x5001094, sh1 := 0x100 } ]

/-- The NET block's registers. -/
def tableNET : List RegDesc :=
  [
    { base := 0x6000000, s1 := 0x4000, n1 := 128, rw := 0x1 },
    { base := 0x6000004, s1 := 0x4000, n1 := 128, w1c := 0x30000 },
    { base := 0x6000008, s1 := 0x4000, n1 := 128 },
    { base := 0x600000C, s1 := 0x4000, n1 := 128 },
    { base := 0x6000010, s1 := 0x4000, n1 := 128, pair := .lo, shB := 0x6000810, sh1 := 0x4000 },
    { base := 0x6000014, s1 := 0x4000, n1 := 128, pair := .hi, shB := 0x6000814, sh1 := 0x4000 },
    { base := 0x6000018, s1 := 0x4000, n1 := 128, pair := .lo, shB := 0x6000818, sh1 := 0x4000 },
    { base := 0x600001C, s1 := 0x4000, n1 := 128, pair := .hi, shB := 0x600081C, sh1 := 0x4000 },
    { base := 0x6000020, s1 := 0x4000, n1 := 128, pair := .lo, shB := 0x6000820, sh1 := 0x4000 },
    { base := 0x6000024, s1 := 0x4000, n1 := 128, pair := .hi, shB := 0x6000824, sh1 := 0x4000 },
    { base := 0x6000028, s1 := 0x4000, n1 := 128, pair := .lo, shB := 0x6000828, sh1 := 0x4000 },
    { base := 0x600002C, s1 := 0x4000, n1 := 128, pair := .hi, shB := 0x600082C, sh1 := 0x4000 },
    { base := 0x6000030, s1 := 0x4000, n1 := 128, pair := .lo, shB := 0x6000830, sh1 := 0x4000 },
    { base := 0x6000034, s1 := 0x4000, n1 := 128, pair := .hi, shB := 0x6000834, sh1 := 0x4000 },
    { base := 0x6000038, s1 := 0x4000, n1 := 128, pair := .lo, shB := 0x6000838, sh1 := 0x4000 },
    { base := 0x600003C, s1 := 0x4000, n1 := 128, pair := .hi, shB := 0x600083C, sh1 := 0x4000 },
    { base := 0x6000040, s1 := 0x4000, n1 := 128, shB := 0x6000840, sh1 := 0x4000 },
    { base := 0x6000044, s1 := 0x4000, n1 := 128, shB := 0x6000844, sh1 := 0x4000 },
    { base := 0x6000048, s1 := 0x4000, n1 := 128, shB := 0x6000848, sh1 := 0x4000 },
    { base := 0x600004C, s1 := 0x4000, n1 := 128, shB := 0x600084C, sh1 := 0x4000 },
    { base := 0x6000050, s1 := 0x4000, n1 := 128, shB := 0x6000850, sh1 := 0x4000 },
    { base := 0x6000054, s1 := 0x4000, n1 := 128, shB := 0x6000854, sh1 := 0x4000 },
    { base := 0x6000058, s1 := 0x4000, n1 := 128, shB := 0x6000858, sh1 := 0x4000 },
    { base := 0x600005C, s1 := 0x4000, n1 := 128, shB := 0x600085C, sh1 := 0x4000 },
    { base := 0x6000060, s1 := 0x4000, n1 := 128, shB := 0x6000860, sh1 := 0x4000 },
    { base := 0x6000064, s1 := 0x4000, n1 := 128, shB := 0x6000864, sh1 := 0x4000 },
    { base := 0x6000068, s1 := 0x4000, n1 := 128, shB := 0x6000868, sh1 := 0x4000 },
    { base := 0x6200000, s1 := 0x20, n1 := 4096, w1c := 0x10000, scope := .sub },
    { base := 0x6200004, s1 := 0x20, n1 := 4096, scope := .sub },
    { base := 0x6200008, s1 := 0x20, n1 := 4096, scope := .sub },
    { base := 0x620000C, s1 := 0x20, n1 := 4096, scope := .sub, shB := 0x6220000, sh1 := 0x10 },
    { base := 0x6200010, s1 := 0x20, n1 := 4096, scope := .sub, shB := 0x6220004, sh1 := 0x10 },
    { base := 0x6200014, s1 := 0x20, n1 := 4096, pair := .lo, scope := .sub },
    { base := 0x6200018, s1 := 0x20, n1 := 4096, pair := .hi, scope := .sub },
    { base := 0x620001C, s1 := 0x20, n1 := 4096, scope := .sub },
    { base := 0x6240000, s1 := 0x20, n1 := 1024, scope := .pub },
    { base := 0x6240004, s1 := 0x20, n1 := 1024, scope := .pub },
    { base := 0x6240008, s1 := 0x20, n1 := 1024, scope := .pub },
    { base := 0x624000C, s1 := 0x20, n1 := 1024, scope := .pub, shB := 0x6250000, sh1 := 0x10 },
    { base := 0x6240010, s1 := 0x20, n1 := 1024, scope := .pub, shB := 0x6250004, sh1 := 0x10 } ] ++
  [
    { base := 0x6240014, s1 := 0x20, n1 := 1024, pair := .lo, scope := .pub },
    { base := 0x6240018, s1 := 0x20, n1 := 1024, pair := .hi, scope := .pub },
    { base := 0x624001C, s1 := 0x20, n1 := 1024, scope := .pub },
    { base := 0x6260000, s1 := 0x20, n1 := 1024, w1c := 0x10000, scope := .strm },
    { base := 0x6260004, s1 := 0x20, n1 := 1024, scope := .strm },
    { base := 0x6260008, s1 := 0x20, n1 := 1024, scope := .strm, shB := 0x6270000, sh1 := 0x10 },
    { base := 0x626000C, s1 := 0x20, n1 := 1024, scope := .strm, shB := 0x6270004, sh1 := 0x10 },
    { base := 0x6260010, s1 := 0x20, n1 := 1024, scope := .strm, shB := 0x6270008, sh1 := 0x10 },
    { base := 0x6260014, s1 := 0x20, n1 := 1024, pair := .lo, scope := .strm },
    { base := 0x6260018, s1 := 0x20, n1 := 1024, pair := .hi, scope := .strm },
    { base := 0x6280000, s1 := 0x100, n1 := 8, s2 := 0x10, n2 := 16, scope := .own },
    { base := 0x6280004, s1 := 0x100, n1 := 8, s2 := 0x10, n2 := 16, scope := .own, shB := 0x6290004, sh1 := 0x100, sh2 := 0x10 },
    { base := 0x6280008, s1 := 0x100, n1 := 8, s2 := 0x10, n2 := 16, scope := .own, shB := 0x6290008, sh1 := 0x100, sh2 := 0x10 },
    { base := 0x628000C, s1 := 0x100, n1 := 8, s2 := 0x10, n2 := 16, scope := .own, shB := 0x629000C, sh1 := 0x100, sh2 := 0x10 },
    { base := 0x6300000, w1c := 0x30000 },
    { base := 0x6300004 },
    { base := 0x6300008, shB := 0x6300808 },
    { base := 0x630000C, shB := 0x630080C },
    { base := 0x6310000, s1 := 0x20, n1 := 65, scope := .sess },
    { base := 0x6310004, s1 := 0x20, n1 := 65, scope := .sess, shB := 0x6310014, sh1 := 0x20 },
    { base := 0x6310008, s1 := 0x20, n1 := 65, scope := .sess, shB := 0x6310018, sh1 := 0x20 },
    { base := 0x631000C, s1 := 0x20, n1 := 65, scope := .sess, shB := 0x631001C, sh1 := 0x20 } ]

/-- The TIM block's registers. -/
def tableTIM : List RegDesc :=
  [
    { base := 0x140000, w1c := 0xF0000 },
    { base := 0x140004, pair := .lo },
    { base := 0x140008, pair := .hi },
    { base := 0x14000C, reset := 0x7D000014 },
    { base := 0x140010, reset := 0xA0000 },
    { base := 0x140014, rw := 0xFFFFF },
    { base := 0x140018 },
    { base := 0x14001C },
    { base := 0x140020 },
    { base := 0x140024, pair := .lo },
    { base := 0x140028, pair := .hi },
    { base := 0x14002C, pair := .lo },
    { base := 0x140030, pair := .hi },
    { base := 0x140034, reset := 0x27100 },
    { base := 0x140038 },
    { base := 0x14003C },
    { base := 0x140040 },
    { base := 0x140044 },
    { base := 0x140048, pair := .lo },
    { base := 0x14004C, pair := .hi },
    { base := 0x140050, shB := 0x140850 },
    { base := 0x140054, shB := 0x140854 },
    { base := 0x140058, shB := 0x140858 },
    { base := 0x141000, s1 := 0x20, n1 := 64, rw := 0xFFFFFFFF, pair := .lo, scope := .cu },
    { base := 0x141004, s1 := 0x20, n1 := 64, rw := 0xFFFFFFFF, pair := .hi, scope := .cu },
    { base := 0x141008, s1 := 0x20, n1 := 64, rw := 0x3FFFFFF, scope := .cu },
    { base := 0x14100C, s1 := 0x20, n1 := 64, rw := 0x1, scope := .cu },
    { base := 0x141010, s1 := 0x20, n1 := 64, w1c := 0x30000, scope := .cu },
    { base := 0x141014, s1 := 0x20, n1 := 64, scope := .cu, shB := 0x141018, sh1 := 0x20 },
    { base := 0x142000, s1 := 0x20, n1 := 128 },
    { base := 0x142004, s1 := 0x20, n1 := 128 },
    { base := 0x142008, s1 := 0x20, n1 := 128 },
    { base := 0x14200C, s1 := 0x20, n1 := 128, shB := 0x143000, sh1 := 0x10 },
    { base := 0x142010, s1 := 0x20, n1 := 128, shB := 0x143004, sh1 := 0x10 },
    { base := 0x142014, s1 := 0x20, n1 := 128, shB := 0x143008, sh1 := 0x10 },
    { base := 0x144000, rw := 0x7, scope := .o0 },
    { base := 0x144004, w1c := 0x3, reset := 0x1, scope := .o0 },
    { base := 0x144008, rw := 0xFFFFFFFF, pair := .lo, scope := .o0 },
    { base := 0x14400C, rw := 0xFFFF, pair := .hi, scope := .o0 },
    { base := 0x144010, scope := .o0 } ] ++
  [
    { base := 0x144014, rw := 0xFFFF0F1F, scope := .o0 },
    { base := 0x144018, rw := 0x1F3F3F, scope := .o0 },
    { base := 0x14401C, rw := 0xFFFF, scope := .o0 },
    { base := 0x144020, s1 := 0x4, n1 := 8, rw := 0xFFFFFFFF, scope := .o0 } ]

/-- The CAN block's registers. -/
def tableCAN : List RegDesc :=
  [
    { base := 0x400000, s1 := 0x8000, n1 := 32, rw := 0x7, wo := 0x300, scope := .can },
    { base := 0x400004, s1 := 0x8000, n1 := 32, w1c := 0x1F0000, scope := .can },
    { base := 0x400008, s1 := 0x8000, n1 := 32, scope := .can },
    { base := 0x40000C, s1 := 0x8000, n1 := 32, scope := .can },
    { base := 0x400010, s1 := 0x8000, n1 := 32, scope := .can },
    { base := 0x400014, s1 := 0x8000, n1 := 32, scope := .can },
    { base := 0x400018, s1 := 0x8000, n1 := 32, scope := .can },
    { base := 0x40001C, s1 := 0x8000, n1 := 32, scope := .can },
    { base := 0x400020, s1 := 0x8000, n1 := 32, scope := .can },
    { base := 0x400024, s1 := 0x8000, n1 := 32, pair := .lo, scope := .can },
    { base := 0x400028, s1 := 0x8000, n1 := 32, pair := .hi, scope := .can },
    { base := 0x40002C, s1 := 0x8000, n1 := 32, pair := .lo, scope := .can, shB := 0x40082C, sh1 := 0x8000 },
    { base := 0x400030, s1 := 0x8000, n1 := 32, pair := .hi, scope := .can, shB := 0x400830, sh1 := 0x8000 },
    { base := 0x400034, s1 := 0x8000, n1 := 32, pair := .lo, scope := .can, shB := 0x400834, sh1 := 0x8000 },
    { base := 0x400038, s1 := 0x8000, n1 := 32, pair := .hi, scope := .can, shB := 0x400838, sh1 := 0x8000 },
    { base := 0x40003C, s1 := 0x8000, n1 := 32, scope := .can, shB := 0x40083C, sh1 := 0x8000 },
    { base := 0x400040, s1 := 0x8000, n1 := 32, scope := .can, shB := 0x400840, sh1 := 0x8000 },
    { base := 0x400044, s1 := 0x8000, n1 := 32, scope := .can, shB := 0x400844, sh1 := 0x8000 },
    { base := 0x400048, s1 := 0x8000, n1 := 32, scope := .can, shB := 0x400848, sh1 := 0x8000 },
    { base := 0x40004C, s1 := 0x8000, n1 := 32, scope := .can, shB := 0x40084C, sh1 := 0x8000 },
    { base := 0x400050, s1 := 0x8000, n1 := 32, scope := .can, shB := 0x400850, sh1 := 0x8000 },
    { base := 0x400054, s1 := 0x8000, n1 := 32, scope := .can, shB := 0x400854, sh1 := 0x8000 },
    { base := 0x400058, s1 := 0x8000, n1 := 32, scope := .can, shB := 0x400858, sh1 := 0x8000 },
    { base := 0x401000, s1 := 0x8000, n1 := 32, s2 := 0x80, n2 := 128, scope := .can },
    { base := 0x401004, s1 := 0x8000, n1 := 32, s2 := 0x80, n2 := 128, scope := .can },
    { base := 0x401008, s1 := 0x8000, n1 := 32, s2 := 0x80, n2 := 128, scope := .can },
    { base := 0x40100C, s1 := 0x8000, n1 := 32, s2 := 0x80, n2 := 128, scope := .can },
    { base := 0x401010, s1 := 0x8000, n1 := 32, s2 := 0x80, n2 := 128, w1c := 0xF0000, scope := .can },
    { base := 0x401014, s1 := 0x8000, n1 := 32, s2 := 0x80, n2 := 128, scope := .can },
    { base := 0x401018, s1 := 0x8000, n1 := 32, s2 := 0x80, n2 := 128, pair := .lo, scope := .can },
    { base := 0x40101C, s1 := 0x8000, n1 := 32, s2 := 0x80, n2 := 128, pair := .hi, scope := .can },
    { base := 0x401020, s1 := 0x8000, n1 := 32, s2 := 0x80, n2 := 128, wo := 0x1, scope := .can },
    { base := 0x401024, s1 := 0x8000, n1 := 32, s2 := 0x80, n2 := 128, scope := .can, shB := 0x401028, sh1 := 0x8000, sh2 := 0x80 },
    { base := 0x401040, s1 := 0x8000, n1 := 32, s2 := 0x80, n2 := 128, s3 := 0x4, n3 := 16, rw := 0xFFFFFFFF, scope := .can },
    { base := 0x400100, s1 := 0x8000, n1 := 32, scope := .can },
    { base := 0x400104, s1 := 0x8000, n1 := 32, scope := .can },
    { base := 0x400108, s1 := 0x8000, n1 := 32, scope := .can },
    { base := 0x40010C, s1 := 0x8000, n1 := 32, scope := .can },
    { base := 0x400110, s1 := 0x8000, n1 := 32, w1c := 0xF0000, scope := .can },
    { base := 0x400114, s1 := 0x8000, n1 := 32, scope := .can } ] ++
  [
    { base := 0x400118, s1 := 0x8000, n1 := 32, pair := .lo, scope := .can },
    { base := 0x40011C, s1 := 0x8000, n1 := 32, pair := .hi, scope := .can },
    { base := 0x400124, s1 := 0x8000, n1 := 32, scope := .can, shB := 0x400128, sh1 := 0x8000 },
    { base := 0x400140, s1 := 0x8000, n1 := 32, s2 := 0x4, n2 := 16, scope := .can } ]

/-- The FIO block's registers. -/
def tableFIO : List RegDesc :=
  [
    { base := 0x300000, w1c := 0xF0000 },
    { base := 0x300004 },
    { base := 0x300010, s1 := 0x4, n1 := 4 },
    { base := 0x300020, s1 := 0x4, n1 := 4, rw := 0x3FF03FF, reset := 0x5A0046 },
    { base := 0x300030, pair := .lo, shB := 0x300830 },
    { base := 0x300034, pair := .hi, shB := 0x300834 },
    { base := 0x300038, shB := 0x300838 },
    { base := 0x30003C, shB := 0x30083C },
    { base := 0x300040, shB := 0x300840 },
    { base := 0x300044, shB := 0x300844 },
    { base := 0x301000, s1 := 0x20, n1 := 64, scope := .dch },
    { base := 0x301004, s1 := 0x20, n1 := 64, scope := .dch },
    { base := 0x301008, s1 := 0x20, n1 := 64, w1c := 0x70000, scope := .dch },
    { base := 0x30100C, s1 := 0x20, n1 := 64, scope := .dch, shB := 0x301018, sh1 := 0x20 },
    { base := 0x301010, s1 := 0x20, n1 := 64, pair := .lo, scope := .dch },
    { base := 0x301014, s1 := 0x20, n1 := 64, pair := .hi, scope := .dch },
    { base := 0x302000, s1 := 0x40, n1 := 16, scope := .ach },
    { base := 0x302004, s1 := 0x40, n1 := 16, scope := .ach },
    { base := 0x302008, s1 := 0x40, n1 := 16, scope := .ach },
    { base := 0x30200C, s1 := 0x40, n1 := 16, w1c := 0x30000, scope := .ach },
    { base := 0x302010, s1 := 0x40, n1 := 16, scope := .ach },
    { base := 0x302014, s1 := 0x40, n1 := 16, scope := .ach },
    { base := 0x302018, s1 := 0x40, n1 := 16, rw := 0xFFFF, scope := .ach },
    { base := 0x30201C, s1 := 0x40, n1 := 16, rw := 0xFFFF, scope := .ach },
    { base := 0x302020, s1 := 0x40, n1 := 16, scope := .ach, shB := 0x302024, sh1 := 0x40 } ]

/-- The LOP block's registers. -/
def tableLOP : List RegDesc :=
  [
    { base := 0x200000, s1 := 0x400, n1 := 256, scope := .loop },
    { base := 0x200004, s1 := 0x400, n1 := 256, scope := .loop },
    { base := 0x200008, s1 := 0x400, n1 := 256, scope := .loop },
    { base := 0x20000C, s1 := 0x400, n1 := 256, scope := .loop },
    { base := 0x200010, s1 := 0x400, n1 := 256, scope := .loop },
    { base := 0x200014, s1 := 0x400, n1 := 256, scope := .loop },
    { base := 0x200018, s1 := 0x400, n1 := 256, scope := .loop },
    { base := 0x20001C, s1 := 0x400, n1 := 256, scope := .loop },
    { base := 0x200020, s1 := 0x400, n1 := 256, scope := .loop },
    { base := 0x200024, s1 := 0x400, n1 := 256, scope := .loop },
    { base := 0x200028, s1 := 0x400, n1 := 256, scope := .loop },
    { base := 0x20002C, s1 := 0x400, n1 := 256, scope := .loop },
    { base := 0x200030, s1 := 0x400, n1 := 256, scope := .loop },
    { base := 0x200034, s1 := 0x400, n1 := 256, scope := .loop },
    { base := 0x200038, s1 := 0x400, n1 := 256, s2 := 0x4, n2 := 7, scope := .loop },
    { base := 0x200054, s1 := 0x400, n1 := 256, scope := .loop },
    { base := 0x200058, s1 := 0x400, n1 := 256, scope := .loop },
    { base := 0x20005C, s1 := 0x400, n1 := 256, scope := .loop },
    { base := 0x200060, s1 := 0x400, n1 := 256, scope := .loop },
    { base := 0x200064, s1 := 0x400, n1 := 256, scope := .loop },
    { base := 0x200068, s1 := 0x400, n1 := 256, scope := .loop },
    { base := 0x20006C, s1 := 0x400, n1 := 256, scope := .loop },
    { base := 0x200080, s1 := 0x400, n1 := 256, s2 := 0x10, n2 := 8, s3 := 0x4, n3 := 4, scope := .loop },
    { base := 0x200100, s1 := 0x400, n1 := 256, rw := 0x1, scope := .loop },
    { base := 0x200104, s1 := 0x400, n1 := 256, w1c := 0x7F0000, scope := .loop },
    { base := 0x200108, s1 := 0x400, n1 := 256, scope := .loop },
    { base := 0x20010C, s1 := 0x400, n1 := 256, scope := .loop },
    { base := 0x200110, s1 := 0x400, n1 := 256, scope := .loop },
    { base := 0x200114, s1 := 0x400, n1 := 256, scope := .loop },
    { base := 0x200118, s1 := 0x400, n1 := 256, scope := .loop },
    { base := 0x20011C, s1 := 0x400, n1 := 256, pair := .lo, scope := .loop },
    { base := 0x200120, s1 := 0x400, n1 := 256, pair := .hi, scope := .loop },
    { base := 0x200124, s1 := 0x400, n1 := 256, pair := .lo, scope := .loop, shB := 0x200324, sh1 := 0x400 },
    { base := 0x200128, s1 := 0x400, n1 := 256, pair := .hi, scope := .loop, shB := 0x200328, sh1 := 0x400 },
    { base := 0x20012C, s1 := 0x400, n1 := 256, scope := .loop, shB := 0x20032C, sh1 := 0x400 },
    { base := 0x200130, s1 := 0x400, n1 := 256, scope := .loop, shB := 0x200330, sh1 := 0x400 },
    { base := 0x200134, s1 := 0x400, n1 := 256, scope := .loop, shB := 0x200334, sh1 := 0x400 },
    { base := 0x200138, s1 := 0x400, n1 := 256, scope := .loop, shB := 0x200338, sh1 := 0x400 },
    { base := 0x20013C, s1 := 0x400, n1 := 256, scope := .loop, shB := 0x20033C, sh1 := 0x400 },
    { base := 0x200140, s1 := 0x400, n1 := 256, scope := .loop, shB := 0x200340, sh1 := 0x400 } ] ++
  [
    { base := 0x200144, s1 := 0x400, n1 := 256, scope := .loop, shB := 0x200344, sh1 := 0x400 },
    { base := 0x240000, w1c := 0x10000 },
    { base := 0x240004, shB := 0x240804 },
    { base := 0x240008, shB := 0x240808 } ]

/-- The FLT block's registers. -/
def tableFLT : List RegDesc :=
  [
    { base := 0x80000, w1c := 0xF0000 },
    { base := 0x80004, reset := 0x3E8 },
    { base := 0x80008, reset := 0xE1000 },
    { base := 0x8000C },
    { base := 0x80010 },
    { base := 0x80014, shB := 0x80814 },
    { base := 0x80018, pair := .lo, shB := 0x80818 },
    { base := 0x8001C, pair := .hi, shB := 0x8081C },
    { base := 0x80020, shB := 0x80820 },
    { base := 0x80024, wo := 0x1 },
    { base := 0x80028, wo := 0x7 },
    { base := 0x8002C, rw := 0xFFFFFFFF, pair := .lo },
    { base := 0x80030, rw := 0xFFFFFFFF, pair := .hi },
    { base := 0x80034, pair := .lo },
    { base := 0x80038, pair := .hi },
    { base := 0x8003C, shB := 0x8083C },
    { base := 0x80100, s1 := 0x20, n1 := 8, scope := .own },
    { base := 0x80104, s1 := 0x20, n1 := 8, scope := .own, shB := 0x80904, sh1 := 0x20 },
    { base := 0x80108, s1 := 0x20, n1 := 8, scope := .own, shB := 0x80908, sh1 := 0x20 },
    { base := 0x80200, s1 := 0x4, n1 := 8, scope := .hist },
    { base := 0x81000, s1 := 0x20, n1 := 64, s2 := 0x4, n2 := 8, scope := .hist },
    { base := 0x82000, s1 := 0x10, n1 := 2048, scope := .src },
    { base := 0x82004, s1 := 0x10, n1 := 2048, w1c := 0x10000, scope := .src },
    { base := 0x82008, s1 := 0x10, n1 := 2048, scope := .src, shB := 0x90000, sh1 := 0x4 },
    { base := 0x8200C, s1 := 0x10, n1 := 2048, rw := 0x1, scope := .src } ]

/-- The WDG block's registers. -/
def tableWDG : List RegDesc :=
  [
    { base := 0x40000, s1 := 0x40, n1 := 9, rw := 0x3, scope := .wdg },
    { base := 0x40004, s1 := 0x40, n1 := 9, wo := 0xFFFF, scope := .wdg },
    { base := 0x40008, s1 := 0x40, n1 := 9, rw := 0x3FFFFFF, scope := .wdg },
    { base := 0x4000C, s1 := 0x40, n1 := 9, w1c := 0xF0000, scope := .wdg },
    { base := 0x40010, s1 := 0x40, n1 := 9, scope := .wdg },
    { base := 0x40014, s1 := 0x40, n1 := 9, scope := .wdg, shB := 0x40814, sh1 := 0x40 },
    { base := 0x40018, s1 := 0x40, n1 := 9, scope := .wdg, shB := 0x40818, sh1 := 0x40 },
    { base := 0x4001C, s1 := 0x40, n1 := 9, scope := .wdg, shB := 0x4081C, sh1 := 0x40 } ]

/-- The NVS block's registers. -/
def tableNVS : List RegDesc :=
  [
    { base := 0xC0000, w1c := 0x70000 },
    { base := 0xC0004, pair := .lo },
    { base := 0xC0008, pair := .hi },
    { base := 0xC000C, shB := 0xC080C },
    { base := 0xC0010, shB := 0xC0810 },
    { base := 0xC0014, shB := 0xC0814 },
    { base := 0xC1000, s1 := 0x20, n1 := 64, scope := .reg },
    { base := 0xC1004, s1 := 0x20, n1 := 64, scope := .reg },
    { base := 0xC1008, s1 := 0x20, n1 := 64, scope := .reg },
    { base := 0xC100C, s1 := 0x20, n1 := 64, w1c := 0x10000, scope := .reg },
    { base := 0xC1010, s1 := 0x20, n1 := 64, scope := .reg, shB := 0xC1014, sh1 := 0x20 },
    { base := 0xC2000, s1 := 0x40, n1 := 8, rw := 0x13F, scope := .own },
    { base := 0xC2004, s1 := 0x40, n1 := 8, wo := 0xFFFFFFFF, pair := .lo, scope := .own },
    { base := 0xC2008, s1 := 0x40, n1 := 8, wo := 0xFFFFFFFF, pair := .hi, scope := .own },
    { base := 0xC200C, s1 := 0x40, n1 := 8, rw := 0x7FFFFF, scope := .own },
    { base := 0xC2010, s1 := 0x40, n1 := 8, rw := 0xFFFFFFFF, scope := .own },
    { base := 0xC2014, s1 := 0x40, n1 := 8, w1c := 0x70000, scope := .own },
    { base := 0xC2018, s1 := 0x40, n1 := 8, wo := 0xFFFFFFFF, pair := .lo, scope := .own },
    { base := 0xC201C, s1 := 0x40, n1 := 8, wo := 0xFFFFFFFF, pair := .hi, scope := .own },
    { base := 0xC2020, s1 := 0x40, n1 := 8, wo := 0x3, scope := .own } ]

/-- The ALM block's registers. -/
def tableALM : List RegDesc :=
  [
    { base := 0x100000, w1c := 0x30000 },
    { base := 0x100004 },
    { base := 0x100008 },
    { base := 0x10000C },
    { base := 0x100010 },
    { base := 0x100014 },
    { base := 0x100018, shB := 0x100818 },
    { base := 0x10001C, shB := 0x10081C },
    { base := 0x100020, shB := 0x100820 },
    { base := 0x100024, rc := 0x1FF, shB := 0x100824 } ]

end Reg
end Sys2Proof
end

