-- ==== Sys2Proof/Machine/StateCfg.lean ====
section
/-! DEFINITION. The scantling as structured data: what a loaded, checked scantling says, section by section (chapters 3,
6-9 and 16-21). A configuration plane set of the module holds one `Scn`. Every record is a plain structure whose defaults
are those of an absent section. -/
namespace Sys2Proof.Machine

/-- A bent in PART (Table 3.11): assigned, its owner, keep-warm, idle hold in us (R20). -/
structure BentCfg where
  assigned : Bool := false
  owner : Nat := 0
  keepWarm : Bool := false
  idleUs : Nat := 100
  deriving DecidableEq, Repr

/-- A row range: base (absolute row) and length (R146). -/
structure RowRange where
  base : Nat := 0
  len : Nat := 0
  deriving DecidableEq, Repr

/-- A PART owner record (Table 3.12). -/
structure OwnerCfg where
  perm : Nat := 0
  drlim : Nat := 0
  retmax : Nat := 0
  inR : RowRange := {}
  outR : RowRange := {}
  mrkR : RowRange := {}
  sysR : RowRange := {}
  semR : RowRange := {}
  prgBase : Nat := 0
  prgLen : Nat := 0
  deriving DecidableEq, Repr

/-- PART (Table 3.11); ownership maps hold only assigned items. -/
structure Part where
  pagTib : Nat := 4
  grpv : Nat := 0
  keyErase : Nat := 0
  bents : SMap BentCfg := []
  owners : SMap OwnerCfg := []
  taskOwn : SMap Nat := []
  ringOwn : SMap Nat := []
  loopOwn : SMap Nat := []
  canOwn : SMap Nat := []
  dOwn : SMap Nat := []
  aOwn : SMap Nat := []
  fltOwn : SMap Nat := []
  deriving DecidableEq, Repr

/-- A page range of a task (Table 3.17): space code 5, 6 or 7, first page of the space, page count. -/
structure PageRange where
  space : Nat
  first : Nat
  count : Nat
  deriving DecidableEq, Repr

/-- A TASK record (Table 3.18) with its page ranges. -/
structure TaskRec where
  defined : Bool := false
  owner : Nat := 0
  event : Bool := false
  det : Bool := false
  waits : Bool := false
  start : Bool := false
  prio : Nat := 0
  allow : Nat := 0
  bkind : Nat := 0
  edge : Nat := 0
  bspace : Nat := 0
  bind : Nat := 0
  period : Nat := 0
  phase : Nat := 0
  deadline : Nat := 0
  budget : Nat := 0
  lambda : Nat := 0
  entry : Nat := 0
  pmin : Nat := 0
  pmax : Nat := 0
  priomin : Nat := 0
  priomax : Nat := 0
  pages : List PageRange := []
  deriving DecidableEq, Repr

/-- A row-flag entry of IMGF (Table 3.19). -/
structure RowFlag where
  space : Nat
  logged : Bool
  ovlFault : Bool
  first : Nat
  count : Nat
  deriving DecidableEq, Repr

/-- IMGF of an owner; the defaults are those of an owner without the section (R76). -/
structure Imgf where
  quota : Nat := 1024
  guardUs : Nat := 0
  soeRing : Option Nat := none
  stallUs : Nat := 100
  flags : List RowFlag := []
  deriving DecidableEq, Repr

/-- An initial-value entry of CNST (Table 3.20): target code, offset (byte, or first row), data. -/
structure InitEntry where
  target : Nat
  off : Nat
  data : List Byte
  deriving DecidableEq, Repr

/-- CNST of an owner (Table 3.20). -/
structure Cnst where
  dataBase : Nat := 0
  dataSize : Nat := 0
  retBase : Nat := 0
  retSize : Nat := 0
  constBase : Nat := 0
  constSize : Nat := 0
  inits : List InitEntry := []
  deriving DecidableEq, Repr

/-- A ring descriptor (Table 8.1). -/
structure RingRec where
  defined : Bool := false
  esize : Nat := 0
  log2len : Nat := 4
  prod : Nat := 0
  cons : Nat := 0
  dbmode : Nat := 0
  enStart : Bool := false
  base : Nat := 0
  thresh : Nat := 0
  deriving DecidableEq, Repr

/-- MODE (Tables 3.16, 19.4, 21.4): start policies, Hold and Held settings (ms, s), watchdogs (period us, EN, LOCK),
confirm window (s) and factory region (255: none). -/
structure ModeCfg where
  pupol : Nat := 0
  rstpol : Nat := 0
  holdq : Nat := 1000
  holdalw : Nat := 0
  holdwin : Nat := 3600
  actage : Nat := 1000
  oquiet : SMap (Nat × Nat) := []
  wdgs : SMap (Nat × Nat) := []
  uconfwin : Nat := 600
  factreg : Nat := 255
  deriving DecidableEq, Repr

/-- A FLTR source record (Table 19.1); the default is class warning, reaction log (R440). -/
structure FltrRec where
  cls : Nat := 2
  react : Nat := 0
  task : Nat := 0xFFFF
  deriving DecidableEq, Repr

/-- An NVLY region record (Table 20.1), with its default image (R461). -/
structure Region where
  defined : Bool := false
  owner : Nat := 0
  base : Nat := 0
  size : Nat := 0
  dflt : Option (List Byte) := none
  deriving DecidableEq, Repr

/-- MGTP (R481): period in us, program lines, CONST bytes, DATA length. -/
structure Mgtp where
  period : Nat
  lines : List Nat
  const : List Byte
  dataLen : Nat
  deriving DecidableEq, Repr

/-- The header fields the module keeps (Table 3.1). -/
structure ScnHdr where
  unit : Nat := 0
  setfmt : Nat := 0
  totlen : Nat := 0
  buildid : Nat := 0
  ownmask : Nat := 0
  deriving DecidableEq, Repr

/-- VBAS facts (Table 3.9): key index, security version, ADVANCE. -/
structure Vbas where
  keyIdx : Nat := 0
  secVer : Nat := 0
  advance : Bool := false
  deriving DecidableEq, Repr

/-- A port record (Table 3.14). -/
structure PortRec where
  mode : Nat := 0
  fec : Nat := 0
  autoneg : Bool := false
  ptp : Bool := false
  master : Bool := false
  red : Nat := 0
  pvid : Nat := 0
  pcp : Nat := 0
  asym : Int := 0
  vids : List Nat := []
  deriving DecidableEq, Repr

/-- An IP record (Table 3.15): IPv4 and IPv6 addresses with prefix lengths, gateways (0: none). -/
structure IpRec where
  v4 : List (Nat × Nat) := []
  gw4 : Nat := 0
  v6 : List (Nat × Nat) := []
  gw6 : Nat := 0
  deriving DecidableEq, Repr

/-- PORT (Table 3.13); IP records by port index 96 to 123, and 128, 129 for SP0, SP1. -/
structure PortCfg where
  lrtport : Nat := 40961
  timcfg : Nat := 0x7D000014
  timsrc : Nat := 0xA0000
  timout : Nat := 0x27100
  profile : Nat := 0
  domain : Nat := 0
  role : Nat := 0
  anntmo : Nat := 3
  logsync : Int := 0
  logann : Int := 0
  prio1 : Nat := 0
  prio2 : Nat := 0
  ports : SMap PortRec := []
  ips : SMap IpRec := []
  deriving DecidableEq, Repr

/-- A template member (Table 13.2). -/
structure Member where
  ty : Nat
  map : Bool
  count : Nat
  addr : Nat
  deriving DecidableEq, Repr

/-- A dataset template (R314): space 0 IN or 1 OUT, members. -/
structure Template where
  space : Nat := 0
  members : List Member := []
  deriving DecidableEq, Repr

/-- A GOOSE subscription record (Table 13.4). -/
structure SubRec where
  owner : Nat
  port : Nat
  paired : Bool
  simok : Bool
  dmac : Nat
  appid : Nat
  vid : Nat
  templ : Nat
  confrev : Nat
  valid : Nat
  refcrc : Nat
  dscrc : Nat
  deriving DecidableEq, Repr

/-- A publication record (Table 13.5). -/
structure PubRec where
  owner : Nat
  port : Nat
  paired : Bool
  stopform : Bool
  dmac : Nat
  appid : Nat
  tci : Nat
  templ : Nat
  confrev : Nat
  minint : Nat
  maxint : Nat
  talmul : Nat
  deriving DecidableEq, Repr

/-- An SV subscription record (Table 13.6); RATE in samples/s, frequency 50 or 60. -/
structure StreamRec where
  owner : Nat
  port : Nat
  paired : Bool
  rms : Bool
  freq : Nat
  simok : Bool
  dmac : Nat
  appid : Nat
  vid : Nat
  nch : Nat
  rate : Nat
  reqsync : Nat
  miss : Nat
  confrev : Nat
  valid : Nat
  svidcrc : Nat
  inst : Nat
  rmsaddr : Nat
  sel : List Nat
  deriving DecidableEq, Repr

/-- An archive trigger entry (Table 12.4). -/
structure TrigRec where
  kind : Nat
  space : Nat
  cls : Nat
  addr : Nat
  pre : Nat
  post : Nat
  deriving DecidableEq, Repr

/-- A UDP endpoint record (Table 13.8). -/
structure EpRec where
  v4 : Bool := false
  v6 : Bool := false
  lport : Nat := 0
  ports : Nat := 0
  rx : Option Nat := none
  tx : Option Nat := none
  dscp : Nat := 0
  rxbuf : Nat := 0
  txbuf : Nat := 0
  deriving DecidableEq, Repr

/-- A CAN controller's configuration values (R386). -/
structure CanRec where
  cfg : Nat
  nbt : Nat
  dbt : Nat
  ring : Nat
  deriving DecidableEq, Repr

/-- A message object's configuration values (R386). -/
structure ObjRec where
  cfg : Nat
  id : Nat
  mask : Nat
  map : Nat
  deriving DecidableEq, Repr

/-- A field channel record (Table 17.7). -/
structure DRec where
  out : Bool := false
  safe : Bool := false
  ring : Bool := false
  filt : Nat := 0
  addr : Nat := 0
  deriving DecidableEq, Repr

/-- A current output record (Table 17.7). -/
structure ARec where
  safe : Nat := 0
  setaddr : Nat := 0
  rb : Option Nat := none
  deriving DecidableEq, Repr

/-- REDN (Table 10.1). Addresses by port index: IPv4, IPv6. -/
structure Redn where
  pairid : Nat
  base : Nat
  hbmiss : Nat := 3
  disclim : Nat := 16
  auto : Bool := false
  planhrs : Nat := 0
  holdtko : Nat := 0
  startwait : Nat := 500
  addrs : SMap (Nat × Nat) := []
  deriving DecidableEq, Repr

/-- A scantling: header, and every section's records. `pairDig` is the pair digest (R238), `keyw` the installed keys the scantling delivers (serial, key), `auth` the key
serials the AUTH sections name, `digest` the SHA-384 of the whole (R56). -/
structure Scn where
  hdr : ScnHdr := {}
  vbas : Vbas := {}
  part : Part := {}
  port : PortCfg := {}
  tasks : SMap TaskRec := []
  nobreak : List Nat := []
  imgf : SMap Imgf := []
  cnst : SMap Cnst := []
  prgm : SMap (List Nat) := []
  rings : SMap RingRec := []
  mode : ModeCfg := {}
  fltr : SMap FltrRec := []
  hring : SMap Nat := []
  nvly : SMap Region := []
  mgtp : Option Mgtp := none
  redn : Option Redn := none
  templs : SMap Template := []
  subs : SMap SubRec := []
  pubs : SMap PubRec := []
  streams : SMap StreamRec := []
  trigs : SMap (List TrigRec) := []
  eps : SMap EpRec := []
  can : SMap CanRec := []
  canobj : SMap ObjRec := []
  dch : SMap DRec := []
  ach : SMap ARec := []
  fioring : SMap Nat := []
  loops : SMap (List Nat) := []
  keyw : SMap (Nat × Nat) := []
  auth : SMap Nat := []
  pairDig : Nat := 0
  digest : Nat := 0
  deriving DecidableEq, Repr

end Sys2Proof.Machine
end

