-- ==== Sys2Proof/Machine/StateEng.lean ====
section
/-! DEFINITION. State of the engines, bents, tasks and the process image (chapters 4 to 7). Program counters are linear
word indices (line * 9 + slot, R91). Instants are station time in units of 2^-16 ns (R355). -/
namespace Sys2Proof.Machine

/-- A requester's high-word latch (R9) and write latch (R10): the low word's address and the held value. -/
structure Latches where
  hi : Option (Nat × Nat) := none
  lo : Option (Nat × Nat) := none
  deriving DecidableEq, Repr

/-- An exception record (R112, Tables 4.14 to 4.16). -/
structure ExcRec where
  code : Nat := 0
  inslot : Bool := false
  lean : Bool := false
  task : Nat := 0
  pc : Nat := 0
  flow : Nat := 0
  word : Nat := 0
  space : Nat := 0
  kind : Nat := 0
  addr : Nat := 0
  deriving DecidableEq, Repr

/-- A flow instruction waiting for its delay slot (R106): its target, and where execution goes on. -/
structure Flow where
  target : Nat
  next : Nat
  deriving DecidableEq, Repr

/-- An engine context (Table 4.2). The operand stack has TOS first; `stale` holds the physical slots above TOS, which
only the lean regime can read (R111); `late` the slot values of a lean load still due. -/
structure Ctx where
  stack : List Row := []
  rstack : List Nat := []
  pc : Nat := 0
  flow : Option Flow := none
  stale : List Row := []
  late : List (Nat × Row) := []
  lat : Latches := {}
  exc : ExcRec := {}
  deriving DecidableEq, Repr

/-- A store-buffer line (R100): virtual line address, bits held, their values, and the first store that made it (R142). The
oldest line's write has always begun (R100), so only the lines behind it can be merged into. -/
structure SbLine where
  va : Nat
  mask : Line64
  data : Line64
  pc : Nat
  word : Nat
  space : Nat
  deriving DecidableEq, Repr

/-- A reservation (R102): owner, virtual line, and the handshakes spent since the LR. -/
structure Resv where
  owner : Nat
  line : Nat
  age : Nat
  deriving DecidableEq, Repr

/-- What an engine waits for inside an instruction. `page`: a page-in of an owner's page (R274); `frame`: a prepared frame for a
fresh page (R271); both instructions are issued again when the wait has ended (log entry 15). `pool`: a pool row for a staged store
(R162): its row, value, mask and next stack, and whether the stall limit was reported. -/
inductive Stall where
  | none
  | page (owner page : Nat)
  | frame
  | pool (row : Nat) (val mask : Row) (stack : List Row) (cost : Nat) (fired : Bool)
  deriving DecidableEq, Repr

/-- An engine (R79, R80). Engine 256 is the management engine (R480). `task` is the context it holds or has been promised (R180
step 3, not `running`); `preempt` the task promised it by a preemption not yet taken (R181); `since` when its stall began and
`waited` the wait already spent in it, in ns; `stale` the physical slots above TOS and `late` the slot values still due (R111). -/
structure Engine where
  task : Option Nat := none
  running : Bool := false
  ctx : Ctx := {}
  sb : List SbLine := []
  resv : Option Resv := none
  stall : Stall := .none
  since : Nat := 0
  waited : Nat := 0
  preempt : Option Nat := none
  deriving DecidableEq, Repr

/-- A bent (R20, R21, R115): awake, waking, when it last held work, unusable until the next power-up, and a self-test requested
or running (it runs once no engine of the bent holds a context). -/
structure Bent where
  awake : Bool := false
  waking : Bool := false
  idleSince : Nat := 0
  unusable : Bool := false
  testReq : Bool := false
  deriving DecidableEq, Repr

/-- Run state of a task (Table 7.9 SEQ_TSTAT.STATE). -/
inductive TaskSt where
  | idle | ready | running | preempted | waiting
  deriving DecidableEq, Repr

/-- A WAIT in progress (R134). -/
structure WaitDesc where
  kind : Nat
  tmo : Bool
  id : Nat
  deadline : Nat
  deriving DecidableEq, Repr

/-- A task as SEQ keeps it: its state, the engine it runs on or is promised, its saved context, its release (epoch `relAt`, in
2^-16 ns), next boundary, latched pending release (due instant; already judged once, Table 7.3 case 6), event instants not yet
acted on, consecutive overruns, handshakes, staged rows (value and mask by absolute row), the WAIT it is in and the status that
ends it, whether its budget and deadline have fired, when it became ready, whether a
word of its saved context fails SEC-DED, uncorrectably or correctably (physical conditions, R194). -/
structure Task where
  st : TaskSt := .idle
  eng : Option Nat := none
  ctx : Ctx := {}
  relAt : Nat := 0
  everRel : Bool := false
  nextB : Option Nat := none
  pend : Option Nat := none
  pendJudged : Bool := false
  events : List Nat := []
  consec : Nat := 0
  hs : Nat := 0
  staged : SMap (Row × Row) := []
  wait : Option WaitDesc := none
  wstat : Option Nat := none
  budFired : Bool := false
  dlFired : Bool := false
  readyAt : Nat := 0
  ctxBad : Bool := false
  ctxWeak : Bool := false
  deriving DecidableEq, Repr

/-- Who made a version (Table 6.3 WHERE): 0 NET, 1 FIO, 2 CAN, 3 LOP, 4 RED, 5 commit, 6 force; 7 the initial version,
8 a start, 9 a SYS change. -/
abbrev Writer := Nat

/-- One version of a row: bits, stamp, install instant, writer; whether its pool row came from the reserve (R161). -/
structure Version where
  bits : Row := 0
  stamp : Nat := 0
  inst : Nat := 0
  writer : Writer := 7
  reserve : Bool := false
  deriving DecidableEq, Repr

/-- A row of IN, OUT, MRK or SYS: its current version and the held older ones, newest first (R149), and the
masks commits changed with their instants, for releases that may still commit over them (R157). -/
structure RowHist where
  cur : Version := {}
  older : List Version := []
  chg : List (Nat × Row) := []
  deriving DecidableEq, Repr

/-- A commit handed over by END and not yet installed (R155, R156). -/
structure Commit where
  owner : Nat
  task : Nat
  epoch : Nat
  rows : SMap (Row × Row)
  endAt : Nat
  eng : Nat
  deriving DecidableEq, Repr

/-- IMG: the versioned rows (an unlisted row holds a version of zeros installed at its owner and space's `base` instant, key
owner * 8 + space, R150), the SEM rows (absolute row numbers), the commits in order, the last commit instant per owner,
the bits forced (R349: mask and value per row), and the words whose check bits fail (physical condition; key
row * 4 + word, R168). -/
structure Img where
  rows : SMap RowHist := []
  base : SMap Nat := []
  sem : SMap Row := []
  commits : List Commit := []
  lastCommit : SMap Nat := []
  forces : SMap (Row × Row) := []
  badWords : List Nat := []
  weakWords : List Nat := []
  deriving DecidableEq, Repr

end Sys2Proof.Machine
end

