-- ==== Sys2Proof/Machine/StateLor.lean ====
section
/-! DEFINITION. State of the Lorat sessions (chapter 14). The session keys are represented by the session itself: a datagram's tag verifies or not
(log entry 2). -/
namespace Sys2Proof.Machine

/-- A request held until every lower SEQ has been executed (R342), or until Handover ends (R336): SEQ, receive stamp, the OCXO time of its arrival,
FLAGS, the command. -/
structure HeldReq where
  seq : Nat
  stamp : Nat
  at_ : Nat
  flags : Nat
  cmd : LorCmd
  deriving DecidableEq, Repr

/-- A stored response (R342): command, status, detail, data. -/
structure Stored where
  cmd : Nat
  status : Nat
  detail : Nat
  body : List Byte
  deriving DecidableEq, Repr

/-- A session (R339 to R342): half-open or open, owner, IPv6, port, the highest SEQ executed, when it was last heard (OCXO time), requests held, stored
responses by SEQ, a request whose response waits (SEQ), its bus latches. -/
structure LorSess where
  half : Bool := false
  isOpen : Bool := false
  owner : Nat := 0
  v6 : Bool := false
  port : Nat := 0
  h : Nat := 0
  lastAt : Nat := 0
  held : List HeldReq := []
  stored : SMap Stored := []
  waiting : Option Nat := none
  lat : Latches := {}
  deriving DecidableEq, Repr

end Sys2Proof.Machine
end

