-- ==== Sys2Proof/Machine/StateMem.lean ====
section
/-! DEFINITION. State of the memory manager and the storage controller (chapters 11 and 12). A line's ciphertext and tag
are represented by the line's contents and the identity it was sealed under (owner, key generation, virtual line): the
tag passes exactly when that identity is the reader's (log entry 3). -/
namespace Sys2Proof.Machine

/-- A 64-byte line of the frame area with its side-band (R279, R280). `owner = 8` is a line no key has sealed; `bad` and `weak` are its ECC's physical conditions:
uncorrectable, or a single-bit error. -/
structure Line where
  data : Line64 := 0
  owner : Nat := 8
  gen : Nat := 0
  va : Nat := 0
  ver : Nat := 0
  fresh : Bool := false
  poison : Bool := false
  bad : Bool := false
  weak : Bool := false
  deriving DecidableEq, Repr

/-- A frame of 1024 lines (R265): prepared frames read fresh (R271), others hold what no key sealed. -/
structure Frame where
  prepared : Bool := false
  lines : SMap Line := []
  deriving DecidableEq, Repr

/-- A translation-cache entry (R269). -/
structure TlbEnt where
  owner : Nat
  page : Nat
  frame : Nat
  space : Nat
  wp : Bool
  zero : Bool
  deriving DecidableEq, Repr

/-- A backing page (R281): its lines, the sectors whose tag fails (physical condition), the key generation. -/
structure BackPage where
  lines : SMap Line := []
  badSect : List Nat := []
  gen : Nat := 0
  writes : Nat := 0
  deriving DecidableEq, Repr

/-- An owner's data keys as MMU holds them (R276, R277): the generation drawn, whether there are keys, whether unwrapped, whether both wrapped
copies are lost (physical condition), and an erasure in progress. -/
structure DataKeys where
  gen : Nat := 0
  drawn : Bool := false
  ok : Bool := false
  copiesBad : Bool := false
  erasing : Bool := false
  deriving DecidableEq, Repr

/-- MMU: table entries by physical address / 8 (Table 11.2), table lines with uncorrectable ECC (by address / 64), frames,
the never-used frame and table numbers, the freed and prepared ones, each owner's root table (plus 1; 0 none), translation caches
per bent (most recent first), pages in transit (owner, page, frame, in?), the clock-sweep hand, the version counter, the
keys, and the initial-value images (key owner * 2^32 + line, by target space 5 DATA, 6 RETAIN). -/
structure Mmu where
  tbl : SMap Nat := []
  tblBad : List Nat := []
  frames : SMap Frame := []
  nextFrame : Nat := 0
  nextTable : Nat := 0
  freed : List Nat := []
  freedTbl : List Nat := []
  prep : List Nat := []
  roots : SMap Nat := []
  tlb : SMap (List TlbEnt) := []
  transit : List (Nat × Nat × Bool) := []
  hand : SMap Nat := []
  version : Nat := 0
  keys : SMap DataKeys := []
  initBad : List Nat := []
  deriving DecidableEq, Repr

/-- One Almanac record (Table 20.2), or a waiting event with its values at the event. -/
structure AlmRec where
  time : Nat
  hours : Nat
  qual : Nat
  cycles : Nat
  code : Nat
  block : Nat
  arg : Nat
  det : Nat
  crcBad : Bool := false
  deriving DecidableEq, Repr

/-- One management-log entry (R487). -/
structure MgtEntry where
  time : Nat
  num : Nat
  code : Nat
  arg : Nat
  det : Nat
  deriving DecidableEq, Repr

/-- One archive record (Table 12.3). -/
structure ArcRec where
  time : Nat
  frac : Nat
  sub : Nat
  port : Nat
  flags : Nat
  frame : List Byte
  deriving DecidableEq, Repr

/-- A write on its way to flash. -/
inductive StoWrite where
  | retain (owner line : Nat) (l : Line)
  | back (owner page : Nat) (p : BackPage)
  | alm (num : Nat) (r : AlmRec)
  | mlog (e : MgtEntry)
  | arc (r : ArcRec)
  | note (what : Nat)
  deriving DecidableEq, Repr

/-- What flash holds of the regions of Table 12.1 that change while the module runs. -/
structure Media where
  retain : SMap Line := []
  back : SMap BackPage := []
  alm : SMap AlmRec := []
  mlog : SMap MgtEntry := []
  arc : List ArcRec := []
  deriving DecidableEq, Repr

/-- A retention window of an owner's streams (R296, R297). -/
structure ArcWin where
  owner : Nat
  lo : Nat
  hi : Nat
  deriving DecidableEq, Repr

/-- A write staged (share 0 critical, 1 general, 2 archive), with its length (R288). -/
structure Staged where
  share : Nat
  len : Nat
  w : StoWrite
  deriving DecidableEq, Repr

/-- STO: the acknowledged contents, the contents flushed, the staging SRAM in acknowledgement order, windows, subscriptions
whose next record carries FLAGS bit 0, packages retired, sectors whose page is unrecoverable, sectors whose page needs its stripe, the
clean-shutdown marker, spare capacity and wear as last reported. -/
structure Sto where
  ack : Media := {}
  flash : Media := {}
  staging : List Staged := []
  wins : List ArcWin := []
  gapNext : List Nat := []
  unreadable : List Nat := []
  weak : List Nat := []
  rebuilding : Nat := 0
  cleanMark : Bool := true
  deriving DecidableEq, Repr

end Sys2Proof.Machine
end

