-- ==== Sys2Proof/Machine/StateOut.lean ====
section
/-! DEFINITION. What the module sends to the outside, in the order sent (newest first): the model's own record of its
outputs, so that a claim can say that a message left (log entry 4). -/
namespace Sys2Proof.Machine

/-- One message or line the module puts out. -/
inductive Emit where
  /-- A pair-link message of a type of Table 10.3 with its fields, to the partner. -/
  | pair (kind : Nat) (fields : List Nat)
  /-- A GOOSE frame of a publication: stNum, sqNum, timeAllowedToLive, and its data bits (R320 to R323). -/
  | goose (pub stNum sqNum tal : Nat) (data : List Nat)
  /-- A frame forwarded or sent on a port, by purpose: 1 HSR forward, 2 supervision, 3 ARP, 4 ICMP, 5 NDP, 6 UDP,
  7 PTP, 8 Lorat. -/
  | frame (port purpose : Nat) (fields : List Nat)
  /-- A Lorat response: session, SEQ, command, status, detail, the command's data. -/
  | lorat (session seq cmd status detail : Nat) (body : List Byte)
  /-- A Lorat OPEN-ACK (session, owner) or REJECT (session 0, the condition that failed). -/
  | open_ (session what : Nat)
  /-- A CAN frame staged onto the bus of a controller from a buffer. -/
  | can (ctl obj : Nat) (data : List Byte)
  /-- A barrier frame toward the sill: output words, claim, configuration block. -/
  | barrier (seq : Nat) (fields : List Nat)
  /-- A line on the console port SP2: mode, cause, refusal code (R499). -/
  | console (mode cause code : Nat)
  /-- A pulse at a second of the output timescale on the enabled lines: bit 0 TP2, 1 TP3, 2 TP5, 3 TP7 (R374, R375). -/
  | pps (sec lines : Nat)
  /-- The answer to a register access made over the bus: the address, the value read (0 for a write), and 0 or the refusal of Table 1.8. -/
  | reg (addr val refusal : Nat)
  deriving DecidableEq, Repr

end Sys2Proof.Machine
end

