-- ==== Sys2Proof/Machine/StateBlk.lean ====
section
/-! DEFINITION. State of FLT and the watchdogs (chapter 19), NVS and the Almanac (chapter 20) and MGT (chapter 21), beyond
what their registers hold. -/
namespace Sys2Proof.Machine

/-- A history entry (Table 19.3). -/
structure HistEnt where
  stamp : Nat := 0
  src : Nat := 0
  cls : Nat := 0
  flags : Nat := 0
  react : Nat := 0
  owner : Nat := 0
  task : Nat := 0xFFFF
  count : Nat := 0
  det1 : Nat := 0
  det2 : Nat := 0
  deriving DecidableEq, Repr

/-- FLT: the 16-entry intake (R445), the history slots (h mod 64), whether entries were lost before the next kept one, the
last loss, the first error (R446), the last firing of each source (R439), force bits (R443), the quiet period's start and
the exits from Hold (R449), the same per owner (R450), the plumb target armed (R451), and each owner's last security
firing (R452). -/
structure Flt where
  intake : List HistEnt := []
  hist : SMap HistEnt := []
  lostBefore : Bool := false
  lastLoss : Nat := 0
  storm : Bool := false
  first : Option HistEnt := none
  lastFire : SMap (Nat × Nat) := []
  force : List Nat := []
  quietFrom : Nat := 0
  exits : List Nat := []
  oquietFrom : SMap Nat := []
  oexits : SMap (List Nat) := []
  plumb : Option Nat := none
  lastSec : SMap Nat := []
  ready : Bool := false
  deriving DecidableEq, Repr

/-- A watchdog (R453 to R457): when its period started, the part elapsed before a pause, counting, paused, window open,
key armed (0 none, 1 service, 2 disable), fall-back oscillator, period running and next, and the instant of an expiry that met an armed service key. -/
structure Wdg where
  since : Nat := 0
  counting : Bool := false
  paused : Bool := false
  left : Nat := 0
  winOpen : Bool := false
  armed : Nat := 0
  fallback : Bool := false
  period : Nat := 1000000
  next : Nat := 1000000
  en : Bool := false
  lock : Bool := false
  lost : Option Nat := none
  deriving DecidableEq, Repr

/-- User calibration and trims of the NVS system area (R415, R459): thresholds per group (ON, OFF in 0.1 V), gain and
offset trims per current output, the OCXO trim, by the register that shows them. -/
structure NvsSys where
  dthr : SMap Nat := []
  trimG : SMap Nat := []
  trimO : SMap Nat := []
  ocxo : Nat := 0
  loops : SMap (List Nat) := []
  deriving DecidableEq, Repr

/-- A save image (R469): sequence number, settings format, header complete, digest good, and what the shadow held. -/
structure NvsImage where
  seq : Nat := 0
  setfmt : Nat := 0
  whole : Bool := false
  mem : SMap Byte := []
  pwRd : SMap Nat := []
  pwWr : SMap Nat := []
  sys : NvsSys := {}
  deriving DecidableEq, Repr

/-- NVS (R459 to R470): the region area (bytes, unlisted 0), read and write passwords and failure counts per region,
regions locked out, the system area, words whose check bits fail (physical conditions), the two save images, the
stored settings format, and whether the image recalled was the newest (R433). -/
structure Nvs where
  mem : SMap Byte := []
  pwRd : SMap Nat := []
  pwWr : SMap Nat := []
  fails : SMap Nat := []
  locked : List Nat := []
  sys : NvsSys := {}
  badWords : List Nat := []
  weakWords : List Nat := []
  imgA : NvsImage := {}
  imgB : NvsImage := {}
  setfmt : Nat := 0
  ready : Bool := false
  newest : Bool := true
  deriving DecidableEq, Repr

/-- A checkpoint of ALM (R473, R476): operating seconds, power cycles, whether the numbering has wrapped. -/
structure AlmCkpt where
  secs : Nat
  cycles : Nat
  wrapped : Bool
  deriving DecidableEq, Repr

/-- ALM (R471 to R477): the event FIFO, whether ALM writes, whether the Drain record closed it, the session that holds a freeze, a loss
before the next record, whether numbering has wrapped, operating seconds up to `opFrom` (OCXO time, while it counts), the instant of the last checkpoint,
and the newest and the older checkpoint as they can be read back. -/
structure Alm where
  fifo : List AlmRec := []
  writing : Bool := false
  closed : Bool := false
  frozenBy : Option Nat := none
  lostBefore : Bool := false
  wrapped : Bool := false
  opSecs : Nat := 0
  opFrom : Nat := 0
  counting : Bool := false
  lastCkpt : Nat := 0
  ckptA : Option AlmCkpt := none
  ckptB : Option AlmCkpt := none
  deriving DecidableEq, Repr

/-- A queued input change of the sill (R409): channel, new state, stamp, lost flag, stamped while not in step (R410). -/
structure FioChg where
  ch : Nat
  st : Bool
  stamp : Nat
  lost : Bool
  notInStep : Bool
  deriving DecidableEq, Repr

/-- FIO and the sill (chapter 17). Logic side: `inst` the last installed input values, `upMiss` uplink frames missed in a row, `upSeen`
a valid one seen, `fresh` groups whose next report is their first, `complUp` the compliance flags of the latest valid uplink, `pair` the next
channel pair measured, `keepUntil` the instant until which a former active keeps its drivers (Table 10.6, R257). Sill side: group
supplies in range, sections reporting, filtered inputs, terminal voltage seen as 1 (64 bits), the queue and its lost flag, downlink frames missed
in a row, a valid frame seen since power-up, the last one's instant, commands, codes, DRVEN and claim, refresh-lost, drivers
disabled by the partner's claim (R259), current outputs out of compliance, wins in a row, losses in a row (R251), the last two cycles' other claim and whether each was unreadable (R249), claim-locked outputs driven, SP5
closed, the configuration block next and whether all before it passed, outputs off until a retry instant (R405). -/
structure Fio where
  inst : Nat := 0
  upMiss : Nat := 0
  upSeen : Bool := false
  resync : Bool := false
  fresh : List Nat := []
  complUp : Nat := 0
  pair : Nat := 0
  seq : Nat := 0
  keepUntil : Option Nat := none
  inRange : Nat := 0
  reporting : Nat := 0
  filt : Nat := 0
  queue : List FioChg := []
  lostNext : Bool := false
  downMiss : Nat := 0
  sillSeen : Bool := false
  lastDown : Nat := 0
  sillCmd : Nat := 0
  sillCodes : SMap Nat := []
  sillEn : Bool := false
  sillClaim : Nat := 0
  sillLost : Bool := false
  ordOff : Bool := false
  compl : Nat := 0
  wins : Nat := 0
  losses : Nat := 0
  seen2 : List (Nat × Bool) := []
  driven : Bool := false
  sp5 : Bool := false
  cfgIdx : Nat := 0
  cfgOk : Bool := true
  limitAt : SMap Nat := []
  deriving DecidableEq, Repr

/-- A loop's state beyond its registers (R424, R428, R429): the sample computed and not yet committed (instant, mantissa),
initialisation due, the oscillation check's last sign and the sample numbers of its last changes, samples counted, the
plausibility count, the last status word installed, its next sample instant, the region, the output in use as binary32, and whether a
word of its state is uncorrectable or correctable (physical conditions). -/
structure Loop where
  pend : Option (Nat × Nat) := none
  init : Bool := true
  slast : Int := 0
  chgs : List Nat := []
  k : Nat := 0
  cnt : Nat := 0
  lastSt : Option Nat := none
  next : Option Nat := none
  bad : Bool := false
  weak : Bool := false
  deriving DecidableEq, Repr

/-- MGT's update engine (R490 to R494): STATE of MGT_UPDSTAT, instants of C or L and the window's end (OCXO time), whether the commit was made in Stop,
the cause of a rollback under way (CODE), since when, and whether a quiet point is forced. -/
structure Upd where
  state : Nat := 0
  lAt : Nat := 0
  winEnd : Nat := 0
  inStop : Bool := false
  rbCode : Nat := 0
  rbFrom : Nat := 0
  forced : Bool := false
  deriving DecidableEq, Repr

/-- MGT (chapter 21) beyond its registers: sensors beyond a warning or a limit (24 the input's voltage, 25 its power, 26 the bus, 128 + d domain d), when they
were last sampled and since when the input power has been beyond its warning (0) and limit (1); the update; the management engine: installed, a release running, the
instant it was made at, the last boundary met, its handshakes, its private SRAM; when the bank was last measured. -/
structure Mgt where
  warn : List Nat := []
  limit : List Nat := []
  sampled : Nat := 0
  pinFrom : SMap Nat := []
  upd : Upd := {}
  engInstalled : Bool := false
  engRunning : Bool := false
  engAt : Nat := 0
  engLast : Nat := 0
  engHs : Nat := 0
  engSram : SMap Byte := []
  lastBank : Nat := 0
  deriving DecidableEq, Repr

/-- A window of the duplicate table (R310): highest sequence number, the map of the 128 numbers up to it (bit i: H - i), the last
frame's instant. -/
structure DupWin where
  high : Nat
  map : Nat
  at_ : Nat
  deriving DecidableEq, Repr

/-- A GOOSE subscription beyond its registers (R317, R319): a frame has been accepted since the start or invalidation, one has been accepted
since the start, and the instant at which its allowed time to live ends. -/
structure GsSub where
  seen : Bool := false
  any : Bool := false
  tal : Option Nat := none
  deriving DecidableEq, Repr

/-- An SV stream beyond its registers (R325, R327, R328): a sample delivered, samples in a row, the selected channels' samples and
their questionable flags (newest first), and the last sample's stamp. -/
structure Strm where
  seen : Bool := false
  run : Nat := 0
  hist : SMap (List (Int × Bool)) := []
  last : Nat := 0
  deriving DecidableEq, Repr

/-- A publication beyond its registers (R321 to R323): retransmissions sent since the new state, when the last frame left, its data, and the redundancy sequence
number it had. -/
structure Pub where
  k : Nat := 0
  seq : Nat := 0
  lastAt : Nat := 0
  data : List Nat := []
  deriving DecidableEq, Repr

/-- A neighbour (R329, R332): resolved or not yet, requests sent, since when, the datagram held (owner, endpoint, fields). -/
structure Nbr where
  port : Nat
  v6 : Bool
  addr : Nat
  resolved : Bool
  tries : Nat
  at_ : Nat
  held : Option (Nat × Nat × List Nat)
  deriving DecidableEq, Repr

/-- NET (chapter 13). Windows by pair * 2^48 + source, subscriptions, streams and publications by number, neighbours, addresses no
longer used (port, address), ports whose IPv6 addresses are under duplicate address detection and since when, instants of the
echoes answered in the last second by port, and whether a publication port's frames go out. -/
structure Net where
  dup : SMap DupWin := []
  gs : SMap GsSub := []
  sv : SMap Strm := []
  pub : SMap Pub := []
  nbrs : List Nbr := []
  conflicts : List (Nat × Nat) := []
  dad : SMap Nat := []
  icmp : SMap (List Nat) := []
  seqs : SMap Nat := []
  deriving DecidableEq, Repr

/-- A commit's digest (R246): owner, kind (0 task, 1 loop), number, epoch, digest, when it came, whether it is this member's. -/
structure Dig where
  owner : Nat
  kind : Nat
  num : Nat
  epoch : Nat
  dig : Nat
  at_ : Nat
  mine : Bool
  deriving DecidableEq, Repr

/-- RED (chapter 10) beyond its registers: the partner's last HELLO and this member's nonce; whether KEYCONF was sent and the
partner's verified; the partner as its heartbeats report it (mode, role, fault level, suspect, epoch), when the last came, how many
periods missed were counted, since when it has been in Hold; digests not yet matched; runs of mismatches by kind * 65536 + number; the
switch-over (0 none, 1 requested, 2 accepted, 3 past T, 4 takeover) with its instant and cause; the start waiting for a partner; the
state transfer (joiner?, phase start, last progress, Q); receive and send sequence numbers by EtherType (R241); when this member last became active; and
what NET, FIO and CAN of a standby
received and did not install (mask, value, stamp, by row * 4 + writer, R243); the forwarded rows a joiner queues until the cut (row, mask, value, stamp, writer);
and the Lorat request (session, SEQ) that waits for a switch-over. -/
structure Red where
  hello : Option Hello := none
  nonce : Nat := 0
  confSent : Bool := false
  confOk : Bool := false
  key : Nat := 0
  pMode : Nat := 0
  pRole : Nat := 0
  pFlevel : Nat := 0
  pSuspect : Bool := false
  pEpoch : Nat := 0
  lastHb : Nat := 0
  hbAt : Nat := 0
  holdSince : Option Nat := none
  digs : List Dig := []
  runs : SMap Nat := []
  sw : Nat := 0
  swT : Nat := 0
  swCause : Nat := 0
  removal : Bool := false
  startAt : Option Nat := none
  joiner : Bool := false
  xferAt : Nat := 0
  xferQ : Option Nat := none
  rxSeq : SMap Nat := []
  txSeq : SMap Nat := []
  activeAt : Nat := 0
  lastAuto : Nat := 0
  own : SMap (Row × Row × Nat) := []
  rowQ : List (Nat × Row × Row × Nat × Nat) := []
  swWait : Option (Nat × Nat) := none
  deriving DecidableEq, Repr

/-- A CAN controller beyond its registers (R390, R393, R395): its error counters (TEC may pass 255), a recovery asked for, and the
object whose frame is on the bus. -/
structure CanCtl where
  tec : Nat := 0
  recv : Nat := 0
  recovering : Bool := false
  bus : Option Nat := none
  deriving DecidableEq, Repr

/-- A transmit object's stage (R390): the staged frame and one that waits behind a frame on the bus, each DLC and data, and when
it last staged. -/
structure CanTx where
  cur : Option (Nat × List Byte) := none
  next : Option (Nat × List Byte) := none
  lastAt : Nat := 0
  deriving DecidableEq, Repr

/-- CAN (chapter 16): controllers by number, transmit stages by controller * 128 + object. -/
structure Can where
  ctl : SMap CanCtl := []
  tx : SMap CanTx := []
  deriving DecidableEq, Repr

/-- A time source (R358): since when it has been valid without a break, whether it is qualified, its last measured offset
(station time minus source time, 2^-16 ns) and the instant of its last valid sample. -/
structure TimSrc where
  since : Option Nat := none
  qual : Bool := false
  meas : Int := 0
  sampleAt : Nat := 0
  deriving DecidableEq, Repr

/-- TIM (chapter 15): the sources (1 PTP, 2 PPS with IRIG-B, 3 IRIG-B, 4 pair partner), the slew under way (its start in OCXO time, offset),
the step scheduled (instant, offset), holdover (last sample, step at entry), the last step, the IRIG-B input's invalid period and
last frame (instant, PTP seconds), the PPS inputs' last edges, the ports' Announce sets and two-step Syncs, the outputs, and the
calendar (count in 1/32768 s and when it stood so). -/
structure Tim where
  srcs : SMap TimSrc := []
  slew : Option (Nat × Int) := none
  stepDue : Option (Nat × Int) := none
  lostAt : Nat := 0
  entryStep : Nat := 0
  irigBad : Nat := 0
  irig : Option (Nat × Nat) := none
  edges : SMap Nat := []
  anns : SMap Ann := []
  syncs : SMap Nat := []
  outOn : Bool := false
  outOff : Int := 0
  calCnt : Nat := 0
  calAt : Nat := 0
  deriving DecidableEq, Repr

end Sys2Proof.Machine
end

