-- ==== Sys2Proof/Machine/StateScn.lean ====
section
/-! DEFINITION. State of the scantling slots and loads, the installed keys and fuses (chapter 3), and the splices with their annex
(chapter 9). -/
namespace Sys2Proof.Machine

/-- A target record (Table 9.2). -/
structure SplTarget where
  task : Nat
  prio : Nat
  allow : Nat
  entry : Nat
  period : Nat
  deadline : Nat
  budget : Nat
  lambda : Nat
  waits : Bool
  deriving DecidableEq, Repr

/-- A copy entry (Table 9.4). -/
structure SplCopy where
  kind : Nat
  dsp : Nat
  ssp : Nat
  len : Nat
  dst : Nat
  src : Nat
  deriving DecidableEq, Repr

/-- A splice package as its parts say (Tables 9.1 to 9.4): `lines` are the stored lines from PROGBASE on, `free` the free list, `whole` whether
every part met R216 and its table, `len` TOTLEN. -/
structure SplPkg where
  owner : Nat := 0
  unit : Nat := 0
  baseBuild : Nat := 0
  baseSeq : Nat := 0
  seq : Nat := 0
  keySer : Nat := 0
  len : Nat := 0
  progBase : Nat := 0
  progHdr : Nat := 0
  lines : List Nat := []
  targets : List SplTarget := []
  free : List (Nat × Nat) := []
  confWin : Nat := 600
  dataSize : Nat := 0
  retSize : Nat := 0
  constSize : Nat := 0
  pins : List PageRange := []
  patches : List InitEntry := []
  copies : List SplCopy := []
  deriving DecidableEq, Repr

/-- An annex record (R223, R227, R230): state 2 loaded, 4 applied, 6 confirmed; whether its stored tag fails (physical condition). -/
structure AnnexRec where
  state : Nat
  pkg : SplPkg
  bad : Bool := false
  deriving DecidableEq, Repr

/-- An owner's splice (R222 to R233). `buf` the chunks of a load and the session (8: a pair member's PKG) and last chunk's instant;
`cmdAt` and `cmdMono` the apply or rollback command's station and OCXO time; `nomE` the nominated epoch of a pair; `mine`, `his` the members' reports
(epoch, applied?); `winEnd` the window's end (OCXO time); what the rollback restores; the cause of a rollback under way; the Lorat request (session, SEQ)
that waits for the standby's answer; whether SEQ forces the rollback (R231). -/
structure Splice where
  buf : List Byte := []
  session : Nat := 0
  lastAt : Nat := 0
  pkg : Option SplPkg := none
  cmdAt : Nat := 0
  cmdMono : Nat := 0
  nomE : Option Nat := none
  mine : Option (Nat × Bool) := none
  his : Option (Nat × Bool) := none
  winEnd : Nat := 0
  prevTasks : SMap TaskRec := []
  prevCnst : Cnst := {}
  cause : Nat := 0
  waitPair : Option (Nat × Nat) := none
  forcing : Bool := false
  deriving DecidableEq, Repr

/-- A scantling slot (R63, R64): the stored bytes, what they say, the confirm mark, the settings format NVS was last stored under for it, each owner's
annex and splice number, the NVS image parked against it, the refusal code its stored copy now fails with (physical condition; 0 none), and whether it
passed verification at the last start or commit. -/
structure Slot where
  bytes : List Byte := []
  scn : Scn := {}
  confirmed : Bool := true
  setfmt : Nat := 0
  annex : SMap (List AnnexRec) := []
  splNum : SMap Nat := []
  parked : Option NvsImage := none
  bad : Nat := 0
  valid : Bool := false
  deriving DecidableEq, Repr

/-- A scantling load (R60 to R62): the session (128 + remote endpoint in Recovery), the bytes so far, the accept-reset flag, the last chunk's OCXO time; or the verified
load that awaits commit. -/
structure Load where
  session : Nat := 0
  bytes : List Byte := []
  accept : Bool := false
  lastAt : Nat := 0
  verified : Bool := false
  scn : Scn := {}
  deriving DecidableEq, Repr

/-- STO's scantling region, the key store and the fuses: slots 0 (A) and 1 (B), which is running as current and which the commit record
names (R35), the load, installed keys by owner * 2^32 + serial, each
owner's installed serial, the fuse minimum of the security version, revoked vendor keys, the module's serial, its transport public key, and the streamed idle
plane. -/
structure Store where
  slots : SMap Slot := []
  cur : Nat := 0
  recCur : Nat := 0
  load : Option Load := none
  keys : SMap Nat := []
  serials : SMap Nat := []
  secMin : Nat := 0
  revoked : List Nat := []
  serial : Nat := 0
  pubKey : Nat := 0
  idle : Option Scn := none
  plane : Nat := 0
  prevPlane : Option Scn := none
  deriving DecidableEq, Repr

end Sys2Proof.Machine
end

