-- ==== Sys2Proof/Machine/StateSys.lean ====
section
/-! DEFINITION. State of the device as a whole: mode, start, supply, owners (chapters 2 and 22). -/
namespace Sys2Proof.Machine

/-- The twelve device modes (Table 2.1). -/
inductive Mode where
  | backup | recall | lean | recovery | configure | stop | run | shadow | test | hold | handover | drain
  deriving DecidableEq, Repr

/-- The mode's code (Table 2.1). -/
def Mode.code : Mode → Nat
  | .backup => 0 | .recall => 1 | .lean => 2 | .recovery => 3 | .configure => 4 | .stop => 5
  | .run => 6 | .shadow => 7 | .test => 8 | .hold => 9 | .handover => 10 | .drain => 11

/-- Owner run states (Table 2.9); `undef` is an owner the scantling does not define. -/
inductive OwnSt where
  | stopped | running | held | undef
  deriving DecidableEq, Repr

/-- The run state's code (Table 2.9). -/
def OwnSt.code : OwnSt → Nat
  | .stopped => 0 | .running => 1 | .held => 2 | .undef => 3

/-- Why the module is in Recovery (Table 21.5 DET of 0x0110). -/
inductive RecovCause where
  | strap | bothSlots | planeLoad | planeLoadBent
  deriving DecidableEq, Repr

/-- Mode and start state. `startPend` holds the kind of a pending start (cold?), `startFrom` when it was asked for; `heldFrom` the mode Hold came from;
`hoFrom` the mode Handover came from and `hoAt` when it began; `drainCause` the cause of Table 20.3 0x0004 (0 none); `resetDue` a reset reaction
waiting for the end of Handover; `stopLeave` a mode set Stop that hands the pair over once the tasks have ended (R257); `removeAt` when a removal was
requested (OCXO time); `drainShort` a Drain from Configure, `drainOver` one whose steps are done; `begun` power-up has
begun (Table 2.3), `leanAt` when Lean was entered, `leanFailed` and `leanRetried` a self-test failed and its retry made (R34), `reverted` a power-up that
made the previous slot current (R494), `noImage` a recall without a complete image (R470). -/
structure ModeSt where
  mode : Mode := .lean
  prev : Mode := .backup
  paired : Bool := false
  active : Bool := false
  start : Nat := 0
  cause : Nat := 0
  slotPrev : Bool := false
  startPend : Option Bool := none
  startFrom : Nat := 0
  fromPolicy : Bool := false
  heldFrom : Option Mode := none
  holdAt : Nat := 0
  hoFrom : Option Mode := none
  hoAt : Nat := 0
  resetDue : Bool := false
  drainCause : Nat := 0
  drainShort : Bool := false
  drainOver : Bool := false
  removeWait : Bool := false
  noConfirm : Bool := false
  leaveSent : Bool := false
  stopLeave : Bool := false
  removeAt : Nat := 0
  safeLed : Bool := false
  lastDrain : Nat := 0
  runStart : Nat := 0
  recov : Option RecovCause := none
  leanFailed : Bool := false
  leanRetried : Bool := false
  begun : Bool := false
  leanAt : Nat := 0
  reverted : Bool := false
  noImage : Bool := false
  deriving DecidableEq, Repr

/-- The supply as the supervisor sees it (R33, R44, R504, R506, R514), and the recovery strap. `inputV` is in 0.1 V,
`busMv`, `bankMv` in mV; `outSince` when the input left its window (OCXO time). -/
structure Power where
  inputV : Nat := 0
  inputOk : Bool := false
  outSince : Option Nat := none
  busMv : Nat := 0
  bankMv : Nat := 0
  seated : Bool := false
  strap : Bool := false
  variantW : Bool := false
  variantL : Bool := false
  deriving DecidableEq, Repr

/-- An owner: its run state, a drain in progress (R193), its signal tokens (R135), a pending start (cold?) of the owner
alone and when it was asked for (R43), when it was held, whether a commit in Stop changed its CNST, PRGM or TASK since it last started (R66, R67), and whether it has started since
Configure (R212). -/
structure Owner where
  st : OwnSt := .undef
  draining : Bool := false
  tokens : List Nat := []
  startPend : Option Bool := none
  startFrom : Nat := 0
  heldAt : Nat := 0
  newSecs : Bool := false
  started : Bool := false
  deriving DecidableEq, Repr

/-- A source's firing handed to FLT (R438): source, instant, the task and the two details of its history entry (Table 19.3),
and whether it was forced. -/
structure Firing where
  src : Nat
  at_ : Nat
  task : Nat := 0xFFFF
  det1 : Nat := 0
  det2 : Nat := 0
  forced : Bool := false
  deriving DecidableEq, Repr

end Sys2Proof.Machine
end

