-- ==== Sys2Proof/Machine/State.lean ====
section
/-! DEFINITION. The whole state of the module, the reasons a step can stop, and the state after reset. -/
namespace Sys2Proof.Machine

/-- The module's state: plain data. `now` is station time in 2^-16 ns (R355) and `skew` station time minus the
elapsed OCXO time, which steps, the rate adjustment and slews change; `free` counts the open values used (log
entry 1); `regs` holds every register whose value is not computed from the rest (32-bit values, default the register's reset
value); `raised` the source firings FLT has not yet taken. -/
structure State where
  pending : List Instr := []
  now : Nat := 0
  skew : Int := 0
  free : Nat := 0
  regs : SMap Nat := []
  raised : List Firing := []
  out : List Emit := []
  ms : ModeSt := {}
  pw : Power := {}
  cfg : Scn := {}
  owners : SMap Owner := []
  engines : SMap Engine := []
  bents : SMap Bent := []
  tasks : SMap Task := []
  prog : SMap Nat := []
  progBad : List Nat := []
  progWeak : List Nat := []
  relHold : Bool := false
  epochMax : Nat := 0
  img : Img := {}
  mmu : Mmu := {}
  sto : Sto := {}
  flt : Flt := {}
  wdg : SMap Wdg := []
  nvs : Nvs := {}
  alm : Alm := {}
  mgt : Mgt := {}
  fio : Fio := {}
  loops : SMap Loop := []
  net : Net := {}
  red : Red := {}
  tim : Tim := {}
  can : Can := {}
  store : Store := {}
  spl : SMap Splice := []
  lor : SMap LorSess := []
  deriving DecidableEq, Repr

/-- Why a run stops with a fault: the spec gives the module none, since every access it cannot make is answered, counted or taken as an exception. -/
inductive Fault where
  /-- Raised by no command; kept so that the type has a member. Safe. -/
  | neverRaised
  deriving DecidableEq, Repr

/-- Why a command is refused. -/
inductive Refusal where
  /-- Raised by an arm of `exec` whose command has no meaning yet. Safe. -/
  | notModelled (mnemonic : String)
  deriving DecidableEq, Repr

/-- The machine right after reset: registers at their reset values, in Lean with the power-up of Table 2.3 not begun, seated and with its input in its window
(log entry 5). -/
def State.reset : State :=
  { owners := [(0, { st := .stopped })],
    pw := { inputV := 1100, inputOk := true, busMv := 48000, bankMv := 47000, seated := true } }

end Sys2Proof.Machine
end

