-- ==== Sys2Proof/Machine/Ops.lean ====
section
/-! DEFINITION. The named operations over registers, time, faults, owners and records that every block's meanings use. -/
namespace Sys2Proof.Machine

/-! ### The register map -/

/-- The descriptor table of the block an address lies in (Table 1.7). -/
def regTable (a : Nat) : List RegDesc :=
  if a < 0x40000 then Reg.tableMGT else if a < 0x80000 then Reg.tableWDG else if a < 0xC0000 then Reg.tableFLT
  else if a < 0x100000 then Reg.tableNVS else if a < 0x140000 then Reg.tableALM else if a < 0x180000 then Reg.tableTIM
  else if a < 0x200000 then Reg.tableRED else if a < 0x300000 then Reg.tableLOP else if a < 0x400000 then Reg.tableFIO
  else if a < 0x1000000 then Reg.tableCAN else if a < 0x2000000 then Reg.tableSEQ else if a < 0x3000000 then Reg.tableENG
  else if a < 0x4000000 then Reg.tableIMG else if a < 0x5000000 then Reg.tableMMU else if a < 0x6000000 then Reg.tableSTO
  else Reg.tableNET

/-- The block index (Table 1.1) of an address. -/
def blockOf (a : Nat) : Nat :=
  if a < 0x40000 then 15 else if a < 0x80000 then 12 else if a < 0xC0000 then 11
  else if a < 0x100000 then 13 else if a < 0x140000 then 14 else if a < 0x180000 then 6
  else if a < 0x200000 then 10 else if a < 0x300000 then 9 else if a < 0x400000 then 8
  else if a < 0x1000000 then 7 else if a < 0x2000000 then 1 else if a < 0x3000000 then 0
  else if a < 0x4000000 then 2 else if a < 0x5000000 then 3 else if a < 0x6000000 then 4 else 5

/-- Split an offset by one stride: index and rest; none where the index is outside its count. -/
def splitStride (rel stride count : Nat) : Option (Nat × Nat) :=
  if stride = 0 then some (0, rel)
  else if rel / stride < count then some (rel / stride, rel % stride) else none

/-- The instance indices at which a register family with these strides occupies an address. -/
def matchStrides (base s1 n1 s2 n2 s3 n3 a : Nat) : Option (Nat × Nat × Nat) :=
  if a < base then none else
  match splitStride (a - base) s1 n1 with
  | none => none
  | some (i, r1) =>
    match splitStride r1 s2 n2 with
    | none => none
    | some (j, r2) =>
      match splitStride r2 s3 n3 with
      | none => none
      | some (k, r3) => if r3 = 0 then some (i, j, k) else none

/-- A register found at an address: its family, indices, and whether it is the plumb shadow. -/
structure RegHit where
  desc : RegDesc
  i : Nat
  j : Nat
  k : Nat
  shadow : Bool
  deriving DecidableEq, Repr

/-- Does this family occupy the address? -/
def regHit? (d : RegDesc) (a : Nat) : Option RegHit :=
  match matchStrides d.base d.s1 d.n1 d.s2 d.n2 d.s3 d.n3 a with
  | some (i, j, k) => some { desc := d, i := i, j := j, k := k, shadow := false }
  | none =>
    if d.shB = 0 then none else
    match matchStrides d.shB d.sh1 d.n1 d.sh2 d.n2 0 1 a with
    | some (i, j, k) => some { desc := d, i := i, j := j, k := k, shadow := true }
    | none => none

/-- The register at an address (R24, R26 row 3). -/
def findReg (a : Nat) : Option RegHit := (regTable a).findSome? (fun d => regHit? d a)

/-- The reset value of the register at an address (0 for a shadow). -/
def regReset (a : Nat) : Nat :=
  match findReg a with
  | some h => if h.shadow then 0 else h.desc.reset
  | none => 0

/-- One bit of the reflected CRC-32. -/
def crc32Bit (c : Nat) : Nat := if c % 2 = 1 then (c / 2) ^^^ 0xEDB88320 else c / 2

/-- CRC-32 of IEEE 802.3 (Table 3.1 HDRCRC). -/
def crc32 (bs : List Byte) : Nat :=
  (bs.foldl (fun c b => (List.range 8).foldl (fun c _ => crc32Bit c) (c ^^^ b.toNat)) 0xFFFFFFFF) ^^^ 0xFFFFFFFF

namespace State

/-- The stored value of a register. -/
def rd (s : State) (a : Nat) : Nat :=
  match s.regs.find? a with
  | some v => v
  | none => regReset a

/-- Store a register's value (32 bits). -/
def wr (s : State) (a v : Nat) : State :=
  { s with regs := s.regs.set (regReset a) a (v % 2 ^ 32) }

/-- Store a 64-bit quantity in its two registers (R5). -/
def wr64 (s : State) (a v : Nat) : State := (s.wr a v).wr (a + 4) (v / 2 ^ 32)

/-- The stored 64-bit quantity at an address (R5). -/
def rd64 (s : State) (a : Nat) : Nat := s.rd a + s.rd (a + 4) * 2 ^ 32

/-- A field of a register. -/
def fld (s : State) (a lo len : Nat) : Nat := bits (s.rd a) lo len

/-- Write a field of a register. -/
def setFld (s : State) (a lo len v : Nat) : State := s.wr a (putBits (s.rd a) lo len v)

/-- Set or clear a bit of a register. -/
def setBit (s : State) (a i : Nat) (b : Bool) : State := s.setFld a i 1 (b2n b)

/-- Add to a 32-bit counter, which stops at 0xFFFF_FFFF. -/
def bump (s : State) (a n : Nat) : State := s.wr a (sat32 (s.rd a + n))

/-- Add to a 64-bit counter, which wraps at 2^64. -/
def bump64 (s : State) (a n : Nat) : State := s.wr64 a ((s.rd64 a + n) % 2 ^ 64)

/-- Raise a highest-value register. -/
def maxReg (s : State) (a v : Nat) : State := s.wr a (max (s.rd a) v)

/-- Clear one register family member to 0. -/
def clr (s : State) (a : Nat) : State := s.wr a 0

/-! ### Station time -/

/-- Station time in nanoseconds. -/
def ns (s : State) : Nat := s.now / 65536

end State

/-- An instant in the 64-bit form of R127. -/
def form64 (t : Nat) : Nat := (t / 65536) % 2 ^ 64

/-- Microseconds as an instant difference. -/
def us (n : Nat) : Nat := n * 1000 * 65536
/-- Milliseconds as an instant difference. -/
def msec (n : Nat) : Nat := n * 1000000 * 65536
/-- The pair link's SEQ counters after a message (Table 10.2): the sealed types, 0x03 and above, each count in their EtherType, 32 bits. -/
def pairSent (r : Red) (e : Emit) : Red :=
  match e with
  | .pair k _ => if 3 ≤ k then { r with txSeq := r.txSeq.modify 0 (if 0x10 ≤ k then 0x88B6 else 0x88B5) (fun n => (n + 1) % 2 ^ 32) } else r
  | _ => r

/-- Nanoseconds as an instant difference. -/
def nsec (n : Nat) : Nat := n * 65536

namespace State

/-- OCXO time since the model's beginning (2^-16 ns), which no step and no slew moves: what watchdogs (R453), quiet periods and
time-outs count. -/
def mono (s : State) : Nat := ((s.now : Int) - s.skew).toNat

/-- The rate adjustment f (R367) in parts per 10^9, at most 1000 ppm either way. -/
def rateAdj (s : State) : Int := max (-1000000) (min 1000000 (signed 32 (s.rd Reg.TIM_FREQ)))

/-- What station time gains in 10^9 units of OCXO time, without an offset-removal term (R367). -/
def basePace (s : State) : Nat := (1000000000 + s.rateAdj).toNat

/-- The slew rate in ppm (Table 15.10). -/
def slewRate (s : State) : Nat := s.fld Reg.TIM_CFG 21 10

/-- The offset still to be removed (R364, R367): a slew removes it at the slew rate from its beginning on. -/
def slewLeft (s : State) : Nat :=
  match s.tim.slew with
  | some (t0, x) => x.natAbs - (s.mono - t0) * s.slewRate / 1000000
  | none => match s.tim.stepDue with | some (_, x) => x.natAbs | none => 0

/-- What station time gains while an OCXO time passes (R367): f, and the offset-removal term until the offset is gone, against the
offset's sign. -/
def stationIn (s : State) (e : Nat) : Nat :=
  let base := e * s.basePace / 1000000000
  match s.tim.slew with
  | some (_, x) =>
    let gone := min s.slewLeft (e * s.slewRate / 1000000)
    if 0 < x then base - gone else base + gone
  | none => base

/-- The OCXO time in which station time gains a difference (R367). -/
def ocxoIn (s : State) (d : Nat) : Nat :=
  match s.tim.slew with
  | some (_, x) =>
    let e := cdiv (s.slewLeft * 1000000) s.slewRate
    if s.stationIn e ≤ d then e + (d - s.stationIn e) * 1000000000 / s.basePace
    else d * 1000000000 / (if 0 < x then s.basePace - s.slewRate * 1000 else s.basePace + s.slewRate * 1000)
  | none => d * 1000000000 / s.basePace

/-- What the OCXO and station time part by while station time gains a difference. -/
def drift (s : State) (d : Nat) : Int := if d = 0 then 0 else (d : Int) - s.ocxoIn d

/-- Let station time pass up to an instant (time never runs back here). -/
def advance (s : State) (t : Nat) : State := { s with now := max s.now t, skew := s.skew + s.drift (t - s.now) }

/-- Station time at an OCXO instant not yet passed. -/
def nowAt (s : State) (t : Nat) : Nat := s.now + s.stationIn (t - s.mono)

/-- Let time pass up to an instant of OCXO time. -/
def advanceMono (s : State) (t : Nat) : State :=
  { s with now := s.nowAt t, skew := if t ≤ s.mono then s.skew else (s.nowAt t : Int) - t }

/-! ### Open values -/

/-- A fresh open number (log entry 1). -/
def fresh (s : State) : Nat × State := (Config.free s.free, { s with free := s.free + 1 })

/-- A fresh open row. -/
def freshRow (s : State) : Row × State := (Config.freeRow s.free, { s with free := s.free + 1 })

/-! ### Faults raised to FLT -/

/-- A source fires now (R438): FLT takes it at the end of the step (`settle`, Flt.lean). -/
def raise (s : State) (src : Nat) (task : Nat := 0xFFFF) (det1 : Nat := 0) (det2 : Nat := 0) : State :=
  { s with raised := s.raised ++ [{ src := src, at_ := s.now, task := task, det1 := det1, det2 := det2 }] }

/-- Send a message; a pair message takes its SEQ from its EtherType's counter (R241). -/
def emit (s : State) (e : Emit) : State := { s with out := e :: s.out, red := pairSent s.red e }

/-! ### Tables of things -/

def owner (s : State) (n : Nat) : Owner := s.owners.get {} n
def setOwner (s : State) (n : Nat) (o : Owner) : State := { s with owners := s.owners.set {} n o }
def eng (s : State) (e : Nat) : Engine := s.engines.get {} e
def setEng (s : State) (e : Nat) (x : Engine) : State := { s with engines := s.engines.set {} e x }
def bent (s : State) (m : Nat) : Bent := s.bents.get {} m
def setBent (s : State) (m : Nat) (x : Bent) : State := { s with bents := s.bents.set {} m x }
def task (s : State) (k : Nat) : Task := s.tasks.get {} k
def setTask (s : State) (k : Nat) (x : Task) : State := { s with tasks := s.tasks.set {} k x }
def taskCfg (s : State) (k : Nat) : TaskRec := s.cfg.tasks.get {} k
def ownerCfg (s : State) (n : Nat) : OwnerCfg := s.cfg.part.owners.get {} n
def bentCfg (s : State) (m : Nat) : BentCfg := s.cfg.part.bents.get {} m
def imgf (s : State) (n : Nat) : Imgf := s.cfg.imgf.get {} n
def cnst (s : State) (n : Nat) : Cnst := s.cfg.cnst.get {} n
def ringCfg (s : State) (q : Nat) : RingRec := s.cfg.rings.get {} q
/-- The owner a scantling gives a ring (R197); none if unassigned. -/
def ringOwner (s : State) (q : Nat) : Option Nat := s.cfg.part.ringOwn.find? q
/-- The owning owner of a fault source (R438). -/
def srcOwner (s : State) (f : Nat) : Nat := (s.cfg.part.fltOwn.find? f).getD 0
/-- Is the owner defined by the scantling? -/
def ownerDef (s : State) (n : Nat) : Bool := bit s.cfg.hdr.ownmask n
/-- The owner indices. -/
def ownerIdx : List Nat := [0, 1, 2, 3, 4, 5, 6, 7]
/-- The owner of engine e's bent (R17); the management engine acts as O0 (R480). -/
def engOwner (s : State) (e : Nat) : Nat := if e = 256 then 0 else (s.bentCfg (e / 4)).owner
/-- The tasks of an owner, in ascending number. -/
def tasksOf (s : State) (n : Nat) : List Nat :=
  (s.cfg.tasks.filter (fun p => p.2.defined && p.2.owner == n)).map (·.1)

/-- May the owner's tasks be released (R41)? -/
def releasable (s : State) (n : Nat) : Bool :=
  (s.ms.mode == .run || s.ms.mode == .shadow || s.ms.mode == .test) && (s.owner n).st == .running

/-! ### The Almanac's and MGT's records -/

/-- Operating seconds since the count began (R473). -/
def opSecs (s : State) : Nat :=
  s.alm.opSecs + (if s.alm.counting then (s.mono - s.alm.opFrom) / (65536 * 1000000000) else 0)

/-- An Almanac event (R471, R472, R475): it waits in the 256-entry FIFO with its values; a full FIFO loses it, counts it in
ALM_LOST and fires F1792. After the Drain record nothing is recorded or counted (R471). -/
def almEvent (s : State) (code block arg det : Nat) : State :=
  let r : AlmRec :=
    { time := form64 s.now, hours := s.opSecs / 3600, qual := bits (s.rd Reg.TIM_STAT) 4 4, cycles := s.rd Reg.ALM_CYCLES,
      code := code, block := block, arg := arg, det := det }
  if s.alm.closed then s
  else if s.alm.fifo.length < 256 then
    let s : State := { s with alm := { s.alm with fifo := s.alm.fifo ++ [r] } }
    (s.wr Reg.ALM_FIFO s.alm.fifo.length).maxReg Reg.ALM_FIFOMAX s.alm.fifo.length
  else
    let s : State := { s with alm := { s.alm with lostBefore := true } }
    ((s.bump Reg.ALM_LOST 1).setBit Reg.ALM_STAT 16 true).raise 1792

/-- A management-log entry (R487), written through to STO's general share. -/
def mgtLog (s : State) (code arg det : Nat) : State :=
  let num := s.rd Reg.MGT_LOGNEXT
  let e : MgtEntry := { time := form64 s.now, num := num, code := code, arg := arg, det := det }
  let ack := { s.sto.ack with mlog := s.sto.ack.mlog.insert (num % 4096) e }
  let s : State := { s with
    sto := { s.sto with ack := ack, staging := s.sto.staging ++ [{ share := 1, len := 32, w := .mlog e }] } }
  s.wr Reg.MGT_LOGNEXT ((num + 1) % 2 ^ 32)

end State

/-- Do something to a state for each element of a list. -/
def forEach {α : Type} (l : List α) (f : State → α → State) (s : State) : State := l.foldl f s

/-- Apply a change only under a condition. -/
def when_ (c : Bool) (f : State → State) (s : State) : State := if c then f s else s

end Sys2Proof.Machine
end

