-- ==== Sys2Proof/Machine/Sto.lean ====
section
/-! DEFINITION. STO's own operations (chapter 12): staging with its three shares, acknowledgement and flushing (R287, R288),
reads that may fail LDPC (R290), and archive windows (R296 to R298, R300). -/
namespace Sys2Proof.Machine

/-- What a write does to a set of media. -/
def Media.apply (m : Media) : StoWrite → Media
  | .retain owner line l => { m with retain := m.retain.set {} (owner * 2 ^ 48 + line) l }
  | .back owner page p => { m with back := m.back.set {} (owner * 2 ^ 32 + page) p }
  | .alm num r => { m with alm := m.alm.insert num r }
  | .mlog e => { m with mlog := m.mlog.insert (e.num % 4096) e }
  | .arc r => { m with arc := m.arc ++ [r] }
  | .note _ => m

/-- The size of a staging share in bytes (R288). -/
def shareSize (share : Nat) : Nat := if share = 2 then 16777216 else 8388608

namespace State

/-- Bytes of a share in use. -/
def shareUsed (s : State) (share : Nat) : Nat :=
  (s.sto.staging.filter (fun x => x.share == share)).foldl (fun a x => a + x.len) 0

/-- Bytes in staging (STO_STAGE). -/
def stageBytes (s : State) : Nat := s.sto.staging.foldl (fun a x => a + x.len) 0

/-- Flush the oldest staged write of a share to flash (R288). -/
def flushOne (s : State) (share : Nat) : State :=
  match s.sto.staging.find? (fun x => x.share == share) with
  | none => s
  | some x =>
    let s : State := { s with sto := { s.sto with
      flash := s.sto.flash.apply x.w, staging := s.sto.staging.erase x } }
    s.wr Reg.STO_STAGE s.stageBytes

/-- Flush up to k writes of a share, in the order they were acknowledged. -/
def flushShare (s : State) (share : Nat) : Nat → State
  | 0 => s
  | k + 1 => flushShare (s.flushOne share) share k

/-- Flush every share, critical first (R288, Table 2.5). -/
def flushAll (s : State) : State :=
  let k := s.sto.staging.length
  ((s.flushShare 0 k).flushShare 1 k).flushShare 2 k

/-- Make room in a share: its writer waits until the oldest writes have left (R288). -/
def makeRoom (s : State) (share len : Nat) : Nat → State
  | 0 => s
  | k + 1 => if shareSize share < s.shareUsed share + len then makeRoom (s.flushOne share) share len k else s

/-- A write enters staging and is acknowledged, so durable (R287): WRBYTES, STAGE and STAGEMAX follow. A writer that finds its
share full waits; a RETAIN line's wait counts in STO_RWAIT, sets RWAIT and fires F0516 (R288). -/
def stage (s : State) (share len : Nat) (w : StoWrite) : State :=
  let full := shareSize share < s.shareUsed share + len
  let isRetain := match w with | .retain _ _ _ => true | _ => false
  let s := if full && isRetain then ((s.bump Reg.STO_RWAIT 1).setBit Reg.STO_STAT 19 true).raise 516 else s
  let s := s.makeRoom share len s.sto.staging.length
  let s : State := { s with sto := { s.sto with
    ack := s.sto.ack.apply w, staging := s.sto.staging ++ [{ share := share, len := len, w := w }] } }
  let s := s.bump64 Reg.STO_WRBYTES len
  let b := s.stageBytes
  (s.wr Reg.STO_STAGE b).maxReg Reg.STO_STAGEMAX b

/-- A sector of a region (Table 12.1, in its order from 0) by the model's number. -/
def sectorId (region sector : Nat) : Nat := region * 2 ^ 60 + sector

/-- Read a sector (R290): a page that fails LDPC is reconstructed and counted, or is uncorrectable and fires F0512. -/
def stoRead (s : State) (region sector len : Nat) : Bool × State :=
  let id := sectorId region sector
  let s := s.bump64 Reg.STO_RDBYTES len
  if s.sto.unreadable.contains id then
    (false, ((s.bump Reg.STO_UNCRD 1).setBit Reg.STO_STAT 16 true).raise 512)
  else if s.sto.weak.contains id then
    (true, ({ s with sto := { s.sto with weak := s.sto.weak.erase id } } : State).bump Reg.STO_RECOV 1)
  else (true, s)

/-! ### Archive windows -/

/-- Is the archive capturing (R294, R300)? -/
def arcOn (s : State) : Bool :=
  s.fld Reg.STO_ACTL 0 1 == 1 && s.fld Reg.STO_STAT 2 1 == 1 &&
  (s.ms.mode == .run || s.ms.mode == .shadow || s.ms.mode == .test || s.ms.mode == .hold || s.ms.mode == .handover)

/-- Segments an archive record stream of one subscription fills: 4 MiB each (R294). -/
def arcLen (r : ArcRec) : Nat := 16 + (r.frame.length + 7) / 8 * 8

/-- The owner's subscribed streams' records (R297): records with the owner of their subscription. -/
def arcOwner (s : State) (sub : Nat) : Option Nat := (s.cfg.streams.find? sub).map (·.owner)

/-- Bytes of an owner's records inside a window. -/
def winBytes (s : State) (w : ArcWin) : Nat :=
  (s.sto.ack.arc.filter (fun r => s.arcOwner r.sub == some w.owner && decide (w.lo ≤ r.time) && decide (r.time ≤ w.hi))).foldl
    (fun a r => a + arcLen r) 0

/-- Retained segments of an owner in MiB, or of all (none): every 4 MiB segment a window touches (R297). -/
def retainedMiB (s : State) (n : Option Nat) : Nat :=
  (s.sto.wins.filter (fun w => n == none || n == some w.owner)).foldl (fun a w => a + cdiv (s.winBytes w) 4194304 * 4) 0

/-- The archive region in GiB: what the other regions leave of 256 TiB (Table 12.1). -/
def arcGiB (s : State) : Nat := (258043 + 4096) - s.cfg.part.pagTib * 1024

/-- Window counts and retained sizes in their registers. -/
def winRegs (s : State) : State :=
  let s := s.wr Reg.STO_AWINS s.sto.wins.length
  let s := s.wr Reg.STO_ARETAIN (cdiv (s.retainedMiB none) 1024)
  forEach ownerIdx (fun s n =>
    (s.wr (Reg.STO_OWIN n) (s.sto.wins.filter (fun w => w.owner == n)).length).wr (Reg.STO_ORETAIN n) (s.retainedMiB (some n))) s

/-- Release whole windows, oldest start first, until the retained segments fit in 25 % of the archive (R298). -/
def releaseWins (s : State) : Nat → State
  | 0 => s
  | k + 1 =>
    if s.arcGiB * 1024 / 4 < s.retainedMiB none then
      match s.sto.wins with
      | [] => s
      | w :: ws =>
        let old := ws.foldl (fun a x => if x.lo < a.lo then x else a) w
        let s : State := { s with sto := { s.sto with wins := s.sto.wins.erase old } }
        releaseWins (((s.bump Reg.STO_AWINREL 1).setBit Reg.STO_STAT 18 true).raise 518) k
    else s

/-- An hour in ns. -/
def hourNs : Nat := 3600 * 1000000000

/-- Merge a new window with those of its owner that it overlaps or touches, to at most 1 h (R297): beyond that a new window begins where the merged one
ends, and a window already 1 h long takes no more. `done` are the windows that stay as they are. -/
def mergeWin : Nat → List ArcWin → List ArcWin → ArcWin → List ArcWin
  | 0, done, wins, w => done ++ wins ++ [w]
  | k + 1, done, wins, w =>
    match wins.find? (fun x => x.owner == w.owner && decide (w.lo ≤ x.hi) && decide (x.lo ≤ w.hi)) with
    | none => done ++ wins ++ [w]
    | some x =>
      let rest := wins.erase x
      let lo := min x.lo w.lo
      let hi := max x.hi w.hi
      if hourNs ≤ x.hi - x.lo then
        if w.lo < x.lo then mergeWin k (done ++ [x]) rest { w with hi := x.lo }
        else if w.hi ≤ x.hi then done ++ wins
        else mergeWin k (done ++ [x]) rest { w with lo := x.hi }
      else if hi - lo ≤ hourNs then mergeWin k done rest { w with lo := lo, hi := hi }
      else mergeWin k (done ++ [{ w with lo := lo, hi := lo + hourNs }]) rest { w with lo := lo + hourNs, hi := hi }

/-- The windows once a trigger's window is merged in (R297). -/
def trigWins (s : State) (n t p q : Nat) : List ArcWin :=
  mergeWin (s.sto.wins.length + 1) [] s.sto.wins { owner := n, lo := t - p * 1000000, hi := t + q * 1000000 }

/-- A trigger of an owner at t with P and Q in ms (R296, R297): counted, its window opened and merged, then releases at the cap
(R298: the trigger is retained first). While EN is 0 a trigger is ignored (R300), and from Drain on capture has ended. -/
def trigger (s : State) (n t p q : Nat) : State :=
  if s.fld Reg.STO_ACTL 0 1 = 1 ∧ s.ms.mode ≠ .drain then
    let s := s.bump (Reg.STO_OTRIG n) 1
    let s : State := { s with sto := { s.sto with wins := s.trigWins n t p q } }
    (s.releaseWins s.sto.wins.length).winRegs
  else s

/-- Overwrite the oldest records no window retains while the archive region is over-full; AOLDEST follows. -/
def arcRoll (s : State) : Nat → State
  | 0 => s
  | k + 1 =>
    let total := s.sto.ack.arc.foldl (fun a r => a + arcLen r) 0
    let kept (r : ArcRec) : Bool := s.sto.wins.any (fun w =>
      s.arcOwner r.sub == some w.owner && decide (w.lo ≤ r.time) && decide (r.time ≤ w.hi))
    match if s.arcGiB * 2 ^ 30 < total then s.sto.ack.arc.find? (fun r => !kept r) else none with
    | some r =>
      let ack := { s.sto.ack with arc := s.sto.ack.arc.erase r }
      arcRoll { s with sto := { s.sto with ack := ack } } k
    | none => s.wr64 Reg.STO_AOLDEST (s.sto.ack.arc.foldl (fun a r => if a = 0 then r.time else min a r.time) 0)

/-- A frame accepted for a stream (R294, R295, R300): archived in staging's archive share, or dropped and counted. -/
def archive (s : State) (r : ArcRec) : State :=
  match s.arcOwner r.sub with
  | none => s
  | some n =>
    if s.arcOn then
      let gap := s.sto.gapNext.contains r.sub
      let flags := putBits r.flags 0 1 (b2n gap)
      let r := { r with flags := flags }
      if shareSize 2 < s.shareUsed 2 + arcLen r then
        let s : State := { s with sto := { s.sto with gapNext := r.sub :: s.sto.gapNext.filter (· != r.sub) } }
        ((s.bump (Reg.STO_ODROP n) 1).setBit Reg.STO_STAT 17 true).raise 517
      else
        let s : State := { s with sto := { s.sto with gapNext := s.sto.gapNext.filter (· != r.sub) } }
        let s := s.stage 2 (arcLen r) (.arc r)
        let s := s.bump64 (Reg.STO_OFRAMES n) 1
        let s := s.arcRoll s.sto.ack.arc.length
        (s.releaseWins s.sto.wins.length).winRegs
    else if s.ms.mode == .run || s.ms.mode == .shadow || s.ms.mode == .test || s.ms.mode == .hold || s.ms.mode == .handover then
      s.bump (Reg.STO_ODROP n) 1
    else s

/-- Capture ends (R300, step 1 of Drain): open windows end now and the flush of the archive share begins. -/
def arcStop (s : State) : State :=
  let t := form64 s.now
  let s : State := { s with sto := { s.sto with wins := s.sto.wins.map (fun w => { w with hi := min w.hi t }) } }
  let s := s.setBit Reg.STO_STAT 2 false
  (s.setBit Reg.STO_STAT 3 (decide (0 < s.shareUsed 2))).winRegs

/-- Windows of an owner released and its segments returned (R300: erased or no longer defined). -/
def dropWins (s : State) (n : Nat) : State :=
  ({ s with sto := { s.sto with wins := s.sto.wins.filter (fun w => w.owner != n) } } : State).winRegs

end State

end Sys2Proof.Machine
end

