-- ==== Sys2Proof/Machine/Mmu.lean ====
section
/-! DEFINITION. MMU's own operations (chapter 11): page tables and walks (R267, R268), translation caches (R269, R270), fresh
pages and allocation (R271, R272), paging (R273 to R275), and line access under seals (R278 to R283). -/
namespace Sys2Proof.Machine

/-- First address of the frame area (Table 11.1). -/
def frameBase : Nat := 0x200000000
/-- First address of the device regions (Table 11.1). -/
def deviceBase : Nat := 0x8000000000
/-- Frames of the frame area (Table 11.1). -/
def frameCount : Nat := 8257536
/-- Tables of the table area (Table 11.1). -/
def tableCount : Nat := 4194304

/-! ### Table entries (Table 11.2) -/

def eType (e : Nat) : Nat := bits e 0 2
def eState (e : Nat) : Nat := bits e 2 2
def ePin (e : Nat) : Bool := bit e 4
def eAcc (e : Nat) : Bool := bit e 5
def eDirty (e : Nat) : Bool := bit e 6
def eWp (e : Nat) : Bool := bit e 7
def eSpace (e : Nat) : Nat := bits e 8 3
def eBv (e : Nat) : Bool := bit e 11
def eNext (e : Nat) : Nat := bits e 11 29 * 2048
def eFrame (e : Nat) : Nat := bits e 16 24 * 65536
/-- The frame number of a frame address. -/
def frameNo (addr : Nat) : Nat := (addr - frameBase) / 65536
/-- The address of a frame number. -/
def frameAddr (f : Nat) : Nat := frameBase + f * 65536

/-- A page entry from its fields. -/
def mkPage (state : Nat) (pin acc dirty wp : Bool) (space : Nat) (bv : Bool) (frame : Nat) : Nat :=
  2 + state * 4 + b2n pin * 16 + b2n acc * 32 + b2n dirty * 64 + b2n wp * 128 + space * 256 + b2n bv * 2048 + frame

/-- How a walk ends (R268): a walk fault or a walk into a device at a level, nothing allocated, or the page entry and where
it lies (address / 8). -/
inductive Walk where
  | fault (level : Nat)
  | dev (level : Nat)
  | nothing
  | page (key entry : Nat)
  deriving DecidableEq, Repr

/-- Check a page entry met at level 4 (R268 checks 2 to 4). -/
def checkPage (key e : Nat) : Walk :=
  if eType e ≠ 2 ∨ bits e 12 4 ≠ 0 ∨ bits e 40 24 ≠ 0 then .fault 4
  else if (eState e = 1 ∨ eState e = 3) ∧ eFrame e = 0 then .fault 4
  else if (eState e = 0 ∨ eState e = 2) ∧ eFrame e ≠ 0 then .fault 4
  else if eFrame e = 0 then .page key e
  else if deviceBase ≤ eFrame e then .dev 4
  else if eFrame e < frameBase then .fault 4
  else .page key e

/-- Walk one table line per level from the root down (R268). -/
def walkFrom (m : Mmu) (va : Nat) : Nat → Nat → Nat → Walk
  | 0, _, _ => .nothing
  | fuel + 1, level, addr =>
    let key := addr / 8 + bits va (48 - 8 * level) 8
    if m.tblBad.contains (key / 8) then .fault level else
    let e := m.tbl.get 0 key
    if eType e = 0 then .nothing
    else if level = 4 then checkPage key e
    else if eType e ≠ 1 ∨ bits e 2 9 ≠ 0 ∨ bits e 40 24 ≠ 0 then .fault level
    else if deviceBase ≤ eNext e then .dev level
    else if frameBase ≤ eNext e then .fault level
    else walkFrom m va fuel (level + 1) (eNext e)

/-- The walk of an owner's virtual address; an owner without a root has nothing allocated. -/
def walk (m : Mmu) (n va : Nat) : Walk :=
  match m.roots.find? n with
  | some root => walkFrom m va 4 1 root
  | none => .nothing

/-- Every page entry below a table: (virtual page, where it lies, entry), in ascending page. -/
def pagesBelow (m : Mmu) : Nat → Nat → Nat → Nat → List (Nat × Nat × Nat)
  | 0, _, _, _ => []
  | fuel + 1, level, addr, page =>
    (m.tbl.filter (fun p => p.1 / 256 == addr / 2048)).flatMap (fun p =>
      let page' := page * 256 + p.1 % 256
      if level = 4 then (if eType p.2 = 2 then [(page', p.1, p.2)] else [])
      else if eType p.2 = 1 ∧ eNext p.2 < frameBase then pagesBelow m fuel (level + 1) (eNext p.2) page' else [])

/-- Every page entry of an owner. -/
def ownerPages (m : Mmu) (n : Nat) : List (Nat × Nat × Nat) :=
  match m.roots.find? n with
  | some root => pagesBelow m 4 1 root 0
  | none => []

/-- How an access translates: a frame with its write protection, a fresh page, a walk exception (code of Table 4.11, level),
or a page that is paged out or on its way in. -/
inductive Xlat where
  | frame (f : Nat) (wp : Bool)
  | zero
  | exc (code level : Nat)
  | pageIn
  deriving DecidableEq, Repr

/-- A sealed line (R280) of an owner's key generation. -/
def sealLine (data : Line64) (n gen va ver : Nat) : Line :=
  { data := data, owner := n, gen := gen, va := va / 64, ver := ver }

/-- Does the line's tag pass for the reader (R280)? -/
def tagPasses (l : Line) (n gen va : Nat) : Bool :=
  l.owner == n && l.gen == gen && l.va == va / 64 && !l.bad

/-- A line of a frame: an unlisted line of a prepared frame is fresh (R271), of any other one nothing has sealed. -/
def Frame.line (f : Frame) (i : Nat) : Line :=
  match f.lines.find? i with
  | some l => l
  | none => { fresh := f.prepared }

/-- Bits of `new` where the mask has ones, of `old` elsewhere. -/
def mergeBits (old new mask : Line64) : Line64 := (old &&& ~~~mask) ||| (new &&& mask)

namespace State

/-- The data-key generation of an owner. -/
def keyGen (s : State) (n : Nat) : Nat := (s.mmu.keys.get {} n).gen

/-- Write a table entry. -/
def setEntry (s : State) (key e : Nat) : State := { s with mmu := { s.mmu with tbl := s.mmu.tbl.set 0 key e } }

/-- A frame of the frame area. -/
def frame (s : State) (f : Nat) : Frame := s.mmu.frames.get {} f

/-- A line at a frame. -/
def lineAt (s : State) (f va : Nat) : Line := (s.frame f).line (va / 64 % 1024)

/-- Put a line at a frame; one that reads as an unlisted line of the frame is not listed. -/
def putLine (s : State) (f va : Nat) (l : Line) : State :=
  let fr := s.frame f
  let fr := { fr with lines := fr.lines.set { fresh := fr.prepared } (va / 64 % 1024) l }
  { s with mmu := { s.mmu with frames := s.mmu.frames.set {} f fr } }

/-- Invalidate a page in the cache of every bent of the owner (R270), counting in MMU_TCINV. -/
def invalidate (s : State) (n page : Nat) : State :=
  forEach s.mmu.tlb (fun s p =>
    let kept := p.2.filter (fun t => !(t.owner == n && t.page == page))
    if kept.length = p.2.length then s
    else ({ s with mmu := { s.mmu with tlb := s.mmu.tlb.set [] p.1 kept } } : State).bump (Reg.MMU_TCINV p.1)
      (p.2.length - kept.length)) s

/-- Empty a bent's cache (R269). -/
def emptyTlb (s : State) (m : Nat) : State := { s with mmu := { s.mmu with tlb := s.mmu.tlb.set [] m [] } }

/-- Frames the owner's translations hold resident. -/
def resident (s : State) (n : Nat) : Nat := s.rd (Reg.MMU_RESIDENT n)

/-- MMU_FRAMEFREE, MMU_TBLFREE, MMU_PREP and MMU_STAT.PREPLOW as they follow from what is in use. -/
def memRegs (s : State) : State :=
  let used := s.mmu.nextFrame - s.mmu.freed.length - s.mmu.prep.length
  let s := s.wr Reg.MMU_FRAMEFREE (frameCount - used)
  let s := s.wr Reg.MMU_TBLFREE (tableCount - (s.mmu.nextTable - s.mmu.freedTbl.length))
  (s.wr Reg.MMU_PREP s.mmu.prep.length).setBit Reg.MMU_STAT 1 s.mmu.prep.isEmpty

/-- Prepare one more frame (R271, R272): the lowest freed one, or the next never used; its 1024 lines read fresh. -/
def prepareOne (s : State) : State :=
  if 512 ≤ s.mmu.prep.length then s else
  match s.mmu.freed with
  | f :: rest =>
    ({ s with mmu := { s.mmu with freed := rest, prep := s.mmu.prep ++ [f],
                                  frames := s.mmu.frames.set {} f { prepared := true } } } : State).memRegs
  | [] =>
    if frameCount ≤ s.mmu.nextFrame then s else
    let f := s.mmu.nextFrame
    ({ s with mmu := { s.mmu with nextFrame := f + 1, prep := s.mmu.prep ++ [f],
                                  frames := s.mmu.frames.set {} f { prepared := true } } } : State).memRegs

/-- Take a prepared frame, if there is one. -/
def takeFrame (s : State) : Option Nat × State :=
  match s.mmu.prep with
  | f :: rest => (some f, ({ s with mmu := { s.mmu with prep := rest } } : State).memRegs)
  | [] => (none, s.memRegs)

/-- Take a frame for MMU's own start work, preparing one if none is prepared. -/
def takeFrameNow (s : State) : Option Nat × State :=
  if s.mmu.prep.isEmpty then s.prepareOne.takeFrame else s.takeFrame

/-- Give a frame back (R272): not scrubbed. -/
def freeFrame (s : State) (f : Nat) : State :=
  let ins := (s.mmu.freed.filter (· < f)) ++ [f] ++ (s.mmu.freed.filter (f < ·))
  ({ s with mmu := { s.mmu with freed := ins } } : State).memRegs

/-- A new table (R265), the lowest free one. -/
def newTable (s : State) : Nat × State :=
  match s.mmu.freedTbl with
  | t :: rest => (t, ({ s with mmu := { s.mmu with freedTbl := rest } } : State).memRegs)
  | [] => (s.mmu.nextTable, ({ s with mmu := { s.mmu with nextTable := s.mmu.nextTable + 1 } } : State).memRegs)

/-- The root table of an owner, made if it has none. -/
def ensureRoot (s : State) (n : Nat) : State :=
  match s.mmu.roots.find? n with
  | some _ => s
  | none =>
    let (t, s) := s.newTable
    ({ s with mmu := { s.mmu with roots := s.mmu.roots.insert n (t * 2048) } } : State).wr64 (Reg.MMU_ROOT n) (t * 2048)

/-- Create any missing tables down to a page's entry (R271), and answer where that entry lies. -/
def ensureFrom (s : State) (va : Nat) : Nat → Nat → Nat → Nat × State
  | 0, _, addr => (addr / 8, s)
  | fuel + 1, level, addr =>
    let key := addr / 8 + bits va (48 - 8 * level) 8
    if level = 4 then (key, s) else
    let e := s.mmu.tbl.get 0 key
    if eType e = 1 then ensureFrom s va fuel (level + 1) (eNext e)
    else
      let (t, s) := s.newTable
      ensureFrom (s.setEntry key (1 + t * 2048)) va fuel (level + 1) (t * 2048)

/-- Where the entry of an owner's page lies, made if missing. -/
def ensureEntry (s : State) (n va : Nat) : Nat × State :=
  let s := s.ensureRoot n
  s.ensureFrom va 4 1 (s.mmu.roots.get 0 n)

/-- A page of an owner takes a frame: one more resident (RESMAX follows). -/
def addResident (s : State) (n : Nat) : State :=
  let s := s.wr (Reg.MMU_RESIDENT n) (s.resident n + 1)
  s.maxReg (Reg.MMU_RESMAX n) (s.resident n)

/-- The space code an owner's address lies in (R97, R264); none outside the three ranges. -/
def vaSpace (s : State) (n va : Nat) : Option Nat :=
  let c := s.cnst n
  if c.dataBase ≤ va ∧ va < c.dataBase + c.dataSize then some 5
  else if c.retBase ≤ va ∧ va < c.retBase + c.retSize then some 6
  else if c.constBase ≤ va ∧ va < c.constBase + c.constSize then some 7 else none

/-- The virtual base and the size of a data space (R97). -/
def spaceBase (s : State) (n space : Nat) : Nat × Nat :=
  let c := s.cnst n
  if space = 5 then (c.dataBase, c.dataSize) else if space = 6 then (c.retBase, c.retSize) else (c.constBase, c.constSize)

/-- Page-out of a victim (R273): written to backing when dirty or not yet there, freed at once otherwise. -/
def evict (s : State) (n page key e : Nat) : State :=
  let s := s.invalidate n page
  if eDirty e || !eBv e then
    let s := s.setEntry key (putBits e 2 2 3)
    { s with mmu := { s.mmu with transit := s.mmu.transit ++ [(n, page, false)] } }
  else
    let s := s.setEntry key (mkPage 2 false false false (eWp e) (eSpace e) true 0)
    (s.freeFrame (frameNo (eFrame e))).wr (Reg.MMU_RESIDENT n) (s.resident n - 1)

/-- The clock sweep over the owner's resident unpinned pages (R273): ACC is cleared where set, and the first page found with
ACC 0 is the victim. -/
def sweep (s : State) (n : Nat) : List (Nat × Nat × Nat) → State
  | [] => s
  | (page, key, _) :: rest =>
    let e := s.mmu.tbl.get 0 key
    let s : State := { s with mmu := { s.mmu with hand := s.mmu.hand.set 0 n (page + 1) } }
    if eAcc e then sweep ((s.invalidate n page).setEntry key (putBits e 5 1 0)) n rest
    else s.evict n page key e

/-- Keep the owner's resident frames 16 below its DRAM limit (R273). -/
def pageOutIfNeeded (s : State) (n : Nat) : State :=
  let outs := (s.mmu.transit.filter (fun t => t.1 == n && !t.2.2)).length
  if (s.ownerCfg n).drlim < s.resident n - outs + 16 then
    let ps := (ownerPages s.mmu n).filter (fun p => eState p.2.2 == 1 && !ePin p.2.2)
    let h := s.mmu.hand.get 0 n
    let ring := ps.filter (fun p => h ≤ p.1) ++ ps.filter (fun p => p.1 < h)
    s.sweep n (ring ++ ring)
  else s

/-- Give a fresh page a frame (R271): invalidated in every cache, missing tables made, resident. None while no frame is
prepared. -/
def allocPage (s : State) (n va : Nat) (pin now_ : Bool) : Option Nat × State :=
  let (f?, s) := if now_ then s.takeFrameNow else s.takeFrame
  match f? with
  | none => (none, s)
  | some f =>
    let s := s.invalidate n (va / 65536)
    let (key, s) := s.ensureEntry n va
    let sp := (s.vaSpace n va).getD 5
    let s := s.setEntry key (mkPage 1 pin false true (sp == 7) sp false (frameAddr f))
    let s := (s.bump (Reg.MMU_ALLOC n) 1).addResident n
    let s := if pin then s.wr (Reg.MMU_PINNED n) (s.rd (Reg.MMU_PINNED n) + 1) else s
    (some f, s.pageOutIfNeeded n)

/-- Start a page-in (R274): the page is in transit in. -/
def startPageIn (s : State) (n page : Nat) : State :=
  if s.mmu.transit.contains (n, page, true) then s
  else { s with mmu := { s.mmu with transit := s.mmu.transit ++ [(n, page, true)] } }

/-- An access to a page on its way out cancels the page-out (R275). -/
def cancelOut (s : State) (n page key e : Nat) : State :=
  let s := s.setEntry key (putBits e 2 2 1)
  { s with mmu := { s.mmu with transit := s.mmu.transit.filter (fun t => !(t == (n, page, false))) } }

/-- A walk exception's counts, flags and source (R268, Table 11.6). -/
def walkEvent (s : State) (n va code task : Nat) : State :=
  let s := s.wr64 (Reg.MMU_LASTVA n) va
  if code = 0x0F then (((s.bump (Reg.MMU_WALKDEV n) 1).setBit (Reg.MMU_OSTAT n) 11 true).raise (392 + n) task code)
  else (((s.bump (Reg.MMU_WALKFLT n) 1).setBit (Reg.MMU_OSTAT n) 10 true).raise (384 + n) task code)

/-- Walk and act on what the walk finds. -/
def walkAccess (s : State) (n va task : Nat) : Xlat × State :=
  let page := va / 65536
  match walk s.mmu n va with
  | .fault l => (.exc 0x0E l, s.walkEvent n va 0x0E task)
  | .dev l => (.exc 0x0F l, s.walkEvent n va 0x0F task)
  | .nothing => (.zero, s)
  | .page key e =>
    let e' := putBits e 5 1 1
    let s := s.setEntry key e'
    if eState e = 0 then (.zero, s)
    else if eState e = 1 then (.frame (frameNo (eFrame e)) (eWp e), s)
    else if eState e = 3 ∧ s.mmu.transit.contains (n, page, false) then
      (.frame (frameNo (eFrame e)) (eWp e), s.cancelOut n page key e')
    else (.pageIn, s.startPageIn n page)

/-- Translate for an engine of bent m through its cache (R269): a hit is used, a miss walks and is remembered. -/
def translate (s : State) (m n va task : Nat) : Xlat × State :=
  let page := va / 65536
  let cache := s.mmu.tlb.get [] m
  match cache.find? (fun t => t.owner == n && t.page == page) with
  | some t =>
    let s := s.bump64 (Reg.MMU_TCHIT m) 1
    let s : State := { s with mmu := { s.mmu with tlb := s.mmu.tlb.set [] m (t :: cache.erase t) } }
    (if t.zero then .zero else .frame t.frame t.wp, s)
  | none =>
    let (w, s) := s.fresh
    let s := (s.bump (Reg.MMU_TCMISS m) 1).maxReg (Reg.MMU_TCMAXW m) (w % 3201)
    let (x, s) := s.walkAccess n va task
    let sp := (s.vaSpace n va).getD 5
    let add (t : TlbEnt) (s : State) : State :=
      { s with mmu := { s.mmu with tlb := s.mmu.tlb.set [] m ((t :: s.mmu.tlb.get [] m).take 512) } }
    match x with
    | .frame f wp => (x, add { owner := n, page := page, frame := f, space := sp, wp := wp, zero := false } s)
    | .zero => (x, add { owner := n, page := page, frame := 0, space := sp, wp := sp == 7, zero := true } s)
    | _ => (x, s)

/-! ### Lines -/

/-- A failed or poisoned line is read (R282): poisoned, counted, flagged; F0400 + n fires on first detection. -/
def tagEvent (s : State) (n f va task : Nat) : State :=
  let l := s.lineAt f va
  let s := if l.bad then (((s.bump Reg.MMU_ECCUNC 1).setBit Reg.MMU_STAT 16 true).raise 433) else s
  let s := s.putLine f va { l with poison := true }
  let s := ((s.bump (Reg.MMU_TAGFAIL n) 1).setBit (Reg.MMU_OSTAT n) 8 true).wr64 (Reg.MMU_LASTVA n) va
  if l.poison then s else s.raise (400 + n) task 0x10

/-- A partial write refused (R282): the line poisoned, F0408 + n fires. -/
def poisonEvent (s : State) (n f va task : Nat) : State :=
  let l := s.lineAt f va
  let s := if l.bad then (((s.bump Reg.MMU_ECCUNC 1).setBit Reg.MMU_STAT 16 true).raise 433) else s
  let s := s.putLine f va { l with poison := true }
  (((s.bump (Reg.MMU_POISONWR n) 1).setBit (Reg.MMU_OSTAT n) 9 true).wr64 (Reg.MMU_LASTVA n) va).raise (408 + n) task 0x11

/-- DRAM ECC corrects a single-bit error of a line that is read, and counts it (R279). -/
def correctLine (s : State) (f va : Nat) : State :=
  let l := s.lineAt f va
  if l.weak then (s.putLine f va { l with weak := false }).bump Reg.MMU_ECCCOR 1 else s

/-- Read a line of a frame as its owner (Table 11.4): zeros if fresh, its data if the tag passes, none otherwise. -/
def readLine (s : State) (n f va task : Nat) : Option Line64 × State :=
  let s := s.correctLine f va
  let l := s.lineAt f va
  if l.poison then (none, s.tagEvent n f va task)
  else if l.fresh then (some 0, s)
  else if tagPasses l n (s.keyGen n) va then (some l.data, s)
  else (none, s.tagEvent n f va task)

/-- Mark the page of an address dirty (Table 11.2). -/
def markDirty (s : State) (n va : Nat) : State :=
  match walk s.mmu n va with
  | .page key e => s.setEntry key (putBits e 6 1 1)
  | _ => s

/-- Perform a line write: a new version and seal, both flags clear (R278, R282); a RETAIN line is written through (R37). -/
def writeLine (s : State) (n f va : Nat) (data : Line64) : State :=
  let l := sealLine data n (s.keyGen n) va s.mmu.version
  let s : State := { s with mmu := { s.mmu with version := s.mmu.version + 1 } }
  let s := (s.putLine f va l).markDirty n va
  if s.vaSpace n va = some 6 then s.stage 0 64 (.retain n (va / 64) l) else s

/-- Write part of a line (Table 11.4): merged over zeros or over the plaintext; false where it is refused. -/
def mergeLine (s : State) (n f va : Nat) (data : Line64) (mask : Line64) (task : Nat) : Bool × State :=
  let s := s.correctLine f va
  let l := s.lineAt f va
  if mask == BitVec.allOnes 512 then (true, s.writeLine n f va data)
  else if l.poison then (false, s.poisonEvent n f va task)
  else if l.fresh then (true, s.writeLine n f va (mergeBits 0 data mask))
  else if tagPasses l n (s.keyGen n) va then (true, s.writeLine n f va (mergeBits l.data data mask))
  else (false, s.poisonEvent n f va task)

/-- A line write to a virtual address for MMU's own work (start writes, restores): the page is given a frame if it is fresh. -/
def ownWrite (s : State) (n va : Nat) (data : Line64) (mask : Line64) (pin : Bool) : State :=
  match walk s.mmu n va with
  | .page key e =>
    if eState e = 1 then
      let s := if pin && !ePin e then
        (s.setEntry key (putBits e 4 1 1)).wr (Reg.MMU_PINNED n) (s.rd (Reg.MMU_PINNED n) + 1) else s
      (s.mergeLine n (frameNo (eFrame e)) va data mask 0xFFFF).2
    else if eState e = 0 then
      match s.allocPage n va pin true with
      | (some f, s) => (s.mergeLine n f va data mask 0xFFFF).2
      | (none, s) => s
    else s
  | .nothing =>
    match s.allocPage n va pin true with
    | (some f, s) => (s.mergeLine n f va data mask 0xFFFF).2
    | (none, s) => s
  | _ => s

end State

/-- A byte list as line pieces: for the bytes at va, the line address, data and mask of each line touched. -/
def linePieces : Nat → Nat → List Byte → List (Nat × Line64 × Line64)
  | 0, _, _ => []
  | fuel + 1, va, bs =>
    if bs.isEmpty then [] else
    let off := va % 64
    let here := bs.take (64 - off)
    let data : Line64 := BitVec.ofNat 512 (leNat here * 2 ^ (8 * off))
    let mask : Line64 := BitVec.ofNat 512 ((2 ^ (8 * here.length) - 1) * 2 ^ (8 * off))
    (va - off, data, mask) :: linePieces fuel (va - off + 64) (bs.drop (64 - off))

namespace State

/-- Write bytes at a virtual address for MMU's own start work. -/
def ownWriteBytes (s : State) (n va : Nat) (bs : List Byte) (pin : Bool) : State :=
  forEach (linePieces (bs.length / 64 + 2) va bs) (fun s p => s.ownWrite n p.1 p.2.1 p.2.2 pin) s

/-- Return a page to fresh (R272): its frame freed, transfers discarded (R275). -/
def freshPage (s : State) (n page key e : Nat) : State :=
  let s := s.invalidate n page
  let s := if eState e = 1 ∨ (eState e = 3 ∧ s.mmu.transit.contains (n, page, false)) then
    let s := (s.freeFrame (frameNo (eFrame e))).wr (Reg.MMU_RESIDENT n) (s.resident n - 1)
    if ePin e then s.wr (Reg.MMU_PINNED n) (s.rd (Reg.MMU_PINNED n) - 1) else s else s
  let s : State := { s with mmu := { s.mmu with transit := s.mmu.transit.filter (fun t => !(t.1 == n && t.2.1 == page)) } }
  s.setEntry key (mkPage 0 false false false (eWp e) (eSpace e) false 0)

/-- Return every page of some spaces of an owner to fresh. -/
def freshSpace (s : State) (n : Nat) (spaces : List Nat) : State :=
  forEach ((ownerPages s.mmu n).filter (fun p => spaces.contains (eSpace p.2.2)))
    (fun s p => s.freshPage n p.1 p.2.1 p.2.2) s

/-- Pin a page: fresh ones are given a frame, resident ones marked (R189, R201; a pin prevails over a page-out, R275); a
paged-out one is brought in by a page-in that marks it. -/
def pinPage (s : State) (n va : Nat) : State :=
  match walk s.mmu n va with
  | .page key e =>
    if ePin e ∧ eState e = 1 then s
    else if eState e = 1 ∨ (eState e = 3 ∧ s.mmu.transit.contains (n, va / 65536, false)) then
      let s := s.cancelOut n (va / 65536) key (putBits e 4 1 1)
      s.wr (Reg.MMU_PINNED n) (s.rd (Reg.MMU_PINNED n) + 1)
    else if eState e = 0 then (s.allocPage n va true true).2
    else (s.setEntry key (putBits e 4 1 1)).startPageIn n (va / 65536)
  | .nothing => (s.allocPage n va true true).2
  | _ => s

/-- Pin the pages of a byte range. -/
def pinRange (s : State) (n va len : Nat) : State :=
  if len = 0 then s else
  forEach (List.range ((va + len - 1) / 65536 - va / 65536 + 1)) (fun s i => s.pinPage n ((va / 65536 + i) * 65536)) s

/-- The backing page a page-out records (R273, R281): each line under this owner's seal, fresh lines fresh, failed or poisoned
lines poisoned (each detection counted, R282). -/
def recordPage (s : State) (n f page : Nat) : BackPage × State :=
  let fr := s.frame f
  let old := s.sto.ack.back.get {} (n * 2 ^ 32 + page)
  let (ls, s) := fr.lines.foldl (fun (acc : SMap Line × State) p =>
    let va := page * 65536 + p.1 * 64
    if p.2.fresh && !p.2.poison then acc
    else if !p.2.poison && tagPasses p.2 n (s.keyGen n) va then (acc.1.insert p.1 p.2, acc.2)
    else (acc.1.insert p.1 { p.2 with poison := true }, acc.2.tagEvent n f va 0xFFFF)) (([] : SMap Line), s)
  ({ lines := ls, badSect := [], gen := s.keyGen n, writes := old.writes + 1 }, s)

/-- A page-out's backing write is acknowledged (R273): the frame is freed. -/
def pageOutDone (s : State) (n page : Nat) : State :=
  if s.mmu.transit.contains (n, page, false) then
    match walk s.mmu n (page * 65536) with
    | .page key e =>
      let f := frameNo (eFrame e)
      let (bp, s) := s.recordPage n f page
      let s := s.stage 1 65536 (.back n page bp)
      let s : State := { s with mmu := { s.mmu with transit := s.mmu.transit.filter (fun t => !(t == (n, page, false))) } }
      let s := s.setEntry key (mkPage 2 false false false (eWp e) (eSpace e) true 0)
      let s := (s.freeFrame f).wr (Reg.MMU_RESIDENT n) (s.resident n - 1)
      s.bump64 (Reg.MMU_PAGEOUT n) 1
    | _ => s
  else s

/-- The lines a page-in installs (R274, R281), sector by sector: each under a new version; a sector whose tag or read fails
comes back poisoned, counted, and fires F0424 + n. -/
def installSectors (s : State) (n f page : Nat) (bp : BackPage) : Nat → State
  | 0 => s
  | k + 1 =>
    let s := installSectors s n f page bp k
    let (ok, s) := s.stoRead 6 ((n * 2 ^ 32 + page) * 16 + k) 4096
    if ok && !bp.badSect.contains k && bp.gen == s.keyGen n then
      forEach ((List.range 64).map (· + k * 64)) (fun s i =>
        match bp.lines.find? i with
        | none => s
        | some l =>
          let va := page * 65536 + i * 64
          let l' := { sealLine l.data n (s.keyGen n) va s.mmu.version with poison := l.poison }
          ({ s with mmu := { s.mmu with version := s.mmu.version + 1 } } : State).putLine f va l') s
    else
      let s := forEach ((List.range 64).map (· + k * 64))
        (fun s i => s.putLine f (page * 65536 + i * 64) { poison := true }) s
      ((s.bump (Reg.MMU_SECTFAIL n) 1).setBit (Reg.MMU_OSTAT n) 13 true).raise (424 + n)

/-- A page-in completes into a prepared frame (R274); it waits while none is prepared. -/
def pageInDone (s : State) (n page : Nat) : State :=
  if s.mmu.transit.contains (n, page, true) then
    match walk s.mmu n (page * 65536) with
    | .page key e =>
      match s.takeFrame with
      | (none, s) => s
      | (some f, s) =>
        let bp := s.sto.ack.back.get {} (n * 2 ^ 32 + page)
        let s := s.installSectors n f page bp 16
        let s : State := { s with mmu := { s.mmu with transit := s.mmu.transit.filter (fun t => !(t == (n, page, true))) } }
        let s := s.setEntry key (mkPage 1 (ePin e) true false (eWp e) (eSpace e) true (frameAddr f))
        let s := if ePin e then s.wr (Reg.MMU_PINNED n) (s.rd (Reg.MMU_PINNED n) + 1) else s
        ((s.addResident n).bump64 (Reg.MMU_PAGEIN n) 1).pageOutIfNeeded n
    | _ => s
  else s

/-- A deterministic task needed a page-in (R274, Table 11.6). -/
def detPage (s : State) (n va task : Nat) : State :=
  (((s.bump (Reg.MMU_DETPAGE n) 1).setBit (Reg.MMU_OSTAT n) 12 true).wr64 (Reg.MMU_LASTVA n) va).raise (416 + n) task 0x12

/-- Erase an owner's data (R277): every frame and backing page freed, every page fresh, the RETAIN image empty, its windows
released (R300), and new keys drawn. -/
def eraseOwner (s : State) (n : Nat) : State :=
  let s := s.freshSpace n [5, 6, 7]
  let wipe (m : Media) : Media :=
    { m with retain := m.retain.filter (fun p => p.1 / 2 ^ 48 != n), back := m.back.filter (fun p => p.1 / 2 ^ 32 != n) }
  let keys := s.mmu.keys.set {} n { gen := s.keyGen n + 1, drawn := true, ok := true }
  let s : State := { s with
    sto := { s.sto with ack := wipe s.sto.ack, flash := wipe s.sto.flash,
                        staging := s.sto.staging.filter (fun x => match x.w with
                          | .retain o _ _ => o != n
                          | .back o _ _ => o != n
                          | _ => true) },
    mmu := { s.mmu with keys := keys } }
  ((s.wr (Reg.MMU_OSTAT n) (putBits (s.rd (Reg.MMU_OSTAT n)) 0 2 1)).dropWins n).stage 0 4096 (.note 0)

/-! ### Hardware requesters (ring manager, copy unit, network buffers) -/

/-- A hardware read of `len` bytes inside one line; none is a failed line (R210). -/
def hwRead (s : State) (n va len : Nat) : Option (List Byte) × State :=
  match s.walkAccess n va 0xFFFF with
  | (.zero, s) => (some (List.replicate len 0), s)
  | (.frame f _, s) =>
    match s.readLine n f va 0xFFFF with
    | (some d, s) => (some ((leBytes 64 d.toNat).drop (va % 64) |>.take len), s)
    | (none, s) => (none, s)
  | (_, s) => (none, s)

/-- A hardware write of bytes inside one line; false is a failed line (R210). -/
def hwWrite (s : State) (n va : Nat) (bs : List Byte) : Bool × State :=
  let off := va % 64
  let data : Line64 := BitVec.ofNat 512 (leNat bs * 2 ^ (8 * off))
  let mask : Line64 := BitVec.ofNat 512 ((2 ^ (8 * bs.length) - 1) * 2 ^ (8 * off))
  match s.walkAccess n va 0xFFFF with
  | (.frame f _, s) => s.mergeLine n f va data mask 0xFFFF
  | (.zero, s) =>
    match s.allocPage n va false true with
    | (some f, s) => s.mergeLine n f va data mask 0xFFFF
    | (none, s) => (false, s)
  | (_, s) => (false, s)

/-- Write bytes over several lines; false if any line failed. -/
def hwWriteBytes (s : State) (n va : Nat) (bs : List Byte) : Bool × State :=
  (linePieces (bs.length / 64 + 2) va bs).foldl (fun (acc : Bool × State) p =>
    let here := (bs.drop ((max p.1 va) - va)).take (64 - (max p.1 va) % 64)
    let (ok, s) := acc.2.hwWrite n (max p.1 va) here
    (acc.1 && ok, s)) (true, s)

/-- Read bytes over several lines; none if any line failed. -/
def hwReadBytes (s : State) (n : Nat) : Nat → Nat → Nat → Option (List Byte) × State
  | 0, _, _ => (some [], s)
  | fuel + 1, va, len =>
    if len = 0 then (some [], s) else
    let here := min len (64 - va % 64)
    match s.hwRead n va here with
    | (none, s) => (none, s)
    | (some b, s) =>
      match hwReadBytes s n fuel (va + here) (len - here) with
      | (none, s) => (none, s)
      | (some rest, s) => (some (b ++ rest), s)

end State

end Sys2Proof.Machine
end

