-- ==== Sys2Proof/Machine/SeqBase.lean ====
section
/-! DEFINITION. What other blocks tell SEQ: events of event tasks (R178, R179) and wake-ups of waiting tasks (R134); the pair
roles other blocks ask about (R243, R245). -/
namespace Sys2Proof.Machine

namespace State

/-- Are releases held module-wide: by a backward step until station time reaches the latest read epoch again (R177), or while MGT forces a quiet point
(R493)? -/
def relHeld (s : State) : Bool :=
  (s.relHold && decide (s.now < s.epochMax)) || (s.mgt.upd.forced && s.mgt.upd.state == 4)


/-- Is this member the standby of a pair (R243)? -/
def isStandby (s : State) : Bool :=
  s.ms.paired && !s.ms.active && (s.ms.mode == .shadow || s.ms.mode == .handover)

/-- Is this member paired and active, so that it forwards (R243)? -/
def forwards (s : State) : Bool := s.ms.paired && s.ms.active

/-- An event instant of an event task arrives at SEQ (Table 7.1). -/
def postEvent (s : State) (k t : Nat) : State :=
  let x := s.task k
  s.setTask k { x with events := x.events ++ [t] }

/-- The event tasks with a binding kind and identifier (R178). -/
def boundTo (s : State) (kind id : Nat) : List Nat :=
  (s.cfg.tasks.filter (fun p => p.2.defined && p.2.event && p.2.bkind == kind && p.2.bind == id)).map (·.1)

/-- Post an event to every task bound to a kind and identifier, at t plus the guard the caller has added. -/
def postBound (s : State) (kind id t : Nat) : State := forEach (s.boundTo kind id) (fun s k => s.postEvent k t) s

/-- End the waits of an owner whose descriptors a test accepts: their event occurred (status 0, R134). -/
def wakeWhere (s : State) (n : Nat) (p : WaitDesc → Bool) : State :=
  forEach (s.tasksOf n) (fun s k =>
    let x := s.task k
    match x.wait with
    | some w => if x.st == .waiting && x.wstat == none && p w then s.setTask k { x with wstat := some 0 } else s
    | none => s) s

/-- Does a descriptor wait for this ring, on the not-empty (3) or not-full (4) side? -/
def waitsRing (kind q : Nat) (w : WaitDesc) : Bool := w.kind == kind && w.id == q

end State

end Sys2Proof.Machine
end

