-- ==== Sys2Proof/Machine/Rings.lean ====
section
/-! DEFINITION. The ring manager (chapter 8): indices, doorbells, hardware producers and consumers, disable and enable. The
indices, states and counters of a ring are its registers (Table 8.7). -/
namespace Sys2Proof.Machine

/-- Length in entries (Table 8.1). -/
def ringLen (c : RingRec) : Nat := 2 ^ c.log2len
/-- Entry size in bytes (Table 8.1). -/
def ringEsize (c : RingRec) : Nat := 16 * 2 ^ c.esize

namespace State

def ringP (s : State) (q : Nat) : Nat := s.rd (Reg.RING_PIDX q)
def ringC (s : State) (q : Nat) : Nat := s.rd (Reg.RING_CIDX q)
/-- Entries present (R199). -/
def ringCount (s : State) (q : Nat) : Nat := (s.ringP q + 2 ^ 32 - s.ringC q) % 2 ^ 32
def ringEnabled (s : State) (q : Nat) : Bool := s.fld (Reg.RING_STAT q) 0 1 == 1
def ringDraining (s : State) (q : Nat) : Bool := s.fld (Reg.RING_STAT q) 1 1 == 1
def ringEnabling (s : State) (q : Nat) : Bool := s.fld (Reg.RING_STAT q) 2 1 == 1
/-- Does the ring accept requests (Table 8.8 ENABLED; not draining or enabling)? -/
def ringOpen (s : State) (q : Nat) : Bool := s.ringEnabled q && !s.ringDraining q && !s.ringEnabling q
def ringFull (s : State) (q : Nat) : Bool := s.ringCount q == ringLen (s.ringCfg q)
/-- The virtual address of the entry of index i (R199). -/
def ringSlot (s : State) (q i : Nat) : Nat :=
  let c := s.ringCfg q
  c.base + i % ringLen c * ringEsize c

/-- Set the indices; FULL follows (Table 8.8). -/
def ringSet (s : State) (q p c : Nat) : State :=
  let s := (s.wr (Reg.RING_PIDX q) p).wr (Reg.RING_CIDX q) c
  s.setBit (Reg.RING_STAT q) 3 (s.ringFull q)

/-- End the waits the ring's state now satisfies (R134, R208). -/
def ringWake (s : State) (q : Nat) : State :=
  match s.ringOwner q with
  | none => s
  | some n =>
    if s.ringOpen q then
      let s := if 0 < s.ringCount q then s.wakeWhere n (waitsRing 3 q) else s
      if s.ringFull q then s else s.wakeWhere n (waitsRing 4 q)
    else s

/-- Does this advance fire the doorbell (Table 8.3)? The count is that before the advance. -/
def doorbell (c : RingRec) (before : Nat) : Bool :=
  if c.dbmode = 1 then before == 0 else if c.dbmode = 2 then true
  else if c.dbmode = 3 then before + 1 == c.thresh else false

/-- Advance PIDX by 1 (R200): counted, the doorbell fires as its mode says (R206), waiting tasks wake. -/
def ringAdvance (s : State) (q : Nat) : State :=
  let before := s.ringCount q
  let s := s.ringSet q ((s.ringP q + 1) % 2 ^ 32) (s.ringC q)
  let s := (s.bump64 (Reg.RING_ENQCNT q) 1).maxReg (Reg.RING_HWM q) (s.ringCount q)
  let s := if doorbell (s.ringCfg q) before then s.postBound 2 q s.now else s
  s.ringWake q

/-- Advance CIDX by 1 (R200). -/
def ringConsume (s : State) (q : Nat) : State :=
  let s := s.ringSet q (s.ringP q) ((s.ringC q + 1) % 2 ^ 32)
  (s.bump64 (Reg.RING_DEQCNT q) 1).ringWake q

/-- A hardware entry is dropped (R203). -/
def ringDrop (s : State) (q : Nat) : State := (s.bump (Reg.RING_DROP q) 1).setBit (Reg.RING_STAT q) 8 true

/-- A hardware producer's entry of a ring (R203, R210): dropped while the ring is not open or full, or its line failed; true when
it was written. On the active member it is forwarded to the standby; a standby's NET, CAN and FIO produce none (R243). -/
def hwEnq (s : State) (q : Nat) (entry : List Byte) : Bool × State :=
  match s.ringOwner q with
  | none => (false, s)
  | some n =>
    let c := s.ringCfg q
    if !c.defined || (s.isStandby && (c.prod == 2 || c.prod == 3 || c.prod == 4)) then (false, s)
    else if !s.ringOpen q || s.ringFull q then (false, s.ringDrop q)
    else
      let bytes := (entry ++ List.replicate (ringEsize c) 0).take (ringEsize c)
      match s.hwWrite n (s.ringSlot q (s.ringP q)) bytes with
      | (true, s) =>
        let s := s.ringAdvance q
        (true, if s.forwards then s.emit (.pair 0x11 ([q, c.esize, s.ringP q] ++ bytes.map (·.toNat))) else s)
      | (false, s) => (false, (s.ringDrop q).setBit (Reg.RING_STAT q) 9 true)

/-- A hardware consumer takes the entry at CIDX (R204, R210): CIDX advances; a failed line is skipped and counted. -/
def hwTake (s : State) (q : Nat) : Option (List Byte) × State :=
  match s.ringOwner q with
  | none => (none, s)
  | some n =>
    if !s.ringOpen q || s.ringCount q == 0 then (none, s) else
    let c := s.ringCfg q
    match s.hwRead n (s.ringSlot q (s.ringC q)) (ringEsize c) with
    | (some b, s) => (some b, s.ringConsume q)
    | (none, s) => (none, ((s.ringConsume q).ringDrop q).setBit (Reg.RING_STAT q) 9 true)

/-- Disabling begins (R207 step 1). -/
def ringDisable (s : State) (q : Nat) : State :=
  if s.ringDraining q then s
  else if s.ringEnabling q then s.setBit (Reg.RING_CTL q) 0 false
  else if s.ringEnabled q then (s.setBit (Reg.RING_STAT q) 1 true).setBit (Reg.RING_CTL q) 0 false
  else s

/-- Disabling ends (R207 steps 2 to 4): the entries present are discarded and counted. -/
def ringDisableDone (s : State) (q : Nat) : State :=
  if s.ringDraining q then
    let s := s.bump (Reg.RING_DISCARD q) (s.ringCount q)
    let s := s.ringSet q (s.ringP q) (s.ringP q)
    (s.setBit (Reg.RING_STAT q) 1 false).setBit (Reg.RING_STAT q) 0 false
  else s

/-- Write every line of the ring region whole, with zeros (R209): failed and poisoned lines heal. -/
def ringZero (s : State) (n : Nat) (c : RingRec) : State :=
  forEach (List.range (ringLen c * ringEsize c / 64)) (fun s i => s.ownWrite n (c.base + i * 64) 0 (BitVec.allOnes 512) true) s

/-- Has the ring's owner started since Configure (R212)? -/
def ringStarted (s : State) (q : Nat) : Bool := match s.ringOwner q with | some n => (s.owner n).started | none => false

/-- Enabling begins (R209). -/
def ringEnable (s : State) (q : Nat) : State :=
  if !s.ringStarted q || !(s.ringCfg q).defined || s.ringDraining q || s.ringEnabling q || s.ringEnabled q then s
  else (s.setBit (Reg.RING_STAT q) 2 true).setBit (Reg.RING_CTL q) 0 true

/-- Enabling ends (R209); a disable accepted meanwhile then runs at once, with no entries present (R207). -/
def ringEnableDone (s : State) (q : Nat) : State :=
  match s.ringOwner q with
  | none => s
  | some n =>
    if s.ringEnabling q then
      let s := (s.ringZero n (s.ringCfg q)).ringSet q 0 0
      let s := s.setBit (Reg.RING_STAT q) 2 false
      if s.fld (Reg.RING_CTL q) 0 1 == 1 then (s.setBit (Reg.RING_STAT q) 0 true).ringWake q
      else s.setBit (Reg.RING_STAT q) 0 false
    else s

/-- A start gives a ring the state of its FLAGS bit 0 and clears its indices and counters (R199, R212). -/
def ringStart (s : State) (q : Nat) (cold : Bool) : State :=
  let c := s.ringCfg q
  let s := (s.ringSet q 0 0).wr (Reg.RING_CTL q) (b2n c.enStart)
  let s := s.setFld (Reg.RING_STAT q) 0 4 (b2n c.enStart)
  let s := ((s.wr64 (Reg.RING_ENQCNT q) 0).wr64 (Reg.RING_DEQCNT q) 0).clr (Reg.RING_FULLCNT q)
  let s := s.clr (Reg.RING_HWM q)
  if cold then (s.clr (Reg.RING_DROP q)).clr (Reg.RING_DISCARD q) else s

end State

end Sys2Proof.Machine
end

