-- ==== Sys2Proof/Machine/Img.lean ====
section
/-! DEFINITION. IMG's own operations (chapter 6): row ranges, versions and visibility, the version pool, source writes, commits,
sequence-of-events records, SYS rows and store integrity. Space codes: 0 IN, 1 OUT, 2 MRK, 3 SYS, 4 SEM (Table 4.5). -/
namespace Sys2Proof.Machine

/-- Initial-value bytes of a target (Table 3.20): what the entries write at [off, off+len), 0 elsewhere. -/
def initBytes (c : Cnst) (target off len : Nat) : List Byte :=
  (List.range len).map (fun i =>
    let a := off + i
    let base (e : InitEntry) : Nat := if 3 ≤ e.target then e.off * 32 else e.off
    match c.inits.find? (fun e => e.target == target && decide (base e ≤ a) && decide (a < base e + e.data.length)) with
    | some e => (e.data.drop (a - base e)).headD 0
    | none => 0)

/-- A row from its 32 bytes (R88). -/
def rowOfBytes (bs : List Byte) : Row := BitVec.ofNat 256 (leNat bs)

/-- The bytes of a row (R88). -/
def bytesOfRow (r : Row) : List Byte := leBytes 32 r.toNat

/-- Word k of a row. -/
def rowWord (r : Row) (k : Nat) : Nat := (r.toNat >>> (64 * k)) % 2 ^ 64

/-- A one-bit mask. -/
def laneMask (i : Nat) : Row := (1#256) <<< i

/-- A mask of `len` bits from bit `lo`. -/
def fieldMask (lo len : Nat) : Row := BitVec.ofNat 256 ((2 ^ len - 1) * 2 ^ lo)

/-- Value bits under a mask over a row (R148). -/
def mergeRow (old val mask : Row) : Row := (old &&& ~~~mask) ||| (val &&& mask)

/-- Is a version visible at epoch e with guard g (R151)? -/
def visibleAt (g e : Nat) (v : Version) : Bool := decide (v.stamp + g ≤ e) && decide (v.inst ≤ e)

/-- Versions of a row, newest first. -/
def RowHist.all (h : RowHist) : List Version := h.cur :: h.older

/-- The version a release with this epoch reads (R151): the newest visible one, else the oldest still held. -/
def visibleVersion (g e : Nat) (h : RowHist) : Version :=
  match h.all.find? (visibleAt g e) with
  | some v => v
  | none => h.all.getLastD h.cur

namespace State

/-- An owner's row range in an image space (R146). -/
def range (s : State) (n space : Nat) : RowRange :=
  let c := s.ownerCfg n
  if space = 0 then c.inR else if space = 1 then c.outR else if space = 2 then c.mrkR
  else if space = 3 then c.sysR else c.semR

/-- The owner and space an absolute row belongs to. -/
def rowPlace (s : State) (row : Nat) : Option (Nat × Nat) :=
  ownerIdx.findSome? (fun n => ([0, 1, 2, 3, 4] : List Nat).findSome? (fun sp =>
    let r := s.range n sp
    if s.ownerDef n ∧ r.base ≤ row ∧ row < r.base + r.len then some (n, sp) else none))

/-- The absolute row of a bit address of an owner in a space (R96, R147); none outside its range. -/
def absRow (s : State) (n space addr : Nat) : Option Nat :=
  let r := s.range n space
  if addr < 2 ^ 29 ∧ addr / 256 < r.len then some (r.base + addr / 256) else none

/-- What an unlisted row holds: zeros, installed when its space was last initialised (R150). -/
def rowDflt (s : State) (row : Nat) : RowHist :=
  match s.rowPlace row with
  | some (n, sp) => let b := s.img.base.get 0 (n * 8 + sp); { cur := { stamp := b, inst := b } }
  | none => {}

/-- A row's versions. -/
def rowHist (s : State) (row : Nat) : RowHist := (s.img.rows.find? row).getD (s.rowDflt row)

/-- Replace a row's versions. -/
def setRow (s : State) (row : Nat) (h : RowHist) : State :=
  { s with img := { s.img with rows := s.img.rows.set (s.rowDflt row) row h } }

/-- The guard that applies to a space (R151). -/
def guardOf (s : State) (n space : Nat) : Nat := if space = 0 then us (s.imgf n).guardUs else 0

/-- Epochs of an owner's unfinished releases (R160). -/
def openEpochs (s : State) (n : Nat) : List Nat :=
  (s.tasksOf n).filterMap (fun k => let x := s.task k; if x.st == .idle then none else some x.relAt)

/-- The initial value of a row (R77). -/
def rowInit (s : State) (n space rel : Nat) : Row := rowOfBytes (initBytes (s.cnst n) (space + 3) (rel * 32) 32)

/-- Must a version that `newer` superseded be held (R160): some unfinished release has it as its visible version, or one that begins from now on can, because
the newer version's stamp lies inside the guard (R151)? -/
def mustHold (s : State) (n space : Nat) (h : RowHist) (newer v : Version) : Bool :=
  let g := s.guardOf n space
  (s.openEpochs n).any (fun e => decide (visibleVersion g e h = v)) || (decide (v.stamp < newer.stamp) && decide (s.now < newer.stamp + g))

/-- Older versions that must be held (R160), newest first. -/
def heldOlder (s : State) (n space : Nat) (h : RowHist) : List Version :=
  ((h.older.zip h.all).filter (fun p => s.mustHold n space h p.2 p.1)).map (·.1)

/-- Retire what no unfinished release of the owner reads (R160); change marks older than every open epoch go too. -/
def retire (s : State) (n : Nat) : State :=
  let es := s.openEpochs n
  let old := es.foldl min s.now
  let rows := s.img.rows.map (fun p =>
    match s.rowPlace p.1 with
    | some (o, sp) =>
      if o = n then (p.1, { p.2 with older := s.heldOlder n sp p.2, chg := p.2.chg.filter (fun c => decide (old < c.1)) }) else p
    | none => p)
  let rows := rows.filter (fun p => !decide (p.2 = s.rowDflt p.1))
  { s with img := { s.img with rows := rows } }

/-- Staging rows of an owner's unfinished releases and of its commits in progress (R159). -/
def stagingUse (s : State) (n : Nat) : Nat :=
  (s.tasksOf n).foldl (fun a k => a + (s.task k).staged.length) 0 +
  (s.img.commits.filter (fun c => c.owner == n)).foldl (fun a c => a + c.rows.length) 0

/-- Held older versions of an owner's rows, from its quota (false) or the reserve (true). -/
def heldUse (s : State) (n : Nat) (reserve : Bool) : Nat :=
  s.img.rows.foldl (fun a p =>
    match s.rowPlace p.1 with
    | some (o, sp) => if o = n then a + ((s.heldOlder n sp p.2).filter (fun v => v.reserve == reserve)).length else a
    | none => a) 0

/-- Pool use of an owner (R159, IMG_INUSE). -/
def inUse (s : State) (n : Nat) : Nat := s.stagingUse n + s.heldUse n false

/-- Reserve rows taken. -/
def reserveUse (s : State) : Nat := ownerIdx.foldl (fun a n => a + s.heldUse n true) 0

/-- Free pool rows outside the reserve (R159). -/
def poolFree (s : State) : Nat := 516096 - ownerIdx.foldl (fun a n => a + s.inUse n) 0

/-- The highest pool use since it was last read (IMG_INUSEMAX). -/
def poolRegs (s : State) (n : Nat) : State := s.maxReg (Reg.IMG_INUSEMAX n) (s.inUse n)

/-- Row flags of a row (Table 3.19): logged, write-overlap fault. -/
def rowFlags (s : State) (n space rel : Nat) : Bool × Bool :=
  match (s.imgf n).flags.find? (fun f => f.space == space && decide (f.first ≤ rel) && decide (rel < f.first + f.count)) with
  | some f => (f.logged, f.ovlFault)
  | none => (false, false)

/-- The instant at which a version becomes visible to SEQ (R153). -/
def visInstant (s : State) (n space stamp : Nat) : Nat :=
  if space = 0 then max s.now (stamp + s.guardOf n 0) else s.now

/-- The quality step (R364). -/
def qStep (s : State) : Nat := s.fld Reg.TIM_STAT 4 3

/-- The record of one changed word (Table 6.3). -/
def soeRecord (s : State) (space rel k writer stamp : Nat) (clamped : Bool) (new chg : Nat) : List Byte :=
  let ns := stamp / 65536
  let where_ := rel % 2 ^ 21 + space * 2 ^ 21 + k * 2 ^ 23 + writer * 2 ^ 25 + b2n clamped * 2 ^ 29 + s.qStep / 2 * 2 ^ 30
  leBytes 6 (ns / 1000000000) ++ leBytes 4 (ns % 1000000000) ++ leBytes 2 (stamp % 65536) ++ leBytes 4 where_ ++
  leBytes 8 new ++ leBytes 8 chg

/-- Sequence-of-events records of a logged row's new version, in ascending word (R164 to R166). Table 6.3 has no writer code for a start's versions: the
code is open (log entry 100). -/
def soe (s : State) (n space rel : Nat) (old new : Row) (writer stamp : Nat) (clamped : Bool) : State :=
  if !(s.rowFlags n space rel).1 then s else
  forEach [0, 1, 2, 3] (fun s k =>
    let chg := rowWord (old ^^^ new) k
    if chg = 0 then s else
    match (s.imgf n).soeRing with
    | none => s
    | some q =>
      let (w, s) := if writer ≤ 6 then (writer, s) else let (v, s) := s.fresh; (v % 16, s)
      match s.hwEnq q (s.soeRecord space rel k w stamp clamped (rowWord new k) chg) with
      | (true, s) => s.bump (Reg.IMG_SOECNT n) 1
      | (false, s) => ((s.bump (Reg.IMG_SOEDROP n) 1).setBit (Reg.IMG_OSTAT n) 11 true).raise (288 + n)) s

/-- Does a bit change select an edge (1 rising, 2 falling, 3 either)? -/
def edgeHit (edge : Nat) (before after : Bool) : Bool :=
  (bit edge 0 && !before && after) || (bit edge 1 && before && !after)

/-- The space and bit address a task's binding watches (kinds 1 and 5, Table 7.1); none for another kind or an unused channel. -/
def boundBit (s : State) (c : TaskRec) : Option (Nat × Nat) :=
  if c.bkind = 1 then some (c.bspace, c.bind)
  else if c.bkind = 5 then
    match s.cfg.dch.find? c.bind with
    | some d => if d.out then none else some (0, d.addr)
    | none => none
  else none

/-- Bit-change events of a new version (binding kinds 1 and 5, R153, R178). -/
def bitEvents (s : State) (n space rel : Nat) (old new : Row) (stamp : Nat) : State :=
  forEach (s.tasksOf n) (fun s k =>
    let c := s.taskCfg k
    match if c.event then s.boundBit c else none with
    | some (sp, a) =>
      if sp == space && a / 256 == rel && edgeHit c.edge (old.getLsbD (a % 256)) (new.getLsbD (a % 256)) then
        s.postEvent k (s.visInstant n space stamp)
      else s
    | none => s) s

/-- Archive triggers of kinds 1 and 2 that a new version fires (Table 12.4, R297). -/
def bitTriggers (s : State) (n space rel : Nat) (old new : Row) (stamp : Nat) : State :=
  forEach (s.cfg.trigs.get [] n) (fun s t =>
    if (t.kind == 1 || t.kind == 2) && t.space == space && t.addr / 256 == rel &&
       edgeHit t.kind (old.getLsbD (t.addr % 256)) (new.getLsbD (t.addr % 256)) then s.trigger n (form64 stamp) t.pre t.post
    else s) s

/-- Keep the version `v` that `new` supersedes where it must be held (R160, R161, R163): a commit's staging row becomes its
pool row; a source write or SYS change takes one from the owner's quota, else from the reserve, else the version is not kept
and F0296 fires. A fourth older version drops the oldest, and the version-skew entry carries the owner's row number (log entry 101). Answers the row with the new version current. -/
def supersede (s : State) (n space rel : Nat) (h : RowHist) (new : Version) (staged : Bool) : RowHist × State :=
  let h' : RowHist := { h with cur := new, older := h.cur :: h.older }
  let held := ((h.older.zip h.all).filter (fun p => s.mustHold n space h' p.2 p.1)).map (·.1)
  let with_ (l : List Version) : RowHist := { h with cur := new, older := l }
  let drop (s : State) : State := ((s.bump (Reg.IMG_SKEWCNT n) 1).setBit (Reg.IMG_OSTAT n) 10 true).raise (280 + n) 0xFFFF 0 rel
  let keep (reserve : Bool) (s : State) : RowHist × State :=
    let all := { h.cur with reserve := reserve } :: held
    if 3 < all.length then (with_ (all.take 3), drop s) else (with_ all, s)
  if !s.mustHold n space h' new h.cur then (with_ held, s)
  else if staged then keep false s
  else if s.inUse n < (s.imgf n).quota then keep false s
  else if s.reserveUse < 8192 then keep true s
  else (with_ held, drop (s.raise 296))

/-- What follows a row's new version: its records (R164), bit-change events (R153, R178) and archive triggers. -/
def rowChanged (s : State) (n space rel : Nat) (old new : Row) (writer src stamp : Nat) (clamped : Bool) : State :=
  let s := if space < 3 then s.soe n space rel old new writer src clamped else s
  let s := s.bitEvents n space rel old new stamp
  if space < 3 then s.bitTriggers n space rel old new stamp else s

/-- Install a version of a row (R148 to R153): the masked bits over the current version, with forced bits applied (R349); its
stamp is never earlier than the current one's (a clamp is counted, R150). Nothing is installed when neither contents nor stamp
change. Late versions (R152), records (R164), bit-change events and triggers follow. Answers the bits that changed. -/
def install (s : State) (n space row : Nat) (val mask : Row) (stamp writer : Nat) (staged : Bool) : Row × State :=
  let h := s.rowHist row
  let (fv, fm) := s.img.forces.get (0, 0) row
  let new := mergeRow (mergeRow h.cur.bits val mask) fv fm
  let clamped := decide (stamp < h.cur.stamp)
  let st := max stamp h.cur.stamp
  if new = h.cur.bits ∧ st = h.cur.stamp then (0, s) else
  let rel := row - (s.range n space).base
  let s := if clamped then s.bump Reg.IMG_CLAMPCNT 1 else s
  let (h', s) := s.supersede n space rel h { bits := new, stamp := st, inst := s.now, writer := writer } staged
  let chg := if writer = 5 then (s.now, h.cur.bits ^^^ new) :: h.chg else h.chg
  let s := s.setRow row { h' with chg := chg }
  let s := (s.bump64 (Reg.IMG_VERSIONS n) 1).poolRegs n
  let g := s.guardOf n space
  let late := space == 0 && (s.openEpochs n).any (fun e => decide (st + g ≤ e) && decide (e < s.now))
  let s := if late then ((s.bump (Reg.IMG_LATECNT n) 1).setBit (Reg.IMG_OSTAT n) 9 true).raise (272 + n) else s
  (h.cur.bits ^^^ new, s.rowChanged n space rel h.cur.bits new writer stamp st clamped)

/-- Heal the words of a row that a write covers (R168). -/
def healWords (s : State) (row : Nat) (mask : Row) : State :=
  let whole (k : Nat) : Bool := decide (rowWord mask k = 2 ^ 64 - 1)
  let keep (w : Nat) : Bool := !(w / 4 == row && whole (w % 4))
  { s with img := { s.img with badWords := s.img.badWords.filter keep, weakWords := s.img.weakWords.filter keep } }

/-- What a standby's NET, FIO or CAN received and does not install (R243) is its current state, which a takeover installs (Table 10.5 step 3). -/
def keepOwn (s : State) (rows : List (Nat × Row × Row)) (stamp writer : Nat) : State :=
  forEach rows (fun s r =>
    let old := s.red.own.get (0, 0, 0) (r.1 * 4 + writer)
    { s with red := { s.red with own := s.red.own.insert (r.1 * 4 + writer) (old.1 ||| r.2.2, mergeRow old.2.1 r.2.1 r.2.2, stamp) } }) s

/-- A source write to IN rows at one instant (R148, R318): (absolute row, value, mask) of one owner. On a standby, NET, FIO and
CAN install nothing (R243); on the active member every version is forwarded. -/
def sourceWrite (s : State) (n : Nat) (rows : List (Nat × Row × Row)) (stamp writer : Nat) : State :=
  if s.isStandby && (writer = 0 || writer = 1 || writer = 2) then s.keepOwn rows stamp writer else
  forEach rows (fun s r =>
    let s := (s.healWords r.1 r.2.2)
    let before := (s.rowHist r.1).cur
    let (_, s) := s.install n 0 r.1 r.2.1 r.2.2 stamp writer false
    if s.forwards && (writer = 0 || writer = 1 || writer = 2) && !(decide ((s.rowHist r.1).cur = before)) then
      (s.emit (.pair 0x10 [1, r.1, writer, stamp % 65536, form64 stamp, r.2.2.toNat, r.2.1.toNat])).bump64 Reg.RED_FWDCNT 1
    else s) s

/-- Write bits at a bit address of an owner's IN space as a source write, if the address is in range. -/
def sourceBits (s : State) (n addr len val stamp writer : Nat) : State :=
  match s.absRow n 0 addr with
  | some row => s.sourceWrite n [(row, BitVec.ofNat 256 (val * 2 ^ (addr % 256)), fieldMask (addr % 256) len)] stamp writer
  | none => s

/-- The current bits of a row. -/
def curBits (s : State) (row : Nat) : Row := (s.rowHist row).cur.bits

/-- The number of a field of the current version at a bit address. -/
def curField (s : State) (n space addr len : Nat) : Nat :=
  match s.absRow n space addr with
  | some row => ((s.curBits row).toNat >>> (addr % 256)) % 2 ^ len
  | none => 0

/-- Reading a row meets its words' check bits (R168): single errors corrected and counted, uncorrectable words counted, flagged,
and F0297 fires with the absolute row. -/
def eccRead (s : State) (row : Nat) (task : Nat) : State :=
  let weak := s.img.weakWords.filter (fun w => w / 4 == row)
  let bad := s.img.badWords.filter (fun w => w / 4 == row)
  let s := if weak.isEmpty then s else
    ({ s with img := { s.img with weakWords := s.img.weakWords.filter (fun w => w / 4 != row) } } : State).bump
      Reg.IMG_ECCCOR weak.length
  if bad.isEmpty then s
  else ((s.bump Reg.IMG_ECCUNC bad.length).setBit Reg.IMG_STAT 16 true).raise 297 task 0 row

/-- Read a row at an epoch (R151), without what a release has staged. -/
def readRowAt (s : State) (n space row e : Nat) : Row := (visibleVersion (s.guardOf n space) e (s.rowHist row)).bits

/-- Install a SYS row's new contents on a change (R167). -/
def sysWrite (s : State) (n rel : Nat) (val : Row) : State :=
  let r := s.range n 3
  if rel < r.len ∧ s.curBits (r.base + rel) ≠ val then
    (s.install n 3 (r.base + rel) val (BitVec.allOnes 256) s.now 9 false).2
  else s

/-- The refresh-lost lanes of the field groups (Table 6.4). -/
def lostLanes (s : State) : Nat := s.fld Reg.FIO_STAT 2 4

/-- SYS row 0 of an owner as Table 6.4 gives it. -/
def sysRow0 (s : State) (n : Nat) : Row :=
  let v := s.ms.mode.code + (s.owner n).st.code * 16 + b2n s.ms.paired * 64 + b2n s.ms.active * 128 + s.qStep * 256 +
    s.fld Reg.TIM_STAT 7 1 * 2048 + s.lostLanes * 65536 + s.fld Reg.FLT_STAT 2 1 * 1048576
  BitVec.ofNat 256 v

/-- SYS row 1 of an owner as Table 6.4 gives it. -/
def sysRow1 (s : State) (n : Nat) : Row :=
  BitVec.ofNat 256 (s.inUse n + (s.imgf n).quota * 2 ^ 64 + s.rd (Reg.IMG_LATECNT n) * 2 ^ 128 + s.rd (Reg.IMG_SKEWCNT n) * 2 ^ 192)

/-- Install one version, its CNST initial value, of every row of an owner in the spaces listed, stamped now (R150, Table 2.4): by a plane load (writer 7),
where it supersedes nothing, or by a start (writer 8). No older version stays. -/
def initRows (s : State) (n : Nat) (spaces : List Nat) (writer : Nat) : State :=
  forEach spaces (fun s sp =>
    let r := s.range n sp
    let listed := s.img.rows.filter (fun p => decide (r.base ≤ p.1) && decide (p.1 < r.base + r.len))
    let named := (s.cnst n).inits.flatMap (fun e =>
      if e.target = sp + 3 then (List.range (cdiv e.data.length 32)).map (fun i => r.base + e.off + i) else [])
    let olds := listed.map (fun p => (p.1, p.2.cur.bits))
    let more := (named.filter (fun x => !olds.any (fun p => p.1 == x))).map (fun x => (x, (0 : Row)))
    let rows := s.img.rows.filter (fun p => !(decide (r.base ≤ p.1) && decide (p.1 < r.base + r.len)))
    let s : State := { s with img := { s.img with base := s.img.base.set 0 (n * 8 + sp) s.now, rows := rows } }
    let s := s.bump64 (Reg.IMG_VERSIONS n) r.len
    forEach (olds ++ more) (fun s p =>
      let rel := p.1 - r.base
      let new := s.rowInit n sp rel
      let s := s.setRow p.1 { cur := { bits := new, stamp := s.now, inst := s.now, writer := writer } }
      if writer = 8 ∧ p.2 ≠ new then s.rowChanged n sp rel p.2 new writer s.now s.now false else s) s) s

end State

end Sys2Proof.Machine
end

