-- ==== Sys2Proof/Machine/Eng.lean ====
section
/-! DEFINITION. What an engine's store buffer and reservation do (R100 to R104), the pace report and handshakes (R81 to R83), and
an engine's contexts. Engine 256 is the management engine (R480). -/
namespace Sys2Proof.Machine

/-- Linear word index of a (line, slot) (R91). -/
def linear (line slot : Nat) : Nat := line * 9 + slot

/-- A program counter in the form of Table 4.14, without VALID. -/
def pcForm (pc : Nat) : Nat := pc / 9 % 2 ^ 21 + pc % 9 * 2 ^ 21

namespace State

/-- The pace report of an engine's bent in ps (R81); the management engine always shows 2500 (R480). -/
def pacePs (s : State) (e : Nat) : Nat := if e = 256 then 2500 else s.fld (Reg.ENG_PACE e) 0 12

/-- Handshakes of an instruction: its base and its waits, each wait divided by the pace report and rounded up (R83). -/
def hsCost (s : State) (e base waitPs : Nat) : Nat := base + cdiv waitPs (max 1 (s.pacePs e))

/-- Every engine of the owner loses a reservation on a line that is written (R102). -/
def loseResv (s : State) (n va : Nat) : State :=
  { s with engines := s.engines.map (fun p =>
      match p.2.resv with
      | some r => if r.owner = n ∧ r.line = va / 64 then (p.1, { p.2 with resv := none }) else p
      | none => p) }

/-- Write part of a line of an owner's space: walked, the page given a frame if fresh, or brought in first; false where the line
refused it (R282). Reservations on it are lost. -/
def writeVa (s : State) (n va : Nat) (data : Line64) (mask : Line64) (task : Nat) : Bool × State :=
  let s := s.loseResv n va
  let s := match s.walkAccess n va task with
    | (.pageIn, s) => (if s.mmu.prep.isEmpty then s.prepareOne else s).pageInDone n (va / 65536)
    | (_, s) => s
  match s.walkAccess n va task with
  | (.frame f _, s) => s.mergeLine n f va data mask task
  | (.zero, s) =>
    match s.allocPage n va false true with
    | (some f, s) => s.mergeLine n f va data mask task
    | (none, s) => (true, s)
  | (_, s) => (true, s)

/-- The oldest line of an engine's store buffer leaves it (R100): its write is performed, or refused and answered. -/
def lineOut (s : State) (e : Nat) : Option SbLine × State :=
  let x := s.eng e
  match x.sb with
  | [] => (none, s)
  | l :: rest =>
    let s := s.setEng e { x with sb := rest }
    match s.writeVa (s.engOwner e) l.va l.data l.mask (x.task.getD 0xFFFF) with
    | (true, s) => (none, s)
    | (false, s) => (some l, s)

/-- Drain up to k lines; the earliest refused store is answered (R142), and the lines behind it still leave. -/
def drainSb (s : State) (e : Nat) : Nat → Option SbLine × State
  | 0 => (none, s)
  | k + 1 =>
    match s.lineOut e with
    | (bad, s) =>
      match drainSb s e k with
      | (bad2, s) => (match bad with | some l => some l | none => bad2, s)

/-- Drain the whole buffer (R101). -/
def drain (s : State) (e : Nat) : Option SbLine × State := s.drainSb e (s.eng e).sb.length

/-- Put store bytes of one line into the buffer (R100): merged into a held line whose write has not begun (the oldest's always
has), or a new line; a full buffer first lets its oldest line leave, counted in ENG_SBFULL. -/
def bufStore (s : State) (e va : Nat) (data : Line64) (mask : Line64) (pc word space : Nat) : Option SbLine × State :=
  let x := s.eng e
  let line := va / 64 * 64
  let mergeInto (l : SbLine) : SbLine :=
    { l with data := mergeBits l.data data mask, mask := l.mask ||| mask }
  if (x.sb.drop 1).any (fun l => l.va == line) then
    (none, s.setEng e { x with sb := x.sb.take 1 ++ (x.sb.drop 1).map (fun l => if l.va = line then mergeInto l else l) })
  else
    let (bad, s) := if 8 ≤ x.sb.length then (s.bump (Reg.ENG_SBFULL e) 1).lineOut e else (none, s)
    let x := s.eng e
    (bad, s.setEng e { x with sb := x.sb ++ [{ va := line, mask := mask, data := data, pc := pc, word := word, space := space }] })

/-- What the buffer holds of a line: merged bytes and which are held (R100, R142). -/
def bufLine (s : State) (e va : Nat) : Line64 × Line64 :=
  ((s.eng e).sb.filter (fun l => l.va == va / 64 * 64)).foldl
    (fun acc l => (mergeBits acc.1 l.data l.mask, acc.2 ||| l.mask)) (0, 0)

/-- Lines of the buffer that must leave so that none overlaps [va, va+len), with every line ahead of them (W_ovl, R128). -/
def overlapCount (s : State) (e va len : Nat) : Nat :=
  let hits := (s.eng e).sb.zipIdx.filter (fun p => decide (va < p.1.va + 64) && decide (p.1.va < va + len))
  (hits.map (fun p => p.2 + 1)).foldl max 0

/-- Free an engine of its context. -/
def freeEng (s : State) (e : Nat) : State :=
  let x := s.eng e
  s.setEng e { sb := x.sb, ctx := { exc := x.ctx.exc } }

/-- Engines of a bent. -/
def bentEngines (m : Nat) : List Nat := [4 * m, 4 * m + 1, 4 * m + 2, 4 * m + 3]

/-- A bent's registers do not survive gating (R21): its engines' registers and counters take their reset values. -/
def resetBentRegs (s : State) (m : Nat) : State :=
  { s with regs := s.regs.filter (fun p => !(decide (0x2000000 + 4 * m * 0x1000 ≤ p.1) && decide (p.1 < 0x2000000 + (4 * m + 4) * 0x1000))) }

/-- Gate a bent off (R20): registers, stacks and translation cache are lost. -/
def gateBent (s : State) (m : Nat) : State :=
  let s := (s.setBent m { s.bent m with awake := false, waking := false }).resetBentRegs m
  (forEach (bentEngines m) (fun s e => s.setEng e {}) s).emptyTlb m

end State

end Sys2Proof.Machine
end

