-- ==== Sys2Proof/Machine/Seq.lean ====
section
/-! DEFINITION. SEQ's own operations (chapter 7): releases and their judgement, dispatch and preemption, waits, the end of a
release, and stopping an owner's work. -/
namespace Sys2Proof.Machine

/-- The context a release starts with (R86): the task's entry, both stacks empty. -/
def entryCtx (c : TaskRec) : Ctx := { pc := linear c.entry 0 }

/-- Order of ready tasks (R180): priority, then release instant, then number. -/
def beforeReady (a b : Nat × Nat × Nat) : Bool :=
  decide (b.1 < a.1) || (a.1 == b.1 && (decide (a.2.1 < b.2.1) || (a.2.1 == b.2.1 && decide (a.2.2 < b.2.2))))

/-- Insert in order. -/
def insertReady (x : Nat × Nat × Nat) : List (Nat × Nat × Nat) → List (Nat × Nat × Nat)
  | [] => [x]
  | y :: ys => if beforeReady x y then x :: y :: ys else y :: insertReady x ys

namespace State

/-- The bents of an owner's pool: assigned to it, usable, not under self-test (R34, R115). -/
def poolBents (s : State) (n : Nat) : List Nat :=
  (s.cfg.part.bents.filter (fun p => p.2.assigned && p.2.owner == n)).map (·.1) |>.filter (fun m =>
    let b := s.bent m
    !b.unusable && !b.testReq)

/-- Usable engines of a pool (Table 7.2 m). -/
def poolEngines (s : State) (n : Nat) : Nat :=
  4 * ((s.cfg.part.bents.filter (fun p => p.2.assigned && p.2.owner == n && !(s.bent p.1).unusable)).length)

/-- The ready tasks of an owner that no engine has been given to, in the order of R180. -/
def readyList (s : State) (n : Nat) : List (Nat × Nat × Nat) :=
  (s.tasksOf n).foldl (fun acc k =>
    let x := s.task k
    if (x.st == .ready || x.st == .preempted) && x.eng == none then insertReady ((s.taskCfg k).prio, x.relAt, k) acc else acc) []

/-- Engines of a bent that hold or are promised a context. -/
def busyEngines (s : State) (m : Nat) : Nat := ((bentEngines m).filter (fun e => (s.eng e).task != none)).length

/-- Does a bent's self-test run: requested, and its tasks have ended (R115)? -/
def bentTesting (s : State) (m : Nat) : Bool := (s.bent m).testReq && s.busyEngines m == 0

/-- An idle engine of an awake bent of the pool: the bent with the fewest running engines, then the lowest engine (R180 step 1). -/
def idleEngine (s : State) (n : Nat) : Option Nat :=
  let cand := (s.poolBents n).filter (fun m => (s.bent m).awake) |>.flatMap (fun m =>
    (bentEngines m).filterMap (fun e => if (s.eng e).task == none then some (s.busyEngines m, e) else none))
  (cand.foldl (fun (best : Option (Nat × Nat)) c =>
    match best with
    | none => some c
    | some b => if c.1 < b.1 ∨ (c.1 = b.1 ∧ c.2 < b.2) then some c else some b) none).map (·.2)

/-- The running engine a task of priority `prio` may preempt: lowest priority, then latest release, then highest task number
(R180 step 2); an engine already promised to a preemption is not taken again. -/
def victim (s : State) (n prio : Nat) : Option Nat :=
  let cand := (s.poolBents n).flatMap bentEngines |>.filterMap (fun e =>
    let x := s.eng e
    match x.task with
    | some k =>
      if x.running && x.preempt == none && decide ((s.taskCfg k).prio < prio) then
        some ((s.taskCfg k).prio, (s.task k).relAt, k, e) else none
    | none => none)
  (cand.foldl (fun (best : Option (Nat × Nat × Nat × Nat)) c =>
    match best with
    | none => some c
    | some b => if beforeReady (b.1, b.2.1, b.2.2.1) (c.1, c.2.1, c.2.2.1) then some c else some b) none).map (·.2.2.2)

/-- An unpromised engine of a waking bent of the pool (R180 step 3). -/
def wakingEngine (s : State) (n : Nat) : Option Nat :=
  ((s.poolBents n).filter (fun m => (s.bent m).waking)).findSome? (fun m =>
    (bentEngines m).find? (fun e => (s.eng e).task == none))

/-- The lowest-numbered gated bent of the pool. -/
def gatedBent (s : State) (n : Nat) : Option Nat :=
  (s.poolBents n).find? (fun m => !(s.bent m).awake && !(s.bent m).waking)

/-- Statistics of a release that ended, however it ended (R184): last and highest handshakes and elapsed ns. -/
def endStats (s : State) (k : Nat) : State :=
  let x := s.task k
  let el := min 0xFFFFFFFF ((s.now - x.relAt) / 65536)
  let hs := min 0xFFFFFFFF x.hs
  let s := (s.wr (Reg.SEQ_TLASTHS k) hs).maxReg (Reg.SEQ_TMAXHS k) hs
  (s.wr (Reg.SEQ_TLASTEL k) el).maxReg (Reg.SEQ_TMAXEL k) el

/-- The release of a task ends: its engine is free, its context and staged rows are gone, and what it alone read retires (R86,
R160). -/
def endRelease (s : State) (k : Nat) : State :=
  let x := s.task k
  let s := s.endStats k
  let s := match x.eng with
    | some e =>
      let en := s.eng e
      let s := if en.task = some k then s.freeEng e else if en.preempt = some k then s.setEng e { en with preempt := none } else s
      (match en.preempt with
       | some j => if en.task = some k then s.setTask j { s.task j with eng := none } else s
       | none => s)
    | none => s
  let s := s.setTask k { x with st := .idle, eng := none, ctx := { exc := x.ctx.exc }, hs := 0, staged := [], wait := none,
                                wstat := none }
  let n := (s.taskCfg k).owner
  let s := match x.eng with
    | some e => s.setBent (e / 4) { s.bent (e / 4) with idleSince := s.now }
    | none => s
  (s.retire n).poolRegs n

/-- Give an engine to a task whose context is restored there (R87); an uncorrectable context word ends the release without
commit, and F0160 fires (R194). -/
def startOn (s : State) (e k : Nat) : State :=
  let x := s.task k
  let s := if x.ctxWeak then (s.setTask k { x with ctxWeak := false }).bump Reg.SEQ_CTXCOR 1 else s
  if x.ctxBad then
    let s := s.setTask k { s.task k with ctxBad := false, eng := none }
    let s := s.endRelease k
    (((s.bump Reg.SEQ_CTXUNC 1).setBit (Reg.SEQ_TFLAG k) 4 true).setBit Reg.SEQ_STAT 16 true).raise 160 k
  else
    let (w, s) := s.fresh
    let s := s.maxReg (Reg.SEQ_TMAXDISP k) (min 0xFFFF ((s.now - (s.task k).readyAt) / 65536 + w % 1201))
    let x := s.task k
    let s := s.setTask k { x with st := .running, eng := some e }
    s.setEng e { sb := (s.eng e).sb, task := some k, running := true, ctx := x.ctx }

/-- Serve one ready task (R180 steps 1 to 4). -/
def serve (s : State) (n k : Nat) : State :=
  match s.idleEngine n with
  | some e => s.startOn e k
  | none =>
    match s.victim n (s.taskCfg k).prio with
    | some e => (s.setEng e { s.eng e with preempt := some k }).setTask k { s.task k with eng := some e }
    | none =>
      match s.wakingEngine n with
      | some e => (s.setEng e { s.eng e with task := some k }).setTask k { s.task k with eng := some e }
      | none =>
        match s.gatedBent n with
        | some m =>
          let s := s.setBent m { s.bent m with waking := true }
          (s.setEng (4 * m) { s.eng (4 * m) with task := some k }).setTask k { s.task k with eng := some (4 * m) }
        | none => s

/-- Serve the owner's ready tasks in order (R180, R182). -/
def dispatch (s : State) (n : Nat) : State :=
  (s.readyList n).foldl (fun s r => if (s.task r.2.2).eng = none ∧ (s.task r.2.2).st ≠ .idle then s.serve n r.2.2 else s) s

/-- Release a task at a read epoch (R173, R174, R179): counted, CONSEC cleared, and ready at its entry. -/
def release (s : State) (k t : Nat) : State :=
  let x := s.task k
  let s := s.setTask k { x with
    st := .ready, eng := none, ctx := { entryCtx (s.taskCfg k) with exc := x.ctx.exc }, relAt := t, everRel := true, pend := none, pendJudged := false,
    consec := 0, hs := 0, staged := [], wait := none, wstat := none, budFired := false, dlFired := false, readyAt := s.now }
  let s := (s.bump64 (Reg.SEQ_TRELCNT k) 1).wr64 (Reg.SEQ_TEPOCH k) (form64 t)
  let s : State := { s with epochMax := max s.epochMax t }
  s.wr64 Reg.SEQ_EPOCHMAX (form64 s.epochMax)

/-- An overrun of a task (R187 case 4, R188): F0128 + n fires beyond the allowance. -/
def overrun (s : State) (k : Nat) : State :=
  let x := s.task k
  let c := s.taskCfg k
  let s := s.setTask k { x with consec := x.consec + 1 }
  let s := (s.bump (Reg.SEQ_TOVRCNT k) 1).setBit (Reg.SEQ_TFLAG k) 0 true
  if c.allow < x.consec + 1 then s.raise (128 + c.owner) k (x.consec + 1) else s

/-- A boundary or event that gives no release (R176, R177, R179, R193). -/
def noRelease (s : State) (k : Nat) : State := s.bump (Reg.SEQ_TNOREL k) 1

/-- Is the previous release unfinished: it has not ended (R160, R187)? A commit still in progress does not keep it so (Table 7.3 case 2). -/
def unfinished (s : State) (k : Nat) : Bool := (s.task k).st != .idle

/-- Is a commit of the task still to be made (R155)? -/
def committing (s : State) (k : Nat) : Bool := s.img.commits.any (fun c => c.task == k)

/-- Are all the usable bents of a pool under self-test? Its tasks are then not released (R115). -/
def poolTested (s : State) (n : Nat) : Bool :=
  let us := s.cfg.part.bents.filter (fun p => p.2.assigned && p.2.owner == n && !(s.bent p.1).unusable)
  !us.isEmpty && us.all (fun p => (s.bent p.1).testReq)

/-- Does a boundary or event count an overrun in place of a release: the previous release is unfinished (Table 7.3), or the pool is under
self-test (R115)? -/
def blocked (s : State) (k : Nat) : Bool := s.unfinished k || s.poolTested (s.taskCfg k).owner

/-- Is a task a target of a splice whose rollback SEQ forces (R231)? -/
def splForced (s : State) (k : Nat) : Bool :=
  s.spl.any (fun p => p.2.forcing && (match p.2.pkg with | some g => g.targets.any (fun t => t.task == k) | none => false))

/-- A cyclic boundary of a task at instant t (R174, R176, R177, Table 7.3), without dispatch. -/
def boundary (s : State) (k t : Nat) : State :=
  let c := s.taskCfg k
  if !s.releasable c.owner || (s.owner c.owner).draining || s.relHeld || s.splForced k then s.noRelease k
  else if s.blocked k then s.overrun k
  else s.release k t

/-- The separation of an event task as an instant difference (R179). -/
def sepOf (s : State) (k : Nat) : Nat := us (s.taskCfg k).period

/-- An event of an event task at instant t (R179, R177, Table 7.3 case 6), without dispatch. -/
def eventAt (s : State) (k t : Nat) : State :=
  let c := s.taskCfg k
  let x := s.task k
  let due := if x.everRel then max t (x.relAt + s.sepOf k) else t
  if !s.releasable c.owner || (s.owner c.owner).draining || s.splForced k then s.noRelease k
  else if x.pend != none then s.bump (Reg.SEQ_TCOALESCE k) 1
  else if s.relHeld || decide (t < due) then s.setTask k { x with pend := some due }
  else if s.blocked k then (s.setTask k { x with pend := some due, pendJudged := true }).overrun k
  else s.release k t

/-- A latched release falls due (R179, Table 7.3 case 6): released, or judged once and kept. -/
def pendDue (s : State) (k : Nat) : State :=
  let x := s.task k
  match x.pend with
  | none => s
  | some due =>
    if s.relHeld then s
    else if s.blocked k then (if x.pendJudged then s else (s.setTask k { x with pendJudged := true }).overrun k)
    else s.release k (max due (if x.pendJudged then s.now else due))

/-- After a release has ended and, where it made one, committed: a pending release that is due is made now (Table 7.3 case 6). -/
def pendAfter (s : State) (k : Nat) : State :=
  let x := s.task k
  match x.pend with
  | some due => if !s.blocked k && !s.committing k && decide (due ≤ s.now) && !s.relHeld then s.release k s.now else s
  | none => s

/-! ### Waits -/

/-- Complete a wait with a status (R134): the deadline and descriptor leave the stack, the status is pushed, the task is ready. -/
def finishWait (s : State) (k status : Nat) : State :=
  let x := s.task k
  let ctx := { x.ctx with stack := BitVec.ofNat 256 status :: x.ctx.stack.drop 2 }
  s.setTask k { x with st := .ready, eng := none, ctx := ctx, wait := none, wstat := none, readyAt := s.now }

/-- Does the awaited event of a descriptor hold now (R134)? -/
def waitHolds (s : State) (n : Nat) (w : WaitDesc) : Bool :=
  if w.kind = 1 then (s.owner n).tokens.contains w.id
  else if w.kind = 3 then s.ringOpen w.id && decide (0 < s.ringCount w.id)
  else if w.kind = 4 then s.ringOpen w.id && !s.ringFull w.id
  else if w.kind = 5 then
    match s.absRow n 4 w.id with
    | some row => !(s.img.sem.get 0 row).getLsbD (w.id % 256)
    | none => false
  else false

/-- Has a 40-bit deadline passed, by the signed-difference rule on station nanoseconds (R134, R370)? -/
def deadlinePassed (s : State) (d : Nat) : Bool := decide (((s.ns + 2 ^ 40 - d % 2 ^ 40) % 2 ^ 40) < 2 ^ 39)

/-- Is a wait external (R134, R208)? -/
def waitExternal (s : State) (w : WaitDesc) : Bool :=
  w.kind == 2 || w.tmo ||
  (w.kind == 3 && s.ringOpen w.id && (s.ringCfg w.id).prod != 0) ||
  (w.kind == 4 && s.ringOpen w.id && (s.ringCfg w.id).cons != 0)

/-- The mutual-wait condition of an owner (R191). -/
def mutualWait (s : State) (n : Nat) : Bool :=
  let ts := s.tasksOf n
  ts.any (fun k => (s.task k).st == .waiting) &&
  ts.all (fun k =>
    let x := s.task k
    let c := s.taskCfg k
    match x.st with
    | .waiting => x.wstat == none && (match x.wait with | some w => !s.waitExternal w | none => false)
    | .idle => x.pend == none && x.events.isEmpty && c.event && c.bkind == 2 && (s.ringCfg c.bind).prod == 0
    | _ => false)

/-- Tasks waiting with a SEM bit that has become clear, or any image-held event, are woken (R134 kind 5). -/
def semWake (s : State) (n : Nat) : State := s.wakeWhere n (fun w => w.kind == 5 && s.waitHolds n w)

/-! ### Stopping work -/

/-- Stop a release at an instruction boundary (R32, R104, R193): its engine's stores drain, its staged rows are discarded, it ends
without commit. -/
def stopRelease (s : State) (k : Nat) : State :=
  if (s.task k).st == .idle then s else
  let s := match (s.task k).eng with
    | some e => if (s.eng e).task = some k && (s.eng e).running then (s.drain e).2 else s
    | none => s
  s.endRelease k

/-- Discard an owner's latched events and pending releases (R193), each counted. -/
def discardEvents (s : State) (n : Nat) : State :=
  forEach (s.tasksOf n) (fun s k =>
    let x := s.task k
    let c := x.events.length + (match x.pend with | some _ => 1 | none => 0)
    (s.setTask k { x with events := [], pend := none, pendJudged := false }).bump (Reg.SEQ_TNOREL k) c) s

/-- Stop every release of an owner at the next instruction boundary (device Hold, owner Held; R193). -/
def stopTasks (s : State) (n : Nat) : State :=
  (forEach (s.tasksOf n) (fun s k => s.stopRelease k) s).discardEvents n

/-- Does any release of the owner run on? -/
def anyOpen (s : State) (n : Nat) : Bool := (s.tasksOf n).any (fun k => (s.task k).st != .idle)

/-- End the waits of an owner as stops: a task that waits cannot reach its END (R32, R193). -/
def stopWaits (s : State) (n : Nat) : State :=
  forEach (s.tasksOf n) (fun s k => if (s.task k).st == .waiting then s.stopRelease k else s) s

/-- Releases already running go to their END (Stop, R32): nothing new is released, waits end as stops, events are discarded. -/
def drainTasks (s : State) (n : Nat) : State :=
  let s := (s.stopWaits n).discardEvents n
  let d := s.anyOpen n
  s.setOwner n { s.owner n with draining := d }

/-- Clear the counts of consecutive overruns (R176). -/
def clearConsec (s : State) (n : Nat) : State :=
  forEach (s.tasksOf n) (fun s k => s.setTask k { s.task k with consec := 0 }) s

/-- The first boundary of a cyclic task strictly after an instant (R174, R175). -/
def nextBoundary (s : State) (k t : Nat) : Nat :=
  let c := s.taskCfg k
  let per := us (max 1 c.period)
  let ph := us c.phase
  if t < ph then ph else ph + ((t - ph) / per + 1) * per

end State

end Sys2Proof.Machine
end

