-- ==== Sys2Proof/Machine/Tim.lean ====
section
/-! DEFINITION. Station time (chapter 15): the calendar, sources and their selection, quality steps, holdover, steps and slews, PTP,
the reference inputs, compare units and time outputs. -/
namespace Sys2Proof.Machine

/-- One second as an instant difference. -/
def secU : Nat := 1000000000 * 65536

/-- The first whole second strictly after an instant. -/
def nextSec (t : Nat) : Nat := (t / secU + 1) * secU

/-- Days of a date of the proleptic Gregorian calendar since 1970-01-01 (R378). -/
def daysOfDate (y m d : Nat) : Nat :=
  let y' := if m ≤ 2 then y - 1 else y
  let era := y' / 400
  let yoe := y' % 400
  let mp := (m + 9) % 12
  let doy := (153 * mp + 2) / 5 + d - 1
  let doe := yoe * 365 + yoe / 4 - yoe / 100 + doy
  era * 146097 + doe - 719468

/-- The date (year, month, day) of a day count since 1970-01-01. -/
def dateOfDays (days : Nat) : Nat × Nat × Nat :=
  let z := days + 719468
  let era := z / 146097
  let doe := z % 146097
  let yoe := (doe - doe / 1460 + doe / 36524 - doe / 146096) / 365
  let doy := doe - (365 * yoe + yoe / 4 - yoe / 100)
  let mp := (5 * doy + 2) / 153
  let d := doy - (153 * mp + 2) / 5 + 1
  let m := if mp < 10 then mp + 3 else mp - 9
  let y := yoe + era * 400
  (if m ≤ 2 then y + 1 else y, m, d)

/-- Days of a month. -/
def daysInMonth (y m : Nat) : Nat :=
  if m = 2 then (if (y % 4 = 0 ∧ y % 100 ≠ 0) ∨ y % 400 = 0 then 29 else 28)
  else if m = 4 ∨ m = 6 ∨ m = 9 ∨ m = 11 then 30 else 31

/-- A signed value in a 32-bit register field. -/
def s32 (i : Int) : Nat := unsigned 32 i

namespace State

/-! ### The calendar (R377 to R380) -/

def calMode (s : State) : Bool := s.fld Reg.TIM_CALCTL 0 1 == 1
def calAuto (s : State) : Bool := s.fld Reg.TIM_CALCTL 1 1 == 1
def calHold (s : State) : Bool := s.fld Reg.TIM_CALCTL 2 1 == 1

/-- TAI - UTC in seconds, as the calendar holds it. -/
def calOff (s : State) : Int := signed 16 (s.rd Reg.TIM_CALOFF)

/-- The calendar's count now, in 1/32768 s of its own representation: it stands while HOLD is 1 and AUTO 0 (R379). -/
def calNow (s : State) : Nat :=
  if s.calHold && !s.calAuto then s.tim.calCnt
  else s.tim.calCnt + (s.mono - s.tim.calAt) * 32768 / secU

/-- Set the calendar's count. -/
def setCal (s : State) (c : Nat) : State := { s with tim := { s.tim with calCnt := c % 2 ^ 63, calAt := s.mono } }

/-- The calendar registers as they read (R378): those of the other representation read 0. -/
def calSec (s : State) : Nat := if s.calMode then 0 else s.calNow / 32768 % 2 ^ 48
def calSub (s : State) : Nat := s.calNow % 32768
def calDate (s : State) : Nat :=
  if s.calMode then let (y, m, d) := dateOfDays (s.calNow / 32768 / 86400); d + m * 256 + y % 65536 * 65536 else 0
def calTime (s : State) : Nat :=
  if s.calMode then
    let t := s.calNow / 32768
    t % 60 + t / 60 % 60 * 256 + t / 3600 % 24 * 65536 + ((t / 86400 + 3) % 7 + 1) * 2 ^ 24
  else 0

/-- An ignored calendar write (R379). -/
def calBad (s : State) : State := s.setBit Reg.TIM_CALSTAT 1 true

/-- A write of the binary seconds, both halves together (R10, R379). -/
def calSecWrite (s : State) (v : Nat) : State :=
  if s.calMode then s
  else if !s.calHold || s.calAuto then s.calBad
  else s.setCal (v % 2 ^ 48 * 32768 + s.calSub)

/-- A write of the date (R379): out of range is ignored. -/
def calDateWrite (s : State) (v : Nat) : State :=
  let d := bits v 0 5
  let m := bits v 8 4
  let y := bits v 16 16
  if !s.calMode then s
  else if !s.calHold || s.calAuto then s.calBad
  else if y < 1970 ∨ 9999 < y ∨ m < 1 ∨ 12 < m ∨ d < 1 ∨ daysInMonth y m < d then s.calBad
  else s.setCal (daysOfDate y m d * 86400 * 32768 + s.calNow % (86400 * 32768))

/-- A write of the time of day (R379). -/
def calTimeWrite (s : State) (v : Nat) : State :=
  let sec := bits v 0 6
  let mi := bits v 8 6
  let h := bits v 16 5
  if !s.calMode then s
  else if !s.calHold || s.calAuto then s.calBad
  else if 59 < sec ∨ 59 < mi ∨ 23 < h then s.calBad
  else s.setCal (s.calNow / (86400 * 32768) * (86400 * 32768) + (h * 3600 + mi * 60 + sec) * 32768 + s.calSub)

/-- A write of TIM_CALCTL (R378, R379): MODE converts the held time, HOLD stops counting or restarts it at a whole second. -/
def calCtlWrite (s : State) (v : Nat) : State :=
  let c := s.calNow
  let wasHold := s.calHold && !s.calAuto
  let off : Int := s.calOff * 32768
  let c := if s.calMode && !bit v 0 then ((c : Int) + off).toNat
    else if !s.calMode && bit v 0 then ((c : Int) - off).toNat else c
  let s := s.setFld Reg.TIM_CALCTL 0 3 (bits v 0 3)
  let isHold := s.calHold && !s.calAuto
  s.setCal (if wasHold && !isHold then c / 32768 * 32768 else c)

/-- AUTO's write at a second boundary (R379). -/
def calAutoWrite (s : State) : State :=
  let s := s.advance (nextSec s.now)
  if s.calAuto && decide (s.qStep ≤ 4) then
    let s := s.wr Reg.TIM_CALOFF (s.fld Reg.TIM_UTCOFF 0 16)
    let secs : Int := (s.now / secU : Nat)
    let c := (if s.calMode then secs - s.calOff else secs).toNat
    (s.setCal (c * 32768)).setBit Reg.TIM_CALSTAT 0 false
  else s

/-- The calendar's error at a seed: ±20 ppm since it was last set, and ±31 µs (Table 15.5), an open value. -/
def calError (s : State) : Int × State :=
  let b := (s.mono - s.tim.calAt) / 50000 + us 31
  let (v, s) := s.fresh
  (((v % (2 * b + 1) : Nat) : Int) - b, s)

/-- Step 2 of Table 2.3 (R377): station time from the calendar, or 0 with no valid time. -/
def timSeed (s : State) : State :=
  let (err, s) := s.calError
  let osf := s.fld Reg.TIM_CALSTAT 0 1 == 1
  let c := s.calNow
  let units : Nat := if s.calMode then ((c : Int) + s.calOff * 32768).toNat else c
  let t := if osf then 0 else (((units * secU / 32768 : Nat) : Int) + err).toNat
  let d : Int := (t : Int) - s.now
  let s : State := { s with now := t, skew := s.skew + d }
  let s := s.setCal c
  let s := (s.setFld Reg.TIM_STAT 4 3 (if osf then 7 else 6)).setBit Reg.TIM_STAT 8 osf
  if osf then s.raise 774 else s

/-! ### Quality and the slew (R364, R367) -/

/-- Error bounds of steps 0 to 4 as instant differences (Table 15.3). -/
def stepOf (bound : Nat) : Nat :=
  if bound ≤ nsec 100 then 0 else if bound ≤ us 1 then 1 else if bound ≤ us 10 then 2
  else if bound ≤ us 100 then 3 else if bound ≤ msec 1 then 4 else 5

/-- A source's own bound (R364). -/
def ownBound (s : State) (src : Nat) : Nat :=
  if src = 3 then (if s.fld Reg.TIM_INSTAT 7 1 = 1 then us 5 else nsec 500) else nsec 50

def timSrc (s : State) : Nat := s.fld Reg.TIM_STAT 1 3
def timHold (s : State) : Bool := s.fld Reg.TIM_STAT 7 1 == 1

/-- Set the quality step; a rise counts and fires F0769 (R364). -/
def setStep (s : State) (n : Nat) : State :=
  let old := s.qStep
  let s := s.setFld Reg.TIM_STAT 4 3 n
  if old < n then ((s.bump Reg.TIM_QDEGCNT 1).setBit Reg.TIM_STAT 18 true).raise 769 else s

/-- The step threshold as an instant difference (R366). -/
def stepThresh (s : State) : Nat := us (s.fld Reg.TIM_CFG 1 20)

/-- Bring SLEWING, DEFERRED and the step to what they are now (R364 to R367). -/
def timUpdate (s : State) : State :=
  if s.timSrc = 0 then s else
  let left := s.slewLeft
  let slewing := s.tim.slew.isSome && decide (0 < left)
  let s := s.setBit Reg.TIM_STAT 9 slewing
  let s := if left ≤ s.stepThresh then s.setBit Reg.TIM_STAT 10 false else s
  let s : State := if s.tim.slew.isSome && left == 0 then { s with tim := { s.tim with slew := none } } else s
  s.setStep (stepOf (s.ownBound s.timSrc + left))

/-- The disciplined rate f after a sample: an open value within 1000 ppm (R367). -/
def newFreq (s : State) : State :=
  let (v, s) := s.fresh
  s.wr Reg.TIM_FREQ (s32 ((v % 2000001 : Nat) - 1000000))

/-- TIM_OFFSET takes a measured offset in ns (an open value where it does not fit). -/
def showOffset (s : State) (x : Int) : State :=
  let n := x / 65536
  if -(2 ^ 31) ≤ n ∧ n < 2 ^ 31 then s.wr Reg.TIM_OFFSET (s32 n)
  else let (v, s) := s.fresh; s.wr Reg.TIM_OFFSET v

/-! ### Steps (R366, R177, R372) -/

/-- What a step does to a cyclic task's boundaries (R177). -/
def stepTask (s : State) (new : Nat) (forward : Bool) (k : Nat) : State :=
  let x := s.task k
  match x.nextB with
  | none => s
  | some b =>
    if forward then
      if b < new then
        let c := cdiv (new - b) (us (max 1 (s.taskCfg k).period))
        (s.setTask k { x with nextB := some (b + c * us (max 1 (s.taskCfg k).period)) }).bump (Reg.SEQ_TNOREL k) c
      else s
    else s.setTask k { x with nextB := some (s.nextBoundary k new) }

/-- What a step does to a loop's sample instants (R420, R177): those a forward step passes are missed. -/
def stepLoop (s : State) (new : Nat) (forward : Bool) (i : Nat) : State :=
  let x := s.loops.get {} i
  let per := us (max 1 (s.rd (Reg.LOP_PERIOD i)))
  let ph := us (s.rd (Reg.LOP_PHASE i))
  match x.next with
  | none => s
  | some b =>
    if forward then
      if b < new then
        let c := cdiv (new - b) per
        ({ s with loops := s.loops.insert i { x with next := some (b + c * per) } } : State).bump (Reg.LOP_MISSED i) c
      else s
    else
      let nb := if new < ph then ph else ph + ((new - ph) / per + 1) * per
      { s with loops := s.loops.insert i { x with next := some nb } }

/-- The instant a compare target stands for, at or after now unless already due (R370). -/
def targetInstant (s : State) (tgt : Nat) : Nat × Bool :=
  let d := (form64 s.now % 2 ^ 40 + 2 ^ 40 - tgt % 2 ^ 40) % 2 ^ 40
  if d < 2 ^ 39 then (s.now / 65536 * 65536 - d * 65536, true) else (s.now / 65536 * 65536 + (2 ^ 40 - d) * 65536, false)

def cuArmed (s : State) (u : Nat) : Bool := s.fld (Reg.TIM_CUCTL u) 0 1 == 1

/-- Arm or disarm a unit; ARMED follows (Table 15.12). -/
def setArm (s : State) (u : Nat) (a : Bool) : State := (s.setBit (Reg.TIM_CUCTL u) 0 a).setBit (Reg.TIM_CUSTAT u) 0 a

/-- A unit fires (R371): FIRED, the count, SEQ's event at the instant given; reload to `next`, or disarmed. -/
def cuFire (s : State) (u event : Nat) (stepFire : Bool) (next : Option Nat) : State :=
  let s := (s.setBit (Reg.TIM_CUSTAT u) 16 true).bump (Reg.TIM_CUFIRE u) 1
  let s := if stepFire then s.setBit (Reg.TIM_CUSTAT u) 17 true else s
  let s := s.postBound 6 u event
  match next with
  | some t => s.wr64 (Reg.TIM_CUTGT u) t
  | none => s.setArm u false

def cuReload (s : State) (u : Nat) : Nat := s.fld (Reg.TIM_CURELOAD u) 0 26

/-- Units a forward step passes fire once at the step instant (R372). -/
def stepUnit (s : State) (old new u : Nat) : State :=
  if !s.cuArmed u then s else
  let tgt := s.rd64 (Reg.TIM_CUTGT u)
  let d := (form64 new % 2 ^ 40 + 2 ^ 40 - tgt % 2 ^ 40) % 2 ^ 40
  let d0 := (form64 old % 2 ^ 40 + 2 ^ 40 - tgt % 2 ^ 40) % 2 ^ 40
  if d < 2 ^ 39 ∧ ¬ d0 < 2 ^ 39 then
    let r := s.cuReload u * 1000
    s.cuFire u new true (if r = 0 then none else some ((tgt + (d / r + 1) * r) % 2 ^ 64))
  else s

/-- Station time steps by minus an offset, now (R366 item 2, R177, R372, R369). -/
def applyStep (s : State) (x : Int) : State :=
  let old := s.now
  let new := ((s.now : Int) - x).toNat
  let d : Int := (new : Int) - old
  let c := s.calNow
  let s := (s.bump Reg.TIM_STEPCNT 1).wr64 Reg.TIM_STEPAMT (unsigned 64 (d / 65536))
  let s := (s.wr64 Reg.TIM_STEPAT (form64 old)).setBit Reg.TIM_STAT 16 true
  let s := (s.raise 770).almEvent 0x0028 6 0xFF (unsigned 64 (d / 65536))
  let s : State := { s with now := new, skew := s.skew + d }
  let s := s.setCal c
  let s : State := { s with tim := { s.tim with outOff := s.tim.outOff - d, slew := none, stepDue := none } }
  let s := forEach (s.cfg.tasks.map (·.1)) (fun s k => s.stepTask new (decide (0 ≤ d)) k) s
  let s := forEach (s.cfg.loops.map (·.1)) (fun s i => s.stepLoop new (decide (0 ≤ d)) i) s
  let s := if 0 ≤ d then forEach (List.range 64) (fun s u => s.stepUnit old new u) s else s
  let s := if d < 0 ∧ new < s.epochMax ∧ !s.relHold then
      ({ s with relHold := true } : State).setBit Reg.SEQ_STAT 1 true |>.raise 161 else s
  s.timUpdate

/-! ### Sources (R358, R365, R366) -/

def src (s : State) (k : Nat) : TimSrc := s.tim.srcs.get {} k
def setSrc (s : State) (k : Nat) (x : TimSrc) : State := { s with tim := { s.tim with srcs := s.tim.srcs.set {} k x } }

/-- Source codes PORT lists, in priority order (R358); a standby uses its partner alone (R369). -/
def srcOrder (s : State) : List Nat :=
  if s.isStandby then [4]
  else ([s.fld Reg.TIM_SRCCFG 0 3, s.fld Reg.TIM_SRCCFG 3 3, s.fld Reg.TIM_SRCCFG 6 3]).filter (· != 0)

/-- The second boundary of the next step (R366): the next one, or the one after where the last step was at that second (R368). -/
def stepSecond (s : State) : Nat :=
  let t := nextSec s.now
  if 0 < s.rd Reg.TIM_STEPCNT ∧ s.rd64 Reg.TIM_STEPAT / 1000000000 = form64 t / 1000000000 then t + secU else t

/-- Remove a source's offset (R366): slewed, stepped at the next second, or slewed under "no step in Run". -/
def removeOffset (s : State) (x : Int) : State :=
  let noStep := s.fld Reg.TIM_CFG 0 1 == 1 &&
    (s.ms.mode == .run || s.ms.mode == .shadow || s.ms.mode == .test || s.ms.mode == .hold)
  let slewTo (s : State) : State := { s with tim := { s.tim with slew := some (s.mono, x), stepDue := none } }
  if x.natAbs ≤ s.stepThresh then slewTo s
  else if noStep then ((slewTo s).setBit Reg.TIM_STAT 10 true).raise 771
  else { s with tim := { s.tim with slew := none, stepDue := some (s.stepSecond, x) } }

/-- TIM begins to use a source (R358, R366). -/
def useSource (s : State) (k : Nat) : State :=
  let s := (s.setFld Reg.TIM_STAT 1 3 k).bump Reg.TIM_SRCCHG 1
  let s := (s.setBit Reg.TIM_STAT 7 false).setBit Reg.TIM_STAT 8 false
  (s.removeOffset (s.src k).meas).timUpdate

/-- Holdover begins (R365). -/
def holdover (s : State) : State :=
  let last := (s.src s.timSrc).sampleAt
  let s := s.timUpdate
  let s : State := { s with tim := { s.tim with slew := none, stepDue := none, lostAt := last, entryStep := s.qStep } }
  let s := ((s.setFld Reg.TIM_STAT 1 3 0).setBit Reg.TIM_STAT 9 false).setBit Reg.TIM_STAT 10 false
  ((s.setBit Reg.TIM_STAT 7 true).setBit Reg.TIM_STAT 17 true).raise 768

/-- TIM uses the first listed qualified source; with none left it enters holdover (R358, R365). -/
def reselect (s : State) : State :=
  match s.srcOrder.find? (fun k => (s.src k).qual) with
  | some k => if s.timSrc = k then s else s.useSource k
  | none => if s.timSrc = 0 then s else s.holdover

/-- A source becomes invalid and loses its qualification at once (R358). -/
def srcInvalid (s : State) (k : Nat) : State :=
  (s.setSrc k { s.src k with since := none, qual := false }).reselect

/-- A valid sample of a source (R358): valid from the first on; the source in use is followed. -/
def srcSample (s : State) (k : Nat) (x : Int) : State :=
  let o := s.src k
  let s := s.setSrc k { o with since := some (o.since.getD s.now), meas := x, sampleAt := s.now }
  let s := s.showOffset x
  if s.timSrc = k then
    let s : State := if s.tim.stepDue.isSome then s else { s with tim := { s.tim with slew := some (s.mono, x) } }
    s.newFreq.timUpdate
  else s

/-- A source has been valid for the qualification time (R358, R366); an offset beyond 60 s is refused at steps 0 to 5. -/
def srcQualify (s : State) (k : Nat) : State :=
  match (s.src k).since with
  | none => s
  | some t =>
    if (s.src k).qual then s else
    let s := s.advance (t + s.fld Reg.TIM_SRCCFG 16 6 * secU)
    if 60 * secU < (s.src k).meas.natAbs ∧ s.qStep ≤ 5 then
      (s.setSrc k { s.src k with since := none, qual := false }).raise 772
    else (s.setSrc k { s.src k with qual := true }).reselect

/-- TIM_HOLDS (R365): seconds since the last valid source sample, 0 outside holdover. -/
def holds (s : State) : Nat := if s.timHold then (s.now - s.tim.lostAt) / secU else 0

/-- The step Table 15.4 gives for a time in holdover. -/
def holdStep (h : Nat) : Nat :=
  if h < 60 then 0 else if h < 600 then 1 else if h < 3600 then 2 else if h < 21600 then 3 else if h < 86400 then 4 else 5

/-- TIM_HOLDS reaches its next threshold (R365). -/
def holdDegrade (s : State) : State :=
  if s.timHold then
    match ([60, 600, 3600, 21600, 86400] : List Nat).find? (fun h => decide (s.holds < h)) with
    | some h =>
      let s := s.advance (s.tim.lostAt + h * secU)
      s.setStep (max s.qStep (max s.tim.entryStep (holdStep s.holds)))
    | none => s
  else s

/-! ### PTP (R359 to R361) -/

/-- Does the port run PTP? -/
def ptpPort (s : State) (i : Nat) : Bool :=
  decide (i < 124) && (match s.cfg.port.ports.find? i with | some p => p.ptp | none => false)

/-- Is the port master-capable (Table 3.14)? -/
def portMaster (s : State) (i : Nat) : Bool := match s.cfg.port.ports.find? i with | some p => p.master | none => false

/-- The clockClass advertised (R361). -/
def clockClass (s : State) : Nat :=
  let q := s.qStep
  if 6 ≤ q then 248 else if 3 ≤ q then 187 else if s.timHold && decide (1 ≤ q) then 7 else if q ≤ 1 then 6 else 7

/-- May this module be grandmaster (R361)? -/
def canMaster (s : State) : Bool :=
  decide (2 ≤ s.cfg.port.role) && (s.timSrc == 2 || s.timSrc == 3 || s.timHold)

/-- This clock's own data set. -/
def ownAnn (s : State) : Ann :=
  { gm := Config.clockId, prio1 := s.cfg.port.prio1, cls := s.clockClass, prio2 := s.cfg.port.prio2, src := Config.clockId }

end State

/-- The order of the best master clock algorithm (IEEE 1588-2019 data set comparison). -/
def annKey (a : Ann) : List Nat := [a.prio1, a.cls, a.acc, a.var, a.prio2, a.gm, a.steps, a.src]

/-- Lexicographic comparison. -/
def lexLt : List Nat → List Nat → Bool
  | a :: as, b :: bs => decide (a < b) || (a == b && lexLt as bs)
  | _, _ => false

namespace State

/-- The best Announce over the ports, with its port. -/
def bestAnn (s : State) : Option (Nat × Ann) :=
  s.tim.anns.foldl (fun best p =>
    match best with
    | none => some p
    | some b => if lexLt (annKey p.2) (annKey b.2) then some p else some b) none

/-- Set every PTP port's state (Table 15.12, IEEE 1588-2019: 4 LISTENING, 6 MASTER, 7 PASSIVE, 9 SLAVE) and what follows. -/
def bmca (s : State) : State :=
  let own := s.ownAnn
  let best := s.bestAnn
  let master := s.canMaster && (match best with | some b => lexLt (annKey own) (annKey b.2) | none => true)
  let slave : Option Nat := if master then none else best.map (·.1)
  let stateOf (i : Nat) : Nat :=
    if slave = some i then 9
    else if master then (if s.portMaster i then 6 else 4)
    else match slave with
      | some _ => if s.cfg.port.role = 3 && s.portMaster i && (s.tim.anns.find? i).isNone then 6 else if (s.tim.anns.find? i).isSome then 7 else 4
      | none => 4
  let was := if s.fld Reg.TIM_PTPSTAT 27 1 = 1 then some (s.fld Reg.TIM_PTPSTAT 20 7) else none
  let s := forEach ((List.range 124).filter s.ptpPort) (fun s i => s.setFld (Reg.TIM_PPSTAT i) 0 4 (stateOf i)) s
  let s := match slave with
    | some i => (s.setFld Reg.TIM_PTPSTAT 20 7 i).setBit Reg.TIM_PTPSTAT 27 true
    | none => s.setBit Reg.TIM_PTPSTAT 27 false
  let gm := if master then own.gm else match best with | some b => b.2.gm | none => 0
  let s := (s.wr64 Reg.TIM_GMID (gm % 2 ^ 64)).setFld Reg.TIM_PTPSTAT 12 8 own.cls
  if slave != was && was.isSome then s.srcInvalid 1 else s

/-- A PTP message is received on a port; false where the port discards it (R359). -/
def ptpRx (s : State) (i dom : Nat) : Bool × State :=
  if !s.ptpPort i then (false, s) else
  let s := s.bump (Reg.TIM_PPRX i) 1
  if dom ≠ s.cfg.port.domain then (false, s.bump (Reg.TIM_PPERR i) 1) else (true, s)

/-- A Sync or Follow_Up's offset on the slave port (R356, R359): station time at reception minus the source's. -/
def ptpOffset (s : State) (i rx origin corr : Nat) : Int :=
  (rx : Int) - origin - corr - (s.rd (Reg.TIM_PPDELAY i) * 65536 : Nat) - signed 32 (s.rd (Reg.TIM_PPASYM i)) * 65536

/-- A Sync (kind 0 one-step, 1 two-step) or Follow_Up (2) on a port: identity, sequence, origin time and correction, and the
instant received (instants, 2^-16 ns). Only the slave port's master is followed. -/
def ptpSync (s : State) (i dom kind srcId seq origin corr rx : Nat) : State :=
  match s.ptpRx i dom with
  | (false, s) => s
  | (true, s) =>
    let s := s.advance rx
    let mine := s.fld (Reg.TIM_PPSTAT i) 0 4 == 9 && (match s.tim.anns.find? i with | some a => a.src == srcId | none => false)
    if !mine || s.isStandby then s
    else
      let key := i * 65536 + seq % 65536
      if kind = 1 then { s with tim := { s.tim with syncs := s.tim.syncs.insert key rx } }
      else if kind = 0 then s.srcSample 1 (s.ptpOffset i rx origin corr)
      else
        match s.tim.syncs.find? key with
        | some r =>
          let s : State := { s with tim := { s.tim with syncs := s.tim.syncs.erase key } }
          s.srcSample 1 (s.ptpOffset i r origin corr)
        | none => s

/-- An Announce (R359): the best master clock algorithm runs; the slave port's UTC offset and leap flags are taken (Table 15.10
FROMPTP). -/
def ptpAnnounce (s : State) (i dom : Nat) (a : Ann) (utcOff : Int) (utcValid : Bool) (leap : Nat) : State :=
  match s.ptpRx i dom with
  | (false, s) => s
  | (true, s) =>
    if a.gm = Config.clockId ∨ 255 ≤ a.steps then s else
    let keep := match s.tim.anns.find? i with
      | some b => b.src == a.src || lexLt (annKey a) (annKey b)
      | none => true
    let s : State := if keep then { s with tim := { s.tim with anns := s.tim.anns.insert i { a with steps := a.steps + 1 } } } else s
    let s := s.bmca
    if s.fld (Reg.TIM_PPSTAT i) 0 4 == 9 && (match s.tim.anns.find? i with | some b => b.src == a.src | none => false) then
      s.wr Reg.TIM_UTCOFF (unsigned 16 utcOff + b2n utcValid * 65536 + b2n utcValid * 2 ^ 17 + leap % 4 * 2 ^ 18 + 2 ^ 20)
    else s

/-- The announce receipt timeout of a port (R359). -/
def ptpTimeout (s : State) (i : Nat) : State :=
  if s.ptpPort i && (s.tim.anns.find? i).isSome then
    let wasSlave := s.fld (Reg.TIM_PPSTAT i) 0 4 == 9
    let s : State := { s with tim := { s.tim with anns := s.tim.anns.erase i } }
    let s := s.bmca
    if wasSlave then (s.setBit Reg.TIM_UTCOFF 20 false).srcInvalid 1 else s
  else s

/-- A message sent on a PTP port. -/
def ptpSend (s : State) (i : Nat) (fields : List Nat) : State :=
  (s.bump (Reg.TIM_PPTX i) 1).emit (.frame i 7 fields)

/-- Pdelay_Req answered with a one-step Pdelay_Resp (R359). -/
def pdelayReq (s : State) (i dom seq : Nat) : State :=
  match s.ptpRx i dom with
  | (false, s) => s
  | (true, s) => s.ptpSend i [3, seq]

/-- Every second each PTP port sends Pdelay_Req (Table 15.2); a standby only answers (R361). -/
def pdelaySend (s : State) : State :=
  if s.isStandby then s else forEach ((List.range 124).filter s.ptpPort) (fun s i => s.ptpSend i [2]) s

/-- A Pdelay_Resp updates the link delay: half of (t4 - t1) - (t3 - t2), in ns. -/
def pdelayResp (s : State) (i dom t1 t2 t3 t4 : Nat) : State :=
  match s.ptpRx i dom with
  | (false, s) => s
  | (true, s) => s.wr (Reg.TIM_PPDELAY i) (((((t4 : Int) - t1) - ((t3 : Int) - t2)) / 2).toNat)

/-- A master port sends a Sync (0) or Announce (1) (R361). -/
def syncSend (s : State) (i kind : Nat) : State :=
  if s.ptpPort i && s.fld (Reg.TIM_PPSTAT i) 0 4 == 6 && !s.isStandby then s.ptpSend i [kind, s.clockClass, form64 s.now] else s

/-! ### Reference inputs (R358, R362, R363) -/

/-- The bit of TIM_INSTAT of an input: TP0, TP1, TP4, TP6. -/
def inValid (s : State) (b : Nat) : Bool := s.fld Reg.TIM_INSTAT b 1 == 1

/-- Does PORT use an input: a source of its list needs it, or TP6 (R358)? -/
def inUsed (s : State) (b : Nat) : Bool :=
  let l := [s.fld Reg.TIM_SRCCFG 0 3, s.fld Reg.TIM_SRCCFG 3 3, s.fld Reg.TIM_SRCCFG 6 3]
  if b < 2 then l.contains 2 else if b = 2 then l.contains 2 || l.contains 3 else true

/-- A reference input becomes invalid (R358, Table 15.8): what depends on it loses its qualification. -/
def inputLost (s : State) (b : Nat) : State :=
  let was := s.inValid b
  let s := s.setBit Reg.TIM_INSTAT b false
  let s := if was && s.inUsed b then s.raise 775 else s
  let s := if b = 2 then ({ s with tim := { s.tim with irig := none } } : State).srcInvalid 3 else s
  if (b < 2 ∧ !s.inValid 0 ∧ !s.inValid 1) ∨ b = 2 then s.srcInvalid 2 else s

/-- The 10 MHz input becomes valid again (R358). -/
def inputReturn (s : State) : State := s.setBit Reg.TIM_INSTAT 3 true

/-- A rising edge of a PPS input at an instant (R363): valid 1 s ± 100 µs after the one before; with valid IRIG-B it is a sample. -/
def ppsEdge (s : State) (inp at_ : Nat) : State :=
  let s := s.advance at_
  let at_ := s.now
  let ok := match s.tim.edges.find? inp with
    | some t => decide (secU ≤ at_ - t + us 100) && decide (at_ - t ≤ secU + us 100)
    | none => false
  let s : State := { s with tim := { s.tim with edges := s.tim.edges.insert inp at_ } }
  if !ok then (if s.inValid inp then s.inputLost inp else s)
  else
    let s := s.setBit Reg.TIM_INSTAT inp true
    if (inp = 1 ∧ s.inValid 0) ∨ s.isStandby then s else
    match s.tim.irig with
    | some (m, sec) =>
      let n := sec + (at_ - m + secU / 2) / secU
      s.srcSample 2 ((at_ : Int) - (n * secU : Nat))
    | none => s

/-- An IRIG-B frame (R362): its on-time instant, whether it parses, whether it carries a year, its UTC fields, expression and
modulation. -/
def irigFrame (s : State) (at_ : Nat) (ok hasYear : Bool) (year doy hour min_ sec x : Nat) (am : Bool) : State :=
  let s := s.advance at_
  if !ok then
    let s : State := { s with tim := { s.tim with irigBad := s.mono + 2 * secU } }
    s.inputLost 2
  else if s.mono < s.tim.irigBad then s
  else
    let s := ((s.setBit Reg.TIM_INSTAT 2 true).setFld Reg.TIM_INSTAT 4 3 x).setBit Reg.TIM_INSTAT 7 am
    if s.fld Reg.TIM_UTCOFF 16 1 = 0 then s else
    let off : Int := signed 16 (s.rd Reg.TIM_UTCOFF)
    let nowUtc := ((s.now / secU : Nat) - off : Int).toNat
    let y := if hasYear then year else (dateOfDays (nowUtc / 86400)).1
    let utc := (daysOfDate y 1 1 + (doy - 1)) * 86400 + hour * 3600 + min_ * 60 + sec
    let ptp := ((utc : Int) + off).toNat
    let s : State := { s with tim := { s.tim with irig := some (s.now, ptp) } }
    if s.isStandby then s else s.srcSample 3 ((s.now : Int) - (ptp * secU : Nat))

/-- The OCXO fails (Table 15.8). -/
def ocxoFault (s : State) : State := (s.setBit Reg.TIM_STAT 19 true).raise 773

/-- The end of the UTC day with LEAP set (R355, R362): only the UTC offset changes. -/
def leapSecond (s : State) : State :=
  let leap := s.fld Reg.TIM_UTCOFF 18 2
  if leap = 1 ∨ leap = 2 then
    let off : Int := signed 16 (s.rd Reg.TIM_UTCOFF)
    let utc := ((s.now / secU : Nat) - off : Int).toNat
    let midnight := (((utc / 86400 + 1) * 86400 : Nat) + off : Int).toNat
    let s := s.advance ((if leap = 1 then midnight else midnight - 1) * secU)
    (s.setFld Reg.TIM_UTCOFF 0 16 (unsigned 16 (if leap = 1 then off + 1 else off - 1))).setFld Reg.TIM_UTCOFF 18 2 0
  else s

/-- The step scheduled at a second boundary takes effect (R366 item 2). -/
def timeStep (s : State) : State :=
  match s.tim.stepDue with
  | some (t, x) => (s.advance t).applyStep x
  | none => s

/-! ### Compare units (R370, R371) -/

/-- A unit's target is reached: it fires, or nothing if it is not armed. -/
def compareFire (s : State) (u : Nat) : State :=
  if !s.cuArmed u then s else
  let tgt := s.rd64 (Reg.TIM_CUTGT u)
  let (t, _) := s.targetInstant tgt
  let s := s.advance t
  let r := s.cuReload u
  s.cuFire u t false (if r = 0 then none else some ((tgt + r * 1000) % 2 ^ 64))

/-! ### Outputs (R373 to R376) -/

/-- A whole second of the output timescale: the enabled outputs emit, or skip once under JUMPSTOP; the loop moves its frequency by
an open amount within R373's bounds. -/
def ppsOutput (s : State) : State :=
  if !s.tim.outOn then s else
  let outNow : Int := (s.now : Int) + s.tim.outOff
  let nxt := nextSec outNow.toNat
  let s := s.advance ((nxt : Int) - s.tim.outOff).toNat
  if s.fld Reg.TIM_CFG 31 1 = 1 ∧ s.ms.mode = .stop ∧ msec 1 < s.tim.outOff.natAbs then
    ({ s with tim := { s.tim with outOff := 0 } } : State).wr Reg.TIM_OUTOFF 0
  else
    let s := if s.fld Reg.TIM_OUTCFG 0 4 = 0 then s else s.emit (.pps (nxt / secU) (s.fld Reg.TIM_OUTCFG 0 4))
    let (v, s) := s.fresh
    let f0 : Int := signed 32 (s.rd Reg.TIM_OUTFREQ)
    let f := max (-10000) (min 10000 (f0 + ((v % 1001 : Nat) - 500 : Int)))
    let off := s.tim.outOff + f * 65536
    let s : State := { s with tim := { s.tim with outOff := off } }
    let n := off / 65536
    let n := if n < -(2 ^ 31) then -(2 ^ 31) else if 2 ^ 31 - 1 < n then 2 ^ 31 - 1 else n
    (s.wr Reg.TIM_OUTFREQ (s32 f)).wr Reg.TIM_OUTOFF (s32 n)

/-- The TIM plane takes effect (R377, Table 15.10): settings, roles, compare-unit owners. -/
def timPlane (s : State) (old : Scn) : State :=
  let c := s.cfg.port
  let s := ((s.wr Reg.TIM_CFG c.timcfg).wr Reg.TIM_SRCCFG c.timsrc).wr Reg.TIM_OUTCFG c.timout
  let s := s.wr Reg.TIM_PTPSTAT (c.profile % 4 + c.role % 4 * 4 + c.domain % 256 * 16 + s.clockClass * 4096)
  let s := forEach (c.ports.filter (fun p => old.port.ports.find? p.1 != some p.2)) (fun s p =>
    if p.2.ptp then (s.wr (Reg.TIM_PPSTAT p.1) (4 + b2n (p.2.red == 3 || p.2.red == 4) * 16)).wr (Reg.TIM_PPASYM p.1) (s32 p.2.asym)
    else s.wr (Reg.TIM_PPSTAT p.1) 0) s
  let s := forEach (List.range 64) (fun s u => s.setFld (Reg.TIM_CUSTAT u) 1 13 0) s
  forEach s.cfg.tasks (fun s p =>
    if p.2.event && p.2.bkind == 6 then
      s.setFld (Reg.TIM_CUSTAT p.2.bind) 1 13 (p.2.owner + 8 + p.1 * 16)
    else s) s

/-- TIM at the end of Configure: its plane, the UTC offset seeded, the outputs on. -/
def timConfigure (s : State) : State :=
  let s := (s.timPlane {}).wr Reg.TIM_UTCOFF (s.fld Reg.TIM_CALOFF 0 16 + 65536)
  let s : State := { s with tim := { s.tim with outOn := true, outOff := 0 } }
  s.setBit Reg.TIM_STAT 0 true

end State

end Sys2Proof.Machine
end

