-- ==== Sys2Proof/Machine/Can.lean ====
section
/-! DEFINITION. The CAN FD controllers (chapter 16): stamps, matching and delivery, staging and sending, errors, modes, disabling. A frame
that can be sent starts on the bus at once when the controller's bus is free in the model (log entry 17). -/
namespace Sys2Proof.Machine

/-- Data bytes of a DLC (ISO 11898-1). -/
def dlcLen (fd : Bool) (dlc : Nat) : Nat :=
  if dlc ≤ 8 then dlc
  else if !fd then 8
  else if dlc = 9 then 12 else if dlc = 10 then 16 else if dlc = 11 then 20 else if dlc = 12 then 24
  else if dlc = 13 then 32 else if dlc = 14 then 48 else 64

/-- The order of arbitration: lower first; a base identifier wins against an extended one with the same leading bits. -/
def arbRank (ide : Bool) (id : Nat) : Nat :=
  if ide then bits id 18 11 * 2 ^ 20 + 2 ^ 19 + bits id 0 18 else bits id 0 11 * 2 ^ 20

namespace State

def canCtl (s : State) (k : Nat) : CanCtl := s.can.ctl.get {} k
def setCanCtl (s : State) (k : Nat) (c : CanCtl) : State := { s with can := { s.can with ctl := s.can.ctl.set {} k c } }
def canTx (s : State) (k j : Nat) : CanTx := s.can.tx.get {} (k * 128 + j)
def setCanTx (s : State) (k j : Nat) (x : CanTx) : State := { s with can := { s.can with tx := s.can.tx.set {} (k * 128 + j) x } }

/-- Is the controller defined, and whose is it? -/
def canOwner (s : State) (k : Nat) : Option Nat := if (s.cfg.can.find? k).isSome then s.cfg.part.canOwn.find? k else none

/-- The defined objects of a controller, in ascending number. -/
def canObjs (s : State) (k : Nat) : List Nat :=
  (s.cfg.canobj.filter (fun p => p.1 / 128 == k && bit p.2.cfg 0)).map (fun p => p.1 % 128)

def objCfg (s : State) (k j : Nat) : Nat := s.rd (Reg.OBJCFG k j)

/-- CAN_SOFCNT: 1 µs periods, wrapping (R391). -/
def canCount (s : State) : Nat := s.mono / us 1 % 2 ^ 32

/-- A SOF stamp as a form-64 time (R391). -/
def sofStamp (s : State) (k c : Nat) : Nat :=
  unsigned 64 ((s.rd64 (Reg.CAN_CAPTIME k) : Int) + signed 32 (c + 2 ^ 32 - s.rd (Reg.CAN_CAPCNT k)) * 1000)

/-- A capture (R391). -/
def canCapture (s : State) (k : Nat) : State := (s.wr (Reg.CAN_CAPCNT k) s.canCount).wr64 (Reg.CAN_CAPTIME k) (form64 s.now)

def canEnabled (s : State) (k : Nat) : Bool := s.fld (Reg.CAN_STAT k) 1 1 == 1
def canDraining (s : State) (k : Nat) : Bool := s.fld (Reg.CAN_STAT k) 2 1 == 1
def canOff (s : State) (k : Nat) : Bool := s.fld (Reg.CAN_STAT k) 4 2 == 2

/-- Restricted operation by MODE or as a standby (R392, R394). -/
def canRestrict (s : State) (k : Nat) : Bool := s.fld (Reg.CAN_CTL k) 1 2 == 1 || s.isStandby

/-- The staged object that wins arbitration: lowest identifier, then lowest object (R390). -/
def canWinner (s : State) (k : Nat) : Option Nat :=
  ((s.canObjs k).filter (fun j => (s.canTx k j).cur.isSome)).foldl (fun best j =>
    let r := arbRank (bit (s.objCfg k j) 2) (s.rd (Reg.OBJID k j))
    match best with
    | none => some (r, j)
    | some b => if r < b.1 then some (r, j) else best) (none : Option (Nat × Nat)) |>.map (·.2)

/-- At bus idle (R392): the mode takes effect, the next staged frame starts, and TXHOLD follows. -/
def canIdle (s : State) (k : Nat) : State :=
  let c := s.canCtl k
  let s := if c.bus.isNone then s.setBit (Reg.CAN_STAT k) 3 (s.canRestrict k) else s
  let free := s.canEnabled k && !s.canDraining k && !s.canOff k && s.fld (Reg.CAN_STAT k) 3 1 == 0
  let w := s.canWinner k
  let s := s.setBit (Reg.CAN_STAT k) 6 (w.isSome && !free && s.canEnabled k)
  match c.bus, w with
  | none, some j => if free then (s.setCanCtl k { c with bus := some j }).setBit (Reg.OBJSTAT k j) 1 true else s
  | _, _ => s

/-- Drop a frame (R390, R395): counted and flagged. -/
def canDrop (s : State) (k j : Nat) : State :=
  ((s.bump (Reg.CAN_TXDROP k) 1).setBit (Reg.CAN_STAT k) 19 true).setBit (Reg.OBJSTAT k j) 19 true

/-- Stage a frame for an object (R390): it replaces one not yet on the bus, or waits behind the one on the bus. -/
def canStage (s : State) (k j dlc : Nat) (data : List Byte) : State :=
  let x := s.canTx k j
  let f := some (dlc, data)
  if (s.canCtl k).bus = some j then
    let s := if x.next.isSome then s.bump (Reg.CAN_TXREPL k) 1 else s
    s.setCanTx k j { x with next := f, lastAt := s.mono }
  else
    let s := if x.cur.isSome then s.bump (Reg.CAN_TXREPL k) 1 else s
    ((s.setCanTx k j { x with cur := f, lastAt := s.mono }).setBit (Reg.OBJSTAT k j) 0 true).canIdle k

/-- The bytes of the OUT rows an object maps (R388 order), up to a length. -/
def canRows (s : State) (k j len : Nat) : List Byte :=
  match s.canOwner k with
  | none => []
  | some n =>
    match s.absRow n 1 (s.rd (Reg.OBJMAP k j)) with
    | none => []
    | some row => (bytesOfRow (s.curBits row) ++ (if bit (s.objCfg k j) 3 then bytesOfRow (s.curBits (row + 1)) else [])).take len

/-- TXMODE 1 and 2 stage the OUT rows' current bytes (R390). -/
def canStageRows (s : State) (k j : Nat) : State :=
  let c := s.objCfg k j
  let dlc := bits c 12 4
  s.canStage k j dlc (s.canRows k j (dlcLen (bit c 3) dlc))

/-- A commit changed OUT rows of an owner (R390): objects that map them stage. -/
def canOutHook (s : State) (n : Nat) (rows : List Nat) : State :=
  forEach s.cfg.canobj (fun s p =>
    let k := p.1 / 128
    let j := p.1 % 128
    let c := s.objCfg k j
    if s.canOwner k = some n ∧ bit c 0 ∧ bit c 1 ∧ bit c 6 ∧ (bits c 10 2 = 1 ∨ bits c 10 2 = 2) then
      match s.absRow n 1 (s.rd (Reg.OBJMAP k j)) with
      | some r => if rows.any (fun x => x == r || (bit c 3 && x == r + 1)) then s.canStageRows k j else s
      | none => s
    else s) s

/-- Does an object match a frame (R387)? -/
def canMatch (s : State) (k j : Nat) (f : CanFrame) : Bool :=
  let c := s.objCfg k j
  let m := s.rd (Reg.OBJMASK k j)
  bit c 0 && !bit c 1 && (f.id &&& m) == (s.rd (Reg.OBJID k j) &&& m) && bit c 2 == f.ide && (bit c 9 || bit c 3 == f.fdf)

/-- Store a frame into a message object or the high-priority buffer whose registers begin at `a` (R388, R389); true if NEW was 1. -/
def canStore (s : State) (k a : Nat) (f : CanFrame) (stamp : Nat) : Bool × State :=
  let old := s.rd (a + 0x10)
  let lost := bit old 16
  let st := putBits old 4 4 (bits old 4 4 + 1)
  let st := putBits (putBits (putBits (putBits st 8 4 f.dlc) 12 1 (b2n f.esi)) 13 1 (b2n f.fdf)) 14 1 (b2n f.brs)
  let st := putBits (putBits st 16 1 1) 17 1 (if lost then 1 else bits old 17 1)
  let s := ((s.wr (a + 0x10) st).wr (a + 0x14) f.sof).wr64 (a + 0x18) stamp
  let s := s.bump (a + 0x24) 1
  let s := forEach (List.range 16) (fun s w => s.wr (a + 0x40 + 4 * w) (field f.data (4 * w) 4)) s
  let s := if lost then
      ((s.bump (Reg.CAN_RXLOST k) 1).setBit (Reg.CAN_STAT k) 18 true).raise (960 + k) 0xFFFF k ((a - Reg.OBJCFG k 0) / 0x80)
    else s
  (lost, s)

/-- A receive ring entry (Table 16.2). -/
def canEntry (f : CanFrame) (j stamp : Nat) (cont more lost : Bool) : List Byte :=
  leBytes 8 stamp ++ leBytes 4 (f.id + b2n f.ide * 2 ^ 29 + b2n f.fdf * 2 ^ 30 + b2n f.brs * 2 ^ 31) ++
  leBytes 1 j ++ leBytes 1 f.dlc ++ leBytes 1 (dlcLen f.fdf f.dlc) ++
  leBytes 1 (b2n more + b2n f.esi * 2 + b2n lost * 4 + b2n cont * 8) ++
  leBytes 48 (leNat ((f.data.drop (if cont then 48 else 0)).take 48))

/-- Deliver to RXRING (R388): a long frame takes two entries, both or none. -/
def canRing (s : State) (k j : Nat) (f : CanFrame) (stamp : Nat) (lost : Bool) : State :=
  let r := s.rd (Reg.CAN_RING k)
  if !bit r 12 then s else
  let q := bits r 0 12
  let e1 := canEntry f j stamp false (decide (48 < dlcLen f.fdf f.dlc)) lost
  if dlcLen f.fdf f.dlc ≤ 48 then (s.hwEnq q e1).2
  else if s.ringOpen q && decide (s.ringCount q + 2 ≤ ringLen (s.ringCfg q)) then
    ((s.hwEnq q e1).2.hwEnq q (canEntry f j stamp true false lost)).2
  else (s.ringDrop q).ringDrop q

/-- Install a frame's data in the IN rows an object maps (R388). -/
def canInstall (s : State) (k j : Nat) (f : CanFrame) (stamp : Nat) : State :=
  match s.canOwner k with
  | none => s
  | some n =>
    match s.absRow n 0 (s.rd (Reg.OBJMAP k j)) with
    | none => s
    | some row =>
      let full := f.data.take (dlcLen f.fdf f.dlc)
      let r0 := rowOfBytes (full.take 32)
      let r1 := rowOfBytes (full.drop 32)
      let ones := BitVec.allOnes 256
      s.sourceWrite n ((row, r0, ones) :: (if bit (s.objCfg k j) 3 then [(row + 1, r1, ones)] else [])) (stamp * 65536) 2

/-- A high-priority match (R389, Table 7.1 kind 4): the bound tasks' event instant has the guard on a module with REDN; the active
member tells its partner (R243). -/
def canHp (s : State) (k j : Nat) (f : CanFrame) (stamp : Nat) : State :=
  match s.canOwner k with
  | none => s
  | some n =>
    let a := Reg.CAN_CTL k + 0x100
    let (_, s) := s.canStore k a f stamp
    let s := s.wr a (putBits (s.objCfg k j) 16 16 j)
    let s := s.wr (a + 4) (s.rd (Reg.OBJID k j))
    if s.isStandby then s else
    let t := s.now + (if s.cfg.redn.isSome then us (s.imgf n).guardUs else 0)
    let s := s.postBound 4 k t
    if s.forwards then s.emit (.pair 0x0A [k, s.now]) else s

/-- Success moves the receive error counter back (ISO 11898-1): from above 127 to an open value of 119 to 127. -/
def canRecOk (s : State) (k : Nat) : State :=
  let c := s.canCtl k
  if 127 < c.recv then
    let (v, s) := s.fresh
    s.setCanCtl k { c with recv := 119 + v % 9 }
  else s.setCanCtl k { c with recv := c.recv - 1 }

/-- CAN_ERR and the error state follow the counters (R393). -/
def canErrState (s : State) (k : Nat) : State :=
  let c := s.canCtl k
  let was := s.fld (Reg.CAN_STAT k) 4 2
  let s := s.setFld (Reg.CAN_ERR k) 0 16 (min c.tec 255 + min c.recv 255 * 256)
  let st := if was = 2 then 2 else if 255 < c.tec then 2 else if 127 < c.tec ∨ 127 < c.recv then 1 else 0
  let s := s.setFld (Reg.CAN_STAT k) 4 2 st
  if st = 2 ∧ was ≠ 2 then
    let s := match c.bus with
      | some j => (s.setCanCtl k { c with bus := none }).setBit (Reg.OBJSTAT k j) 1 false
      | none => s
    (((s.bump (Reg.CAN_BUSOFF k) 1).setBit (Reg.CAN_STAT k) 16 true).raise (896 + k) 0xFFFF k).canIdle k
  else if st = 1 ∧ was = 0 then (s.setBit (Reg.CAN_STAT k) 17 true).raise (928 + k) 0xFFFF k
  else s

/-- Steps 3 and 4 of disabling (R395): staged frames are dropped, the controller leaves the bus. -/
def canLeave (s : State) (k : Nat) : State :=
  let s := forEach (s.canObjs k) (fun s j =>
    let x := s.canTx k j
    let s := if x.cur.isSome then s.canDrop k j else s
    let s := if x.next.isSome then s.canDrop k j else s
    (s.setCanTx k j { x with cur := none, next := none }).setFld (Reg.OBJSTAT k j) 0 2 0) s
  let s := s.setCanCtl k { s.canCtl k with bus := none, recovering := false }
  s.setFld (Reg.CAN_STAT k) 1 6 0

/-- A frame leaves the bus: what waited behind it is staged, a drain ends, or the next frame starts. -/
def canAfter (s : State) (k : Nat) : State :=
  if s.canDraining k then s.canLeave k else s.canIdle k

/-- The object whose frame was on the bus is done with it (sent or dropped). -/
def canRelease (s : State) (k j : Nat) : State :=
  let x := s.canTx k j
  let s := s.setCanTx k j { x with cur := x.next, next := none }
  let s := s.setFld (Reg.OBJSTAT k j) 0 2 (b2n x.next.isSome)
  s.setCanCtl k { s.canCtl k with bus := none }

/-- A valid data frame is received (R387 to R389); `arb` says that it won arbitration against the controller's own frame. -/
def canReceive (s : State) (k : Nat) (f : CanFrame) (arb : Bool) : State :=
  match s.canOwner k with
  | none => s
  | some _ =>
  if !s.canEnabled k then s else
  let s := match (s.canCtl k).bus with
    | some j =>
      if arb then
        let s := s.bump (Reg.CAN_ARBLOST k) 1
        if bit (s.objCfg k j) 8 then (s.canDrop k j).canRelease k j
        else (s.setCanCtl k { s.canCtl k with bus := none }).setBit (Reg.OBJSTAT k j) 1 false
      else s
    | none => s
  let s := (s.canRecOk k).canErrState k
  let s :=
    if f.rtr then s.bump (Reg.CAN_REMOTE k) 1 else
    match (s.canObjs k).find? (fun j => s.canMatch k j f) with
    | none => s.bump (Reg.CAN_RXNOMATCH k) 1
    | some j =>
      let stamp := s.sofStamp k f.sof
      let s := s.bump64 (Reg.CAN_RXCNT k) 1
      let (lost, s) := s.canStore k (Reg.OBJCFG k j) f stamp
      let c := s.objCfg k j
      let s := if bit c 5 then s.canHp k j f stamp else s
      let s := if bit c 6 then s.canInstall k j f stamp else s
      if bit c 7 && !s.isStandby then s.canRing k j f stamp lost else s
  s.canAfter k

/-- The staged frame on the bus completes (R390); a measured loop delay beyond 127 mtq fails it (R385). -/
def canSent (s : State) (k sof tdcv : Nat) : State :=
  match (s.canCtl k).bus with
  | none => s
  | some j =>
    let c := s.objCfg k j
    let tdc := s.fld (Reg.CAN_CFG k) 3 1 == 1 && bit c 3 && bit c 4
    let s := if tdc then s.setFld (Reg.CAN_ERR k) 16 7 (min tdcv 127) else s
    if tdc && decide (127 < tdcv) then
      let s := (s.setBit (Reg.CAN_STAT k) 20 true).raise (992 + k) 0xFFFF k j
      let s := (s.bump (Reg.CAN_ERRFRM k) 1).setCanCtl k { s.canCtl k with tec := (s.canCtl k).tec + 8 }
      let s := if bit c 8 then (s.canDrop k j).canRelease k j
        else (s.setCanCtl k { s.canCtl k with bus := none }).setBit (Reg.OBJSTAT k j) 1 false
      (s.canErrState k).canAfter k
    else
      let (dlc, data) := (s.canTx k j).cur.getD (0, [])
      let s := s.emit (.can k j data)
      let s := (s.bump64 (Reg.CAN_TXCNT k) 1).bump (Reg.OBJCNT k j) 1
      let st := s.rd (Reg.OBJSTAT k j)
      let st := putBits (putBits (putBits (putBits st 8 4 dlc) 13 1 (bits c 3 1)) 14 1 (bits c 4 1)) 18 1 1
      let s := ((s.wr (Reg.OBJSTAT k j) st).wr (Reg.OBJSOF k j) sof).wr64 (Reg.OBJTIME k j) (s.sofStamp k sof)
      let s := s.setCanCtl k { s.canCtl k with tec := (s.canCtl k).tec - 1 }
      ((s.canRelease k j).canErrState k).canAfter k

/-- An error on the bus (R393): the counters move by what ISO 11898-1 gives this error; a one-shot frame that failed is dropped. -/
def canError (s : State) (k dTec dRec : Nat) (ours : Bool) : State :=
  if (s.canOwner k).isNone || !s.canEnabled k then s else
  let s := s.bump (Reg.CAN_ERRFRM k) 1
  let c := s.canCtl k
  let s := s.setCanCtl k { c with tec := c.tec + dTec, recv := min 255 (c.recv + dRec) }
  let s := match c.bus with
    | some j => if ours then
        (if bit (s.objCfg k j) 8 then (s.canDrop k j).canRelease k j
         else (s.setCanCtl k { s.canCtl k with bus := none }).setBit (Reg.OBJSTAT k j) 1 false) else s
    | none => s
  (s.canErrState k).canAfter k

/-- The controller rejoins after bus-off (R393), with AUTOREC or after RECOVER. -/
def canRejoin (s : State) (k : Nat) : State :=
  if s.canOff k && (s.fld (Reg.CAN_CFG k) 1 1 == 1 || (s.canCtl k).recovering) then
    let s := s.setCanCtl k { s.canCtl k with tec := 0, recv := 0, recovering := false }
    ((s.setFld (Reg.CAN_STAT k) 4 2 0).setFld (Reg.CAN_ERR k) 0 16 0).canIdle k
  else s

/-- RECOVER (R393). -/
def canRecover (s : State) (k : Nat) : State :=
  if s.canOff k && s.canEnabled k then s.setCanCtl k { s.canCtl k with recovering := true } else s

/-- A write of MODE (R392): reserved values are ignored. -/
def canMode (s : State) (k m : Nat) : State := if m < 2 then (s.setFld (Reg.CAN_CTL k) 1 2 m).canIdle k else s

/-- EN = 0 (R395). -/
def canDisable (s : State) (k : Nat) : State :=
  let s := s.setBit (Reg.CAN_CTL k) 0 false
  if !s.canEnabled k then s else
  let s := s.setBit (Reg.CAN_STAT k) 2 true
  if (s.canCtl k).bus.isSome then s else s.canLeave k

/-- EN = 1 (R395): both error counters 0. -/
def canEnable (s : State) (k : Nat) : State :=
  let s := s.setBit (Reg.CAN_CTL k) 0 true
  if s.canEnabled k || (s.canOwner k).isNone then s else
  let s := s.setCanCtl k {}
  let s := (s.setFld (Reg.CAN_ERR k) 0 16 0).setFld (Reg.CAN_STAT k) 4 2 0
  (s.setBit (Reg.CAN_STAT k) 1 true).canIdle k

/-- A write of CAN_CTL (Table 16.7): EN = 0 prevails over RECOVER; CAPREQ captures. -/
def canCtlWrite (s : State) (k v : Nat) : State :=
  let s := if bit v 9 then s.canCapture k else s
  let s := s.canMode k (bits v 1 2)
  let s := if bit v 8 && bit v 0 then s.canRecover k else s
  let was := s.fld (Reg.CAN_CTL k) 0 1 == 1
  if bit v 0 && !was then s.canEnable k else if !bit v 0 && was then s.canDisable k else s

/-- OBJTXREQ (R390): OBJDATA and the DLC in OBJCFG are staged, on a TXMODE 0 transmit object. -/
def canTxReq (s : State) (k j : Nat) : State :=
  let c := s.objCfg k j
  if bit c 0 && bit c 1 && bits c 10 2 == 0 then
    let data := (List.range 16).flatMap (fun w => leBytes 4 (s.rd (Reg.OBJDATA k j w)))
    let dlc := bits c 12 4
    s.canStage k j dlc (data.take (dlcLen (bit c 3) dlc))
  else s

/-- TXPER elapses (R390 TXMODE 2). -/
def canPeriodic (s : State) (k j : Nat) : State :=
  let c := s.objCfg k j
  if bit c 0 && bit c 1 && bits c 10 2 == 2 && s.canEnabled k then
    let s := s.advanceMono ((s.canTx k j).lastAt + msec (bits c 16 16))
    s.canStageRows k j
  else s

/-- CAN takes the TXRING entry at the consumer index (R390, R394): a standby discards it; the named object's stage must be free. -/
def canTake (s : State) (k : Nat) : State :=
  let r := s.rd (Reg.CAN_RING k)
  if !bit r 28 then s else
  let q := bits r 16 12
  if s.isStandby then
    match s.hwTake q with
    | (some _, s) => s.bump Reg.RED_CONSDISC 1
    | (none, s) => s
  else if !s.canEnabled k || s.canDraining k || s.canRestrict k then s
  else
    let peek := match s.ringOwner q with
      | some n => (s.hwRead n (s.ringSlot q (s.ringC q)) 64).1
      | none => none
    let j := match peek with | some b => field b 0x0C 1 | none => 0
    if peek.isSome && (s.canTx k j).cur.isSome then s else
    match s.hwTake q with
    | (none, s) => s
    | (some e, s) =>
      let dlc := field e 0x0D 1
      let more := bit (field e 0x0F 1) 0
      let (tail, s) := if more then (match s.hwTake q with | (some e2, s) => ((e2.drop 0x10).take 16, s) | (none, s) => ([], s))
        else ([], s)
      let c := s.objCfg k j
      let limit := if bit c 3 then 15 else 8
      if 128 ≤ j ∨ !bit c 0 ∨ !bit c 1 ∨ bits c 10 2 ≠ 0 ∨ limit < dlc then (s.bump (Reg.CAN_TXDROP k) 1).setBit (Reg.CAN_STAT k) 19 true
      else s.canStage k j dlc (((e.drop 0x10).take 48 ++ tail).take (dlcLen (bit c 3) dlc))

/-- The isolated transceiver supply fails (Table 16.4). -/
def canXcvr (s : State) (k : Nat) : State :=
  if (s.canOwner k).isSome then (s.setBit (Reg.CAN_STAT k) 20 true).raise (992 + k) 0xFFFF k else s

/-- The CAN plane takes effect (R386): at Configure, and at a plane swap. -/
def canConfigure (s : State) (old : Scn) : State :=
  let gone := (old.can.filter (fun p => (s.cfg.can.find? p.1).isNone)).map (·.1)
  let s := forEach gone (fun s k =>
    let s := (s.setFld (Reg.CAN_CTL k) 1 2 0).setBit (Reg.CAN_STAT k) 0 false
    s.setCanCtl k {}) s
  let s := forEach s.cfg.can (fun s p =>
    let k := p.1
    let s := ((s.wr (Reg.CAN_CFG k) p.2.cfg).wr (Reg.CAN_NBT k) p.2.nbt).wr (Reg.CAN_DBT k) p.2.dbt
    (s.wr (Reg.CAN_RING k) p.2.ring).setBit (Reg.CAN_STAT k) 0 true) s
  let objGone := (old.canobj.filter (fun p => (s.cfg.canobj.find? p.1).isNone)).map (·.1)
  let s := forEach objGone (fun s o => (s.wr (Reg.OBJCFG (o / 128) (o % 128)) 0).setCanTx (o / 128) (o % 128) {}) s
  forEach s.cfg.canobj (fun s p =>
    let k := p.1 / 128
    let j := p.1 % 128
    let s := if old.canobj.find? p.1 = some p.2 then s else s.setCanTx k j {}
    ((s.wr (Reg.OBJCFG k j) p.2.cfg).wr (Reg.OBJID k j) p.2.id).wr (Reg.OBJMASK k j) p.2.mask |>.wr (Reg.OBJMAP k j) p.2.map) s

/-- A start of an owner (R392, chapter 16): MODE from RSTART, counters cleared. -/
def canStart (s : State) (n : Nat) : State :=
  forEach (s.cfg.can.map (·.1)) (fun s k =>
    if s.canOwner k = some n then
      let s := s.setFld (Reg.CAN_CTL k) 1 2 (s.fld (Reg.CAN_CFG k) 2 1)
      let s := (s.wr64 (Reg.CAN_RXCNT k) 0).wr64 (Reg.CAN_TXCNT k) 0
      let s := forEach ([0x3C, 0x40, 0x44, 0x48, 0x4C, 0x50, 0x54, 0x58] : List Nat) (fun s o => s.clr (Reg.CAN_CTL k + o)) s
      let s := forEach (s.canObjs k) (fun s j => s.clr (Reg.OBJCNT k j)) s
      s.canIdle k
    else s) s

/-- At a takeover (R394): MODE's own mode applies, and frames staged by TXMODE 1 and 2 are discarded. -/
def canTakeover (s : State) : State :=
  forEach (s.cfg.can.map (·.1)) (fun s k =>
    let s := forEach (s.canObjs k) (fun s j =>
      if bits (s.objCfg k j) 10 2 = 0 then s
      else (s.setCanTx k j { s.canTx k j with cur := none, next := none }).setBit (Reg.OBJSTAT k j) 0 false) s
    s.canIdle k) s

end State

end Sys2Proof.Machine
end

