-- ==== Sys2Proof/Machine/Float.lean ====
section
/-! DEFINITION. IEEE 754-2019 binary32 and binary64 arithmetic as R130 to R132 use it: exact values, one rounding to nearest with
ties to even, subnormals kept, canonical NaNs, no traps and no flags. -/
namespace Sys2Proof.Machine

/-- A binary format: exponent bits and fraction bits. -/
structure Fmt where
  eb : Nat
  mb : Nat
  deriving DecidableEq, Repr

/-- binary32. -/
def f32 : Fmt := { eb := 8, mb := 23 }
/-- binary64. -/
def f64 : Fmt := { eb := 11, mb := 52 }

/-- The format a form selects. -/
def fmtOf (dbl : Bool) : Fmt := if dbl then f64 else f32

/-- Width of a format. -/
def Fmt.width (f : Fmt) : Nat := 1 + f.eb + f.mb

/-- A real's value: NaN, infinity, or (-1)^neg * m * 2^e. -/
inductive Fl where
  | nan
  | inf (neg : Bool)
  | fin (neg : Bool) (m : Nat) (e : Int)
  deriving DecidableEq, Repr

/-- The exponent bias. -/
def Fmt.bias (f : Fmt) : Nat := 2 ^ (f.eb - 1) - 1

/-- The canonical quiet NaN (R130). -/
def Fmt.nan (f : Fmt) : Nat := (2 ^ f.eb - 1) * 2 ^ f.mb + 2 ^ (f.mb - 1)

/-- Infinity. -/
def Fmt.inf (f : Fmt) (neg : Bool) : Nat := b2n neg * 2 ^ (f.eb + f.mb) + (2 ^ f.eb - 1) * 2 ^ f.mb

/-- Zero. -/
def Fmt.zero (f : Fmt) (neg : Bool) : Nat := b2n neg * 2 ^ (f.eb + f.mb)

/-- The value of a bit pattern. -/
def Fmt.decode (f : Fmt) (v : Nat) : Fl :=
  let neg := bit v (f.eb + f.mb)
  let e := bits v f.mb f.eb
  let m := bits v 0 f.mb
  if e = 2 ^ f.eb - 1 then (if m = 0 then .inf neg else .nan)
  else if e = 0 then .fin neg m (1 - (f.bias : Int) - f.mb)
  else .fin neg (m + 2 ^ f.mb) ((e : Int) - f.bias - f.mb)

/-- Number of bits of a natural number. -/
def bitLen (n : Nat) : Nat := if n = 0 then 0 else Nat.log2 n + 1

/-- Round (m + a sticky fraction below its last bit) * 2^e to the format, to nearest, ties to even. -/
def Fmt.round (f : Fmt) (neg : Bool) (m : Nat) (e : Int) (sticky : Bool) : Nat :=
  if m = 0 then f.zero neg else
  let p := f.mb + 1
  let qmin : Int := 1 - (f.bias : Int) - f.mb
  let q := max (e + bitLen m - p) qmin
  let m1 :=
    if q ≤ e then m * 2 ^ (e - q).toNat
    else
      let sh := (q - e).toNat
      let keep := m >>> sh
      let rem := m % 2 ^ sh
      let half := 2 ^ (sh - 1)
      if rem > half ∨ (rem = half ∧ (sticky ∨ keep % 2 = 1)) then keep + 1 else keep
  let (m2, q2) := if m1 = 2 ^ p then (2 ^ (p - 1), q + 1) else (m1, q)
  if m2 < 2 ^ f.mb then b2n neg * 2 ^ (f.eb + f.mb) + m2
  else
    let field := q2 + f.mb + f.bias
    if (2 ^ f.eb - 1 : Nat) ≤ field then f.inf neg
    else b2n neg * 2 ^ (f.eb + f.mb) + field.toNat * 2 ^ f.mb + (m2 - 2 ^ f.mb)

/-- A signed integer scaled by 2^e, rounded; zero takes the sign given. -/
def Fmt.roundInt (f : Fmt) (i : Int) (e : Int) (zeroNeg : Bool) : Nat :=
  if i = 0 then f.zero zeroNeg else f.round (decide (i < 0)) i.natAbs e false

/-- The signed significand of a finite value at an exponent not above its own. -/
def scaled (neg : Bool) (m : Nat) (e e0 : Int) : Int :=
  let v : Int := (m * 2 ^ (e - e0).toNat : Nat)
  if neg then -v else v

/-- The sum of two exact finite values, rounded (R130). -/
def Fmt.addFin (f : Fmt) (n1 : Bool) (m1 : Nat) (e1 : Int) (n2 : Bool) (m2 : Nat) (e2 : Int) : Nat :=
  let e0 := min e1 e2
  f.roundInt (scaled n1 m1 e1 e0 + scaled n2 m2 e2 e0) e0 (n1 && n2)

/-- Sum of two decoded values. -/
def Fmt.addFl (f : Fmt) : Fl → Fl → Nat
  | .nan, _ => f.nan
  | _, .nan => f.nan
  | .inf a, .inf b => if a = b then f.inf a else f.nan
  | .inf a, _ => f.inf a
  | _, .inf b => f.inf b
  | .fin n1 m1 e1, .fin n2 m2 e2 => f.addFin n1 m1 e1 n2 m2 e2

/-- Change the sign of a decoded value. -/
def Fl.neg : Fl → Fl
  | .nan => .nan
  | .inf a => .inf (!a)
  | .fin n m e => .fin (!n) m e

/-- The exact product. -/
def Fl.mul : Fl → Fl → Fl
  | .nan, _ => .nan
  | _, .nan => .nan
  | .inf a, .inf b => .inf (a != b)
  | .inf a, .fin n m _ => if m = 0 then .nan else .inf (a != n)
  | .fin n m _, .inf b => if m = 0 then .nan else .inf (n != b)
  | .fin n1 m1 e1, .fin n2 m2 e2 => .fin (n1 != n2) (m1 * m2) (e1 + e2)

/-- Round a decoded value. -/
def Fmt.pack (f : Fmt) : Fl → Nat
  | .nan => f.nan
  | .inf a => f.inf a
  | .fin n m e => f.round n m e false

/-- FADD (Table 5.12). -/
def Fmt.add (f : Fmt) (a b : Nat) : Nat := f.addFl (f.decode a) (f.decode b)
/-- FSUB. -/
def Fmt.sub (f : Fmt) (a b : Nat) : Nat := f.addFl (f.decode a) (f.decode b).neg
/-- FMUL. -/
def Fmt.mul (f : Fmt) (a b : Nat) : Nat := f.pack ((f.decode a).mul (f.decode b))
/-- FMA: one rounding (R130). -/
def Fmt.fma (f : Fmt) (a b c : Nat) : Nat := f.addFl ((f.decode a).mul (f.decode b)) (f.decode c)

/-- FDIV. -/
def Fmt.div (f : Fmt) (a b : Nat) : Nat :=
  match f.decode a, f.decode b with
  | .nan, _ => f.nan
  | _, .nan => f.nan
  | .inf _, .inf _ => f.nan
  | .inf x, .fin n _ _ => f.inf (x != n)
  | .fin n _ _, .inf x => f.zero (n != x)
  | .fin n1 m1 e1, .fin n2 m2 e2 =>
    if m2 = 0 then (if m1 = 0 then f.nan else f.inf (n1 != n2))
    else if m1 = 0 then f.zero (n1 != n2)
    else
      let sh := f.mb + 3 + bitLen m2
      let num := m1 * 2 ^ sh
      f.round (n1 != n2) (num / m2) (e1 - e2 - sh) (decide (num % m2 ≠ 0))

/-- Integer square root, one result bit per step from bit k down. -/
def isqrtFrom (n : Nat) : Nat → Nat → Nat
  | 0, r => r
  | k + 1, r =>
    let t := r + 2 ^ k
    isqrtFrom n k (if t * t ≤ n then t else r)

/-- Integer square root. -/
def isqrt (n : Nat) : Nat := isqrtFrom n (bitLen n / 2 + 1) 0

/-- FSQRT. -/
def Fmt.sqrt (f : Fmt) (a : Nat) : Nat :=
  match f.decode a with
  | .nan => f.nan
  | .inf neg => if neg then f.nan else f.inf false
  | .fin neg m e =>
    if m = 0 then f.zero neg
    else if neg then f.nan
    else
      let sh := 2 * (f.mb + 3) + (if (e % 2) = 0 then 0 else 1)
      let n := m * 2 ^ sh
      let r := isqrt n
      f.round false r ((e - sh) / 2) (decide (r * r ≠ n))

/-- The order of two decoded values that are not NaN: the sign of a - b. -/
def Fl.cmp : Fl → Fl → Int
  | .inf a, .inf b => if a = b then 0 else if a then -1 else 1
  | .inf a, _ => if a then -1 else 1
  | _, .inf b => if b then 1 else -1
  | .fin n1 m1 e1, .fin n2 m2 e2 =>
    let e0 := min e1 e2
    scaled n1 m1 e1 e0 - scaled n2 m2 e2 e0
  | _, _ => 0

/-- Is a pattern a NaN? -/
def Fmt.isNan (f : Fmt) (a : Nat) : Bool := decide (f.decode a = .nan)

/-- Real compares (R131): false with a NaN. -/
def Fmt.eq (f : Fmt) (a b : Nat) : Bool := !f.isNan a && !f.isNan b && decide ((f.decode a).cmp (f.decode b) = 0)
def Fmt.lt (f : Fmt) (a b : Nat) : Bool := !f.isNan a && !f.isNan b && decide ((f.decode a).cmp (f.decode b) < 0)
def Fmt.le (f : Fmt) (a b : Nat) : Bool := !f.isNan a && !f.isNan b && decide ((f.decode a).cmp (f.decode b) ≤ 0)
def Fmt.un (f : Fmt) (a b : Nat) : Bool := f.isNan a || f.isNan b

/-- Order for FMIN and FMAX: -0 below +0 (R130). -/
def Fmt.below (f : Fmt) (a b : Nat) : Bool :=
  f.lt a b || (f.eq a b && bit a (f.eb + f.mb) && !bit b (f.eb + f.mb))

/-- FMIN: the other operand when exactly one is a NaN (R130). -/
def Fmt.min (f : Fmt) (a b : Nat) : Nat :=
  if f.isNan a then (if f.isNan b then f.nan else b % 2 ^ f.width)
  else if f.isNan b then a % 2 ^ f.width else if f.below b a then b % 2 ^ f.width else a % 2 ^ f.width
/-- FMAX. -/
def Fmt.max (f : Fmt) (a b : Nat) : Nat :=
  if f.isNan a then (if f.isNan b then f.nan else b % 2 ^ f.width)
  else if f.isNan b then a % 2 ^ f.width else if f.below a b then b % 2 ^ f.width else a % 2 ^ f.width

/-- FNEG: only the sign bit changes (R130). -/
def Fmt.fneg (f : Fmt) (a : Nat) : Nat := putBits (a % 2 ^ f.width) (f.eb + f.mb) 1 (b2n (!bit a (f.eb + f.mb)))
/-- FABS. -/
def Fmt.fabs (f : Fmt) (a : Nat) : Nat := putBits (a % 2 ^ f.width) (f.eb + f.mb) 1 0

/-- Real to a 64-bit signed integer: truncated, saturated, NaN gives 0 (R132). -/
def Fmt.toInt (f : Fmt) (a : Nat) : Int :=
  let lo : Int := -(2 ^ 63 : Nat)
  let hi : Int := (2 ^ 63 : Nat) - 1
  match f.decode a with
  | .nan => 0
  | .inf neg => if neg then lo else hi
  | .fin neg m e =>
    let mag : Nat := if 0 ≤ e then m * 2 ^ (Min.min e.toNat 1100) else m >>> (-e).toNat
    let v : Int := if neg then -(mag : Int) else mag
    if v < lo then lo else if hi < v then hi else v

/-- Convert between formats (R132). -/
def convert (src dst : Fmt) (a : Nat) : Nat := dst.pack (src.decode a)

end Sys2Proof.Machine
end

