-- ==== Sys2Proof/Machine/Fio.lean ====
section
/-! DEFINITION. FIO and the sill (chapter 17), with the claim unit (R258, R259): barrier frames, input changes, refresh-lost, group supplies,
outputs, compliance and calibration. Sill time is station time while the link is fresh (R410). -/
namespace Sys2Proof.Machine

/-- The first multiple of `p` strictly after an instant. -/
def nextMultiple (p t : Nat) : Nat := (t / p + 1) * p

/-- Is a channel claim-locked (R412)? -/
def claimLocked (k : Nat) : Bool := decide (56 ≤ k)

/-- The group of a digital channel, and of a current output (Table 17.1). -/
def dGroup (k : Nat) : Nat := k / 16
def aGroup (k : Nat) : Nat := k / 4

/-- The code of a set-point (R406), and whether it is a NaN. -/
def currentCode (v safe : Nat) : Nat × Bool :=
  if f32.isNan v then (safe, true)
  else
    match f32.decode v with
    | .inf neg => (if neg then 0 else 48000, false)
    | .fin neg m e =>
      let (num, den) := if 0 ≤ e then (m * 2 ^ e.toNat * 2000, 1) else (m * 2000, 2 ^ (-e).toNat)
      let q := num / den
      let r := num % den
      let q := if den < 2 * r ∨ (2 * r = den ∧ q % 2 = 1) then q + 1 else q
      (if neg then 0 else min q 48000, false)
    | .nan => (safe, true)

namespace State

def setFio (s : State) (f : Fio) : State := { s with fio := f }

/-- Is this member marked suspect (R248)? -/
def isSuspect (s : State) : Bool := s.fld Reg.RED_STAT 3 1 == 1

/-- The owner of a digital channel and of a current output. -/
def dOwner (s : State) (k : Nat) : Nat := (s.cfg.part.dOwn.find? k).getD 0
def aOwner (s : State) (k : Nat) : Nat := (s.cfg.part.aOwn.find? k).getD 0

/-- Does the logic side run the barrier in this mode (Table 2.1, R526)? -/
def fioOn (s : State) : Bool :=
  match s.ms.mode with
  | .backup | .recall | .lean | .recovery | .configure | .drain => false
  | _ => true

/-- Does a former active still keep its drivers (Table 10.6 step 4, R257)? -/
def keeping (s : State) : Bool := match s.fio.keepUntil with | some t => decide (s.now < t) | none => false

/-- The claim the logic side sends (R258). -/
def claimNow (s : State) : Nat :=
  let base := match s.cfg.redn with | some r => r.base | none => 1
  if s.isSuspect then 0
  else if !s.ms.paired then
    match s.ms.mode with
    | .stop | .run | .test | .hold | .handover | .drain => 8 + base
    | _ => 0
  else if s.ms.mode = .drain then (if s.ms.leaveSent then 0 else if s.ms.active then 8 + base else 0)
  else if s.ms.active then 8 + base
  else if s.ms.mode = .stop then (if s.keeping then 0 else base)
  else if s.ms.mode = .handover then (if s.ms.hoFrom = some .shadow ∨ s.ms.hoFrom = some .hold then 0 else base)
  else 0

/-- Are the ordinary drivers enabled (Table 17.6 DRVEN)? -/
def drvEn (s : State) : Bool :=
  if s.keeping then true
  else if s.isSuspect then false
  else match s.ms.mode with
    | .shadow => false
    | .drain => s.ms.prev != .shadow
    | .stop => !s.ms.paired || s.ms.active || s.fio.driven
    | .hold | .handover => !s.ms.paired || s.ms.active
    | .run | .test => true
    | _ => false

/-- Does an owner's channel take its safe state (Table 17.6)? -/
def takesSafe (s : State) (n : Nat) : Bool :=
  if s.keeping then false
  else match s.ms.mode with
    | .stop => !(s.owner n).draining
    | .drain => s.ms.prev != .shadow
    | .run | .test => (s.owner n).st == .stopped && !(s.owner n).draining
    | _ => false

/-- The command of a digital output (Table 17.6). -/
def dCommand (s : State) (k : Nat) (d : DRec) : Bool :=
  let n := s.dOwner k
  if s.takesSafe n then d.safe else s.curField n 1 d.addr 1 == 1

/-- The code of a current output (Table 17.6, R406), and whether its set-point is a NaN. -/
def aCommand (s : State) (k : Nat) (a : ARec) : Nat × Bool :=
  let n := s.aOwner k
  if s.takesSafe n then (a.safe, false) else currentCode (s.curField n 1 a.setaddr 32) a.safe

/-- Is an output's group supply in range? -/
def groupOk (s : State) (g : Nat) : Bool := bit s.fio.inRange g

/-- DRIVEN of every output as it now stands (Tables 17.6, 17.13). -/
def drivenRegs (s : State) : State :=
  let f := s.fio
  let ord := f.sillSeen && f.sillEn && !f.ordOff
  let s := forEach s.cfg.dch (fun s p =>
    if p.2.out then
      let on := s.groupOk (dGroup p.1) && (if claimLocked p.1 then f.driven else ord)
      s.setBit (Reg.FIO_DSTAT p.1) 2 on
    else s) s
  let s := forEach s.cfg.ach (fun s p => s.setBit (Reg.FIO_ASTAT p.1) 1 (f.driven && s.groupOk (aGroup p.1))) s
  let s := (s.setBit Reg.FIO_STAT 6 ord).setBit Reg.FIO_STAT 7 f.driven
  if s.cfg.redn.isSome then (s.setBit Reg.RED_STAT 6 f.driven).setBit Reg.RED_STAT 7 ord else s

/-- LINK: both directions fresh (Table 17.11). -/
def linkReg (s : State) : State :=
  s.setBit Reg.FIO_STAT 1 (s.fio.sillSeen && s.fio.upSeen && decide (s.fio.downMiss < 3) && decide (s.fio.upMiss < 3))

/-- A CRC failure on either side (R411). -/
def fioCrc (s : State) : State := ((s.bump Reg.FIO_CRCERR 1).setBit Reg.FIO_STAT 16 true).raise 1112

/-- A change of an output's command (Table 17.13). -/
def dCommanded (s : State) (k : Nat) (new : Bool) : State :=
  if (s.fld (Reg.FIO_DSTAT k) 0 1 == 1) = new then s
  else
    let s := ((s.setBit (Reg.FIO_DSTAT k) 0 new).setBit (Reg.FIO_DSTAT k) 16 true).bump (Reg.FIO_DCHG k) 1
    s.wr64 (Reg.FIO_DLAST k) (form64 s.now)

/-- A downlink frame departs at the next multiple of 8 µs (R404, R406, R409, R411): `kind` 0 it arrives, 1 its CRC fails, 2 it is missed
otherwise. -/
def downlinkNow (s : State) (kind : Nat) : State :=
  let s := s.advance (nextMultiple (us 8) s.now)
  let s := forEach s.cfg.dch (fun s p => if p.2.out then s.dCommanded p.1 (s.dCommand p.1 p.2) else s) s
  let s := forEach s.cfg.ach (fun s p =>
    let (c, nan) := s.aCommand p.1 p.2
    let s := s.wr (Reg.FIO_ASET p.1) c
    if nan then s.setBit (Reg.FIO_ASTAT p.1) 17 true else s) s
  let cmd := s.cfg.dch.foldl (fun a p => if p.2.out && s.fld (Reg.FIO_DSTAT p.1) 0 1 == 1 then a + 2 ^ p.1 else a) 0
  let codes := s.cfg.ach.map (fun p => (p.1, s.rd (Reg.FIO_ASET p.1)))
  let en := s.drvEn
  let claim := s.claimNow
  let idx := s.fio.cfgIdx
  let s := s.emit (.barrier s.fio.seq ([b2n en, claim, form64 s.now, cmd, idx] ++ codes.map (·.2)))
  let f : Fio := { s.fio with seq := (s.fio.seq + 1) % 256, cfgIdx := (idx + 1) % 64 }
  let f : Fio := if f.keepUntil.isSome && !s.keeping then { f with keepUntil := none } else f
  if kind = 0 then
    let okAll := (idx = 0 || f.cfgOk)
    let f : Fio := { f with
      downMiss := 0, sillSeen := true, lastDown := s.now, sillCmd := cmd, sillCodes := codes.filter (·.2 != 0), sillEn := en,
      sillClaim := claim, sillLost := false, ordOff := false, sp5 := true, cfgOk := okAll }
    let s := (s.setFio f).linkReg.drivenRegs
    if idx = 63 ∧ okAll then s.setBit Reg.FIO_STAT 0 true else s
  else
    let s := (s.setFio { f with downMiss := f.downMiss + 1, cfgOk := false }).bump Reg.FIO_MISSED 1
    let s := if kind = 1 then s.fioCrc else s
    s.linkReg

def downlink (s : State) (kind : Nat) : State := if s.fioOn then s.downlinkNow kind else s

/-- The sill misses 3 downlink frames (R411, R259): it holds its ordinary outputs, claims 0 and opens SP5. -/
def sillRefreshLost (s : State) : State :=
  if s.fio.sillSeen && !s.fio.sillLost then
    let t := s.fio.lastDown + us 24
    let s := if s.fioOn then (if s.fio.downMiss < 3 then s else s.advance t) else s.advance t
    if s.fioOn && decide (s.fio.downMiss < 3) then s
    else (s.setFio { s.fio with sillLost := true, sillClaim := 0, sp5 := false, downMiss := max 3 s.fio.downMiss }).linkReg.drivenRegs
  else s

/-- The stamp of a change at the sill (R401, R410): whole microseconds of sill time; while it runs free, off by an open amount within
±50 ppm, and without a frame since power-up, an open time. -/
def sillStamp (s : State) : Nat × Bool × State :=
  let t := (s.now + us 1 - 1) / us 1 * us 1
  if !s.fio.sillSeen then
    let (v, s) := s.fresh
    (v % 2 ^ 64 * us 1, true, s)
  else if s.fio.downMiss < 3 ∧ !s.fio.sillLost then (t, false, s)
  else
    let d := (s.now - s.fio.lastDown) * 50 / 1000000
    let (v, s) := s.fresh
    ((t + v % (2 * d + 1) - d) / us 1 * us 1, true, s)

/-- An input's filtered state changes (R401): a change is queued, or lost when 64 wait (R409). -/
def inputChange (s : State) (k : Nat) (new : Bool) (at_ : Nat) : State :=
  match s.cfg.dch.find? k with
  | none => s
  | some d =>
    if d.out || !s.groupOk (dGroup k) || bit s.fio.filt k == new then s else
    let s := s.advance at_
    let (t, free, s) := s.sillStamp
    let f := s.fio
    let filt := putBits f.filt k 1 (b2n new)
    if f.queue.length < 64 then
      let q := f.queue ++ [{ ch := k, st := new, stamp := t, lost := f.lostNext, notInStep := free }]
      s.setFio { f with filt := filt, queue := q, lostNext := false }
    else
      ((s.setFio { f with filt := filt, lostNext := true }).bump Reg.FIO_EVTLOST 1).setBit Reg.FIO_STAT 18 true |>.raise 1113 0xFFFF k

/-- A change-of-state record (Table 17.3). -/
def fioRecord (s : State) (k stamp : Nat) (new lost free : Bool) : State :=
  match s.cfg.dch.find? k with
  | none => s
  | some d =>
    if !d.ring then s else
    match s.cfg.fioring.find? (s.dOwner k) with
    | none => s
    | some q =>
      let t := form64 stamp
      let rec_ := leBytes 8 t ++ leBytes 8 (unsigned 64 ((t : Int) - d.filt * 1000)) ++ leBytes 1 k ++ leBytes 1 (b2n new) ++
        leBytes 1 (b2n lost + b2n free * 2) ++ leBytes 1 0 ++ leBytes 4 d.filt ++ leBytes 8 0
      (s.hwEnq q rec_).2

/-- Registers of an input's change (Table 17.13). -/
def dChanged (s : State) (k stamp : Nat) (new : Bool) : State :=
  let s := ((s.setBit (Reg.FIO_DSTAT k) 0 new).setBit (Reg.FIO_DSTAT k) 16 true).bump (Reg.FIO_DCHG k) 1
  s.wr64 (Reg.FIO_DLAST k) (form64 stamp)

/-- Install input values (channel, value) at one stamp: one version per row and owner (R402). STATE of each channel shows its value (Table 17.13). -/
def installInputs (s : State) (chs : List (Nat × Bool)) (stamp : Nat) : State :=
  let put (acc : SMap (Nat × Row × Row)) (c : Nat × Bool) : SMap (Nat × Row × Row) :=
    match s.cfg.dch.find? c.1 with
    | none => acc
    | some d =>
      let n := s.dOwner c.1
      match s.absRow n 0 d.addr with
      | none => acc
      | some row =>
        let (_, v, m) := (acc.find? row).getD (n, 0, 0)
        let lane := laneMask (d.addr % 256)
        acc.insert row (n, (v &&& ~~~lane) ||| (if c.2 then lane else 0), m ||| lane)
  let rows := chs.foldl put ([] : SMap (Nat × Row × Row))
  let s := forEach rows (fun s r => s.sourceWrite r.2.1 [(r.1, r.2.2.1, r.2.2.2)] stamp 1) s
  let s := forEach (chs.filter (fun c => (s.cfg.dch.find? c.1).isSome)) (fun s c => s.setBit (Reg.FIO_DSTAT c.1) 0 c.2) s
  s.setFio { s.fio with inst := chs.foldl (fun a c => putBits a c.1 1 (b2n c.2)) s.fio.inst }

/-- The change slots of one frame, by distinct stamp in order (R402). -/
def installChanges (s : State) : Nat → List FioChg → State
  | 0, _ => s
  | fuel + 1, l =>
    match l with
    | [] => s
    | c :: _ =>
      let same := l.filter (fun x => x.stamp == c.stamp)
      let s := s.installInputs (same.map (fun x => (x.ch, x.st))) c.stamp
      installChanges s fuel (l.filter (fun x => x.stamp != c.stamp))

/-- The readback word of a current output (R408). -/
def readback (s : State) (k : Nat) : State :=
  match s.cfg.ach.find? k with
  | none => s
  | some a =>
    match a.rb with
    | none => s
    | some addr =>
      let code := s.rd (Reg.FIO_AMEAS k)
      let ma := f32.div (f32.roundInt code 0 false) (f32.roundInt 2000 0 false)
      let v := ma + b2n (bit s.fio.complUp k) * 2 ^ 32 + b2n (s.groupOk (aGroup k)) * 2 ^ 33
      s.sourceBits (s.aOwner k) addr 64 v s.now 1

/-- An input's filtered state in an uplink frame: as it stood at the frame's latch (R409). -/
def latched (s : State) (k latch : Nat) : Bool :=
  match s.fio.queue.find? (fun c => c.ch == k && decide (latch < c.stamp)) with
  | some c => !c.st
  | none => bit s.fio.filt k

/-- Inputs of reporting groups whose state in the frame differs from the last installed value (R411): counted as lost unless the group reports for
the first time. -/
def fioResync (s : State) (stamp : Nat) (resync : Bool) : State :=
  let f := s.fio
  let diff := s.cfg.dch.filterMap (fun p =>
    let g := dGroup p.1
    if !p.2.out && bit f.reporting g && (resync || f.fresh.contains g) && s.latched p.1 stamp != bit f.inst p.1 then
      some (p.1, s.latched p.1 stamp, f.fresh.contains g) else none)
  let s := s.installInputs (diff.map (fun d => (d.1, d.2.1))) stamp
  forEach diff (fun s d =>
    let counted := !d.2.2
    let s := (s.dChanged d.1 stamp d.2.1).fioRecord d.1 stamp d.2.1 counted (decide (3 ≤ s.fio.downMiss))
    if counted then ((s.bump Reg.FIO_EVTLOST 1).setBit Reg.FIO_STAT 18 true).raise 1113 0xFFFF d.1 else s) s

/-- An uplink frame latched 4 µs after a multiple of 8 µs of sill time (R409, R411): `kind` 0 it arrives, 1 its CRC fails, 2 it is missed; with the
terminal readback of the channels and the two codes measured, which come from the field. -/
def uplink (s : State) (kind term codeA codeB : Nat) : State :=
  if !s.fioOn || s.fio.inRange == 0 then s else
  let s := s.advance (nextMultiple (us 8) (s.now + us 4) - us 4)
  let latch := s.now
  let f := s.fio
  let ready := (f.queue.filter (fun c => decide (c.stamp ≤ latch))).take 8
  let f' := { f with queue := f.queue.filter (fun c => !ready.contains c), pair := (f.pair + 1) % 8 }
  if kind ≠ 0 then
    let s := (s.setFio { f' with upMiss := f.upMiss + 1, resync := true }).bump Reg.FIO_MISSED 1
    (if kind = 1 then s.fioCrc else s).linkReg
  else
    let s := s.setFio { f' with upMiss := 0, upSeen := true, resync := false, complUp := f.compl }
    let s := s.installChanges ready.length ready
    let s := forEach ready (fun s c =>
      let s := (s.bump64 Reg.FIO_EVTCNT 1).dChanged c.ch c.stamp c.st
      s.fioRecord c.ch c.stamp c.st c.lost c.notInStep) s
    let s := s.fioResync latch f.resync
    let s := s.setFio { s.fio with fresh := s.fio.fresh.filter (fun g => !bit f.reporting g) }
    let s := s.setFld Reg.FIO_STAT 2 4 (s.fld Reg.FIO_STAT 2 4 &&& (15 - f.reporting % 16))
    let s := (s.setFld Reg.FIO_GSTAT 0 4 f.inRange).setFld Reg.FIO_GSTAT 8 4 f.reporting
    let s := forEach s.cfg.dch (fun s p => s.setBit (Reg.FIO_DSTAT p.1) 1 (bit term p.1)) s
    let k := f.pair * 2
    let chg := (List.range 16).filter (fun j => bit f.compl j != bit f.complUp j)
    let s := forEach [(k, codeA), (k + 1, codeB)] (fun s m =>
      if (s.cfg.ach.find? m.1).isSome then s.wr (Reg.FIO_AMEAS m.1) (m.2 % 65536) else s) s
    let s := forEach ((k :: (k + 1) :: chg).eraseDups) (fun s j => s.readback j) s
    s.linkReg.drivenRegs

/-- The logic side has missed 3 uplink frames, or group sections have stopped reporting (R411). -/
def logicRefreshLost (s : State) : State :=
  if !s.fioOn || !s.fio.upSeen then s else
  forEach ([0, 1, 2, 3] : List Nat) (fun s g =>
    if (3 ≤ s.fio.upMiss ∨ !bit s.fio.reporting g) ∧ s.fld Reg.FIO_STAT (2 + g) 1 = 0 then
      let s := (s.setBit Reg.FIO_STAT (2 + g) true).setBit Reg.FIO_STAT 17 true
      let s := if bit s.fio.reporting g then s else s.setFio { s.fio with fresh := g :: s.fio.fresh.filter (· != g) }
      (s.bump Reg.FIO_RLOSTCNT 1).raise (1024 + g) 0xFFFF g
    else s) s

/-- A current output is out of compliance (R407). -/
def complLost (s : State) (k : Nat) : State :=
  if (s.cfg.ach.find? k).isNone || bit s.fio.compl k then s else
  let s := s.setFio { s.fio with compl := putBits s.fio.compl k 1 1 }
  let s := ((s.setBit (Reg.FIO_ASTAT k) 0 true).setBit (Reg.FIO_ASTAT k) 16 true).bump (Reg.FIO_ACOMPL k) 1
  s.raise (1032 + k) 0xFFFF k

/-- 1 ms out of compliance with a command of at least 2000 codes (R407). -/
def complianceLost (s : State) (k : Nat) : State :=
  if 2000 ≤ s.rd (Reg.FIO_ASET k) ∧ s.fio.driven then s.complLost k else s

/-- 10 ms back in compliance (R407): the flag clears. -/
def complianceBack (s : State) (k : Nat) : State :=
  if bit s.fio.compl k && s.groupOk (aGroup k) then
    (s.setFio { s.fio with compl := putBits s.fio.compl k 1 0 }).setBit (Reg.FIO_ASTAT k) 0 false
  else s

/-- The sill without any supply (R526): its state is gone. -/
def sillOff (s : State) : State :=
  s.setFio { s.fio with
    queue := [], lostNext := false, downMiss := 3, sillSeen := false, sillCmd := 0, sillCodes := [], sillEn := false, sillClaim := 0,
    sillLost := false, ordOff := false, wins := 0, driven := false, sp5 := false, cfgOk := false }

/-- A group supply leaves its range at a voltage in 0.1 V (R399). -/
def supplyFault (s : State) (g volt : Nat) : State :=
  if 4 ≤ g then s else
  let s := s.wr (Reg.FIO_GVOLT g) (volt % 1024)
  if !s.groupOk g then s else
  let f := { s.fio with inRange := putBits s.fio.inRange g 1 0, reporting := putBits s.fio.reporting g 1 0 }
  let s := (s.setFio f).raise (1028 + g) 0xFFFF g
  let s := forEach [4 * g, 4 * g + 1, 4 * g + 2, 4 * g + 3] (fun s k => s.complLost k) s
  (if f.inRange = 0 then s.sillOff else s).linkReg.drivenRegs

/-- A group supply returns (R399): filters restart from zero and the section reports again. -/
def supplyReturn (s : State) (g volt : Nat) : State :=
  if 4 ≤ g then s else
  let s := s.wr (Reg.FIO_GVOLT g) (volt % 1024)
  if s.groupOk g then s else
  let f := s.fio
  (s.setFio { f with
    inRange := putBits f.inRange g 1 1, reporting := putBits f.reporting g 1 1, filt := putBits f.filt (16 * g) 16 0,
    fresh := g :: f.fresh.filter (· != g) }).drivenRegs

/-- An output's overload (kind 0) or readback mismatch of 2 ms (kind 1) (R405); an output whose driver is disabled is not checked. -/
def outputFault (s : State) (k kind : Nat) : State :=
  match s.cfg.dch.find? k with
  | none => s
  | some d =>
    if !d.out || s.fld (Reg.FIO_DSTAT k) 2 1 == 0 then s
    else if kind = 0 then
      let s := (s.setBit (Reg.FIO_DSTAT k) 3 true).setBit (Reg.FIO_DSTAT k) 17 true
      (s.setFio { s.fio with limitAt := s.fio.limitAt.insert k (s.mono + msec 10) }).raise (1048 + k) 0xFFFF k
    else (s.setBit (Reg.FIO_DSTAT k) 18 true).raise (1048 + k) 0xFFFF k

/-- 10 ms after a thermal turn-off the output retries (R405); while the overload lasts it stays in limit. -/
def outputRetry (s : State) (k : Nat) (still : Bool) : State :=
  match s.fio.limitAt.find? k with
  | none => s
  | some t =>
    let s := s.advanceMono t
    if still then s.setFio { s.fio with limitAt := s.fio.limitAt.insert k (s.mono + msec 10) }
    else (s.setFio { s.fio with limitAt := s.fio.limitAt.erase k }).setBit (Reg.FIO_DSTAT k) 3 false

/-! ### Calibration (R415) -/

def calOk (s : State) (byO0 : Bool) : Bool := byO0 && (s.ms.mode == .stop || s.ms.mode == .test)
def calReject (s : State) : State := s.setBit Reg.FIO_STAT 19 true

/-- Factory thresholds of a group at its setting (Table 17.2). -/
def dthrFactory (v48 : Bool) : Nat := if v48 then 0x00DC00AA else 0x005A0046

/-- A write of FIO_DTHR, whole (Table 17.2). -/
def dthrWrite (s : State) (g v : Nat) (byO0 : Bool) : State :=
  let on := bits v 16 10
  let off := bits v 0 10
  let v48 := bit s.cfg.part.grpv g
  let ok := if v48 then decide (150 ≤ on) && decide (on ≤ 300) && decide (100 ≤ off) && decide (off + 10 ≤ on)
    else decide (60 ≤ on) && decide (on ≤ 110) && decide (50 ≤ off) && decide (off + 5 ≤ on)
  if s.calOk byO0 && ok then
    let w := off + on * 65536
    let w := if w = dthrFactory v48 then w else w + 2 ^ 31
    ({ s with nvs := { s.nvs with sys := { s.nvs.sys with dthr := s.nvs.sys.dthr.insert g w } } } : State).wr (Reg.FIO_DTHR g) w
  else s.calReject

/-- A write of a gain trim (±3000) or an offset trim (±400) (Table 17.13). -/
def trimWrite (s : State) (k v : Nat) (gain byO0 : Bool) : State :=
  let x := signed 16 v
  let lim : Int := if gain then 3000 else 400
  if s.calOk byO0 && decide (-lim ≤ x) && decide (x ≤ lim) && (s.cfg.ach.find? k).isSome then
    let w := v % 65536
    let sys := if gain then { s.nvs.sys with trimG := s.nvs.sys.trimG.insert k w } else { s.nvs.sys with trimO := s.nvs.sys.trimO.insert k w }
    ({ s with nvs := { s.nvs with sys := sys } } : State).wr (if gain then Reg.FIO_ATRIMG k else Reg.FIO_ATRIMO k) w
  else s.calReject

/-! ### The claim unit (R258, R259, R251) -/

/-- Is the pair link down: all four links (chapter 10)? -/
def pairLinkDown (s : State) : Bool := s.fld Reg.RED_LINK 0 4 == 0

/-- One claim cycle with the highest claim another sill asserts and whether the line is unreadable (R258, R259). -/
def claimCycle (s : State) (other : Nat) (bad : Bool) : State :=
  if s.fio.inRange = 0 then s else
  let s := s.advance (nextMultiple (us 10) s.now)
  let f := s.fio
  let own := if f.sillSeen && !f.sillLost then f.sillClaim else 0
  let win := decide (own ≠ 0) && !bad && decide (other ≤ own)
  let seen := max own (other % 16)
  let wins := if win then f.wins + 1 else 0
  let driven := decide (2 ≤ wins)
  let ordOff := f.ordOff || (f.sillLost && !bad && decide (8 ≤ other) && s.cfg.redn.isSome)
  let lost := decide (8 ≤ own) && !win && s.ms.mode == .run && s.pairLinkDown
  let losses := if lost then f.losses + 1 else 0
  let two := ((other % 16, bad) :: f.seen2).take 2
  let s := s.setFio { f with wins := wins, driven := driven, ordOff := ordOff, losses := losses, seen2 := two }
  let c := own + seen * 16 + b2n win * 256 + b2n bad * 512
  let cnt := s.fld Reg.RED_CLAIM 16 16
  let s := s.wr Reg.RED_CLAIM (c + (if bad ∧ cnt < 65535 then cnt + 1 else cnt) * 65536)
  let s := if bad then s.raise 1286 else s
  s.drivenRegs

/-! ### Starts -/

/-- At an owner's start FIO installs the filtered state of its inputs, stamped now (R402). -/
def fioStart (s : State) (n : Nat) : State :=
  if s.isStandby then s else
  let chs := s.cfg.dch.filterMap (fun p =>
    if !p.2.out && s.dOwner p.1 == n then
      some (p.1, if bit s.fio.reporting (dGroup p.1) then bit s.fio.filt p.1 else bit s.fio.inst p.1) else none)
  s.installInputs chs s.now

/-- NET, FIO and CAN install their current states where these differ from the image at a takeover (Table 10.5 step 3). -/
def fioCatchUp (s : State) : State :=
  let chs := s.cfg.dch.filterMap (fun p =>
    if !p.2.out && bit s.fio.reporting (dGroup p.1) &&
       (s.curField (s.dOwner p.1) 0 p.2.addr 1 == 1) != bit s.fio.filt p.1 then some (p.1, bit s.fio.filt p.1) else none)
  s.installInputs chs s.now

/-- The FIO plane takes effect (chapter 17): records, thresholds and trims stored. -/
def fioConfigure (s : State) (old : Scn) : State :=
  let gone (m n : List Nat) : List Nat := m.filter (fun k => !n.contains k)
  let s := forEach (gone (old.dch.map (·.1)) (s.cfg.dch.map (·.1))) (fun s k => (s.wr (Reg.FIO_DCFG k) 0).wr (Reg.FIO_DMAP k) 0) s
  let s := forEach (gone (old.ach.map (·.1)) (s.cfg.ach.map (·.1))) (fun s k =>
    ((s.wr (Reg.FIO_ACFG k) 0).wr (Reg.FIO_AMAP k) 0).wr (Reg.FIO_ARB k) 0) s
  let s := forEach s.cfg.dch (fun s p =>
    let d := p.2
    let s := s.wr (Reg.FIO_DCFG p.1) (1 + (if d.out then 2 else 1) * 2 + s.dOwner p.1 * 8 + b2n d.safe * 64 + b2n d.ring * 128 +
      b2n (claimLocked p.1) * 256 + d.filt * 4096)
    s.wr (Reg.FIO_DMAP p.1) d.addr) s
  let s := forEach s.cfg.ach (fun s p =>
    let a := p.2
    let s := s.wr (Reg.FIO_ACFG p.1) (1 + s.aOwner p.1 * 2 + a.safe * 65536)
    let s := (s.wr (Reg.FIO_AMAP p.1) a.setaddr).wr (Reg.FIO_ARB p.1) (match a.rb with | some r => r + 2 ^ 31 | none => 0)
    (s.wr (Reg.FIO_ATRIMG p.1) (s.nvs.sys.trimG.get 0 p.1)).wr (Reg.FIO_ATRIMO p.1) (s.nvs.sys.trimO.get 0 p.1)) s
  let s := forEach ([0, 1, 2, 3] : List Nat) (fun s g =>
    s.wr (Reg.FIO_DTHR g) ((s.nvs.sys.dthr.find? g).getD (dthrFactory (bit s.cfg.part.grpv g)))) s
  s.setFld Reg.FIO_GSTAT 4 4 s.cfg.part.grpv

end State

end Sys2Proof.Machine
end

