-- ==== Sys2Proof/Machine/Net.lean ====
section
/-! DEFINITION. NET (chapter 13): reception, duplicate discard and HSR forwarding, GOOSE subscriptions and publications, SV streams, UDP, ARP, ICMP
and NDP, and the ports' states. -/
namespace Sys2Proof.Machine

/-! ### Templates (R314, Tables 13.2, 13.3) -/

/-- Image bits of a member. -/
def Member.width (m : Member) : Nat :=
  if m.ty = 1 then 1 else if m.ty = 2 then 2 else if m.ty = 3 then 13
  else if m.ty = 4 ∨ m.ty = 5 ∨ m.ty = 6 then 32 else if m.ty = 7 then 64 else if m.ty = 8 then m.count else 0

/-- The tag of a member. -/
def Member.tag (m : Member) : Nat :=
  if m.ty = 1 then 0x83 else if m.ty = 2 ∨ m.ty = 3 ∨ m.ty = 8 then 0x84 else if m.ty = 4 then 0x85
  else if m.ty = 5 then 0x86 else if m.ty = 6 then 0x87 else if m.ty = 7 then 0x91 else 0xA2

/-- Does a value's length fit the member? -/
def Member.lenOk (m : Member) (len : Nat) : Bool :=
  if m.ty = 1 then len == 1 else if m.ty = 2 then len == 2 else if m.ty = 3 then len == 3
  else if m.ty = 4 ∨ m.ty = 5 then decide (1 ≤ len) && decide (len ≤ 4)
  else if m.ty = 6 then len == 5 else if m.ty = 7 then len == 8
  else if m.ty = 8 then len == 1 + cdiv m.count 8 else true

/-- The image field of a value: a Dbpos's code has its low bit at ADDR, an INTEGER is sign-extended. -/
def Member.field (m : Member) (v : BerVal) : Nat :=
  if m.ty = 1 then b2n (v.val != 0)
  else if m.ty = 2 then bits v.val 1 1 + bits v.val 0 1 * 2
  else if m.ty = 4 then unsigned 32 (signed (8 * v.len) v.val)
  else v.val % 2 ^ m.width

/-- The members left after n entries, a structure with its members counting as one. -/
def skipMembers : Nat → Nat → List Member → List Member
  | 0, _, l => l
  | _, 0, l => l
  | _, _, [] => []
  | fuel + 1, n + 1, m :: ms =>
    if m.ty = 16 then skipMembers fuel n (skipMembers fuel m.count ms) else skipMembers fuel n ms

/-- Top-level entries of a template. -/
def topEntries : Nat → List Member → Nat
  | 0, _ => 0
  | _, [] => 0
  | fuel + 1, l => 1 + topEntries fuel (skipMembers (l.length + 1) 1 l)

/-- Decode values against a template (R318): the mapped fields (address, width, value), or none. -/
def decodeVals : List Member → List BerVal → Option (List (Nat × Nat × Nat))
  | [], [] => some []
  | m :: ms, v :: vs =>
    if v.tag = m.tag ∧ m.lenOk v.len = true then
      match decodeVals ms vs with
      | some rest => some (if m.map && m.ty != 16 then (m.addr, m.width, m.field v) :: rest else rest)
      | none => none
    else none
  | _, _ => none

namespace State

def setNet (s : State) (x : Net) : State := { s with net := x }
def templ (s : State) (n t : Nat) : Template := s.cfg.templs.get {} (n * 65536 + t)

def netUp (s : State) : Bool := s.fld Reg.NET_STAT 0 1 == 1
def portEnabled (s : State) (i : Nat) : Bool := s.fld (Reg.NET_PSTAT i) 2 1 == 1
def portLink (s : State) (i : Nat) : Bool := s.fld (Reg.NET_PSTAT i) 0 1 == 1
def portRec (s : State) (i : Nat) : PortRec := s.cfg.port.ports.get {} i
/-- The redundancy role of a port (NET_PMODE.RED). -/
def portRed (s : State) (i : Nat) : Nat := (s.portRec i).red
/-- The other port of a process-bus pair. -/
def twin (i : Nat) : Nat := if i % 2 = 0 then i + 1 else i - 1
/-- Does a record's port (with PAIR, its pair) include port i? -/
def portMatch (port : Nat) (paired : Bool) (i : Nat) : Bool := i == port || (paired && decide (i < 96) && i / 2 == port / 2)

/-- A frame filtered (R307, R317). -/
def netFilt (s : State) (i : Nat) : State := s.bump (Reg.NET_PFILT i) 1

/-- The VID a frame belongs to (R307); none where it is dropped. -/
def frameVid (s : State) (h : NetHead) : Option Nat :=
  let p := s.portRec h.port
  if h.outer then none
  else if h.tci = 0x10000 ∨ h.tci % 4096 = 0 then some p.pvid
  else if p.vids.contains (h.tci % 4096) then some (h.tci % 4096) else none

/-- The duplicate-table registers. -/
def dupRegs (s : State) : State :=
  let u := s.net.dup.length
  (s.wr Reg.NET_DUPUSE u).setBit Reg.NET_STAT 1 (decide (8192 ≤ u))

/-- R310 for a sequence number of a source: false for a duplicate. -/
def dupCheck (s : State) (h : NetHead) (seq : Nat) : Bool × State :=
  let key := h.port / 2 * 2 ^ 48 + h.src % 2 ^ 48
  let q := seq % 65536
  let put (w : DupWin) (s : State) : State := (s.setNet { s.net with dup := s.net.dup.insert key w }).dupRegs
  match s.net.dup.find? key with
  | none =>
    if s.net.dup.length < 8192 then (true, put { high := q, map := 1, at_ := s.mono } s)
    else
      let s := (s.bump Reg.NET_DUPFULLCNT 1).setBit Reg.NET_STAT 16 true
      (true, s.dupRegs.raise 642 0xFFFF h.port)
  | some w =>
    let back := (w.high + 65536 - q) % 65536
    let fwd := (q + 65536 - w.high) % 65536
    if back < 128 then
      if bit w.map back then (false, (put { w with at_ := s.mono } s).bump (Reg.NET_PDUP h.port) 1)
      else (true, put { w with map := putBits w.map back 1 1, at_ := s.mono } s)
    else if fwd < 32768 then
      let m := if 128 ≤ fwd then 1 else (w.map * 2 ^ fwd) % 2 ^ 128 + 1
      (true, put { high := q, map := m, at_ := s.mono } s)
    else (true, (put { high := q, map := 1, at_ := s.mono } s).bump (Reg.NET_POUTWIN h.port) 1)

/-- A frame arrives at a port (R305, R307, R309 to R312): counted, checked, forwarded on an HSR pair; true where it goes on to be
parsed. -/
def netRx (s : State) (h : NetHead) : Bool × State :=
  if 128 ≤ h.port || !s.netUp || !s.portEnabled h.port || !s.portLink h.port then (false, s) else
  let i := h.port
  let s := s.advance h.stamp
  let s := (s.bump64 (Reg.NET_PRXFRM i) 1).bump64 (Reg.NET_PRXBYTE i) h.len
  if h.overload then
    let s := (s.bump (Reg.NET_POVF i) 1).bump Reg.NET_PARSEDROP 1
    (false, ((s.setBit (Reg.NET_PSTAT i) 17 true).setBit Reg.NET_STAT 17 true).raise 643 0xFFFF i)
  else if !h.fcs || decide (h.len < 64) || decide (1528 < h.len) then (false, s.bump (Reg.NET_PFCS i) 1)
  else if (s.frameVid h).isNone then (false, s.netFilt i)
  else
    let role := s.portRed i
    match h.red with
    | none => (true, s)
    | some (seq, lan) =>
      if role = 0 ∨ 5 ≤ role then (true, s) else
      let hsr := role = 3 ∨ role = 4
      let own := h.src = Config.mac (i / 2 * 2)
      if hsr ∧ own then (false, s) else
      let s := if !hsr && lan != (if role = 1 then 0xA else 0xB) then
          (s.bump (Reg.NET_PWRONGLAN i) 1).raise 644 0xFFFF i else s
      match s.dupCheck h seq with
      | (false, s) => (false, s)
      | (true, s) =>
        if hsr then
          let unicastOwn := h.dmac = Config.mac (i / 2 * 2)
          let s := if unicastOwn then s else
            ((s.bump (Reg.NET_PHSRFWD i) 1).bump64 (Reg.NET_PTXFRM (twin i)) 1).bump64 (Reg.NET_PTXBYTE (twin i)) h.len
              |>.emit (.frame (twin i) 1 [h.src, seq])
          (true, s)
        else (true, s)

/-- Entries of the duplicate table 400 ms without a frame are freed (R311): time passes to the earliest. -/
def dupAge (s : State) : State :=
  match s.net.dup with
  | [] => s
  | (_, w) :: rest =>
    let first := rest.foldl (fun a p => min a p.2.at_) w.at_
    let s := s.advanceMono (first + msec 400)
    (s.setNet { s.net with dup := s.net.dup.filter (fun p => decide (s.mono < p.2.at_ + msec 400)) }).dupRegs

/-! ### Installing fields -/

/-- Rows that fields (address, width, value) of an owner's IN space change: (row, value, mask), ascending. -/
def fieldRows (s : State) (n : Nat) (fs : List (Nat × Nat × Nat)) : List (Nat × Row × Row) :=
  let put (acc : SMap (Row × Row)) (f : Nat × Nat × Nat) : SMap (Row × Row) :=
    match s.absRow n 0 f.1 with
    | none => acc
    | some row =>
      let (v, m) := (acc.find? row).getD (0, 0)
      let fm := fieldMask (f.1 % 256) f.2.1
      acc.insert row (mergeRow v (BitVec.ofNat 256 (f.2.2 * 2 ^ (f.1 % 256))) fm, m ||| fm)
  (fs.foldl put ([] : SMap (Row × Row))).filterMap (fun p =>
    let cur := s.curBits p.1
    if mergeRow cur p.2.1 p.2.2 = cur then none else some (p.1, p.2.1, p.2.2))

/-! ### GOOSE subscriptions (R316 to R319) -/

def gsSub (s : State) (k : Nat) : GsSub := s.net.gs.get {} k
def setGs (s : State) (k : Nat) (g : GsSub) : State := s.setNet { s.net with gs := s.net.gs.set {} k g }

/-- Does a frame match a subscription (R317)? -/
def gsMatch (s : State) (h : NetHead) (p : GoosePdu) (c : SubRec) : Bool :=
  portMatch c.port c.paired h.port && c.dmac == h.dmac && c.appid == p.appid &&
  (c.vid == 0xFFF || s.frameVid h == some c.vid) && c.refcrc == p.refcrc && c.dscrc == p.dscrc

/-- Clear a subscription's validity (R319): counted, its reason recorded, the bit installed 0, F0648 + n. A bit already 0 is not cleared
again. -/
def gsInvalid (s : State) (k reason stamp : Nat) : State :=
  match s.cfg.subs.find? k with
  | none => s
  | some c =>
    let s := s.setGs k { s.gsSub k with seen := false, tal := none }
    if s.fld (Reg.NET_GSSTAT k) 1 1 = 0 then s else
    let s := (s.setBit (Reg.NET_GSSTAT k) 1 false).setFld (Reg.NET_GSSTAT k) 8 4 reason
    let s := (s.setBit (Reg.NET_GSSTAT k) 16 true).bump (Reg.NET_GSINV k) 1
    let s := s.sourceWrite c.owner (s.fieldRows c.owner [(c.valid, 1, 0)]) stamp 0
    s.raise (648 + c.owner) 0xFFFF k

/-- A matching frame judged for one subscription (R317 to R319). -/
def gooseFor (s : State) (h : NetHead) (p : GoosePdu) (k : Nat) (c : SubRec) : State :=
  let simOn := c.simok && s.ms.mode == .test
  if p.sim != simOn then s.netFilt h.port else
  let g := s.gsSub k
  let lastSt := s.rd (Reg.NET_GSST k)
  let lastSq := s.rd (Reg.NET_GSSQ k)
  let newSt := !g.seen || p.stNum != lastSt
  let retrans := p.stNum == lastSt && (decide (lastSq < p.sqNum) || (lastSq == 0xFFFFFFFF && p.sqNum == 1))
  if !newSt && !retrans then s.bump (Reg.NET_PDUP h.port) 1
  else if p.confrev ≠ c.confrev then s.gsInvalid k 2 h.stamp
  else
    let t := s.templ c.owner c.templ
    match if p.entries = topEntries (t.members.length + 1) t.members then decodeVals t.members p.vals else none with
    | none => s.gsInvalid k 3 h.stamp
    | some fs =>
      if p.ndscom then s.gsInvalid k 4 h.stamp else
      let s := (s.wr (Reg.NET_GSST k) p.stNum).wr (Reg.NET_GSSQ k) p.sqNum
      let s := ((s.bump (Reg.NET_GSRX k) 1).wr64 (Reg.NET_GSLAST k) (form64 h.stamp)).wr (Reg.NET_GSTAL k) p.tal
      let s := (s.setBit (Reg.NET_GSSTAT k) 5 p.test).setBit (Reg.NET_GSSTAT k) 1 true
      let newEv := !g.any || p.stNum != lastSt
      let s := s.setGs k { seen := true, any := true, tal := some (h.stamp + msec p.tal) }
      let s := s.sourceWrite c.owner (s.fieldRows c.owner (fs ++ [(c.valid, 1, 1)])) h.stamp 0
      if s.isStandby then s else
      forEach (s.boundTo 3 k) (fun s j =>
        if newEv || (s.taskCfg j).edge == 3 then s.postEvent j (s.visInstant c.owner 0 h.stamp) else s) s

/-- A received GOOSE frame: each subscription it matches takes it (R317). -/
def gooseRx (s : State) (h : NetHead) (p : GoosePdu) : State :=
  match s.netRx h with
  | (false, s) => s
  | (true, s) =>
    let hits := s.cfg.subs.filter (fun q => s.gsMatch h p q.2)
    if hits.isEmpty then s.netFilt h.port
    else forEach hits (fun s q => s.gooseFor h p q.1 q.2) (s.bump64 (Reg.NET_PGOOSE h.port) 1)

/-- A subscription's allowed time to live ends (R319). -/
def gsExpire (s : State) (k : Nat) : State :=
  match (s.gsSub k).tal with
  | none => s
  | some t => (s.advance t).gsInvalid k 1 t

/-! ### SV streams (R324 to R328) -/

/-- Samples per second of a RATE code (Table 13.6). -/
def svRate (code : Nat) : Nat :=
  if code = 1 then 4000 else if code = 2 then 4800 else if code = 3 then 12800 else if code = 4 then 14400 else 96000

def strm (s : State) (v : Nat) : Strm := s.net.sv.get {} v
def setStrm (s : State) (v : Nat) (x : Strm) : State := s.setNet { s.net with sv := s.net.sv.set {} v x }

/-- Clear a stream's validity (R328). -/
def svInvalid (s : State) (v reason stamp : Nat) : State :=
  match s.cfg.streams.find? v with
  | none => s
  | some c =>
    if s.fld (Reg.NET_SVSTAT v) 1 1 = 0 then s else
    let s := (s.setBit (Reg.NET_SVSTAT v) 1 false).setFld (Reg.NET_SVSTAT v) 8 4 reason
    let s := (s.setBit (Reg.NET_SVSTAT v) 16 true).bump (Reg.NET_SVINV v) 1
    let s := s.sourceWrite c.owner (s.fieldRows c.owner [(c.valid, 1, 0)]) stamp 0
    s.raise (656 + c.owner) 0xFFFF v

/-- Is a sample's quality other than good, or its test bit set (R327; validity in bits [1:0], test bit 11 of IEC 61850-7-3)? -/
def questionable (q : Nat) : Bool := bits q 0 2 != 0 || bit q 11

/-- The RMS of the fundamental over the last m samples, newest first (R327): each product and sum in binary64, in ascending j, rounded to binary32. -/
def svRms (m : Nat) (xs : List Int) : Nat :=
  if xs.length < m ∨ m = 0 then Config.rms xs else
  let num (i : Int) : Nat := f64.roundInt i 0 false
  let sum (g : Nat → Nat → Nat) : Nat :=
    ((xs.take m).zipIdx).foldl (fun a p => f64.add a (f64.mul (num p.1) (g p.2 m))) (f64.zero false)
  let k := f64.div (num 2) (num m)
  let re := f64.mul k (sum Config.cos64)
  let im := f64.mul k (sum Config.sin64)
  convert f64 f32 (f64.div (f64.sqrt (f64.add (f64.mul re re) (f64.mul im im))) (f64.sqrt (num 2)))

/-- Deliver one ASDU (R325 to R327) with its stamp. -/
def svDeliver (s : State) (v : Nat) (c : StreamRec) (a : Asdu) (stamp : Nat) : State :=
  let x := s.strm v
  let rate := svRate c.rate
  let last := s.rd (Reg.NET_SVCNT v)
  if x.seen && a.smpCnt == last then s else
  let gap := if x.seen then (a.smpCnt + rate - (last + 1) % rate) % rate else 0
  let s := if 0 < gap then s.bump (Reg.NET_SVGAP v) gap else s
  let run := if 0 < gap then 1 else x.run + 1
  let m := rate / (if c.freq = 60 then 60 else 50)
  let sel := c.sel.zipIdx
  let samp (ch : Nat) : Nat × Nat := a.chans.getD ch (0, 0)
  let hist := sel.map (fun p => (p.2, ((signed 32 (samp p.1).1, questionable (samp p.1).2) :: x.hist.get [] p.2).take m))
  let s := s.setStrm v { seen := true, run := run, hist := if c.rms then hist else [], last := stamp }
  let s := (s.wr (Reg.NET_SVCNT v) (a.smpCnt % 65536)).wr64 (Reg.NET_SVLAST v) (form64 stamp)
  let inst := sel.map (fun p =>
    (c.inst + p.2 / 4 * 256 + p.2 % 4 * 64, 64, (samp p.1).1 % 2 ^ 32 + (samp p.1).2 % 2 ^ 32 * 2 ^ 32))
  let rmsF := if !c.rms then [] else hist.map (fun p =>
    (c.rmsaddr + p.1 / 4 * 256 + p.1 % 4 * 64, 64,
     svRms m (p.2.map (·.1)) % 2 ^ 32 + b2n (decide (m ≤ run)) * 2 ^ 32 + b2n (p.2.any (·.2)) * 2 ^ 33))
  let s := s.setBit (Reg.NET_SVSTAT v) 1 true
  let put (acc : SMap (Row × Row)) (f : Nat × Nat × Nat) : SMap (Row × Row) :=
    match s.absRow c.owner 0 f.1 with
    | none => acc
    | some row =>
      let (w, wm) := (acc.find? row).getD (0, 0)
      let fm := fieldMask (f.1 % 256) f.2.1
      acc.insert row (mergeRow w (BitVec.ofNat 256 (f.2.2 * 2 ^ (f.1 % 256))) fm, wm ||| fm)
  let rows := ((inst ++ rmsF).foldl put ([] : SMap (Row × Row))).map (fun p => (p.1, p.2.1, p.2.2))
  let valid := s.fieldRows c.owner [(c.valid, 1, 1)]
  s.sourceWrite c.owner (rows ++ valid) stamp 0

/-- A matching frame for one stream (R325 to R328, R294). -/
def svFor (s : State) (h : NetHead) (p : SvPdu) (v : Nat) (c : StreamRec) : State :=
  let simOn := c.simok && s.ms.mode == .test
  if p.sim != simOn then s.netFilt h.port else
  let s := s.bump (Reg.NET_SVRX v) 1
  let lanB := s.portRed h.port == 2 || s.portRed h.port == 4
  let s := s.archive { time := form64 h.stamp, frac := h.stamp % 65536, sub := v, port := h.port,
                       flags := b2n s.timHold * 2 + b2n lanB * 4, frame := p.bytes }
  let rate := svRate c.rate
  let bad (a : Asdu) : Nat :=
    if !a.ok || (match a.rate with | some r => r != rate | none => false) || a.chans.length != c.nch then 3
    else if a.confrev ≠ c.confrev then 2
    else if a.synch < c.reqsync then 4 else 0
  let s := match p.asdus.getLast? with
    | some a => s.setFld (Reg.NET_SVSTAT v) 5 2 (if a.synch ≤ 2 then a.synch else 3)
    | none => s
  match p.asdus.find? (fun a => bad a != 0) with
  | some a => s.svInvalid v (bad a) h.stamp
  | none =>
    let n := p.asdus.length
    forEach p.asdus.zipIdx (fun s a =>
      s.svDeliver v c a.1 (h.stamp - (n - 1 - a.2) * 1000000000 * 65536 / rate)) s

/-- A received SV frame (R325). -/
def svRx (s : State) (h : NetHead) (p : SvPdu) : State :=
  match s.netRx h with
  | (false, s) => s
  | (true, s) =>
    let hits := s.cfg.streams.filter (fun q => portMatch q.2.port q.2.paired h.port && q.2.dmac == h.dmac && q.2.appid == p.appid &&
      (q.2.vid == 0xFFF || s.frameVid h == some q.2.vid) && q.2.svidcrc == p.svidcrc)
    if hits.isEmpty then s.netFilt h.port
    else forEach hits (fun s q => s.svFor h p q.1 q.2) (s.bump64 (Reg.NET_PSV h.port) 1)

/-- MISS sample intervals pass after the last sample (R328). -/
def svExpire (s : State) (v : Nat) : State :=
  match s.cfg.streams.find? v with
  | none => s
  | some c =>
    if (s.strm v).seen && s.fld (Reg.NET_SVSTAT v) 1 1 == 1 then
      let miss := if c.miss = 0 then 4 else c.miss
      let t := (s.strm v).last + miss * 1000000000 * 65536 / svRate c.rate
      (s.advance t).svInvalid v 1 t
    else s

/-! ### GOOSE publications (R320 to R323) -/

def pubSt (s : State) (p : Nat) : Pub := s.net.pub.get {} p
def setPub (s : State) (p : Nat) (x : Pub) : State := s.setNet { s.net with pub := s.net.pub.set {} p x }

/-- The dataset's mapped values from current OUT rows, or from the OUT initial values. -/
def pubData (s : State) (c : PubRec) (init : Bool) : List Nat :=
  ((s.templ c.owner c.templ).members.filter (fun m => m.map && m.ty != 16)).map (fun m =>
    if init then ((s.rowInit c.owner 1 (m.addr / 256)).toNat >>> (m.addr % 256)) % 2 ^ m.width
    else s.curField c.owner 1 m.addr m.width)

/-- Interval to retransmission k + 1 in ms (R322). -/
def pubInterval (c : PubRec) (k : Nat) : Nat := min (c.minint * 2 ^ k) c.maxint

/-- Ports a publication goes out on: both of a pair, those that carry traffic (R306, R309). -/
def pubPorts (s : State) (c : PubRec) : List Nat :=
  (if c.paired then [c.port, twin c.port] else [c.port]).filter (fun i => s.portEnabled i && s.portLink i)

/-- Send a frame of a publication (R320 to R322): `interval` in ms to the next one; on a redundant pair both copies take the next sequence
number, which the active member reports in SEQMAP (R254). -/
def pubSend (s : State) (p : Nat) (c : PubRec) (interval k : Nat) (data : List Nat) : State :=
  let tal := (if c.talmul = 0 then 2 else c.talmul) * interval
  let st := s.rd (Reg.NET_GPST p)
  let sq := s.rd (Reg.NET_GPSQ p)
  let red := s.portRed c.port
  let seq := s.net.seqs.get 0 (c.port / 2)
  let s := s.setNet { s.net with pub := s.net.pub.set {} p { k := k, seq := seq, lastAt := s.mono, data := data } }
  let s := if 1 ≤ red ∧ red ≤ 4 then
      let s := s.setNet { s.net with seqs := s.net.seqs.set 0 (c.port / 2) ((seq + 1) % 65536) }
      if s.forwards then s.emit (.pair 0x08 [c.port / 2, p, st, sq, seq]) else s
    else s
  let s := forEach (s.pubPorts c) (fun s i => s.bump64 (Reg.NET_PTXFRM i) 1) s
  let s := (s.bump (Reg.NET_GPTX p) 1).wr (Reg.NET_GPINT p) interval
  s.emit (.goose p st sq tal ([s.rd64 (Reg.NET_GPLAST p), b2n (s.ms.mode == .test), s.qStep] ++ data))

/-- The counter after one, which wraps from 0xFFFF_FFFF to 1 (R321). -/
def nextNum (v : Nat) : Nat := if v = 0xFFFFFFFF then 1 else v + 1

/-- A new state of a publication at a commit instant (R321): stNum + 1, sqNum 0, its first frame. -/
def pubNew (s : State) (p : Nat) (c : PubRec) (data : List Nat) : State :=
  let s := (s.wr (Reg.NET_GPST p) (nextNum (s.rd (Reg.NET_GPST p)))).wr (Reg.NET_GPSQ p) 0
  let s := s.wr64 (Reg.NET_GPLAST p) (form64 s.now)
  s.pubSend p c (pubInterval c 0) 0 data

def pubForm (s : State) (p : Nat) : Nat := s.fld (Reg.NET_GPSTAT p) 4 2

/-- A commit changed OUT bits of an owner (R321): each publication that maps one of them starts a new state. -/
def pubHook (s : State) (n : Nat) (chg : List (Nat × Row)) : State :=
  forEach s.cfg.pubs (fun s q =>
    let c := q.2
    if c.owner = n ∧ s.pubForm q.1 = 0 then
      let hit := (s.templ n c.templ).members.any (fun m => m.map && m.ty != 16 &&
        (match s.absRow n 1 m.addr with
         | some row => chg.any (fun r => r.1 == row && decide (r.2 &&& fieldMask (m.addr % 256) m.width ≠ 0))
         | none => false))
      if hit then s.pubNew q.1 c (s.pubData c false) else s
    else s) s

/-- A publication begins (R321): stNum 1, one frame with sqNum 0. -/
def pubBegin (s : State) (p : Nat) (c : PubRec) : State :=
  let s := (s.wr (Reg.NET_GPST p) 1).wr (Reg.NET_GPSQ p) 0
  let s := (s.clr (Reg.NET_GPTX p)).clr (Reg.NET_GPMERGE p)
  let s := (s.setFld (Reg.NET_GPSTAT p) 4 2 0).wr64 (Reg.NET_GPLAST p) (form64 s.now)
  s.pubSend p c (pubInterval c 0) 0 (s.pubData c false)

/-- A start of an owner: its publications begin. -/
def pubStart (s : State) (n : Nat) : State :=
  forEach s.cfg.pubs (fun s q => if q.2.owner = n then s.pubBegin q.1 q.2 else s) s

/-- A publication takes its Stop form (R323). -/
def pubToStop (s : State) (p : Nat) (c : PubRec) : State :=
  if c.stopform then
    let d := s.pubData c true
    let s := s.setFld (Reg.NET_GPSTAT p) 4 2 2
    if d = (s.pubSt p).data then s
    else
      let s := (s.wr (Reg.NET_GPST p) (nextNum (s.rd (Reg.NET_GPST p)))).wr (Reg.NET_GPSQ p) 0
      (s.wr64 (Reg.NET_GPLAST p) (form64 s.now)).pubSend p c c.maxint 0 d
  else s.setFld (Reg.NET_GPSTAT p) 4 2 1

/-- The Stop form of an owner's publications (R323). -/
def pubStop (s : State) (n : Nat) : State :=
  forEach s.cfg.pubs (fun s q => if q.2.owner = n then s.pubToStop q.1 q.2 else s) s

/-- Do publications go out in this mode (Table 2.1)? -/
def pubMode (s : State) : Bool :=
  match s.ms.mode with
  | .stop | .run | .shadow | .test | .hold | .handover => true
  | _ => false

/-- A publication's interval has passed (R322, R323): the next frame. -/
def pubRetransmit (s : State) (p : Nat) : State :=
  match s.cfg.pubs.find? p with
  | none => s
  | some c =>
    let form := s.pubForm p
    if !s.pubMode || form == 1 || s.rd (Reg.NET_GPST p) == 0 then s else
    let x := s.pubSt p
    let s := s.advanceMono (x.lastAt + msec (if form = 2 then c.maxint else pubInterval c x.k))
    let s := s.wr (Reg.NET_GPSQ p) (nextNum (s.rd (Reg.NET_GPSQ p)))
    s.pubSend p c (if form = 2 then c.maxint else pubInterval c (x.k + 1)) (x.k + 1) x.data

/-! ### Supervision (R313) -/

def supervisionRx (s : State) (h : NetHead) : State :=
  match s.netRx h with
  | (false, s) => s
  | (true, s) => s.bump (Reg.NET_PSUP h.port) 1

def supervisionTx (s : State) : State :=
  if s.isStandby || !s.netUp then s else
  let pairs := ((s.cfg.pubs.filter (fun q => q.2.paired && decide (1 ≤ s.portRed q.2.port))).map (fun q => q.2.port / 2 * 2)).eraseDups
  forEach pairs (fun s i =>
    forEach ([i, i + 1].filter (fun j => s.portEnabled j && s.portLink j)) (fun s j =>
      (s.bump64 (Reg.NET_PTXFRM j) 1).emit (.frame j 2 [i])) s) s

/-! ### IP (R329 to R332) -/

/-- The link-local address of a port (modified EUI-64 of its MAC address). -/
def linkLocal (i : Nat) : Nat :=
  let m := Config.mac i % 2 ^ 48
  let hi := m / 2 ^ 24
  let hi := if bit hi 17 then hi - 2 ^ 17 else hi + 2 ^ 17
  0xFE80 * 2 ^ 112 + hi * 2 ^ 40 + 0xFFFE * 2 ^ 24 + m % 2 ^ 24

/-- Addresses a port answers on now (R237, R329): shared ones unless this is a standby, its own ones in a pair, none in conflict; IPv6
ones once duplicate address detection has ended. -/
def portAddrs (s : State) (i : Nat) (v6 : Bool) : List Nat :=
  let ip := s.cfg.port.ips.get {} i
  let own := match s.cfg.redn with
    | some r => (match r.addrs.find? i with | some (a, b) => [if v6 then b else a] | none => [])
    | none => []
  let shared := if s.ms.paired && !s.ms.active then [] else (if v6 then ip.v6 else ip.v4).map (·.1)
  let all := (own ++ shared ++ (if v6 then [linkLocal i] else [])).filter (· != 0)
  if v6 && (s.net.dad.find? i).isSome then [] else all.filter (fun a => !s.net.conflicts.contains (i, a))

/-- Does IP run on a port: L00 to L27, and SP0 and SP1 (128, 129)? -/
def ipPort (s : State) (i : Nat) : Bool :=
  if i = 128 ∨ i = 129 then s.ms.mode != .backup && s.ms.mode != .recall && s.ms.mode != .lean
  else decide (96 ≤ i) && decide (i < 124) && s.netUp && s.portEnabled i && s.portLink i

/-- A dropped IP frame (Table 13.7); service ports have no counter. -/
def ipDrop (s : State) (i : Nat) : State := if i < 128 then s.bump (Reg.NET_PIPDROP i) 1 else s

/-- Send an IP-level frame. -/
def ipSend (s : State) (i purpose : Nat) (fields : List Nat) : State :=
  (if i < 128 then s.bump64 (Reg.NET_PTXFRM i) 1 else s).emit (.frame i purpose fields)

/-- An IP-level frame is received: counted. -/
def ipRx (s : State) (i len : Nat) : State :=
  if i < 128 then (s.bump64 (Reg.NET_PRXFRM i) 1).bump64 (Reg.NET_PRXBYTE i) len else s

/-- An address conflict (R329): the address is no longer used, F0645. -/
def addrConflict (s : State) (i a : Nat) : State :=
  if s.net.conflicts.contains (i, a) then s
  else (s.setNet { s.net with conflicts := (i, a) :: s.net.conflicts }).raise 645 0xFFFF i

/-- An ARP request for a target address (R329). -/
def arpRequest (s : State) (i target sender : Nat) : State :=
  if !s.ipPort i then s else
  let s := s.ipRx i 64
  if (s.portAddrs i false).contains target then s.ipSend i 3 [2, target, sender] else s

def nbr (s : State) (i : Nat) (v6 : Bool) (a : Nat) : Option Nbr :=
  s.net.nbrs.find? (fun x => x.port == i && x.v6 == v6 && x.addr == a)

def setNbr (s : State) (x : Nbr) : State :=
  s.setNet { s.net with nbrs := x :: s.net.nbrs.filter (fun y => !(y.port == x.port && y.v6 == x.v6 && y.addr == x.addr)) }

/-- Send a datagram of an endpoint. -/
def udpOut (s : State) (i n e : Nat) (fields : List Nat) : State := (s.ipSend i 6 fields).bump (Reg.NET_UEPTX n e) 1

/-- A neighbour answers (ARP reply, NA): it is resolved and a held datagram leaves; a claim of a module address is a conflict. A port's
cache holds 1024 entries; the oldest makes room. -/
def nbrReply (s : State) (i : Nat) (v6 : Bool) (a : Nat) : State :=
  if !s.ipPort i then s else
  let s := s.ipRx i 64
  if (s.portAddrs i v6).contains a then s.addrConflict i a else
  let old := s.nbr i v6 a
  let mine := s.net.nbrs.filter (fun x => x.port == i && x.v6 == v6)
  let s := if old.isNone && decide (1024 ≤ mine.length) then
      s.setNet { s.net with nbrs := s.net.nbrs.erase (mine.getLastD { port := i, v6 := v6, addr := a, resolved := true, tries := 0, at_ := 0, held := none }) }
    else s
  let s := s.setNbr { port := i, v6 := v6, addr := a, resolved := true, tries := 0, at_ := s.mono, held := none }
  match old with
  | some x => (match x.held with | some (n, e, f) => s.udpOut i n e f | none => s)
  | none => s

/-- 333 ms after an unanswered ARP request the next is sent, of three (R329). -/
def arpRepeat (s : State) (i a : Nat) : State :=
  match s.nbr i false a with
  | none => s
  | some x =>
    if x.resolved || decide (3 ≤ x.tries) then s else
    let s := s.advanceMono (x.at_ + x.tries * msec 333)
    (s.setNbr { x with tries := x.tries + 1 }).ipSend i 3 [1, a]

/-- A datagram of an endpoint is dropped (R331, R332). -/
def udpDrop (s : State) (n e : Nat) : State := (s.bump (Reg.NET_UEPDROP n e) 1).raise (664 + n) 0xFFFF e

/-- A neighbour is not resolved within 1 s (R332): the held datagram is dropped. -/
def nbrTimeout (s : State) (i : Nat) (v6 : Bool) (a : Nat) : State :=
  match s.nbr i v6 a with
  | none => s
  | some x =>
    if x.resolved then s else
    let s := s.advanceMono (x.at_ + secU)
    let s := s.setNet { s.net with nbrs := s.net.nbrs.erase x }
    match x.held with
    | some (n, e, _) => s.udpDrop n e
    | none => s

/-- A port's oldest ARP entry is removed after 300 s (R329). -/
def arpAge (s : State) (i : Nat) : State :=
  match (s.net.nbrs.filter (fun x => x.port == i && x.resolved && !x.v6)).getLast? with
  | none => s
  | some x =>
    let s := s.advanceMono (x.at_ + 300 * secU)
    s.setNet { s.net with nbrs := s.net.nbrs.filter (fun y => !(y.port == i && y.resolved && !y.v6 && decide (y.at_ + 300 * secU ≤ s.mono))) }

/-- An echo request (R329): answered at most 100 times per second per port; another ICMP type is dropped. -/
def icmpEcho (s : State) (i : Nat) (v6 echo : Bool) (dst remote : Nat) : State :=
  if !s.ipPort i then s else
  let s := s.ipRx i 64
  if !echo || !(s.portAddrs i v6).contains dst then s.ipDrop i else
  let recent := (s.net.icmp.get [] i).filter (fun t => decide (s.mono < t + secU))
  if 100 ≤ recent.length then s
  else (s.setNet { s.net with icmp := s.net.icmp.set [] i (s.mono :: recent) }).ipSend i 4 [b2n v6, dst, remote]

/-- A neighbour solicitation (kind 0), advertisement (1), or another NDP message (2, dropped) (R329). During duplicate address detection a
message for the tentative address is a conflict. -/
def ndp (s : State) (i kind target : Nat) : State :=
  if !s.ipPort i then s else
  let ip := s.cfg.port.ips.get {} i
  let tent := (s.net.dad.find? i).isSome && ((linkLocal i :: ip.v6.map (·.1)).contains target)
  if 2 ≤ kind then (s.ipRx i 64).ipDrop i
  else if tent then (s.ipRx i 64).addrConflict i target
  else if kind = 0 then
    let s := s.ipRx i 64
    if (s.portAddrs i true).contains target then s.ipSend i 5 [1, target] else s
  else s.nbrReply i true target

/-- The 1 s wait of duplicate address detection ends (R329). -/
def dadDone (s : State) (i : Nat) : State :=
  match s.net.dad.find? i with
  | none => s
  | some t => (s.advanceMono (t + secU)).setNet { s.net with dad := s.net.dad.erase i }

/-- The endpoint (owner, index) a datagram is for. -/
def udpEp (s : State) (i : Nat) (u : Udp) : Option (Nat × Nat × EpRec) :=
  (s.cfg.eps.search (fun _ c => c.lport == u.lport && decide (96 ≤ i) && bit c.ports (i - 96) && (if u.v6 then c.v6 else c.v4))).map
    (fun q => (q.1 / 16, q.1 % 16, q.2))

/-- A ring entry of Table 13.9. -/
def udpEntry (time len rport port e raddr laddr : Nat) (v6 : Bool) : List Byte :=
  leBytes 8 time ++ leBytes 2 len ++ leBytes 2 rport ++ leBytes 1 port ++ leBytes 1 (b2n v6) ++ leBytes 2 e ++
  leBytes 16 raddr ++ leBytes 16 laddr ++ leBytes 16 0

/-- A received datagram for an owner's endpoint (R331). -/
def udpRx (s : State) (i : Nat) (u : Udp) (stamp : Nat) : State :=
  if !s.ipPort i then s else
  let s := s.ipRx i (u.data.length + 46)
  let s := s.advance stamp
  if !u.plain || !u.sumOk || !(s.portAddrs i u.v6).contains u.laddr then s.ipDrop i else
  match s.udpEp i u with
  | none => if u.lport = s.cfg.port.lrtport then s else s.ipDrop i
  | some (n, e, c) =>
    match c.rx with
    | none => s.ipDrop i
    | some q =>
      if s.isStandby then s
      else if (if u.v6 then 1452 else 1472) < u.data.length then s.udpDrop n e
      else if !s.ringOpen q || s.ringFull q then ((s.ringDrop q).udpDrop n e)
      else
        let slot := (s.cnst n).dataBase + c.rxbuf + s.ringP q % ringLen (s.ringCfg q) * 2048
        match s.hwWriteBytes n slot u.data with
        | (false, s) => ((s.ringDrop q).setBit (Reg.RING_STAT q) 9 true).udpDrop n e
        | (true, s) =>
          match s.hwEnq q (udpEntry (form64 stamp) u.data.length u.rport i e u.raddr u.laddr u.v6) with
          | (true, s) => s.bump (Reg.NET_UEPRX n e) 1
          | (false, s) => s.udpDrop n e

/-- The next hop of a remote address from a port: itself on a connected prefix, else the gateway (0: none). -/
def nextHop (s : State) (i : Nat) (v6 : Bool) (a : Nat) : Nat :=
  let ip := s.cfg.port.ips.get {} i
  let w := if v6 then 128 else 32
  let near := (if v6 then (linkLocal i, 64) :: ip.v6 else ip.v4).any (fun p => a / 2 ^ (w - p.2) == p.1 / 2 ^ (w - p.2))
  if near then a else if v6 then ip.gw6 else ip.gw4

/-- NET takes an entry of an endpoint's send ring (R332, R245). -/
def udpTake (s : State) (n e : Nat) : State :=
  match s.cfg.eps.find? (n * 16 + e) with
  | none => s
  | some c =>
    match c.tx with
    | none => s
    | some q =>
      let slotIdx := s.ringC q % ringLen (s.ringCfg q)
      match s.hwTake q with
      | (none, s) => s
      | (some b, s) =>
        if s.isStandby then s.bump Reg.RED_CONSDISC 1 else
        let len := field b 8 2
        let port := field b 12 1
        let v6 := bit (field b 13 1) 0
        let raddr := if v6 then field b 16 16 else field b 16 4
        let laddr := field b 32 16
        let addrs := s.portAddrs port v6
        let bad := decide (port < 96) || decide (124 ≤ port) || !bit c.ports (port - 96) ||
          decide ((if v6 then 1452 else 1472) < len) || addrs.isEmpty || (laddr != 0 && !addrs.contains laddr) ||
          !(if v6 then c.v6 else c.v4) || !s.portEnabled port
        if bad then s.udpDrop n e else
        let hop := s.nextHop port v6 raddr
        match s.hwReadBytes n (len / 64 + 2) ((s.cnst n).dataBase + c.txbuf + slotIdx * 2048) len with
        | (none, s) => s.udpDrop n e
        | (some data, s) =>
          let fields := [b2n v6, raddr, field b 10 2, if laddr = 0 then addrs.headD 0 else laddr, c.lport, c.dscp] ++ data.map (·.toNat)
          if hop = 0 then s.udpDrop n e else
          match s.nbr port v6 hop with
          | some x =>
            if x.resolved then s.udpOut port n e fields
            else if x.held.isSome then s.udpDrop n e
            else s.setNbr { x with held := some (n, e, fields) }
          | none =>
            (s.setNbr { port := port, v6 := v6, addr := hop, resolved := false, tries := 1, at_ := s.mono, held := some (n, e, fields) }).ipSend
              port (if v6 then 5 else 3) [if v6 then 0 else 1, hop]

/-! ### Ports (R304, R306, R335) -/

/-- EN = 0 (R306): frames held for transmission are discarded and counted. -/
def portDisable (s : State) (i : Nat) : State :=
  if 124 ≤ i || !s.portEnabled i then s else
  let held := s.net.nbrs.filter (fun x => x.port == i && x.held.isSome)
  let s := (s.setBit (Reg.NET_PCTL i) 0 false).bump (Reg.NET_PTXDROP i) held.length
  let s := s.setNet { s.net with nbrs := s.net.nbrs.filter (fun x => x.port != i) }
  let s := s.setFld (Reg.NET_PSTAT i) 1 2 0
  if s.portLink i then (s.setBit (Reg.NET_PSTAT i) 0 false).setBit (Reg.NET_PSTAT i) 16 true else s

/-- EN = 1 (R306): the link restarts under its PORT mode. -/
def portEnable (s : State) (i : Nat) : State :=
  if 124 ≤ i || s.portEnabled i || (s.portRec i).mode == 0 then s else
  (s.setBit (Reg.NET_PCTL i) 0 true).setBit (Reg.NET_PSTAT i) 2 true

/-- An enabled port loses its link (R335). -/
def linkDown (s : State) (i : Nat) : State :=
  if 128 ≤ i || !s.portEnabled i || !s.portLink i then s else
  let s := (s.setBit (Reg.NET_PSTAT i) 0 false).setBit (Reg.NET_PSTAT i) 16 true
  let s := (s.bump (Reg.NET_PLINKDN i) 1).raise 640 0xFFFF i
  let r := s.portRed i
  if 1 ≤ r ∧ r ≤ 4 ∧ s.portEnabled (twin i) ∧ s.portLink (twin i) then s.raise 641 0xFFFF i else s

/-- A port's link comes up (R329): duplicate address detection begins with one solicitation per address. -/
def linkUp (s : State) (i : Nat) : State :=
  if 128 ≤ i || !s.netUp || !s.portEnabled i || s.portLink i then s else
  let s := (s.setBit (Reg.NET_PSTAT i) 0 true).setBit (Reg.NET_PSTAT i) 16 true
  if 96 ≤ i ∧ i < 124 then
    let ip := s.cfg.port.ips.get {} i
    let s := s.setNet { s.net with dad := s.net.dad.insert i s.mono, conflicts := s.net.conflicts.filter (fun c => c.1 != i) }
    forEach (linkLocal i :: ip.v6.map (·.1)) (fun s a => s.ipSend i 5 [0, a]) s
  else s

/-- A new active member's announcements on the shared addresses (R237): a gratuitous ARP and an unsolicited advertisement each. -/
def announceShared (s : State) : State :=
  forEach s.cfg.port.ips (fun s p =>
    if s.ipPort p.1 then
      let s := forEach p.2.v4 (fun s a => s.ipSend p.1 3 [3, a.1]) s
      forEach p.2.v6 (fun s a => s.ipSend p.1 5 [2, a.1]) s
    else s) s

/-- A new active member continues each sequence counter 8192 further (R254). -/
def seqJump (s : State) : State := s.setNet { s.net with seqs := s.net.seqs.map (fun p => (p.1, (p.2 + 8192) % 65536)) }

/-- A start of an owner clears the counters of its items; the first frame is accepted again (R317), and a validity is what the IN row the start set
says (Table 2.4). -/
def netStart (s : State) (n : Nat) : State :=
  let s := forEach s.cfg.subs (fun s q => if q.2.owner = n then
    let s := s.setBit (Reg.NET_GSSTAT q.1) 1 (s.curField n 0 q.2.valid 1 == 1)
    ((s.setGs q.1 { s.gsSub q.1 with seen := false, any := false }).clr (Reg.NET_GSRX q.1)).clr (Reg.NET_GSINV q.1) else s) s
  let s := forEach s.cfg.streams (fun s q => if q.2.owner = n then
    let s := s.setBit (Reg.NET_SVSTAT q.1) 1 (s.curField n 0 q.2.valid 1 == 1)
    ((s.clr (Reg.NET_SVRX q.1)).clr (Reg.NET_SVGAP q.1)).clr (Reg.NET_SVINV q.1) else s) s
  forEach s.cfg.eps (fun s q => if q.1 / 16 = n then
    ((s.clr (Reg.NET_UEPRX n (q.1 % 16))).clr (Reg.NET_UEPTX n (q.1 % 16))).clr (Reg.NET_UEPDROP n (q.1 % 16)) else s) s

/-- Records of a map that another does not hold as they are. -/
def changed {α : Type} [DecidableEq α] (old new : SMap α) : SMap α := new.filter (fun p => old.find? p.1 != some p.2)

/-- Keys of a map that another no longer holds. -/
def removed {α : Type} (old new : SMap α) : List Nat := (old.filter (fun p => (new.find? p.1).isNone)).map (·.1)

/-- The NET plane takes effect (R304, chapter 13): at Configure, where `old` is empty, and at a plane swap, which leaves an unchanged record as it is. -/
def netConfigure (s : State) (old : Scn) : State :=
  let s := forEach (removed old.port.ports s.cfg.port.ports) (fun s i =>
    (((s.wr (Reg.NET_PMODE i) 0).wr (Reg.NET_PVLAN i) 0).setBit (Reg.NET_PCTL i) 0 false).setBit (Reg.NET_PSTAT i) 2 false) s
  let s := forEach (changed old.port.ports s.cfg.port.ports) (fun s p =>
    let c := p.2
    let s := s.wr (Reg.NET_PMODE p.1) (c.mode % 4 + c.fec % 4 * 4 + b2n c.autoneg * 16 + c.red % 8 * 32)
    if c.mode = 0 then s else
    let s := s.wr (Reg.NET_PVLAN p.1) (c.pvid % 4096 + c.pcp % 8 * 4096 + c.vids.length % 128 * 65536)
    (s.setBit (Reg.NET_PCTL p.1) 0 true).setBit (Reg.NET_PSTAT p.1) 2 true) s
  let gone (s : State) : State :=
    let s := forEach (removed old.subs s.cfg.subs) (fun s k => (s.wr (Reg.NET_GSSTAT k) 0).setGs k {}) s
    let s := forEach (removed old.streams s.cfg.streams) (fun s v => (s.wr (Reg.NET_SVSTAT v) 0).setStrm v {}) s
    let s := forEach (removed old.pubs s.cfg.pubs) (fun s p => (s.wr (Reg.NET_GPSTAT p) 0).setPub p {}) s
    forEach (removed old.eps s.cfg.eps) (fun s e => s.wr (Reg.NET_UEPSTAT (e / 16) (e % 16)) 0) s
  let s := gone s
  let s := forEach (changed old.subs s.cfg.subs) (fun s q => (s.wr (Reg.NET_GSSTAT q.1) (1 + q.2.owner * 4)).setGs q.1 {}) s
  let s := forEach (changed old.streams s.cfg.streams) (fun s q => (s.wr (Reg.NET_SVSTAT q.1) (1 + q.2.owner * 4)).setStrm q.1 {}) s
  let s := forEach (changed old.pubs s.cfg.pubs) (fun s q =>
    let v := 1 + q.2.owner * 2
    let form := if (old.pubs.find? q.1).isSome then s.pubForm q.1 * 16 else 0
    (s.wr (Reg.NET_GPSTAT q.1) (v + form)).setPub q.1 {}) s
  let s := forEach (changed old.eps s.cfg.eps) (fun s q =>
    s.wr (Reg.NET_UEPSTAT (q.1 / 16) (q.1 % 16)) (1 + b2n q.2.v4 * 2 + b2n q.2.v6 * 4 + q.2.lport * 65536)) s
  s.setBit Reg.NET_STAT 0 true

end State

end Sys2Proof.Machine
end

