-- ==== Sys2Proof/Machine/Commit.lean ====
section
/-! DEFINITION. A commit (R155 to R157) with what follows from it: overlap, records, publications (R321), CAN stages (R390) and its digest
(R246). -/
namespace Sys2Proof.Machine

/-- One bit of CRC-64 (R246). -/
def crcBit (poly w crc : Nat) (b : Bool) : Nat :=
  let top := bit crc (w - 1) != b
  let v := (crc * 2) % 2 ^ w
  if top then v ^^^ poly else v

/-- A non-reflected CRC of w bits over bytes. -/
def crcBytes (poly w : Nat) (bs : List Byte) (init : Nat) : Nat :=
  bs.foldl (fun c b => ([7, 6, 5, 4, 3, 2, 1, 0] : List Nat).foldl (fun c i => crcBit poly w c (b.getLsbD i)) c) init

/-- The digest of a commit (R246): owner, kind, number, epoch, then each row with its mask and masked value. -/
def digestOf (n kind num epoch : Nat) (rows : SMap (Row × Row)) : Nat :=
  let bs := leBytes 1 n ++ leBytes 1 kind ++ leBytes 2 num ++ leBytes 8 epoch ++
    rows.flatMap (fun r => leBytes 4 r.1 ++ leBytes 32 r.2.2.toNat ++ leBytes 32 (r.2.1 &&& r.2.2).toNat)
  crcBytes 0x42F0E1EBA9EA3693 64 bs 0xFFFFFFFFFFFFFFFF ^^^ 0xFFFFFFFFFFFFFFFF

namespace State

/-- Does this commit write a bit that another commit changed after its epoch (R157)? -/
def overlaps (s : State) (row epoch : Nat) (mask : Row) : Bool :=
  (s.rowHist row).chg.any (fun c => decide (epoch < c.1) && decide (c.2 &&& mask ≠ 0))

/-- The digest is sent to the partner and kept until it is matched (R246): only while this member is in Run or Shadow. -/
def sendDigest (s : State) (n kind num epoch : Nat) (rows : SMap (Row × Row)) : State :=
  if s.cfg.redn.isNone || !s.ms.paired then s else
  let d := digestOf n kind num (form64 epoch) rows
  let s := (s.emit (.pair 0x04 [n, kind, num, form64 epoch, d])).bump64 Reg.RED_DIGTX 1
  if s.ms.mode = .run ∨ s.ms.mode = .shadow then
    { s with red := { s.red with digs := s.red.digs ++
      [{ owner := n, kind := kind, num := num, epoch := form64 epoch, dig := d, at_ := s.mono, mine := true }] } }
  else s

/-- Install rows of an owner at one commit instant, later than the owner's last (R155 to R157). -/
def commitRows (s : State) (n kind num epoch task : Nat) (rows : SMap (Row × Row)) : State :=
  let s := s.advance (s.img.lastCommit.get 0 n + 1)
  let s : State := { s with img := { s.img with lastCommit := s.img.lastCommit.insert n s.now } }
  let place (row : Nat) : Nat := match s.rowPlace row with | some (_, sp) => sp | none => 1
  let ovl := rows.filter (fun r => s.overlaps r.1 epoch r.2.2)
  let s := if ovl.isEmpty then s else (s.bump (Reg.IMG_OVLCNT n) 1).setBit (Reg.IMG_OSTAT n) 8 true
  let flagged := ovl.any (fun r => (s.rowFlags n (place r.1) (r.1 - (s.range n (place r.1)).base)).2)
  let s := if flagged then s.raise (264 + n) task else s
  let (chg, s) := rows.foldl (fun (acc : List (Nat × Nat × Row) × State) r =>
    let s := acc.2.healWords r.1 r.2.2
    let (d, s) := s.install n (place r.1) r.1 r.2.1 r.2.2 s.now 5 true
    (acc.1 ++ [(place r.1, r.1, d)], s)) (([] : List (Nat × Nat × Row)), s)
  let s := (s.bump64 (Reg.IMG_COMMITS n) 1).poolRegs n
  let outs := (chg.filter (fun c => c.1 == 1 && decide (c.2.2 ≠ 0))).map (fun c => (c.2.1, c.2.2))
  let s := s.pubHook n outs
  let s := s.canOutHook n (outs.map (·.1))
  s.sendDigest n kind num epoch rows

/-- The instant of a commit, for an open number: from its END's completion, or the owner's commit before it, at least 47.5 + 2.5 N ns and at most 800 k ns more,
for N rows of which k lie in one bank (R171, Table 6.5). -/
def commitAt (s : State) (c : Commit) (v : Nat) : Nat :=
  let k := (c.rows.map (fun r => (c.rows.filter (fun q => q.1 % 256 == r.1 % 256)).length)).foldl max 0
  max c.endAt (s.img.lastCommit.get 0 c.owner) + 3112960 + 163840 * c.rows.length + v % (52428800 * k + 1)

/-- The first commit of an owner in the order its ENDs completed (R156). -/
def commitNext (s : State) (n : Nat) : State :=
  match s.img.commits.find? (fun c => c.owner == n) with
  | none => s
  | some c =>
    let (v, s) := s.fresh
    let s := s.advance (s.commitAt c v)
    let s : State := { s with img := { s.img with commits := s.img.commits.erase c } }
    let s := s.commitRows n 0 c.task c.epoch c.task c.rows
    let s := ((s.retire n).poolRegs n).pendAfter c.task
    s.dispatch n

end State

end Sys2Proof.Machine
end

