-- ==== Sys2Proof/Machine/Lop.lean ====
section
/-! DEFINITION. LOP (chapter 18): block-floating arithmetic (R423), one sample (R424 to R428), commits of outputs (R420, R421), starts, stops,
disabling and missed samples (R429 to R433). -/
namespace Sys2Proof.Machine

/-! ### Block-floating arithmetic (R423): each operation answers its mantissa and whether it clamped -/

/-- rne(v, s). -/
def rneShift (v : Int) (n : Nat) : Int :=
  if n = 0 then v else
  let q := v / (2 ^ n : Nat)
  let r := v - q * (2 ^ n : Nat)
  let half : Int := (2 ^ (n - 1) : Nat)
  if r > half ∨ (r = half ∧ q % 2 = 1) then q + 1 else q

/-- sat(v). -/
def bfSat (v : Int) : Int × Bool :=
  if v < -8388608 then (-8388608, true) else if 8388607 < v then (8388607, true) else (v, false)

/-- align(m, ea, eb). -/
def bfAlign (m ea eb : Int) : Int × Bool :=
  if ea ≤ eb then bfSat (rneShift m (eb - ea).toNat) else bfSat (m * (2 ^ (ea - eb).toNat : Nat))

/-- mul(c, m, et) with the coefficient's mantissa and exponent and m at exponent em. -/
def bfMul (cm ce m em et : Int) : Int × Bool := bfAlign (cm * m) (ce + em) et

/-- cvt(v, e) of a binary32. -/
def bfCvt (v : Nat) (e : Int) : Int × Bool :=
  match f32.decode v with
  | .nan => (0, false)
  | .inf neg => (if neg then -8388608 else 8388607, true)
  | .fin neg m ex =>
    let sm : Int := if neg then -(m : Int) else m
    if e ≤ ex then bfSat (sm * (2 ^ (ex - e).toNat : Nat)) else bfSat (rneShift sm (e - ex).toNat)

/-- out(m, e): always exact. -/
def bfOut (m e : Int) : Nat := f32.roundInt m e false

/-- The configuration of a loop as its registers hold it. -/
structure LoopCfg where
  owner : Nat
  dsrc : Bool
  retain : Bool
  adrv : Bool
  ach : Nat
  nreg : Nat
  oscen : Bool
  plen : Bool
  ep : Int
  ei : Int
  ed : Int
  ef : Int
  es : Int
  umin : Int
  umax : Int
  deriving DecidableEq, Repr

namespace State

def loop (s : State) (i : Nat) : Loop := s.loops.get {} i
def setLoop (s : State) (i : Nat) (x : Loop) : State := { s with loops := s.loops.insert i x }

def loopCfg (s : State) (i : Nat) : LoopCfg :=
  let c := s.rd (Reg.LOP_CFG i)
  let a := s.rd (Reg.LOP_EXPA i)
  { owner := bits c 1 3, dsrc := bit c 4, retain := bit c 5, adrv := bit c 6, ach := bits c 7 4, nreg := bits c 11 4,
    oscen := bit c 15, plen := bit c 16, ep := signed 8 (bits a 0 8), ei := signed 8 (bits a 8 8), ed := signed 8 (bits a 16 8),
    ef := signed 8 (bits a 24 8), es := signed 8 (bits (s.rd (Reg.LOP_EXPB i)) 0 8),
    umin := signed 24 (s.rd (Reg.LOP_UMIN i)), umax := signed 24 (s.rd (Reg.LOP_UMAX i)) }

/-- A coefficient of a region: mantissa and exponent. -/
def loopCoef (s : State) (i r c : Nat) : Int × Int :=
  let v := s.rd (Reg.LOP_COEF i r c)
  (signed 24 (bits v 0 24), signed 8 (bits v 24 8))

/-- A loop word as it stood at t (R420, R151): its address register gives space and bit address. -/
def loopWord (s : State) (n reg t : Nat) : Option Nat :=
  let v := s.rd reg
  if !bit v 31 then none else
  let sp := bits v 29 2
  match s.absRow n sp (bits v 0 29) with
  | some row => some (((s.readRowAt n sp row t).toNat >>> (bits v 0 29 % 256)) % 2 ^ 32)
  | none => none

/-- Commit a value to U of a loop (R420, R421): one row under a 32-bit mask, in the owner's commit order. -/
def loopCommit (s : State) (i sample value : Nat) : State :=
  let n := (s.loopCfg i).owner
  let a := bits (s.rd (Reg.LOP_UADDR i)) 0 29
  match s.absRow n 1 a with
  | some row =>
    s.commitRows n 1 i sample 0xFFFF [(row, (BitVec.ofNat 256 (value * 2 ^ (a % 256)), fieldMask (a % 256) 32))]
  | none => s

/-- The pending output of a loop is committed (R420 step 1). -/
def loopOut (s : State) (i : Nat) : State :=
  match (s.loop i).pend with
  | some (t, m) =>
    let s := s.setLoop i { s.loop i with pend := none }
    s.loopCommit i t (bfOut (signed 24 m) (s.loopCfg i).es)
  | none => s

end State

/-- The schedule step (R426): up, then down, by binary32 compares; `hyst` is taken as 0 at initialisation. -/
def scheduleUp (b : Nat → Nat) (nreg w hyst : Nat) : Nat → Nat → Nat
  | 0, r => r
  | fuel + 1, r =>
    if r + 1 < nreg ∧ f32.le (f32.add (b (r + 1)) hyst) w = true then scheduleUp b nreg w hyst fuel (r + 1) else r

/-- The downward half of the schedule step. -/
def scheduleDown (b : Nat → Nat) (w hyst : Nat) : Nat → Nat → Nat
  | 0, r => r
  | fuel + 1, r =>
    if 0 < r ∧ f32.lt w (f32.sub (b r) hyst) = true then scheduleDown b w hyst fuel (r - 1) else r

namespace State

/-- The region after the schedule step (R426). -/
def loopRegion (s : State) (i r : Nat) (w : Option Nat) (init : Bool) : Nat :=
  let c := s.loopCfg i
  match w with
  | none => r
  | some v =>
    if f32.isNan v then r else
    let hyst := if init then 0 else s.rd (Reg.LOP_HYST i)
    let b (j : Nat) : Nat := s.rd (Reg.LOP_BOUND i (j - 1))
    scheduleDown b v hyst 8 (scheduleUp b c.nreg v hyst 8 r)

/-- Is a driving loop frozen by the latest valid uplink (R427)? -/
def loopFrozen (s : State) (c : LoopCfg) : Bool :=
  c.adrv && (bit s.fio.complUp c.ach || s.fld Reg.FIO_STAT (2 + aGroup c.ach) 1 == 1)

/-- The oscillation check (R428) on the error mantissa. -/
def oscCheck (s : State) (i : Nat) (c : LoopCfg) (e : Int) : State :=
  if !c.oscen then s else
  let x := s.loop i
  let band := (bfCvt (s.rd (Reg.LOP_OSCBAND i)) c.ep).1
  let big := decide (band < (e.natAbs : Int))
  let sg : Int := if e < 0 then -1 else 1
  let chgs := if big && x.slast != 0 && sg != x.slast then (x.k :: x.chgs).take 16 else x.chgs
  let s := s.setLoop i { x with slast := if big then sg else x.slast, chgs := chgs }
  let win := bits (s.rd (Reg.LOP_OSCCFG i)) 0 8
  let oscn := bits (s.rd (Reg.LOP_OSCCFG i)) 8 5
  let n := (chgs.filter (fun kc => decide (x.k - kc < win))).length
  let osc := s.fld (Reg.LOP_STAT i) 6 1 == 1
  if oscn ≤ n ∧ !osc then
    (((s.setBit (Reg.LOP_STAT i) 6 true).setBit (Reg.LOP_STAT i) 18 true).bump (Reg.LOP_OSCCNT i) 1).raise (1160 + c.owner) 0xFFFF i
  else if n = 0 then s.setBit (Reg.LOP_STAT i) 6 false else s

/-- The plausibility check (R428) with the output applied at t(k); answers the residual. -/
def plCheck (s : State) (i : Nat) (c : LoopCfg) (pv up : Nat) : Nat × State :=
  if !c.plen then (0, s) else
  let x := s.loop i
  let t1 := f32.mul (s.rd (Reg.LOP_PLA i)) (s.rd (Reg.LOP_YHAT i))
  let t2 := f32.mul (s.rd (Reg.LOP_PLB i)) up
  let yhat := f32.add (f32.add t1 t2) (s.rd (Reg.LOP_PLC i))
  let res := f32.sub pv yhat
  let trips := f32.lt (s.rd (Reg.LOP_PLTOL i)) (f32.fabs res)
  let within := f32.le (f32.fabs res) (s.rd (Reg.LOP_PLTOL i))
  let cnt := if trips then x.cnt + 1 else 0
  let s := (s.wr (Reg.LOP_YHAT i) yhat).setLoop i { x with cnt := cnt }
  if cnt = bits (s.rd (Reg.LOP_PLCFG i)) 8 8 ∧ 0 < cnt then
    let s := (s.wr (Reg.LOP_YHAT i) pv).setLoop i { s.loop i with cnt := 0 }
    let s := ((s.setBit (Reg.LOP_STAT i) 7 true).setBit (Reg.LOP_STAT i) 19 true).bump (Reg.LOP_PLCNT i) 1
    (res, s.raise (1168 + c.owner) 0xFFFF i)
  else (res, if cnt = 0 && within then s.setBit (Reg.LOP_STAT i) 7 false else s)

/-- The status word (R437), installed when its content differs from the last one. -/
def loopStatus (s : State) (i t : Nat) (c : LoopCfg) (held ovf : Bool) (res : Nat) : State :=
  let a := s.rd (Reg.LOP_STADDR i)
  if !bit a 31 then s else
  let v := s.fld (Reg.LOP_STAT i) 0 8 + b2n held * 256 + b2n ovf * 512 + res % 2 ^ 32 * 2 ^ 32
  if (s.loop i).lastSt = some v then s
  else (s.setLoop i { s.loop i with lastSt := some v }).sourceBits c.owner (bits a 0 29) 64 v t 3

/-- Sample k of a loop at t (R424 to R429, R437). -/
def loopCompute (s : State) (i t : Nat) : State :=
  let c := s.loopCfg i
  let x := s.loop i
  let s := if x.weak then (s.setLoop i { x with weak := false }).bump Reg.LOP_ECCCOR 1 else s
  let s := if x.bad then
      let s := s.setLoop i { s.loop i with bad := false, init := true }
      ((s.bump Reg.LOP_ECCUNC 1).setBit Reg.LOP_GSTAT 16 true).raise 1192 0xFFFF i
    else s
  let s := s.wr64 (Reg.LOP_LASTK i) (form64 t)
  let pv := (s.loopWord c.owner (Reg.LOP_PVADDR i) t).getD 0
  let sp := (s.loopWord c.owner (Reg.LOP_SPADDR i) t).getD 0
  let w := s.loopWord c.owner (Reg.LOP_WADDR i) t
  if f32.isNan pv || f32.isNan sp then
    let s := (s.setBit (Reg.LOP_STAT i) 20 true).raise (1176 + c.owner) 0xFFFF i
    s.loopStatus i t c true false 0
  else
    let init := (s.loop i).init
    let r0 := s.fld (Reg.LOP_STAT i) 0 3
    let r := s.loopRegion i r0 w init
    let chg := r != r0
    let s := s.setFld (Reg.LOP_STAT i) 0 3 r
    let s := if chg && !init then (s.bump (Reg.LOP_REGCHG i) 1).setBit (Reg.LOP_STAT i) 22 true else s
    let (kp, kpE) := s.loopCoef i r 0
    let (ki, kiE) := s.loopCoef i r 1
    let (kd, kdE) := s.loopCoef i r 2
    let (ka, kaE) := s.loopCoef i r 3
    let (csp, o1) := bfCvt sp c.ep
    let (cpv, o2) := bfCvt pv c.ep
    let (e, o3) := bfSat (csp - cpv)
    let (x', o4) := if c.dsrc then bfSat (-cpv) else (e, false)
    let ucur := (s.loopWord c.owner (Reg.LOP_UADDR i) t).getD 0
    let (uc0, _) := bfCvt ucur c.es
    let xprev := if init then x' else signed 24 (s.rd (Reg.LOP_X i))
    let f0 := if init then 0 else signed 24 (s.rd (Reg.LOP_F i))
    let uprev := if init then uc0 else signed 24 (s.rd (Reg.LOP_U i))
    let i0 := signed 24 (s.rd (Reg.LOP_I i))
    let s := if init then (s.wr (Reg.LOP_YHAT i) pv).setLoop i { s.loop i with init := false, slast := 0, chgs := [], cnt := 0 } else s
    let (d1, o5) := bfAlign x' c.ep c.ed
    let (d2, o6) := bfAlign xprev c.ep c.ed
    let (d, o7) := bfSat (d1 - d2)
    let (fa, o8) := bfMul ka kaE f0 c.ef c.ef
    let (fd, o9) := bfMul kd kdE d c.ed c.ef
    let (f, o10) := bfSat (fa + fd)
    let (p, o11) := bfMul kp kpE e c.ep c.es
    let (fs, o12) := bfAlign f c.ef c.es
    let frozen := s.loopFrozen c
    let (inew, o13) :=
      if chg || init then
        let (a1, q1) := bfAlign uprev c.es c.ei
        let (a2, q2) := bfAlign p c.es c.ei
        let (a3, q3) := bfAlign f c.ef c.ei
        let (a, q4) := bfSat (a1 - a2 - a3)
        (a, q1 || q2 || q3 || q4)
      else
        let (di, q1) := bfMul ki kiE e c.ep c.ei
        let (ic, q2) := bfSat (i0 + di)
        let (a1, q3) := bfAlign p c.es c.es
        let (a2, q4) := bfAlign ic c.ei c.es
        let (uc, q5) := bfSat (a1 + a2 + fs)
        let keep := frozen || (decide (c.umax < uc) && decide (0 < di)) || (decide (uc < c.umin) && decide (di < 0))
        (if keep then i0 else ic, q1 || q2 || q3 || q4 || q5)
    let (ia, o14) := bfAlign inew c.ei c.es
    let (u, o15) := bfSat (p + ia + fs)
    let hi := decide (c.umax < u)
    let u := if hi then c.umax else u
    let lo := decide (u < c.umin)
    let u := if lo then c.umin else u
    let ovf := o1 || o2 || o3 || o4 || o5 || o6 || o7 || o8 || o9 || o10 || o11 || o12 || o13 || o14 || o15
    let s := ((s.wr (Reg.LOP_I i) (unsigned 24 inew)).wr (Reg.LOP_F i) (unsigned 24 f)).wr (Reg.LOP_X i) (unsigned 24 x')
    let up := bfOut uprev c.es
    let s := (s.wr (Reg.LOP_U i) (unsigned 24 u)).bump64 (Reg.LOP_SAMPLES i) 1
    let s := (s.setBit (Reg.LOP_STAT i) 3 hi).setBit (Reg.LOP_STAT i) 4 lo
    let s := if hi || lo then (s.bump (Reg.LOP_SATCNT i) 1).setBit (Reg.LOP_STAT i) 16 true else s
    let s := if ovf then ((s.bump (Reg.LOP_OVFCNT i) 1).setBit (Reg.LOP_STAT i) 21 true).raise (1184 + c.owner) 0xFFFF i else s
    let was := s.fld (Reg.LOP_STAT i) 5 1 == 1
    let s := s.setBit (Reg.LOP_STAT i) 5 frozen
    let s := if frozen && !was then
        ((s.bump (Reg.LOP_FRZCNT i) 1).setBit (Reg.LOP_STAT i) 17 true).raise (1152 + c.owner) 0xFFFF i else s
    let s := s.setLoop i { s.loop i with pend := some (t, unsigned 24 u), k := (s.loop i).k + 1 }
    let s := s.oscCheck i c e
    let (res, s) := s.plCheck i c pv up
    s.loopStatus i t c false ovf res

/-- Is a loop defined by the loaded scantling? -/
def loopDef (s : State) (i : Nat) : Bool := s.fld (Reg.LOP_CFG i) 0 1 == 1

/-- Do the owner's loops sample now (R430)? -/
def loopRuns (s : State) (i : Nat) : Bool := s.releasable (s.loopCfg i).owner

/-- Disabling ends at a sample instant (R432). -/
def loopDrained (s : State) (i : Nat) : State := s.setFld (Reg.LOP_STAT i) 8 2 0

/-- The next sample instant strictly after t (R420, R174). -/
def loopNext (s : State) (i t : Nat) : Nat :=
  let per := us (max 1 (s.rd (Reg.LOP_PERIOD i)))
  let ph := us (s.rd (Reg.LOP_PHASE i))
  if t < ph then ph else ph + ((t - ph) / per + 1) * per

/-- Loops with a sample instant. -/
def loopsTimed (s : State) : List (Nat × Nat) :=
  s.loops.filterMap (fun p => match p.2.next with | some t => some (p.1, t) | none => none)

/-- The earliest sample instant (R420, R422): every loop due then commits its pending output and computes, in ascending number; outside
the conditions of R430 the instant is missed. -/
def loopSample (s : State) : State :=
  match s.loopsTimed with
  | [] => s
  | (_, t0) :: rest =>
    let t := rest.foldl (fun a p => min a p.2) t0
    let s := s.advance t
    let due := (s.loopsTimed.filter (fun p => p.2 == t)).map (·.1)
    let s := forEach due (fun s i => s.setLoop i { s.loop i with next := some (s.loopNext i t) }) s
    let s := forEach due (fun s i => if s.loopRuns i then s.loopOut i else s) s
    forEach due (fun s i =>
      if s.fld (Reg.LOP_STAT i) 9 1 = 1 then (if s.loopRuns i then s.loopDrained i else s.bump (Reg.LOP_MISSED i) 1)
      else if s.fld (Reg.LOP_STAT i) 8 1 = 0 then s
      else if s.loopRuns i then s.loopCompute i t
      else s.bump (Reg.LOP_MISSED i) 1) s

/-- EN = 0 (R432). -/
def loopDisable (s : State) (i : Nat) : State :=
  let s := s.setBit (Reg.LOP_CTL i) 0 false
  if s.fld (Reg.LOP_STAT i) 8 1 = 0 then s
  else if (s.loop i).pend.isSome then s.setBit (Reg.LOP_STAT i) 9 true
  else s.loopDrained i

/-- EN = 1 (R429): the loop is initialised at its next sample. -/
def loopEnable (s : State) (i : Nat) : State :=
  if !s.loopDef i then s else
  let s := (s.setBit (Reg.LOP_CTL i) 0 true).setFld (Reg.LOP_STAT i) 8 2 1
  s.setLoop i { s.loop i with init := true, pend := none }

/-- A start of an owner (R429, R432, Table 2.4): EN = 1; a warm start keeps the state of RETAIN loops; counters cleared. -/
def loopStart (s : State) (n : Nat) (cold : Bool) : State :=
  forEach (s.cfg.loops.map (·.1)) (fun s i =>
    let c := s.loopCfg i
    if s.loopDef i && c.owner == n then
      let s := (s.setBit (Reg.LOP_CTL i) 0 true).setFld (Reg.LOP_STAT i) 8 2 1
      let keep := c.retain && !cold
      let s := s.setLoop i { s.loop i with init := !keep || (s.loop i).init, pend := none }
      let s := (s.wr64 (Reg.LOP_SAMPLES i) 0).clr (Reg.LOP_MISSED i)
      forEach [Reg.LOP_SATCNT i, Reg.LOP_FRZCNT i, Reg.LOP_OSCCNT i, Reg.LOP_PLCNT i, Reg.LOP_OVFCNT i, Reg.LOP_REGCHG i]
        (fun s a => s.clr a) s
    else s) s

/-- An owner goes to Stopped, or the device to Stop (R431): outputs uncommitted are discarded, and once its releases have ended SAFEU is
committed into U. -/
def loopStop (s : State) (n : Nat) : State :=
  forEach (s.cfg.loops.map (·.1)) (fun s i =>
    if s.loopDef i && (s.loopCfg i).owner == n then
      let s := s.setLoop i { s.loop i with pend := none }
      s.loopCommit i s.now (s.rd (Reg.LOP_SAFEU i))
    else s) s

/-- The LOP plane takes effect (R434, R429): each record's words in the loop's registers; a loop whose record is new or changed starts its sample
instants and is initialised. -/
def lopConfigure (s : State) (old : Scn) : State :=
  let gone := (old.loops.filter (fun p => (s.cfg.loops.find? p.1).isNone)).map (·.1)
  let s := forEach gone (fun s i =>
    let s := forEach (List.range ((old.loops.get [] i).length)) (fun s k => s.wr (Reg.LOP_CFG i + 4 * k) 0) s
    s.setLoop i {}) s
  let s := forEach s.cfg.loops (fun s p =>
    if old.loops.find? p.1 = some p.2 then s else
    let s := forEach p.2.zipIdx (fun s w => s.wr (Reg.LOP_CFG p.1 + 4 * w.2) w.1) s
    s.setLoop p.1 { s.loop p.1 with next := some (s.loopNext p.1 s.now), init := true }) s
  s.setBit Reg.LOP_GSTAT 0 true

end State

end Sys2Proof.Machine
end

