-- ==== Sys2Proof/Machine/Wdg.lean ====
section
/-! DEFINITION. The nine watchdogs (R453 to R457): counting, window, keys, periods, expiry and the fall-back oscillator. -/
namespace Sys2Proof.Machine

namespace State

def wd (s : State) (w : Nat) : Wdg := s.wdg.get {} w
def setWd (s : State) (w : Nat) (x : Wdg) : State := { s with wdg := s.wdg.set {} w x }

/-- Is a watchdog in its counting state (R454)? -/
def wdgCounts (s : State) (w : Nat) : Bool :=
  (s.wd w).en && (s.ms.mode == .run || s.ms.mode == .shadow || s.ms.mode == .test) &&
  (w == 0 || (s.owner (w - 1)).st == .running)

/-- A watchdog's source (Table 19.6). -/
def wdgSource (w : Nat) : Nat := if w = 0 then 1536 else 1536 + w

/-- The part of the period elapsed (OCXO time). -/
def wdgElapsed (s : State) (w : Nat) : Nat :=
  let x := s.wd w
  if x.counting then s.mono - x.since else x.left

/-- Is the window open (R455): the elapsed part has reached half of the period? -/
def wdgOpen (s : State) (w : Nat) : Bool := decide (us (s.wd w).period ≤ 2 * s.wdgElapsed w)

/-- ARMED and WINOPEN in WDG_STAT. -/
def wdgRegs (s : State) (w : Nat) : State :=
  let x := s.wd w
  (s.setFld (Reg.WDG_STAT w) 0 2 (b2n x.counting + b2n (x.counting && x.winOpen) * 2)).setFld (Reg.WDG_STAT w) 2 2 x.armed

/-- A full period starts, with the window closed (R454, R455, R457). -/
def wdgRestart (s : State) (w : Nat) : State :=
  (s.setWd w { s.wd w with since := s.mono, left := 0, winOpen := false, armed := 0 }).wdgRegs w

/-- After a change of mode or of an owner's state, each watchdog's counting follows (R454). -/
def wdgModes (s : State) : State :=
  forEach (List.range 9) (fun s w =>
    let x := s.wd w
    let want := s.wdgCounts w
    if want == x.counting then s
    else if want then
      if x.paused then (s.setWd w { x with counting := true, paused := false, since := s.mono - x.left }).wdgRegs w
      else (s.setWd w { x with counting := true, paused := false }).wdgRestart w
    else
      let hold := s.ms.mode == .handover && x.en
      (s.setWd w { x with counting := false, paused := hold, left := if hold then s.mono - x.since else 0,
                          winOpen := hold && x.winOpen, armed := if hold then x.armed else 0 }).wdgRegs w) s

/-- The window opens (R455). -/
def wdgWindow (s : State) (w : Nat) : State :=
  let x := s.wd w
  if x.counting && !x.winOpen then
    let s := s.advanceMono (x.since + us x.period / 2)
    (s.setWd w { x with winOpen := true }).wdgRegs w
  else s

/-- Violation (R457). -/
def wdgViolation (s : State) (w : Nat) : State :=
  let s := (s.bump (Reg.WDG_VIOCNT w) 1).setBit (Reg.WDG_STAT w) 17 true
  (s.raise (wdgSource w) 0xFFFF 2).wdgRestart w

/-- The period ends unserved (R457); on the RC oscillator within ±10 % + 10 µs (R453). -/
def wdgExpire (s : State) (w : Nat) : State :=
  let x := s.wd w
  if !x.counting then s else
  let per := us x.period
  let (d, s) := if x.fallback then
      let (v, s) := s.fresh
      (per - (per / 10 + us 10) + v % (2 * (per / 10 + us 10) + 1), s)
    else (per, s)
  let s := s.advanceMono (x.since + d)
  let s := (s.bump (Reg.WDG_EXPCNT w) 1).setBit (Reg.WDG_STAT w) 16 true
  let s := s.setWd w { s.wd w with lost := if x.armed = 1 then some s.mono else none }
  (s.raise (wdgSource w) 0xFFFF 1).wdgRestart w

/-- A write of WDG_KEY (R455). The second key of a service in the instant of an expiry is void (R457). -/
def wdgKey (s : State) (w key : Nat) : State :=
  let x := s.wd w
  if !x.counting then s
  else if key = 0xC3A5 ∧ x.lost = some s.mono then s.setWd w { x with lost := none }
  else if !s.wdgOpen w then s.wdgViolation w
  else
    let s := s.setWd w { x with winOpen := true }
    if x.armed = 1 then
      if key = 0xC3A5 then
        let s := s.bump (Reg.WDG_SRVCNT w) 1
        let y := s.wd w
        let s := s.setWd w { y with period := y.next }
        (s.wr (Reg.WDG_PERIOD w) y.next).wdgRestart w
      else s.wdgViolation w
    else if x.armed = 2 then
      if key = 0x691E then
        let s := s.setWd w { s.wd w with en := false, counting := false, winOpen := false, armed := 0 }
        (s.setBit (Reg.WDG_CTL w) 0 false).wdgRegs w
      else s.wdgViolation w
    else if key = 0x5A3C then (s.setWd w { s.wd w with armed := 1 }).wdgRegs w
    else if key = 0x96E1 ∧ !x.lock then (s.setWd w { s.wd w with armed := 2 }).wdgRegs w
    else s.wdgViolation w

/-- A write of WDG_PERIOD (R456). -/
def wdgPeriod (s : State) (w v : Nat) : State :=
  let x := s.wd w
  if x.counting && s.wdgOpen w && decide (100 ≤ v) && decide (v ≤ 60000000) then
    (s.setWd w { x with next := v }).wr (Reg.WDG_PERIOD w) v
  else s.setBit (Reg.WDG_STAT w) 18 true

/-- A write of EN = 1 (R456): a disabled watchdog starts a full period when it is next in the counting state. -/
def wdgEnable (s : State) (w : Nat) : State :=
  let x := s.wd w
  if x.en then s else ((s.setWd w { x with en := true, paused := false }).setBit (Reg.WDG_CTL w) 0 true).wdgModes

/-- A write of LOCK = 1 (R456). -/
def wdgLock (s : State) (w : Nat) : State := (s.setWd w { s.wd w with lock := true }).setBit (Reg.WDG_CTL w) 1 true

/-- A write of WDG_CTL: EN = 0 and LOCK = 0 are ignored (R456). -/
def wdgCtl (s : State) (w v : Nat) : State :=
  let s := if bit v 1 then s.wdgLock w else s
  if bit v 0 then s.wdgEnable w else s

/-- 8 ticks of the time base are missing (R453). -/
def wdgFallback (s : State) (w : Nat) : State :=
  if (s.wd w).fallback then s else
  let s := (s.setWd w { s.wd w with fallback := true }).setBit (Reg.WDG_STAT w) 4 true
  (s.setBit (Reg.WDG_STAT w) 19 true).raise (1546 + w) 0xFFFF w

/-- 1 s of good ticks (R453). -/
def wdgReturn (s : State) (w : Nat) : State :=
  if (s.wd w).fallback then (s.setWd w { s.wd w with fallback := false }).setBit (Reg.WDG_STAT w) 4 false else s

/-- µs left in the period (WDG_REMAIN). -/
def wdgRemain (s : State) (w : Nat) : Nat :=
  let x := s.wd w
  if x.counting || x.paused then x.period - s.wdgElapsed w / us 1 else 0

/-- EN, LOCK and periods take their MODE values at Configure (chapter 19); LOCK stays set until the next power-up. -/
def wdgConfigure (s : State) : State :=
  forEach (List.range 9) (fun s w =>
    let (per, fl) := s.cfg.mode.wdgs.get (0, 0) w
    let p := if per = 0 then 1000000 else per
    let lock := bit fl 1 || (s.wd w).lock
    let s := s.setWd w { s.wd w with en := bit fl 0, lock := lock, period := p, next := p }
    ((s.wr (Reg.WDG_PERIOD w) p).wr (Reg.WDG_CTL w) (b2n (bit fl 0) + b2n lock * 2)).wdgRegs w) s

end State

end Sys2Proof.Machine
end

