-- ==== Sys2Proof/Machine/FltBase.lean ====
section
/-! DEFINITION. FLT's bookkeeping (R438 to R440, R443 to R447, R451, R452): classes, counts, history, first error, force bits, security
counters and plumbs. Reactions follow in Flt.lean. -/
namespace Sys2Proof.Machine

/-- The sources the chapters' fault tables name, as (first, count) (Table 1.1). -/
def assignedSources : List (Nat × Nat) :=
  [(0, 128), (128, 34), (256, 42), (384, 50), (512, 8), (640, 6), (648, 24), (768, 8), (896, 128), (1024, 90), (1152, 41),
   (1280, 11), (1408, 2), (1416, 16), (1536, 9), (1546, 9), (1664, 6), (1792, 3), (1920, 8)]

/-- Is a source assigned? -/
def srcAssigned (f : Nat) : Bool := assignedSources.any (fun p => decide (p.1 ≤ f) && decide (f < p.1 + p.2))

/-- The words of a history entry (Table 19.3). -/
def histWords (h : HistEnt) : List Nat :=
  [form64 h.stamp % 2 ^ 32, form64 h.stamp / 2 ^ 32, h.src + h.cls * 2 ^ 16 + h.flags * 2 ^ 24,
   h.react + h.owner * 2 ^ 8 + h.task * 2 ^ 16, h.count, h.det1 % 2 ^ 32, h.det2 % 2 ^ 32, h.det2 / 2 ^ 32 % 2 ^ 32]

/-- The bytes of a history entry. -/
def histBytes (h : HistEnt) : List Byte := (histWords h).flatMap (fun w => leBytes 4 w)

namespace State

def setFlt (s : State) (f : Flt) : State := { s with flt := f }

/-- A source's class, reaction and task (R440). -/
def srcCfg (s : State) (f : Nat) : FltrRec := s.cfg.fltr.get {} f

/-- ACTAGE as an instant difference (Table 19.4). -/
def actAge (s : State) : Nat := msec (if s.cfg.mode.actage = 0 then 1000 else s.cfg.mode.actage)

/-- Is a source active (R439)? -/
def srcActive (s : State) (f : Nat) : Bool :=
  s.flt.force.contains f ||
  (match s.flt.lastFire.find? f with | some (t, _) => decide (s.mono < t + s.actAge) | none => false)

/-- The highest class of any active source (FLEVEL of Table 10.3). -/
def flevel (s : State) : Nat :=
  (s.flt.lastFire.filter (fun p => s.srcActive p.1)).foldl (fun a p => max a p.2.2)
    (s.flt.force.foldl (fun a f => max a (s.srcCfg f).cls) 0)

/-- A firing's history entry (Table 19.3), after its count. -/
def histEntry (s : State) (f : Firing) (lost notDone : Bool) : HistEnt :=
  let c := s.srcCfg f.src
  { stamp := f.at_, src := f.src, cls := c.cls, flags := b2n f.forced + b2n lost * 2 + b2n notDone * 4, react := c.react,
    owner := s.srcOwner f.src, task := f.task, count := s.rd (Reg.FLT_SCNT f.src), det1 := f.det1, det2 := f.det2 }

/-- Count a firing (R438) and note it for activity (R439). -/
def countFiring (s : State) (f : Firing) : State :=
  let s := (s.bump (Reg.FLT_SCNT f.src) 1).setBit (Reg.FLT_SSTAT f.src) 16 true
  let s := s.setBit (Reg.FLT_SSTAT f.src) 0 true
  s.setFlt { s.flt with lastFire := s.flt.lastFire.insert f.src (s.mono, (s.srcCfg f.src).cls) }

/-- The first-error capture (R446). -/
def firstError (s : State) (h : HistEnt) : State :=
  if s.flt.first.isSome || decide (h.cls < 3) then s else
  let s := s.setFlt { s.flt with first := some h }
  (forEach (histWords h).zipIdx (fun s w => s.wr (Reg.FLT_FE w.2) w.1) s).setBit Reg.FLT_STAT 1 true

/-- Log a firing (R445): into the intake, or lost; true where this loss begins a storm. -/
def logFiring (s : State) (f : Firing) (notDone : Bool) : Bool × State :=
  let h := s.histEntry f s.flt.lostBefore notDone
  let s := s.firstError h
  if s.flt.intake.length < 16 then
    (false, s.setFlt { s.flt with intake := s.flt.intake ++ [h], lostBefore := false })
  else
    let was := s.flt.storm
    let s := (s.bump Reg.FLT_HLOST 1).setBit Reg.FLT_STAT 16 true
    let s := s.setFlt { s.flt with lostBefore := true, lastLoss := s.mono, storm := true }
    (!was, s.setBit Reg.FLT_STAT 2 true)

/-- Every 100 ns the queue takes an entry from the intake (R445), and the owner's ring takes its copy (R447). -/
def historyWrite (s : State) : State :=
  match s.flt.intake with
  | [] => s
  | h :: rest =>
    let s := s.advance (s.now + nsec 100)
    let n := s.rd64 Reg.FLT_HCOUNT
    let s := s.setFlt { s.flt with intake := rest, hist := s.flt.hist.insert (n % 64) h }
    let s := forEach (histWords h).zipIdx (fun s w => s.wr (Reg.FLT_HIST (n % 64) w.2) w.1) s
    let s := s.bump64 Reg.FLT_HCOUNT 1
    match s.cfg.hring.find? h.owner with
    | some q => (s.hwEnq q (histBytes h)).2
    | none => s

/-- 10 ms without a lost entry end a storm (R445). -/
def stormEnd (s : State) : State :=
  if s.flt.storm then
    let s := s.advanceMono (s.flt.lastLoss + msec 10)
    (s.setFlt { s.flt with storm := false }).setBit Reg.FLT_STAT 2 false
  else s

/-- ACTAGE passes without a firing (R439). -/
def sourceInactive (s : State) (f : Nat) : State :=
  match s.flt.lastFire.find? f with
  | none => s
  | some (t, _) =>
    let s := s.advanceMono (t + s.actAge)
    let s := s.setFlt { s.flt with lastFire := s.flt.lastFire.erase f }
    s.setBit (Reg.FLT_SSTAT f) 0 (s.flt.force.contains f)

/-- A write of FLT_SFORCE by O0 (R443). -/
def forceWrite (s : State) (f : Nat) (v : Bool) : State :=
  if s.ms.mode ≠ .test ∨ srcAssigned f = false then s.setBit Reg.FLT_STAT 17 true
  else
    let was := s.flt.force.contains f
    let rest := s.flt.force.filter (· != f)
    let s := (s.setFlt { s.flt with force := if v then f :: rest else rest }).setBit (Reg.FLT_SFORCE f) 0 v
    if v && !was then { s with raised := s.raised ++ [{ src := f, at_ := s.now, forced := true }] }
    else s.setBit (Reg.FLT_SSTAT f) 0 (s.srcActive f)

/-- Force bits clear when the device leaves Test (R443). -/
def clearForces (s : State) : State :=
  let l := s.flt.force
  let s := s.setFlt { s.flt with force := [] }
  forEach l (fun s f => (s.setBit (Reg.FLT_SFORCE f) 0 false).setBit (Reg.FLT_SSTAT f) 0 (s.srcActive f)) s

/-- FLT_FECLR.CLR (R446). -/
def clearFirst (s : State) : State :=
  let s := s.setFlt { s.flt with first := none }
  (forEach (List.range 8) (fun s k => s.clr (Reg.FLT_FE k)) s).setBit Reg.FLT_STAT 1 false

/-- A security event of an owner (R452): counted; F1416 + n at most once per second. -/
def secEvent (s : State) (n : Nat) : State :=
  let s := s.bump (Reg.FLT_OSEC n) 1
  match s.flt.lastSec.find? n with
  | some t => if s.mono < t + 1000000000 * 65536 then s
              else (s.setFlt { s.flt with lastSec := s.flt.lastSec.insert n s.mono }).raise (1416 + n)
  | none => (s.setFlt { s.flt with lastSec := s.flt.lastSec.insert n s.mono }).raise (1416 + n)

/-! ### Plumb (R451) -/

/-- The shadow of a live cell, if its register has one (R12). -/
def shadowOf (a : Nat) : Option Nat :=
  match findReg a with
  | some h => if h.shadow || h.desc.shB == 0 then none else some (h.desc.shB + h.i * h.desc.sh1 + h.j * h.desc.sh2)
  | none => none

def isShadow (a : Nat) : Bool := match findReg a with | some h => h.shadow | none => false

/-- Copy every counter into its shadow, counted and stamped (R451). -/
def plumb (s : State) : State :=
  let live := s.regs.filter (fun p => !isShadow p.1)
  let regs := live.foldl (fun m p => match shadowOf p.1 with | some b => SMap.set (regReset b) m b p.2 | none => m) live
  let s : State := { s with regs := regs }
  (s.bump Reg.FLT_PLUMBCNT 1).wr64 Reg.FLT_PLUMBAT (form64 s.now)

/-- An immediate plumb takes place within 1 µs of its command (R451). -/
def plumbNow (s : State) : State :=
  let (w, s) := s.fresh
  (s.advance (s.now + w % (us 1 + 1))).plumb

/-- CANCEL, ARM, NOW in that order (R451). -/
def plumbCancel (s : State) : State := (s.setFlt { s.flt with plumb := none }).setBit Reg.FLT_STAT 4 false
def plumbArm (s : State) : State := (s.setFlt { s.flt with plumb := some (s.rd64 Reg.FLT_PLUMBTGT) }).setBit Reg.FLT_STAT 4 true
def plumbCtl (s : State) (v : Nat) : State :=
  let s := if bit v 2 then s.plumbCancel else s
  let s := if bit v 1 then s.plumbArm else s
  if bit v 0 then s.plumbNow else s

/-- A scheduled plumb's target is reached (R451, R370). -/
def plumbDue (s : State) : State :=
  match s.flt.plumb with
  | none => s
  | some t =>
    let (at_, _) := s.targetInstant t
    (s.advance at_).plumb.plumbCancel

/-- FLT's configuration at the end of Configure: settings and each assigned source's registers. -/
def fltConfigure (s : State) : State :=
  let m := s.cfg.mode
  let s := s.wr Reg.FLT_HOLDQ (if m.holdq = 0 then 1000 else m.holdq)
  let s := s.wr Reg.FLT_HOLDALW (m.holdalw % 16 + (if m.holdwin = 0 then 3600 else m.holdwin) * 256)
  let s := forEach (assignedSources.flatMap (fun p => (List.range p.2).map (· + p.1))) (fun s f =>
    let c := s.srcCfg f
    s.wr (Reg.FLT_SCFG f) (1 + c.cls * 2 + c.react * 16 + s.srcOwner f * 128 +
      (if c.react = 1 then c.task % 512 * 1024 + 2 ^ 19 else 0))) s
  (s.setFlt { s.flt with ready := true }).setBit Reg.FLT_STAT 0 true

end State

end Sys2Proof.Machine
end

