-- ==== Sys2Proof/Machine/Adm.lean ====
section
/-! DEFINITION. Admission of a task set (R185), in half nanoseconds: the loader and the splice loader apply it. -/
namespace Sys2Proof.Machine

/-- What admission needs to know of a task (Table 7.2): budget C, period or separation and deadline in us, priority, longest instruction in
ns, and whether it is marked waits. -/
structure AdmTask where
  c : Nat
  t : Nat
  d : Nat
  prio : Nat
  lam : Nat
  waits : Bool
  deriving DecidableEq, Repr

/-- The admission terms of a task record (R184: deadline 0 selects the period). -/
def AdmTask.of (r : TaskRec) : AdmTask :=
  { c := r.budget, t := r.period, d := if r.deadline = 0 then r.period else r.deadline, prio := r.prio, lam := r.lambda, waits := r.waits }

/-- C' in half nanoseconds: 2.50 ns × (C + 60). -/
def AdmTask.cost (a : AdmTask) : Nat := 5 * (a.c + 60)

/-- The sum of C'/t over budgeted tasks as a fraction, in half nanoseconds over half nanoseconds. -/
def admSum (l : List AdmTask) : Nat × Nat :=
  l.foldl (fun p a => if a.c = 0 then p else (p.1 * (2000 * max 1 a.t) + a.cost * p.2, p.2 * (2000 * max 1 a.t))) (0, 1)

/-- Demand of the other tasks of equal or higher priority in a response time (half nanoseconds). -/
def admDemand (hp : List AdmTask) (rt2 : Nat) : Nat :=
  hp.foldl (fun s a => s + (cdiv rt2 (2000 * max 1 a.t) + 1) * a.cost) 0

/-- Does the response-time iteration of R185 end stable within the deadline? -/
def admIterate (m base2 d2 : Nat) (hp : List AdmTask) : Nat → Nat → Bool
  | 0, _ => false
  | fuel + 1, rt2 =>
    let next := 2 * cdiv (base2 * m + admDemand hp rt2) (2 * m)
    if next = rt2 then decide (rt2 ≤ d2)
    else if d2 < next then false
    else admIterate m base2 d2 hp fuel next

/-- The check of task k of a pool of m engines. -/
def admTask (m jns : Nat) (l : List AdmTask) (k : Nat) : Bool :=
  match l[k]? with
  | none => true
  | some a =>
    if a.waits || a.c == 0 then true else
    let others := (l.zipIdx.filter (fun p => p.2 != k)).map (·.1)
    let lower := (others.filter (fun x => decide (x.prio < a.prio))).foldl (fun b x => max b x.lam) 0
    let hp := others.filter (fun x => x.c != 0 && decide (a.prio ≤ x.prio))
    let d2 := 2000 * a.d
    let base2 := 2 * (jns + lower) + a.cost
    decide (a.d ≤ a.t) && admIterate m base2 d2 hp (d2 / 2 + 2) base2

/-- Is the pool admitted (R185)? A task without a budget may run only below every checked task. -/
def admitted (m : Nat) (warm : Bool) (l : List AdmTask) : Bool :=
  let (p, q) := admSum l
  let jns := if warm then 1200 else 11200
  decide (p ≤ m * q) && (List.range l.length).all (fun k => admTask m jns l k) &&
  l.all (fun a => a.c != 0 || l.all (fun b => b.waits || b.c == 0 || decide (a.prio < b.prio)))

/-- Admitted utilisation in 1/1024 engine, rounded up (SEQ_OUTIL). -/
def admUtil (l : List AdmTask) : Nat := let (p, q) := admSum l; cdiv (1024 * p) q

end Sys2Proof.Machine
end

