-- ==== Sys2Proof/Machine/Alm.lean ====
section
/-! DEFINITION. The Almanac (R471 to R477): records, checkpoints, reading, freezing. -/
namespace Sys2Proof.Machine

/-- The numbering's modulus: 0xFFFF_FFFF is never a record number (R471). -/
def almMod : Nat := 2 ^ 32 - 1

namespace State

def setAlm (s : State) (a : Alm) : State := { s with alm := a }

/-- Records held, of at most 16 Mi (R471). -/
def almHeld (s : State) : Nat := (s.rd Reg.ALM_NEXT + almMod - s.rd Reg.ALM_OLDEST) % almMod

/-- ALM takes a waiting event and writes it as the next record (R471, R472, R475). -/
def almWrite (s : State) : State :=
  match s.alm.fifo with
  | [] => s
  | r :: rest =>
    if !s.alm.writing || s.alm.frozenBy.isSome then s else
    let r := { r with qual := putBits r.qual 4 1 (b2n s.alm.lostBefore) }
    let n := s.rd Reg.ALM_NEXT
    let full := decide (16777216 ≤ s.almHeld)
    let s := if full then
        let o := s.rd Reg.ALM_OLDEST
        let drop (m : Media) : Media := { m with alm := m.alm.erase o }
        ({ s with sto := { s.sto with ack := drop s.sto.ack, flash := drop s.sto.flash } } : State).wr Reg.ALM_OLDEST ((o + 1) % almMod)
      else s
    let s := s.stage 1 32 (.alm n r)
    let s := s.setAlm { s.alm with fifo := rest, lostBefore := false, wrapped := s.alm.wrapped || decide (n + 1 = almMod) }
    (s.wr Reg.ALM_NEXT ((n + 1) % almMod)).wr Reg.ALM_FIFO rest.length

/-- Write every waiting record (R471: when writing begins, and before the Drain record). -/
def almWriteAll (s : State) : Nat → State
  | 0 => s
  | k + 1 => almWriteAll s.almWrite k

/-- The counts as a checkpoint, the older one kept as the second copy (R473). -/
def almCheckpointNow (s : State) : State :=
  let c : AlmCkpt := { secs := s.opSecs, cycles := s.rd Reg.ALM_CYCLES, wrapped := s.alm.wrapped }
  (s.setAlm { s.alm with ckptB := s.alm.ckptA, ckptA := some c, lastCkpt := s.mono }).stage 1 32 (.note 1)

/-- Every 3600 s the counts are checkpointed (R473). -/
def almCheckpoint (s : State) : State :=
  if !s.alm.writing then s else
  (s.advanceMono (s.alm.lastCkpt + 3600 * 1000000000 * 65536)).almCheckpointNow

/-- At supply valid ALM resumes from the newest intact checkpoint; CYCLES increases by 1 before the first record (R473). `newBad` says
that the newest copy cannot be read. -/
def almPowerUp (s : State) (newBad : Bool) : State :=
  let c := if newBad then s.alm.ckptB else s.alm.ckptA
  let (secs, cyc, wrap) := match c with | some c => (c.secs, c.cycles, c.wrapped) | none => (0, 0, false)
  let s := s.setAlm { s.alm with
    fifo := [], writing := false, closed := false, frozenBy := none, lostBefore := false, wrapped := wrap, opSecs := secs, opFrom := s.mono,
    counting := true, lastCkpt := s.mono }
  let s := s.wr Reg.ALM_CYCLES ((cyc + 1) % 2 ^ 32)
  if newBad && s.alm.ckptA.isSome then s.raise 1794 else s

/-- Writing begins at step 6 of Table 2.3 (R471). -/
def almBegin (s : State) : State :=
  let s := s.setAlm { s.alm with writing := true }
  (s.almWriteAll s.alm.fifo.length).setBit Reg.ALM_STAT 0 true

/-- A freeze by a session (R477, R353). -/
def almFreeze (s : State) (session : Nat) : State :=
  (s.setAlm { s.alm with frozenBy := some session }).setBit Reg.ALM_STAT 1 true

/-- A freeze ends: the waiting records are written in order (R477). -/
def almRelease (s : State) : State :=
  if s.alm.frozenBy.isNone then s else
  let s := (s.setAlm { s.alm with frozenBy := none }).setBit Reg.ALM_STAT 1 false
  s.almWriteAll s.alm.fifo.length

/-- How far behind ALM_NEXT a record number lies (R476); none where it is at or beyond ALM_NEXT. -/
def almBehind (s : State) (n : Nat) : Option Nat :=
  let next := s.rd Reg.ALM_NEXT
  if s.alm.wrapped then (if n = next then none else some ((next + almMod - n) % almMod))
  else if n < next then some (next - n) else none

/-- The bytes of a record (Table 20.2) without its CRC. -/
def almBody (r : AlmRec) : List Byte :=
  leBytes 8 r.time ++ leBytes 3 r.hours ++ leBytes 1 r.qual ++ leBytes 4 r.cycles ++ leBytes 2 r.code ++ leBytes 1 r.block ++
  leBytes 1 r.arg ++ leBytes 8 r.det

/-- A record with the CRC of bytes 0x00 to 0x1B (R472). -/
def almBytes (r : AlmRec) : List Byte := almBody r ++ leBytes 4 (crc32 (almBody r))

/-- A record whose CRC fails reads as stored: its bytes are open (R476). -/
def almCorrupt (s : State) : List Byte × State :=
  let (v, s) := s.freshRow
  (leBytes 32 v.toNat, (s.bump Reg.ALM_CRCERR 1).setBit Reg.ALM_STAT 17 true)

/-- One record read (R476): as stored, or the lost record of code 0xFFFF. -/
def almReadOne (s : State) (n : Nat) : List Byte × State :=
  match s.stoRead 4 (n % 16777216 / 128) 32 with
  | (true, s) =>
    match s.sto.ack.alm.find? n with
    | some r => if r.crcBad then s.almCorrupt else (almBytes r, s)
    | none => ([], s)
  | (false, s) =>
    let lost : AlmRec := { time := 0, hours := 0, qual := 0, cycles := 0, code := 0xFFFF, block := 0, arg := 0, det := 0 }
    (almBytes lost, ((s.bump Reg.ALM_RDLOST 1).setBit Reg.ALM_STAT 17 true).raise 1793)

/-- ALM_READ's records (R476): where the response starts, how many records were skipped, and the records. -/
def almRead (s : State) (first count : Nat) : Nat × Nat × List Byte × State :=
  let oldest := s.rd Reg.ALM_OLDEST
  let held := s.almHeld
  let (start, skipped, avail) :=
    if first = 0xFFFFFFFF then (oldest, 0, held)
    else match s.almBehind first with
      | none => (first, 0, 0)
      | some d => if d ≤ held then (first, 0, d) else (oldest, (oldest + almMod - first) % almMod, held)
  let k := min (min count 40) avail
  let (bs, s) := (List.range k).foldl (fun (acc : List Byte × State) i =>
    let (b, s) := acc.2.almReadOne ((start + i) % almMod)
    (acc.1 ++ b, s)) (([] : List Byte), s)
  (start, skipped, bs, s)

end State

end Sys2Proof.Machine
end

