-- ==== Sys2Proof/Machine/Nvs.lean ====
section
/-! DEFINITION. NVS (R459 to R470): regions and their bytes, passwords and lockout, the owners' access ports, save and recall. -/
namespace Sys2Proof.Machine

namespace State

def setNvs (s : State) (x : Nvs) : State := { s with nvs := x }

/-- A region as the scantling defines it. -/
def region (s : State) (r : Nat) : Region := s.cfg.nvly.get {} r

/-- A region's passwords (0: open). -/
def pwRead (s : State) (r : Nat) : Nat := s.nvs.pwRd.get 0 r
def pwWrite (s : State) (r : Nat) : Nat := s.nvs.pwWr.get 0 r

/-- NVS_RSTAT's password and lockout bits as they stand. -/
def nvsRegs (s : State) (r : Nat) : State :=
  if (s.region r).defined then
    let v := b2n (s.pwRead r != 0) + b2n (s.pwWrite r != 0) * 2 + b2n (s.nvs.locked.contains r) * 4 + s.nvs.fails.get 0 r * 8
    s.setFld (Reg.NVS_RSTAT r) 0 7 v
  else s

/-! ### Bytes (R463, R468) -/

/-- A word of the shadow is read: a single error corrected and counted, an uncorrectable word counted and flagged, its source fired; true for
the latter. -/
def nvsWord (s : State) (w : Nat) : Bool × State :=
  if s.nvs.badWords.contains w then
    (true, ((s.bump Reg.NVS_ECCUNC 1).setBit Reg.NVS_STAT 16 true).raise 1666)
  else if s.nvs.weakWords.contains w then
    (false, (s.setNvs { s.nvs with weakWords := s.nvs.weakWords.filter (· != w) }).bump Reg.NVS_ECCCOR 1)
  else (false, s)

/-- Addresses in the region area of an access of `len` bytes at an offset of a region, which wraps at its SIZE (R463). -/
def nvsAddrs (s : State) (r off len : Nat) : List Nat :=
  let c := s.region r
  (List.range len).map (fun j => c.base + (off + j) % max 1 c.size)

/-- The distinct words of an access, in order of first use. -/
def nvsWords (as : List Nat) : List Nat := (as.map (· / 8)).eraseDups

/-- Read bytes of a region, and whether an uncorrectable word was among them (R463, R468). -/
def nvsRead (s : State) (r off len : Nat) : List Byte × Bool × State :=
  let as := s.nvsAddrs r off len
  let (bad, s) := (nvsWords as).foldl (fun (acc : Bool × State) w =>
    let (b, s) := acc.2.nvsWord w
    (acc.1 || b, s)) (false, s)
  (as.map (fun a => s.nvs.mem.get 0 a), bad, s)

/-- Write bytes of a region: bytes a word keeps are merged, and every word written has new check bits (R462, R468). -/
def nvsWrite (s : State) (r off : Nat) (bs : List Byte) : State :=
  let as := s.nvsAddrs r off bs.length
  let ws := nvsWords as
  let mem := (as.zip bs).foldl (fun m p => SMap.set 0 m p.1 p.2) s.nvs.mem
  let keep (l : List Nat) : List Nat := l.filter (fun w => !ws.contains w)
  let s := s.setNvs { s.nvs with mem := mem, badWords := keep s.nvs.badWords, weakWords := keep s.nvs.weakWords }
  s.bump (Reg.NVS_RWRCNT r) 1

/-- A region takes its default image, or zeros (R461). -/
def nvsDefault (s : State) (r : Nat) : State :=
  let c := s.region r
  if !c.defined then s else
  let clean : SMap Byte := s.nvs.mem.filter (fun p => decide (p.1 < c.base) || decide (c.base + c.size ≤ p.1))
  let img := (c.dflt.getD []).take c.size
  let mem := img.zipIdx.foldl (fun m p => SMap.set 0 m (c.base + p.2) p.1) clean
  let out (l : List Nat) : List Nat := l.filter (fun w => decide (w * 8 + 8 ≤ c.base) || decide (c.base + c.size ≤ w * 8))
  s.setNvs { s.nvs with mem := mem, badWords := out s.nvs.badWords, weakWords := out s.nvs.weakWords }

/-- Every region takes its default image (R461, R69, R70, R470). -/
def nvsDefaults (s : State) : State := forEach (s.cfg.nvly.map (·.1)) (fun s r => s.nvsDefault r) s

/-- The settings a reset keeps and drops (R69): regions take their defaults, passwords stay by region number. -/
def nvsReset (s : State) : State := s.nvsDefaults

/-- Passwords of regions no longer defined are discarded (R465). -/
def nvsDropPw (s : State) : State :=
  let keep (m : SMap Nat) : SMap Nat := m.filter (fun p => (s.region p.1).defined)
  s.setNvs { s.nvs with pwRd := keep s.nvs.pwRd, pwWr := keep s.nvs.pwWr }

/-! ### Passwords (R464 to R466) -/

/-- Does a password open a direction of a region (R465): zero leaves it open; the write password grants reads too. -/
def pwOpens (s : State) (r : Nat) (write : Bool) (pw : Nat) : Bool :=
  if write then s.pwWrite r == 0 || pw == s.pwWrite r
  else s.pwRead r == 0 || pw == s.pwRead r || (s.pwWrite r != 0 && pw == s.pwWrite r)

/-- A wrong password (R466): counted; the eighth in a row locks the region out, with its record. -/
def pwWrong (s : State) (r : Nat) : State :=
  let k := s.nvs.fails.get 0 r + 1
  let s := (s.setNvs { s.nvs with fails := s.nvs.fails.set 0 r k }).setBit (Reg.NVS_RSTAT r) 16 true
  let s := if 8 ≤ k then
      let s := s.setNvs { s.nvs with locked := r :: s.nvs.locked }
      ((s.setBit Reg.NVS_STAT 17 true).raise 1667).almEvent 0x0032 13 (s.region r).owner r
    else s
  s.nvsRegs r

/-- A password is tried on a region that is not locked out: true when it opens the direction (R466). -/
def pwTry (s : State) (r : Nat) (write : Bool) (pw : Nat) : Bool × State :=
  if s.pwOpens r write pw then (true, (s.setNvs { s.nvs with fails := s.nvs.fails.erase r }).nvsRegs r)
  else (false, s.pwWrong r)

/-- A Lorat access's checks after the owner check (R464): none when it may proceed, else 1 BADPARAM, 2 LOCKED, 3 PASSWORD. -/
def nvsCheck (s : State) (r off len : Nat) (write : Bool) (pw : Nat) : Option Nat × State :=
  let c := s.region r
  if !c.defined || decide (c.size ≤ off) || decide (c.size < len) then (some 1, s)
  else if s.nvs.locked.contains r then (some 2, s)
  else
    match s.pwTry r write pw with
    | (true, s) => (none, s)
    | (false, s) => (some 3, s)

/-! ### The access ports (R467) -/

def portUnlocked (s : State) (n : Nat) : Bool := s.fld (Reg.NVS_PSTAT n) 0 1 == 1
def portRegion (s : State) (n : Nat) : Nat := s.fld (Reg.NVS_PSEL n) 0 6
def portDir (s : State) (n : Nat) : Bool := s.fld (Reg.NVS_PSEL n) 8 1 == 1
def portBad (s : State) (n : Nat) : State := s.setBit (Reg.NVS_PSTAT n) 17 true

/-- May owner n's port work on a region: defined, and the owner's own (O0 reaches every region, R25)? -/
def portReach (s : State) (n r : Nat) : Bool :=
  (s.region r).defined && (n == 0 || (s.region r).owner == n)

/-- PSTAT.LOCKED follows the region selected. -/
def portLockReg (s : State) (n : Nat) : State :=
  s.setBit (Reg.NVS_PSTAT n) 1 (s.nvs.locked.contains (s.portRegion n))

/-- A write of NVS_PSEL: the port locks, and unlocks at once where the direction is open. -/
def portSelect (s : State) (n v : Nat) : State :=
  let r := bits v 0 6
  let w := bit v 8
  let s := (s.wr (Reg.NVS_PSEL n) (r + b2n w * 256)).setBit (Reg.NVS_PSTAT n) 0 false
  let s := s.portLockReg n
  if !s.portReach n r then s.portBad n
  else if s.nvs.locked.contains r then s
  else if (if w then s.pwWrite r else s.pwRead r) = 0 then s.setBit (Reg.NVS_PSTAT n) 0 true
  else s

/-- The high word of NVS_PPWD is written: the 64-bit password is checked. -/
def portPassword (s : State) (n pw : Nat) : State :=
  let r := s.portRegion n
  if !s.portReach n r || s.portUnlocked n || s.nvs.locked.contains r then s.portBad n
  else
    match s.pwTry r (s.portDir n) pw with
    | (true, s) => s.setBit (Reg.NVS_PSTAT n) 0 true
    | (false, s) => (s.setBit (Reg.NVS_PSTAT n) 18 true).portLockReg n

/-- Is a data access of the port allowed in a direction? -/
def portOk (s : State) (n : Nat) (write : Bool) : Bool :=
  let off := s.rd (Reg.NVS_POFF n)
  let r := s.portRegion n
  s.portReach n r && s.portUnlocked n && !s.nvs.locked.contains r && (s.portDir n == write || !write) && off % 4 == 0 &&
  decide (off < (s.region r).size)

/-- NVS_POFF advances by 4, wrapping at SIZE. -/
def portStep (s : State) (n : Nat) : State :=
  s.wr (Reg.NVS_POFF n) ((s.rd (Reg.NVS_POFF n) + 4) % max 1 (s.region (s.portRegion n)).size)

/-- A read of NVS_PDATA: the word, or 0 with BADOP. -/
def portRead (s : State) (n : Nat) : Nat × State :=
  if s.portOk n false then
    let (bs, bad, s) := s.nvsRead (s.portRegion n) (s.rd (Reg.NVS_POFF n)) 4
    let s := if bad then s.setBit (Reg.NVS_PSTAT n) 16 true else s
    (leNat bs, s.portStep n)
  else (0, s.portBad n)

/-- A write of NVS_PDATA. -/
def portWrite (s : State) (n v : Nat) : State :=
  if s.portOk n true then (s.nvsWrite (s.portRegion n) (s.rd (Reg.NVS_POFF n)) (leBytes 4 v)).portStep n
  else s.portBad n

/-- The 64-bit value NVS_PNEW holds. -/
def portNew (s : State) (n : Nat) : Nat := s.rd64 (Reg.NVS_PNEW n)

/-- May PCMD act: the write direction selected and unlocked? -/
def portCmdOk (s : State) (n : Nat) : Bool :=
  let r := s.portRegion n
  s.portReach n r && s.portUnlocked n && !s.nvs.locked.contains r && s.portDir n

/-- SETRD: the read password becomes what NVS_PNEW holds. -/
def portSetRd (s : State) (n : Nat) : State :=
  if s.portCmdOk n then
    let r := s.portRegion n
    (s.setNvs { s.nvs with pwRd := s.nvs.pwRd.set 0 r (s.portNew n) }).nvsRegs r
  else s.portBad n

/-- SETWR: the write password becomes what NVS_PNEW holds. -/
def portSetWr (s : State) (n : Nat) : State :=
  if s.portCmdOk n then
    let r := s.portRegion n
    (s.setNvs { s.nvs with pwWr := s.nvs.pwWr.set 0 r (s.portNew n) }).nvsRegs r
  else s.portBad n

/-- A write of NVS_PCMD. -/
def portCmd (s : State) (n v : Nat) : State :=
  let s := if bit v 0 then s.portSetRd n else s
  if bit v 1 then s.portSetWr n else s

/-! ### Save and recall (R469, R470, R433) -/

/-- The registers of a loop's retained state: i, f, xprev, uprev, region, yhat. -/
def loopKeep (s : State) (i : Nat) : List Nat :=
  [s.rd (Reg.LOP_I i), s.rd (Reg.LOP_F i), s.rd (Reg.LOP_X i), s.rd (Reg.LOP_U i), s.fld (Reg.LOP_STAT i) 0 3, s.rd (Reg.LOP_YHAT i)]

/-- The states of the RETAIN loops that have one. -/
def loopsKeep (s : State) : SMap (List Nat) :=
  (s.cfg.loops.map (·.1)).filterMap (fun i =>
    if s.loopDef i && (s.loopCfg i).retain && !(s.loop i).init then some (i, s.loopKeep i) else none)

/-- Recalled states of the RETAIN loops, where the image is the newest one (R433, R46). -/
def loopsRecall (s : State) : State :=
  if !s.nvs.newest then s else
  forEach s.nvs.sys.loops (fun s p =>
    if s.loopDef p.1 && (s.loopCfg p.1).retain then
      let v (k : Nat) : Nat := p.2.getD k 0
      let s := (((s.wr (Reg.LOP_I p.1) (v 0)).wr (Reg.LOP_F p.1) (v 1)).wr (Reg.LOP_X p.1) (v 2)).wr (Reg.LOP_U p.1) (v 3)
      let s := (s.setFld (Reg.LOP_STAT p.1) 0 3 (v 4)).wr (Reg.LOP_YHAT p.1) (v 5)
      s.setLoop p.1 { s.loop p.1 with init := false }
    else s) s

/-- The whole shadow as a save image. -/
def nvsImage (s : State) (seq : Nat) : NvsImage :=
  { seq := seq, setfmt := s.nvs.setfmt, whole := true, mem := s.nvs.mem, pwRd := s.nvs.pwRd, pwWr := s.nvs.pwWr, sys := s.nvs.sys }

/-- Is image A the newer complete one? -/
def newerA (s : State) : Bool :=
  s.nvs.imgA.whole && (!s.nvs.imgB.whole || decide (s.nvs.imgB.seq < s.nvs.imgA.seq))

/-- The save at step 5 of Table 2.5 (R469): over the older image; `ok` says that it completes. A save that fails leaves that image incomplete,
and is reported where the supply is present. -/
def nvsSave (s : State) (ok : Bool) : State :=
  let s := s.setNvs { s.nvs with sys := { s.nvs.sys with loops := s.loopsKeep } }
  let seq := max (if s.nvs.imgA.whole then s.nvs.imgA.seq else 0) (if s.nvs.imgB.whole then s.nvs.imgB.seq else 0) + 1
  let img := { s.nvsImage seq with whole := ok }
  let s := if s.newerA then s.setNvs { s.nvs with imgB := img } else s.setNvs { s.nvs with imgA := img }
  if ok then (s.bump Reg.NVS_SAVES 1).wr64 Reg.NVS_SAVESEQ seq
  else if s.pw.inputOk then (s.setBit Reg.NVS_STAT 18 true).raise 1669
  else s

/-- The shadow takes an image. -/
def nvsTake (s : State) (x : NvsImage) : State :=
  (s.setNvs { s.nvs with mem := x.mem, pwRd := x.pwRd, pwWr := x.pwWr, sys := x.sys, setfmt := x.setfmt }).wr64 Reg.NVS_SAVESEQ x.seq

/-- Recall (R470, R46). `newBad` says that the image with the higher sequence number fails its digest as it loads. Answers whether there
was no complete image: then regions take their defaults once the scantling is known. -/
def nvsRecall (s : State) (newBad : Bool) : Bool × State :=
  let s := s.setNvs { s.nvs with fails := [], locked := [], badWords := [], weakWords := [], newest := true }
  let (a, b) := if s.newerA then (s.nvs.imgA, s.nvs.imgB) else (s.nvs.imgB, s.nvs.imgA)
  if a.whole && !newBad then (false, s.nvsTake a)
  else if a.whole && b.whole then
    let s := (s.nvsTake b).setBit Reg.NVS_STAT 1 true
    let s := s.setNvs { s.nvs with newest := false, imgA := { s.nvs.imgA with whole := s.nvs.imgA.seq == b.seq },
                                   imgB := { s.nvs.imgB with whole := s.nvs.imgB.seq == b.seq } }
    (false, (s.raise 1664).almEvent 0x0030 13 0xFF b.seq)
  else
    let s := s.setNvs { s.nvs with mem := [], pwRd := [], pwWr := [], sys := {}, newest := false }
    let s := (s.setBit Reg.NVS_STAT 2 true).raise 1668
    (true, s.almEvent 0x0031 13 1 s.nvs.setfmt)

/-- The NVS plane takes effect: the region registers. -/
def nvsPlane (s : State) : State :=
  forEach (List.range 64) (fun s r =>
    let c := s.region r
    if !c.defined then ((s.wr (Reg.NVS_RCFG r) 0).wr (Reg.NVS_RBASE r) 0).wr (Reg.NVS_RSIZE r) 0 else
    let s := s.wr (Reg.NVS_RCFG r) (1 + c.owner * 2 + b2n c.dflt.isSome * 16)
    ((s.wr (Reg.NVS_RBASE r) c.base).wr (Reg.NVS_RSIZE r) c.size).nvsRegs r) s

/-- At the end of Configure NVS's plane is loaded: READY, and the retained loop states. -/
def nvsConfigure (s : State) : State :=
  let s := s.setNvs { s.nvs with ready := true }
  (s.setBit Reg.NVS_STAT 0 true).loopsRecall

end State

end Sys2Proof.Machine
end

