-- ==== Sys2Proof/Machine/Flags.lean ====
section
/-! DEFINITION. The results the Guaris instructions compute (groups 0x0 to 0x7, R122 to R132): row and lane logic, integers, compares
and conversions, and the lane timers' rule (R127). The engines keep no flag register: a compare pushes its result (R131). -/
namespace Sys2Proof.Machine

/-- Bits [63:0] of an entry (R89). -/
def scalar (r : Row) : Nat := r.toNat % 2 ^ 64

/-- A scalar result: bits [63:0], the rest 0 (R89). -/
def ofScalar (v : Nat) : Row := BitVec.ofNat 256 (v % 2 ^ 64)

/-- A signed result, wrapped to 64 bits. -/
def ofInt (i : Int) : Row := BitVec.ofNat 256 (unsigned 64 i)

/-- A scalar as a signed integer. -/
def sscalar (r : Row) : Int := signed 64 (scalar r)

/-- A truth value as a scalar (R131). -/
def ofBool (b : Bool) : Row := ofScalar (b2n b)

/-- Saturate to the signed 64-bit range. -/
def satInt (i : Int) : Int :=
  if i < -(2 ^ 63 : Int) then -(2 ^ 63 : Int) else if (2 ^ 63 : Int) - 1 < i then (2 ^ 63 : Int) - 1 else i

/-! ### Lanes (Table 5.6) -/

def laneShU (r : Row) (n : Nat) : Row := if n ≥ 256 then 0 else r <<< n
def laneShD (r : Row) (n : Nat) : Row := if n ≥ 256 then 0 else r >>> n
def laneRot (r : Row) (n : Nat) : Row := (r <<< (n % 256)) ||| (if n % 256 = 0 then 0 else r >>> (256 - n % 256))
def laneBcast (r : Row) (n : Nat) : Row := if n < 256 ∧ r.getLsbD n then BitVec.allOnes 256 else 0
def laneCount (r : Row) : Nat := (List.range 256).foldl (fun a i => a + b2n (r.getLsbD i)) 0
def laneLow (n : Nat) : Row := if n ≥ 256 then BitVec.allOnes 256 else BitVec.ofNat 256 (2 ^ n - 1)

/-! ### Integers (R129) -/

/-- Shift counts are taken modulo 64. -/
def shCount (r : Row) : Nat := scalar r % 64

/-- Signed division truncating toward zero, with the minimum over -1 wrapping to the minimum. -/
def divS (a b : Int) : Int := a.tdiv b
/-- The remainder with the dividend's sign. -/
def remS (a b : Int) : Int := a.tmod b

/-! ### Reals (R89, R130) -/

/-- A real operand of a form. -/
def realOf (dbl : Bool) (r : Row) : Nat := r.toNat % 2 ^ (fmtOf dbl).width
/-- A real result: a binary32 one leaves bits [63:32] 0 (R89). -/
def ofReal (v : Nat) : Row := ofScalar v

/-! ### Conversion (R132) -/

/-- Sign-extend the low n bits. -/
def sext (n : Nat) (r : Row) : Row := ofInt (signed n (scalar r))
/-- Zero-extend the low n bits. -/
def zext (n : Nat) (r : Row) : Row := ofScalar (scalar r % 2 ^ n)
/-- Replace word k of a row. -/
def setWord (r : Row) (k v : Nat) : Row := BitVec.ofNat 256 (putBits r.toNat (64 * k) 64 v)

/-! ### Lane timers (R126, R127) -/

/-- What a timer instruction computes per lane. -/
inductive TimerKind where
  | ton | tof | tp
  deriving DecidableEq, Repr

/-- A lane of a timer block: PREV, Q, RUN and START. -/
structure Lane where
  prev : Bool
  q : Bool
  run : Bool
  start : Nat
  deriving DecidableEq, Repr

/-- Has a lane's interval elapsed: now - start, signed 64-bit, 0 if negative, at least pt (R127)? -/
def laneDue (now pt start : Nat) : Bool :=
  let d := signed 64 ((now + 2 ^ 64 - start % 2 ^ 64) % 2 ^ 64)
  decide (pt ≤ (if d < 0 then 0 else d.toNat))

/-- One lane of TON, TOF or TP (R127). -/
def laneStep (k : TimerKind) (now pt : Nat) (x : Bool) (l : Lane) : Lane :=
  match k with
  | .ton =>
    let l' := if !x then { l with run := false, q := false }
      else if !l.prev then { l with start := now, run := decide (pt ≠ 0), q := decide (pt = 0) }
      else if l.run && laneDue now pt l.start then { l with run := false, q := true } else l
    { l' with prev := x }
  | .tof =>
    let l' := if x then { l with run := false, q := true }
      else if l.prev then { l with start := now, run := decide (pt ≠ 0), q := decide (pt ≠ 0) }
      else if l.run && laneDue now pt l.start then { l with run := false, q := false } else l
    { l' with prev := x }
  | .tp =>
    let l1 := if l.run && laneDue now pt l.start then { l with run := false, q := false } else l
    let l2 := if !l1.run && x && !l1.prev && decide (pt ≠ 0) then { l1 with start := now, run := true, q := true } else l1
    { l2 with prev := x }

/-- Does a lane start in this execution, or run: is its stamp line read (R128)? It is written if it starts. -/
def laneStarts (k : TimerKind) (now pt : Nat) (x : Bool) (l : Lane) : Bool :=
  match k with
  | .ton => x && !l.prev
  | .tof => !x && l.prev
  | .tp => (!l.run || laneDue now pt l.start) && x && !l.prev && decide (pt ≠ 0)

end Sys2Proof.Machine
end

