-- ==== Sys2Proof/Machine/Operands.lean ====
section
/-! DEFINITION. Operand forms of the Guaris memory instructions: element addresses and their checks (R94 to R98), and an engine's
accesses to its data spaces through its store buffer (R100, R142) and to the image (R99, R154, R162). Space codes are those of
Table 4.5. Engine 256, the management engine, has its private SRAM instead (R480). -/
namespace Sys2Proof.Machine

/-- The memory operations (Table 5.20). -/
inductive MemOp where
  | ldb | stb | ldr | str | strm | ldw | stw | ldl | stl | lr | sc | tset | ldc
  deriving DecidableEq, Repr

/-- The op code (Table 5.20). -/
def MemOp.code : MemOp → Nat
  | .ldb => 0 | .stb => 1 | .ldr => 2 | .str => 3 | .strm => 4 | .ldw => 5 | .stw => 6 | .ldl => 7 | .stl => 8
  | .lr => 9 | .sc => 10 | .tset => 11 | .ldc => 12

/-- Element size in bits (Table 4.6). -/
def MemOp.size : MemOp → Nat
  | .ldb => 1 | .stb => 1 | .tset => 1
  | .ldr => 256 | .str => 256 | .strm => 256 | .ldc => 256
  | .ldw => 32 | .stw => 32
  | .ldl => 64 | .stl => 64 | .lr => 64 | .sc => 64

/-- Is the operation allowed on the space (Table 4.5)? -/
def MemOp.allowed (o : MemOp) (space : Nat) : Bool :=
  match space with
  | 0 => o == .ldb || o == .ldr || o == .ldc
  | 1 => o == .ldb || o == .ldr || o == .stb || o == .str || o == .strm || o == .ldc
  | 2 => o == .ldb || o == .ldr || o == .stb || o == .str || o == .strm || o == .ldc
  | 3 => o == .ldb || o == .ldr
  | 4 => o == .ldb || o == .ldr || o == .stb || o == .str || o == .strm || o == .tset
  | 5 => o != .tset
  | 6 => o != .tset
  | 7 => o == .ldb || o == .ldr || o == .ldw || o == .ldl
  | _ => false

/-- KEEP's advance: the element size in the address's own unit (Table 4.7): bits in an image space and for single bits, bytes
otherwise. -/
def MemOp.step (o : MemOp) (space : Nat) : Nat :=
  if space < 5 then o.size else if o.size = 1 then 1 else o.size / 8

/-- A memory word (R141). -/
def MemOp.word (o : MemOp) (space mod : Nat) : Nat := 0x1000 + o.code * 256 + space % 16 * 16 + mod % 16

/-- An address as checked: an image row and bit, a data element (its byte offset and bit in it), or an exception code (R96, R97). -/
inductive Elem where
  | row (row bit : Nat)
  | byte (off bit : Nat)
  | exc (code : Nat)
  deriving DecidableEq, Repr

/-- How a data access ends: the bytes and whether the buffer held them all; an exception (code, kind, address); or a stall. -/
inductive MemRes where
  | ok (data : List Byte) (fromBuf : Bool)
  | exc (code kind addr : Nat)
  | stall (st : Stall)
  deriving DecidableEq, Repr

namespace State

/-- The size of a data space as an engine sees it (R97, R480). -/
def engSpaceSize (s : State) (e space : Nat) : Nat :=
  if e = 256 then
    match s.cfg.mgtp with
    | some m => if space = 5 then m.dataLen else if space = 7 then m.const.length else 0
    | none => 0
  else (s.spaceBase (s.engOwner e) space).2

/-- Check an image-space address (R96, R95): range first, then alignment (Table 5.1 stage 5). -/
def imageElem (s : State) (n space size a : Nat) : Elem :=
  match s.absRow n space a with
  | none => .exc 0x09
  | some row => if size = 256 ∧ a % 256 ≠ 0 then .exc 0x0A else .row row (a % 256)

/-- Check a data-space address (R97, R95). -/
def dataElem (s : State) (e space size a : Nat) : Elem :=
  let lim := s.engSpaceSize e space
  if size = 1 then
    if 2 ^ 51 ≤ a ∨ lim * 8 ≤ a then .exc 0x09 else .byte (a / 8) (a % 8)
  else
    let len := size / 8
    if 2 ^ 48 ≤ a ∨ lim < a + len then .exc 0x09
    else if a % len ≠ 0 then .exc 0x0A else .byte a 0

/-- Check the address of a memory operation (R95 to R97). -/
def elem (s : State) (e : Nat) (o : MemOp) (space a : Nat) : Elem :=
  if space < 5 then s.imageElem (s.engOwner e) space o.size a else s.dataElem e space o.size a

/-! ### Data spaces -/

/-- The task an engine runs, for exception records (0xFFFF: none). -/
def engTask (s : State) (e : Nat) : Nat := (s.eng e).task.getD 0xFFFF

/-- Is the engine's task deterministic (R190)? -/
def engDet (s : State) (e : Nat) : Bool :=
  match (s.eng e).task with
  | some k => (s.taskCfg k).det
  | none => false

/-- Translate for an engine; an instruction issued again after a wait does not count its miss again (log entry 15). -/
def engXlat (s : State) (e va : Nat) : Xlat × State :=
  let m := e / 4
  let again := decide (0 < (s.eng e).waited)
  let (x, t) := s.translate m (s.engOwner e) va (s.engTask e)
  (x, if again then (t.wr (Reg.MMU_TCMISS m) (s.rd (Reg.MMU_TCMISS m))).wr64 (Reg.MMU_TCHIT m) (s.rd64 (Reg.MMU_TCHIT m)) else t)

/-- A page must come in: a deterministic task takes PAGEIN, any other waits (R274). -/
def pageWait (s : State) (e va : Nat) : MemRes × State :=
  let n := s.engOwner e
  if s.engDet e then (.exc 0x12 0 va, s.detPage n va (s.engTask e))
  else (.stall (.page n (va / 65536)), s)

/-- Bytes of the management engine's private SRAM (R480): DATA, or CONST from MGTP. -/
def mgtBytes (s : State) (space off len : Nat) : List Byte :=
  (List.range len).map (fun i =>
    if space = 7 then (match s.cfg.mgtp with | some m => (m.const.drop (off + i)).headD 0 | none => 0)
    else s.mgt.engSram.get 0 (off + i))

/-- Write bytes of the management engine's DATA. -/
def mgtStore (s : State) (off : Nat) (bs : List Byte) : State :=
  { s with mgt := { s.mgt with engSram := (bs.zipIdx).foldl (fun m p => m.set 0 (off + p.2) p.1) s.mgt.engSram } }

/-- Load `len` bytes that lie in one line of a data space (R99, R100, R142): from the buffer when it holds them all, else the
line from DRAM with the buffered bytes over it. -/
def loadBytes (s : State) (e space off len : Nat) : MemRes × State :=
  if e = 256 then (.ok (s.mgtBytes space off len) false, s) else
  let n := s.engOwner e
  let va := (s.spaceBase n space).1 + off
  let (buf, held) := s.bufLine e va
  let want : Line64 := BitVec.ofNat 512 ((2 ^ (8 * len) - 1) * 2 ^ (8 * (va % 64)))
  let cut (l : Line64) : List Byte := ((leBytes 64 l.toNat).drop (va % 64)).take len
  if held &&& want = want then (.ok (cut buf) true, s) else
  match s.engXlat e va with
  | (.zero, s) => (.ok (cut (mergeBits 0 buf held)) false, s)
  | (.frame f _, s) =>
    match s.readLine n f va (s.engTask e) with
    | (some d, s) => (.ok (cut (mergeBits d buf held)) false, s)
    | (none, s) => (.exc 0x10 0 va, s)
  | (.exc c l, s) => (.exc c l va, s)
  | (.pageIn, s) => s.pageWait e va

/-- Store the masked bits of bytes that lie in one line of DATA or RETAIN into the store buffer (R100), after translation; a refused older line
that had to leave is answered as POISONWR against the store that made it (R142). -/
def storeBytes (s : State) (e space off : Nat) (bs : List Byte) (mask : Nat) (pc word : Nat) : MemRes × Option SbLine × State :=
  if e = 256 then
    let old := s.mgtBytes space off bs.length
    let m := mask % 2 ^ (8 * bs.length)
    let new := leBytes bs.length (leNat old - (leNat old &&& m) + (leNat bs &&& m))
    (.ok [] false, none, s.mgtStore off new)
  else
  let n := s.engOwner e
  let va := (s.spaceBase n space).1 + off
  let put (s : State) : MemRes × Option SbLine × State :=
    let data : Line64 := BitVec.ofNat 512 (leNat bs * 2 ^ (8 * (va % 64)))
    let bytes : Line64 := BitVec.ofNat 512 (mask % 2 ^ (8 * bs.length) * 2 ^ (8 * (va % 64)))
    let (bad, s) := s.bufStore e va data bytes pc word space
    (.ok [] false, bad, s)
  match s.engXlat e va with
  | (.zero, s) => put s
  | (.frame _ _, s) => put s
  | (.exc c l, s) => (.exc c l va, none, s)
  | (.pageIn, s) => let (r, s) := s.pageWait e va; (r, none, s)

/-- A frame for a direct write to an engine's line, by translation (SC, timer bursts); a fresh page is given a prepared frame. -/
def lineFrame (s : State) (e va : Nat) : (MemRes ⊕ Nat) × State :=
  match s.engXlat e va with
  | (.frame f _, s) => (.inr f, s)
  | (.zero, s) =>
    match s.allocPage (s.engOwner e) va false false with
    | (some f, s) => (.inr f, s)
    | (none, s) => (.inl (.stall .frame), s)
  | (.exc c l, s) => (.inl (.exc c l va), s)
  | (.pageIn, s) => let (r, s) := s.pageWait e va; (.inl r, s)

/-- The key of a line of an owner's initial-value images. -/
def initKey (n target off : Nat) : Nat := n * 2 ^ 52 + target * 2 ^ 48 + off / 64

/-- LDC's read of an initial-value image (R95): the target codes are those of Table 3.20. -/
def loadInit (s : State) (e space off : Nat) : MemRes × State :=
  let n := s.engOwner e
  let target := if space < 3 then space + 3 else space - 4
  let va := if space < 5 then off else (s.spaceBase n space).1 + off
  let walked : Option Nat × Option Nat :=
    if space < 5 then (none, none) else
    match walk s.mmu n va with
    | .fault l => (some 0x0E, some l)
    | .dev l => (some 0x0F, some l)
    | _ => (none, none)
  match walked.1 with
  | some c => (.exc c (walked.2.getD 0) va, s.walkEvent n va c (s.engTask e))
  | none =>
    if s.mmu.initBad.contains (initKey n target off) then
      let s := (s.bump (Reg.MMU_TAGFAIL n) 1).setBit (Reg.MMU_OSTAT n) 8 true
      let (v, s) := s.fresh
      (.exc 0x10 0 (if space < 5 then v % 2 ^ 64 else va), s.raise (400 + n) (s.engTask e) 0x10)
    else (.ok (initBytes (s.cnst n) target off 32) false, s)

/-! ### Image spaces -/

/-- What a task reads of a row (R99, R158): SEM as it stands; other spaces as at the read epoch, its own staged bits over it. -/
def imageRead (s : State) (e space row : Nat) : Row × State :=
  if space = 4 then (s.img.sem.get 0 row, s) else
  match (s.eng e).task with
  | none => (s.curBits row, s)
  | some k =>
    let x := s.task k
    let s := s.eccRead row k
    let v := s.readRowAt (s.engOwner e) space row x.relAt
    let (sv, sm) := x.staged.get (0, 0) row
    (mergeRow v sv sm, s)

/-- Write SEM bits at once and indivisibly (R144, R158); a cleared bit may end waits (R134 kind 5). -/
def semWrite (s : State) (n row : Nat) (val mask : Row) : State :=
  let new := mergeRow (s.img.sem.get 0 row) val mask
  let s : State := { s with img := { s.img with sem := s.img.sem.set 0 row new } }
  s.semWake n

/-- Stage bits of an OUT or MRK row for a release (R154). -/
def stageBits (s : State) (k row : Nat) (val mask : Row) : State :=
  let x := s.task k
  let (v, m) := x.staged.get (0, 0) row
  let s := s.setTask k { x with staged := x.staged.insert row (mergeRow v (val &&& mask) mask, m ||| mask) }
  s.poolRegs (s.taskCfg k).owner

/-- Does a store of a release to this row need a staging row that the owner's quota lacks (R162)? -/
def poolFull (s : State) (k row : Nat) : Bool :=
  let n := (s.taskCfg k).owner
  ((s.task k).staged.find? row).isNone && decide ((s.imgf n).quota ≤ s.inUse n)

end State

end Sys2Proof.Machine
end

