-- ==== Sys2Proof/Machine/Run.lean ====
section
/-! DEFINITION. How an engine runs one instruction: the fetch, decode and stack checks of stages 1 to 4 of Table 5.1, the common
completion (stack, delay slot, handshakes, reservation age), and taking an exception (R113). -/
namespace Sys2Proof.Machine

/-- What stages 1 to 4 need to know of an instruction: its word, whether it is forbidden in a delay slot (R107), illegal (R145),
refused by Table 4.5; its space code; inputs and outputs; return-stack entries needed and added; its base cost and its worst
wait in ps; whether its value is late in the lean regime (R111); whether it drains the store buffer first (R101). -/
structure OpInfo where
  word : Nat
  slotBad : Bool := false
  illegal : Bool := false
  denied : Bool := false
  space : Nat := 0
  nin : Nat := 0
  nout : Nat := 0
  rin : Nat := 0
  rout : Nat := 0
  base : Nat := 1
  worst : Nat := 0
  late : Nat := 0
  drains : Bool := false
  deriving DecidableEq, Repr

/-- How an instruction ends that passed its checks: outputs (TOS first), its base cost, a flow target and whether it is taken,
a return point pushed or popped, and what follows once the instruction is complete. -/
structure Done where
  outs : List Row := []
  base : Nat := 1
  goto : Option (Nat × Bool) := none
  rpush : Option Nat := none
  rpop : Bool := false
  post : State → State := id

/-- The end of an instruction's own work. -/
inductive Res where
  | ok (d : Done)
  | exc (code kind addr : Nat)
  | older (l : SbLine)
  | stall (st : Stall)

/-- The line of an unused program location is a guard line (Table 4.3). -/
def guardLine : Nat := 3 * 2 ^ 126

namespace State

/-- Does the engine run in the lean regime (R105)? -/
def leanRegime (s : State) (e : Nat) : Bool :=
  e != 256 && (s.ms.mode == .lean || s.ms.mode == .recovery || s.bentTesting (e / 4))

/-- Can the engine start an instruction: it runs a context and is not stalled (R79), in an awake bent; the management engine runs
its release; lean code runs in an awake bent (Table 4.8). -/
def canIssue (s : State) (e : Nat) : Bool :=
  let x := s.eng e
  x.stall == .none &&
  (if e = 256 then s.mgt.engRunning
   else decide (e < 256) && (s.bent (e / 4)).awake && (x.running || s.leanRegime e))

/-- Lines of the engine's program range (R91, R480). -/
def progLen (s : State) (e : Nat) : Nat :=
  if e = 256 then (match s.cfg.mgtp with | some m => m.lines.length | none => 0) else (s.ownerCfg (s.engOwner e)).prgLen

/-- A program line of the engine's range and where the store holds it (the management engine has its own memory, R480). -/
def progLine (s : State) (e line : Nat) : Nat × Option Nat :=
  if e = 256 then ((match s.cfg.mgtp with | some m => m.lines.getD line guardLine | none => guardLine), none)
  else let a := (s.ownerCfg (s.engOwner e)).prgBase + line; (s.prog.get guardLine a, some a)

/-- Stage 1 of Table 5.1: an exception (code, kind, address), or the state after a corrected error (R91, R93, R90). -/
def fetch (s : State) (e pc : Nat) : Option (Nat × Nat × Nat) × State :=
  if s.leanRegime e then (none, s) else
  let line := pc / 9
  if s.progLen e ≤ line then (some (0x08, 0, pc), s) else
  let (v, at_) := s.progLine e line
  let has (l : List Nat) : Bool := match at_ with | some a => l.contains a | none => false
  if has s.progBad then (some (0x13, 0, line), s) else
  let s := if has s.progWeak then
      ({ s with progWeak := s.progWeak.filter (fun a => at_ != some a) } : State).bump (Reg.ENG_PECC e) 1 else s
  let kind := bits v 126 2
  if kind ≠ 0 then (some (0x07, kind, 0), s) else (none, s)

/-- Count handshakes of an engine and of the release it runs (R83). -/
def addHs (s : State) (e n : Nat) : State :=
  if e = 256 then { s with mgt := { s.mgt with engHs := s.mgt.engHs + n } } else
  let s := s.bump64 (Reg.ENG_HSCNT e) n
  match (s.eng e).task with
  | some k => let x := s.task k; s.setTask k { x with hs := x.hs + n }
  | none => s

/-- Write an exception record to the engine's registers (R113 step 3, Tables 4.14 to 4.16). -/
def excRegs (s : State) (e : Nat) (r : ExcRec) : State :=
  let s := s.wr (Reg.ENG_EXC e) (r.code + b2n r.inslot * 256 + r.task % 512 * 512 + b2n r.lean * 2 ^ 18 + 2 ^ 31)
  let s := s.wr (Reg.ENG_EXCPC e) (pcForm r.pc + 2 ^ 31)
  let s := s.wr (Reg.ENG_EXCFLOW e) (if r.inslot then pcForm r.flow + 2 ^ 31 else 0)
  let s := s.wr (Reg.ENG_EXCDET e) (r.word % 2 ^ 14 + r.space % 16 * 2 ^ 14 + r.kind % 16 * 2 ^ 18)
  (s.wr64 (Reg.ENG_EXCADDR e) r.addr).bump (Reg.ENG_EXCCNT e) 1

/-- Take an exception (R113, R104, R525): the buffer drains, the staged writes go, the reservation is lost, the record is written,
F(64 + m) fires, the task ends without commit. The management engine's ends its release (R482). -/
def takeExc (s : State) (e hs : Nat) (r : ExcRec) : State :=
  if e = 256 then
    let s : State := { s with mgt := { s.mgt with engRunning := false } }
    let s := ((s.setEng 256 {}).wr Reg.MGT_ENGEXC (r.code + 2 ^ 31)).wr Reg.MGT_ENGPC (pcForm r.pc + 2 ^ 31)
    let s := (s.setBit Reg.MGT_ENGSTAT 1 false).setBit Reg.MGT_STAT 18 true
    let (v, s) := s.fresh
    (s.mgtLog 0x07 (v % 65536) (v / 65536)).raise 1921 0xFFFF r.code
  else
    let (_, s) := s.drain e
    let s := s.addHs e hs
    let x := s.eng e
    let task := x.task.getD 0
    let r := { r with task := task, lean := s.leanRegime e }
    let s := (s.setEng e { x with resv := none, ctx := { x.ctx with exc := r } }).excRegs e r
    let s := s.raise (64 + e / 4) (x.task.getD 0xFFFF) r.code
    match x.task with
    | none => s
    | some k =>
      let t := s.task k
      let s := s.setTask k { t with ctx := { t.ctx with exc := r } }
      let s := (s.endRelease k).pendAfter k
      s.dispatch (s.taskCfg k).owner

/-- The record of an exception of the instruction at the program counter. -/
def excHere (s : State) (e : Nat) (i : OpInfo) (code kind addr : Nat) : ExcRec :=
  let c := (s.eng e).ctx
  let noWord := code == 0x07 || code == 0x13
  let spaced := (0x09 ≤ code && code ≤ 0x0B) || (0x0E ≤ code && code ≤ 0x12)
  { code := code, inslot := c.flow.isSome, pc := c.pc, flow := (match c.flow with | some f => f.target | none => 0),
    word := if noWord then 0 else i.word, space := if spaced then i.space else 0, kind := kind, addr := addr }

/-- The record of a refused older store (R142): its own program counter and word. -/
def excOlder (l : SbLine) : ExcRec :=
  { code := 0x11, pc := l.pc, word := l.word, space := l.space, addr := l.va }

/-- The first failing check of stages 2 to 4 (Table 5.1), as (code, address). -/
def decodeExc (s : State) (e : Nat) (i : OpInfo) : Option (Nat × Nat) :=
  let c := (s.eng e).ctx
  let depth := c.stack.length
  if i.illegal then some (0x05, 0)
  else if i.slotBad && c.flow.isSome then some (0x06, 0)
  else if i.denied then some (0x0B, match c.stack with | r :: _ => scalar r | [] => 0)
  else if depth < i.nin then some (0x02, 0)
  else if 16 < depth - i.nin + i.nout then some (0x01, 0)
  else if c.rstack.length < i.rin then some (0x04, 0)
  else if 32 < c.rstack.length - i.rin + i.rout then some (0x03, 0)
  else none

end State

/-- The physical slots of a context, slot 0 first (R111). -/
def physSlots (c : Ctx) : List Row := c.stack.reverse ++ c.stale

/-- Rebuild a context from its physical slots and its depth. -/
def ofPhys (c : Ctx) (phys : List Row) (depth : Nat) : Ctx :=
  { c with stack := (phys.take depth).reverse, stale := phys.drop depth }

/-- The stack after an instruction in the lean regime (R111): outputs but the `late` ones are written now, the late ones when the
next instruction completes; the values due from the previous load are written last. `fill` stands for slots never written. -/
def leanStack (c : Ctx) (nin late : Nat) (outs : List Row) (fill : Row) : Ctx :=
  let p := c.stack.length - nin
  let depth := p + outs.length
  let phys := physSlots c ++ List.replicate (depth - (physSlots c).length) fill
  let ups := outs.reverse
  let early := ups.length - late
  let phys1 := phys.zipIdx.map (fun q => if p ≤ q.2 ∧ q.2 < p + early then ups.getD (q.2 - p) q.1 else q.1)
  let phys2 := c.late.foldl (fun l v => l.set v.1 v.2) phys1
  let due := (List.range late).map (fun j => (p + early + j, ups.getD (early + j) 0))
  { ofPhys c phys2 depth with late := due }

namespace State

/-- An instruction completes: stack, return stack, the next program counter with its delay slot (R106, R110), its handshakes, and
the age of the reservation (R102). -/
def complete (s : State) (e : Nat) (i : OpInfo) (d : Done) (waitPs : Nat) : State :=
  let lean := s.leanRegime e
  let x := s.eng e
  let c := x.ctx
  let (fill, s) := if lean then s.freshRow else (0, s)
  let c1 := if lean then leanStack c i.nin i.late d.outs fill
    else { c with stack := d.outs ++ c.stack.drop i.nin, stale := [], late := [] }
  let c2 := { c1 with rstack := match d.rpush with
                        | some r => r :: c.rstack
                        | none => if d.rpop then c.rstack.drop 1 else c.rstack }
  let c3 : Ctx :=
    match d.goto with
    | some (t, taken) =>
      if lean then { c2 with pc := if taken then t else c.pc + 1 }
      else { c2 with pc := c.pc + 1, flow := some { target := t, next := if taken then t else c.pc + 2 } }
    | none =>
      match c.flow with
      | some f => { c2 with pc := f.next, flow := none }
      | none => { c2 with pc := c.pc + 1 }
  let hs := s.hsCost e d.base waitPs
  let resv := match x.resv with
    | some r => if 256 ≤ r.age + hs then none else some { r with age := r.age + hs }
    | none => none
  let s := s.setEng e { x with ctx := c3, resv := resv, waited := 0 }
  d.post (s.addHs e hs)

/-- Run one instruction (R117): issue, stages 1 to 4, the drain of R101, the body, and the completion, exception or stall. -/
def runOp (s : State) (q : Issue) (i : OpInfo) (body : List Row → State → Res × State) : State :=
  let e := q.eng
  if !s.canIssue e then s else
  let s := s.advance q.at_
  let pc := (s.eng e).ctx.pc
  match s.fetch e pc with
  | (some (code, kind, addr), s) =>
    let (w, s) := s.fresh
    s.takeExc e 1 (s.excHere e { i with word := if code = 0x08 then w % 2 ^ 14 else i.word } code kind addr)
  | (none, s) =>
  match s.decodeExc e i with
  | some (code, addr) => s.takeExc e 1 (s.excHere e i code 0 addr)
  | none =>
    let waitPs := min q.wait i.worst + (s.eng e).waited * 1000
    let (w, s) := s.fresh
    let late := 1 + w % (max 1 i.base) + cdiv waitPs (max 1 (s.pacePs e))
    let (bad, s) := if i.drains && e != 256 then s.drain e else (none, s)
    match bad with
    | some l => s.takeExc e late (excOlder l)
    | none =>
      match body (((s.eng e).ctx.stack).take i.nin) s with
      | (.ok d, s) => s.complete e i d waitPs
      | (.exc code kind addr, s) => s.takeExc e (if code ≤ 0x04 then 1 else late) (s.excHere e i code kind addr)
      | (.older l, s) => s.takeExc e late (excOlder l)
      | (.stall st, s) => s.setEng e { s.eng e with stall := st, since := s.now }

/-- The read epoch of the release an engine runs, as an instant (R173, R482). -/
def engEpoch (s : State) (e : Nat) : Nat :=
  if e = 256 then s.mgt.engAt else
  match (s.eng e).task with
  | some k => (s.task k).relAt
  | none => s.now

/-- Check a flow target (R91): at or below line 0, or at or beyond the end of the range. Lean code has no range in the spec. -/
def flowBad (s : State) (e : Nat) (t : Int) : Bool :=
  decide (t < 9) || (!s.leanRegime e && decide ((s.progLen e * 9 : Nat) ≤ t))

end State

/-- A body that only computes outputs from inputs. -/
def pureBody (base : Nat) (f : List Row → List Row) (ins : List Row) (s : State) : Res × State :=
  (.ok { outs := f ins, base := base }, s)

/-- Input k of an instruction (0 is TOS). -/
def inp (ins : List Row) (k : Nat) : Row := ins.getD k 0

end Sys2Proof.Machine
end

