-- ==== Sys2Proof/Machine/SplPkg.lean ====
section
/-! DEFINITION. The splice package as bytes (R216 to R221): its header, parts and the checks that need the bytes alone. -/
namespace Sys2Proof.Machine

/-- n bytes at an offset. -/
def slice (bs : List Byte) (o n : Nat) : List Byte := (bs.drop o).take n

/-- Are n bytes at an offset all 0? -/
def zeros (bs : List Byte) (o n : Nat) : Bool := (slice bs o n).all (· == 0)

/-- Table 9.5 code 0x01: the header's own fields. -/
def splHdrOk (b : List Byte) : Bool :=
  let len := field b 0x20 4
  let cw := field b 0x4C 4
  slice b 0 4 == [0x53, 0x50, 0x4C, 0x43] && field b 4 1 == 1 && field b 6 2 == 0x8256 &&
  field b 0x1A 2 == field b 0x18 2 + 1 && decide (field b 0x1A 2 ≤ 255) &&
  len % 64 == 0 && decide (0x400 ≤ len) && decide (len ≤ 0x1000000) &&
  (cw == 0 || (decide (10 ≤ cw) && decide (cw ≤ 86400))) &&
  decide (1 ≤ field b 0x3E 2) && decide (field b 0x3E 2 ≤ 16) && decide (field b 0x3C 2 ≤ 1024) && decide (field b 0x48 2 ≤ 256) &&
  zeros b 0x4A 2 && zeros b 0x50 48

/-- The parts of a package: (offset, length). -/
def splParts (b : List Byte) : List (Nat × Nat) :=
  [(field b 0x28 4, field b 0x2C 4), (field b 0x30 4, field b 0x34 4), (field b 0x38 4, 32 * field b 0x3C 2),
   (field b 0x40 4, 32 * field b 0x3E 2), (field b 0x44 4, 8 * field b 0x48 2)]

/-- Two spans that share a byte. -/
def spansMeet (p q : Nat × Nat) : Bool := decide (p.1 < q.1 + q.2) && decide (q.1 < p.1 + p.2) && p.2 != 0 && q.2 != 0

/-- Is no two of a list in a relation? -/
def noPair {α : Type} (r : α → α → Bool) : List α → Bool
  | [] => true
  | x :: rest => rest.all (fun y => !r x y) && noPair r rest

/-- Code 0x12: the parts meet R216, and padding is 0. -/
def splPartsOk (b : List Byte) : Bool :=
  let len := field b 0x20 4
  let ps := splParts b
  ps.all (fun p => p.1 % 64 == 0 && decide (128 ≤ p.1) && decide (p.1 + p.2 ≤ len - 48)) && noPair spansMeet ps &&
  field b 0x2C 4 % 16 == 0 &&
  b.zipIdx.all (fun x => x.1 == 0 || decide (x.2 < 128) || decide (len - 48 ≤ x.2) || ps.any (fun p => decide (p.1 ≤ x.2) && decide (x.2 < p.1 + p.2)))

/-- A 16-byte program line. -/
def lineAtOff (b : List Byte) (o : Nat) : Nat := field b o 16

/-- Table 4.4, with the program's line count and the range it must fit. -/
def progHdrOk (hdr lines range : Nat) : Bool :=
  bits hdr 0 1 == 0 && bits hdr 1 7 == 1 && bits hdr 8 22 == lines && decide (2 ≤ lines) && decide (lines ≤ range) &&
  bits hdr 30 96 == 0 && bits hdr 126 2 == 1

/-- A target record. -/
def splTarget (b : List Byte) (o : Nat) : SplTarget :=
  { task := field b o 2, prio := field b (o + 2) 1, allow := field b (o + 3) 1, entry := field b (o + 4) 4, period := field b (o + 8) 4,
    deadline := field b (o + 0xC) 4, budget := field b (o + 0x10) 4, lambda := field b (o + 0x14) 4, waits := bit (field b (o + 0x18) 1) 1 }

/-- A copy entry. -/
def splCopy (b : List Byte) (o : Nat) : SplCopy :=
  { kind := field b o 1, dsp := field b (o + 1) 1, ssp := field b (o + 2) 1, len := field b (o + 4) 4, dst := field b (o + 8) 6,
    src := field b (o + 0x10) 8 }

/-- The package its bytes spell. -/
def splParse (b : List Byte) : SplPkg :=
  let lay := slice b (field b 0x30 4) (field b 0x34 4)
  let pins := field lay 0x18 2
  let pat := field lay 0x1A 2
  { owner := field b 5 1, unit := field b 8 8, baseBuild := field b 0x10 8, baseSeq := field b 0x18 2, seq := field b 0x1A 2,
    keySer := field b 0x1C 4, len := field b 0x20 4, progBase := field b 0x24 4, progHdr := lineAtOff b (field b 0x28 4),
    lines := (List.range (field b 0x2C 4 / 16 - 1)).map (fun k => lineAtOff b (field b 0x28 4 + 16 * (k + 1))),
    targets := (List.range (field b 0x3E 2)).map (fun k => splTarget b (field b 0x40 4 + 32 * k)),
    free := (List.range (field b 0x48 2)).map (fun k => (field b (field b 0x44 4 + 8 * k) 4, field b (field b 0x44 4 + 8 * k + 4) 4)),
    confWin := if field b 0x4C 4 = 0 then 600 else field b 0x4C 4,
    dataSize := field lay 0 8, retSize := field lay 8 8, constSize := field lay 0x10 8,
    pins := (List.range pins).map (fun k =>
      { space := field lay (0x20 + 16 * k) 1, first := field lay (0x20 + 16 * k + 8) 4, count := field lay (0x20 + 16 * k + 12) 4 }),
    patches := (List.range pat).map (fun k =>
      let o := 0x20 + 16 * (pins + k)
      { target := field lay o 1, off := field lay (o + 2) 6, data := slice lay (field lay (o + 12) 4) (field lay (o + 8) 4) }),
    copies := (List.range (field b 0x3C 2)).map (fun k => splCopy b (field b 0x38 4 + 32 * k)) }

/-- The records' reserved fields are 0 (Tables 9.2 to 9.4): targets, layout, copy list. -/
def splTargetsClean (b : List Byte) : Bool :=
  (List.range (field b 0x3E 2)).all (fun k =>
    let o := field b 0x40 4 + 32 * k
    field b (o + 0x18) 1 % 2 == 0 && decide (field b (o + 0x18) 1 < 4) && zeros b (o + 0x19) 7)

/-- The layout part's own bounds (Table 9.3): counts, reserved bytes, patch data inside the part. -/
def splLayoutClean (b : List Byte) : Bool :=
  let lay := slice b (field b 0x30 4) (field b 0x34 4)
  let pins := field lay 0x18 2
  let pat := field lay 0x1A 2
  decide (0x20 + 16 * (pins + pat) ≤ lay.length) && decide (pins ≤ 64) && decide (pat ≤ 256) && zeros lay 0x1C 4 &&
  (List.range pins).all (fun k => zeros lay (0x21 + 16 * k) 7) &&
  (List.range pat).all (fun k =>
    let o := 0x20 + 16 * (pins + k)
    zeros lay (o + 1) 1 && decide (0x20 + 16 * (pins + pat) ≤ field lay (o + 12) 4) &&
    decide (field lay (o + 12) 4 + field lay (o + 8) 4 ≤ lay.length))

def splCopiesClean (b : List Byte) : Bool :=
  (List.range (field b 0x3C 2)).all (fun k =>
    let o := field b 0x38 4 + 32 * k
    zeros b (o + 3) 1 && zeros b (o + 0xE) 2 && zeros b (o + 0x18) 8)

/-- Lines of 64 bytes a byte range touches. -/
def linesOf (off len : Nat) : Nat := if len = 0 then 0 else (off + len - 1) / 64 - off / 64 + 1

/-- The apply bound A in ns (R221). -/
def SplPkg.bound (p : SplPkg) : Nat :=
  1000 + 100 * p.targets.length + p.copies.foldl (fun a c => a + 200 + 50 * linesOf c.dst c.len) 0

/-- The rollback bound in ns (R221). -/
def SplPkg.rbBound (p : SplPkg) : Nat :=
  1000 + 100 * p.targets.length + (p.copies.filter (fun c => c.kind == 1)).foldl (fun a c => a + 200 + 50 * linesOf c.src c.len) 0

end Sys2Proof.Machine
end

