-- ==== Sys2Proof/Machine/Spl.lean ====
section
/-! DEFINITION. Online edits by splice (chapter 9): the checks of a load, applying, confirming and rolling back. -/
namespace Sys2Proof.Machine

namespace State

/-! ### Slots, keys and pinned pages -/

def setStore (s : State) (x : Store) : State := { s with store := x }
/-- The current scantling slot (R63). -/
def curSlot (s : State) : Slot := s.store.slots.get {} s.store.cur
/-- The other slot. -/
def prevSlot (s : State) : Slot := s.store.slots.get {} (1 - s.store.cur)
def setSlot (s : State) (k : Nat) (x : Slot) : State := s.setStore { s.store with slots := s.store.slots.insert k x }
def setCurSlot (s : State) (x : Slot) : State := s.setSlot s.store.cur x

/-- An owner's installed key with a serial (R55, R59). -/
def keyOf (s : State) (n serial : Nat) : Option Nat := s.store.keys.find? (n * 2 ^ 32 + serial)

/-- An owner's splice number (R230). -/
def splNumber (s : State) (n : Nat) : Nat := s.curSlot.splNum.get 0 n
/-- An owner's annex (R223, R234). -/
def annex (s : State) (n : Nat) : List AnnexRec := s.curSlot.annex.get [] n

/-- SPL_ANNEX and SPL_NUM.CUR follow the annex. -/
def annexRegs (s : State) (n : Nat) : State :=
  let l := s.annex n
  let s := s.wr (Reg.SPL_ANNEX n) (l.length % 256 + cdiv (l.foldl (fun a r => a + r.pkg.len) 0) 1024 % 2 ^ 17 * 256)
  s.setFld (Reg.SPL_NUM n) 0 16 (s.splNumber n)

def setAnnex (s : State) (n : Nat) (l : List AnnexRec) : State :=
  (s.setCurSlot { s.curSlot with annex := s.curSlot.annex.set [] n l }).annexRegs n

/-- The virtual pages of a page range of an owner. -/
def rangePages (s : State) (n : Nat) (p : PageRange) : List Nat :=
  (List.range p.count).map (fun i => (s.spaceBase n p.space).1 / 65536 + p.first + i)

/-- The virtual pages of a byte range of a space of an owner. -/
def bytePages (s : State) (n space off len : Nat) : List Nat :=
  if len = 0 then [] else
  let a := (s.spaceBase n space).1 + off
  (List.range ((a + len - 1) / 65536 - a / 65536 + 1)).map (fun i => a / 65536 + i)

/-- Pages an owner's TASK lists, ring regions and confirmed splices pin (R189, R201, R220). -/
def heldPages (s : State) (n : Nat) : List Nat :=
  ((s.tasksOf n).flatMap (fun k => (s.taskCfg k).pages.flatMap (fun p => s.rangePages n p))) ++
  ((s.cfg.rings.filter (fun q => q.2.defined && s.ringOwner q.1 == some n)).flatMap (fun q =>
    let len := 2 ^ q.2.log2len * (16 * 2 ^ q.2.esize)
    (List.range ((q.2.base + len - 1) / 65536 - q.2.base / 65536 + 1)).map (fun i => q.2.base / 65536 + i))) ++
  (s.cfg.eps.filter (fun e => e.1 / 16 == n)).flatMap (fun e =>
    ([(e.2.rx, e.2.rxbuf), (e.2.tx, e.2.txbuf)] : List (Option Nat × Nat)).flatMap (fun x => match x.1 with
      | some q => s.bytePages n 5 x.2 (2 ^ (s.ringCfg q).log2len * 2048)
      | none => [])) ++
  (((s.annex n).filter (fun r => r.state == 6)).flatMap (fun r => r.pkg.pins.flatMap (fun p => s.rangePages n p)))

/-- Take the pin of a page away. -/
def unpinPage (s : State) (n page : Nat) : State :=
  match walk s.mmu n (page * 65536) with
  | .page key e =>
    if ePin e then (s.setEntry key (putBits e 4 1 0)).wr (Reg.MMU_PINNED n) (s.rd (Reg.MMU_PINNED n) - 1) else s
  | _ => s

/-- Change a program line (R78, R223): what was wrong with the old one goes with it. -/
def setLine (s : State) (a v : Nat) : State :=
  { s with prog := s.prog.set guardLine a v, progBad := s.progBad.filter (· != a), progWeak := s.progWeak.filter (· != a) }

/-- Is a line of an owner's range free: a guard line (R217, Table 4.3)? -/
def lineFree (s : State) (n line : Nat) : Bool := s.prog.get guardLine ((s.ownerCfg n).prgBase + line) == guardLine

/-! ### Splice state -/

def splice (s : State) (n : Nat) : Splice := s.spl.get {} n
def setSplice (s : State) (n : Nat) (x : Splice) : State := { s with spl := s.spl.set {} n x }
/-- SPL_STAT.STATE: 0 none, 1 loading, 2 loaded, 3 armed, 4 applied, 5 rolling back. -/
def splSt (s : State) (n : Nat) : Nat := s.fld (Reg.SPL_STAT n) 0 3
def setSplSt (s : State) (n v : Nat) : State := s.setFld (Reg.SPL_STAT n) 0 3 v
/-- The package of an owner's splice. -/
def splPkg (s : State) (n : Nat) : SplPkg := (s.splice n).pkg.getD {}

/-- Is a splice armed or rolling back in any owner (R253, R260, R489)? -/
def splBusy (s : State) : Bool := ownerIdx.any (fun n => s.splSt n == 3 || s.splSt n == 5)
/-- Is a splice loaded, armed, applied or rolling back in any owner (R224)? -/
def splOpen (s : State) : Bool := ownerIdx.any (fun n => decide (2 ≤ s.splSt n))

/-- A refusal (R222): CODE, NEW, and its count. -/
def splRefuse (s : State) (n code : Nat) : State :=
  ((s.setFld (Reg.SPL_STAT n) 8 8 code).setBit (Reg.SPL_STAT n) 31 true).bump (Reg.SPL_REFCNT n) 1

/-- The splice is gone: no state, no window. -/
def splNone (s : State) (n : Nat) : State :=
  let s := (s.setSplice n {}).setSplSt n 0
  ((s.setFld (Reg.SPL_NUM n) 16 16 0).wr (Reg.SPL_BOUND n) 0).annexRegs n

/-- A load that is refused or abandoned (R222, R351). -/
def splDrop (s : State) (n : Nat) : State := (s.setSplice n {}).setSplSt n 0

/-! ### Checks (Table 9.5) -/

/-- The header's checks: 0, or the first code that fails. The standby of a pair runs them on the forwarded package, but for the session and its
role. -/
def splHeader (s : State) (n : Nat) (b : List Byte) (standby : Bool) : Nat :=
  if !splHdrOk b then 1
  else if !(s.ownerDef (field b 5 1) && decide (field b 5 1 < 8) && field b 5 1 == n) then 2
  else if !(field b 8 8 == s.store.serial || field b 8 8 == 2 ^ 64 - 1) then 3
  else if !standby && !((s.ms.mode == .run || s.ms.mode == .test) && (!s.ms.paired || s.ms.active)) then 4
  else if (match s.store.load with | some l => l.verified | none => false) || s.mgt.upd.state != 0 || decide (2 ≤ s.splSt n) then 5
  else if !(field b 0x10 8 == s.curSlot.scn.hdr.buildid && field b 0x18 2 == s.splNumber n) then 6
  else if !decide (field b 0x1A 2 ≤ 255) || !decide ((s.annex n).foldl (fun a r => a + r.pkg.len) 0 + field b 0x20 4 ≤ 67108864) then 7
  else 0

/-- The tag and its key (R217). -/
def splTagOk (s : State) (n : Nat) (b : List Byte) (p : SplPkg) : Bool :=
  s.store.serials.find? n == some p.keySer &&
  (match s.keyOf n p.keySer with
   | some k => Config.hmac384 k (b.take (b.length - 48)) == beNat (b.drop (b.length - 48))
   | none => false)

/-- A line of the program range as it will stand once the splice is loaded. -/
def splLine (s : State) (n : Nat) (p : SplPkg) (line : Nat) : Nat :=
  if p.progBase ≤ line ∧ line < p.progBase + p.lines.length then p.lines.getD (line - p.progBase) 0
  else s.prog.get guardLine ((s.ownerCfg n).prgBase + line)

/-- Code 0x13. -/
def splProgOk (s : State) (n : Nat) (p : SplPkg) : Bool :=
  let range := (s.ownerCfg n).prgLen
  progHdrOk p.progHdr (p.lines.length + 1) range && decide (p.progBase + p.lines.length ≤ range) &&
  (List.range p.lines.length).all (fun k => decide (0 < p.progBase + k) && s.lineFree n (p.progBase + k)) &&
  p.free.all (fun f => decide (f.1 + f.2 ≤ range) && (List.range f.2).all (fun k => !s.lineFree n (f.1 + k)))

/-- Code 0x14. -/
def splTargetsOk (s : State) (n : Nat) (b : List Byte) (p : SplPkg) : Bool :=
  splTargetsClean b && noPair (fun (x y : SplTarget) => x.task == y.task) p.targets &&
  (match p.targets.head? with | some t => !(s.taskCfg t.task).event | none => false) &&
  p.targets.all (fun t =>
    let c := s.taskCfg t.task
    let pmin := if c.pmin = 0 then c.period else c.pmin
    let pmax := if c.pmax = 0 then c.period else c.pmax
    let lo := if c.priomin = 0xFF then c.prio else c.priomin
    let hi := if c.priomax = 0xFF then c.prio else c.priomax
    c.defined && c.owner == n && decide (t.prio ≤ 31) && decide (t.allow ≤ 15) && decide (lo ≤ t.prio) && decide (t.prio ≤ hi) &&
    decide (pmin ≤ t.period) && decide (t.period ≤ pmax) && decide (20 ≤ t.deadline) && decide (t.deadline ≤ t.period) &&
    decide (t.entry < (s.ownerCfg n).prgLen) && bits (s.splLine n p t.entry) 126 2 == 0)

/-- A task's record with a target's values (R227 step 2). -/
def retarget (c : TaskRec) (t : SplTarget) : TaskRec :=
  { c with prio := t.prio, allow := t.allow, entry := t.entry, period := t.period, deadline := t.deadline, budget := t.budget, lambda := t.lambda, waits := t.waits }

/-- Admission of an owner's pool with a task table (R185). -/
def poolAdmits (s : State) (n : Nat) (tasks : SMap TaskRec) : Bool :=
  let bs := s.poolBents n
  admitted (s.poolEngines n) (bs.all (fun m => (s.bentCfg m).keepWarm))
    ((tasks.filter (fun p => p.2.defined && p.2.owner == n)).map (fun p => AdmTask.of p.2))

/-- The task table with a splice's values. -/
def splTasks (s : State) (p : SplPkg) : SMap TaskRec :=
  p.targets.foldl (fun m t => m.insert t.task (retarget (m.get {} t.task) t)) s.cfg.tasks

/-- A layout with a splice's sizes (R219). -/
def splSizes (c : Cnst) (p : SplPkg) : Cnst := { c with dataSize := p.dataSize, retSize := p.retSize, constSize := p.constSize }

/-- Old and new size of the space a patch target or a copy space writes. -/
def sizeOf (c : Cnst) (space : Nat) : Nat := if space = 5 then c.dataSize else if space = 6 then c.retSize else c.constSize

/-- Every defined owner's RETAIN sizes summed, owner n's taken as given. -/
def retTotal (s : State) (n size : Nat) : Nat :=
  ownerIdx.foldl (fun a k => a + (if k = n then size else if s.ownerDef k then (s.cnst k).retSize else 0)) 0

/-- Code 0x16. -/
def splLayoutOk (s : State) (n : Nat) (b : List Byte) (p : SplPkg) : Bool :=
  let c := s.cnst n
  splLayoutClean b && decide (c.dataSize ≤ p.dataSize) && decide (c.retSize ≤ p.retSize) && decide (c.constSize ≤ p.constSize) &&
  decide (p.retSize ≤ (s.cfg.part.owners.get {} n).retmax) && decide (s.retTotal n p.retSize ≤ 268435456) &&
  p.pins.all (fun q => (q.space == 5 || q.space == 6 || q.space == 7) &&
    decide ((q.first + q.count) * 65536 ≤ cdiv (sizeOf (splSizes c p) q.space) 65536 * 65536)) &&
  p.patches.all (fun e =>
    let sp := if e.target = 0 then 7 else if e.target = 1 then 5 else 6
    decide (e.target ≤ 2) && decide (sizeOf c sp ≤ e.off) && decide (e.off + e.data.length ≤ sizeOf (splSizes c p) sp))

/-- The owner with a splice's sizes in effect. -/
def withSizes (s : State) (n : Nat) (c : Cnst) : State := { s with cfg := { s.cfg with cnst := s.cfg.cnst.insert n c } }

/-- Pages a splice touches: its pins, and those of its copy list. -/
def splPinPages (s : State) (n : Nat) (p : SplPkg) : List Nat := p.pins.flatMap (fun q => s.rangePages n q)
def splCopyPages (s : State) (n : Nat) (p : SplPkg) : List Nat :=
  p.copies.flatMap (fun c => s.bytePages n c.dsp c.dst c.len ++ (if c.kind = 1 then s.bytePages n c.ssp c.src c.len else []))

/-- Code 0x17. -/
def splCopiesOk (s : State) (n : Nat) (b : List Byte) (p : SplPkg) : Bool :=
  let c := s.cnst n
  let g := s.withSizes n (splSizes c p)
  let held := s.heldPages n ++ g.splPinPages n p
  splCopiesClean b &&
  p.copies.all (fun x =>
    (x.kind == 1 || x.kind == 2 || x.kind == 3) && (x.dsp == 5 || x.dsp == 6) && decide (8 ≤ x.len) && decide (x.len ≤ 0x100000) && x.len % 8 == 0 && x.dst % 8 == 0 &&
    decide (sizeOf c x.dsp ≤ x.dst) && decide (x.dst + x.len ≤ sizeOf (splSizes c p) x.dsp) &&
    (if x.kind = 1 then (x.ssp == 5 || x.ssp == 6) && x.src % 8 == 0 && decide (x.src + x.len ≤ sizeOf c x.ssp) else x.ssp == 0 && x.src == 0)) &&
  noPair (fun (x y : SplCopy) => x.dsp == y.dsp && spansMeet (x.dst, x.len) (y.dst, y.len)) p.copies &&
  (g.splCopyPages n p).all (fun q => held.contains q)

/-- Pages of a size. -/
def pagesIn (size : Nat) : Nat := cdiv size 65536

/-- Code 0x18: the pinned limit, and the backing reservations (R266). -/
def splRoomOk (s : State) (n : Nat) (p : SplPkg) : Bool :=
  let g := s.withSizes n (splSizes (s.cnst n) p)
  let pins := (s.heldPages n ++ g.splPinPages n p).eraseDups.length
  let need (x : State) : Nat := ownerIdx.foldl (fun a k =>
    if x.ownerDef k then let c := x.cnst k; a + (pagesIn c.dataSize + pagesIn c.constSize) * 65536 + c.retSize else a) 0
  decide (pins + 64 ≤ (s.ownerCfg n).drlim) && decide (need g ≤ s.cfg.part.pagTib * 2 ^ 40)

/-- The end checks 0x11 to 0x19: 0, or the first code that fails. -/
def splEnd (s : State) (n : Nat) (b : List Byte) : Nat :=
  let p := splParse b
  if !s.splTagOk n b p then 0x11
  else if !splPartsOk b then 0x12
  else if !s.splProgOk n p then 0x13
  else if !s.splTargetsOk n b p then 0x14
  else if !s.poolAdmits n (s.splTasks p) then 0x15
  else if !s.splLayoutOk n b p then 0x16
  else if !s.splCopiesOk n b p then 0x17
  else if !s.splRoomOk n p then 0x18
  else if !decide (p.bound ≤ 40000) then 0x19
  else 0

/-! ### Loading (R223, R224) -/

/-- An accepted load leaves the splice loaded (R223). -/
def splAccept (s : State) (n : Nat) (b : List Byte) : State :=
  let p := splParse b
  let base := (s.ownerCfg n).prgBase
  let s := forEach p.lines.zipIdx (fun s l => s.setLine (base + p.progBase + l.2) l.1) s
  let old := s.cnst n
  let s := s.withSizes n (splSizes { old with inits := old.inits ++ p.patches } p)
  let s := forEach (p.patches.filter (fun e => e.target == 0)) (fun s e =>
    s.ownWriteBytes n ((s.spaceBase n 7).1 + e.off) e.data false) s
  let s := forEach (s.splPinPages n p ++ s.splCopyPages n p) (fun s q => s.pinPage n (q * 65536)) s
  let s := s.withSizes n { old with inits := old.inits ++ p.patches }
  let s := s.setSplice n { pkg := some p, prevCnst := old }
  let s := (s.setAnnex n (s.annex n ++ [{ state := 2, pkg := p }])).stage 0 p.len (.note 2)
  ((s.setSplSt n 2).setFld (Reg.SPL_NUM n) 16 16 p.seq).wr (Reg.SPL_BOUND n) p.bound

/-- The splice's own pages are unpinned, but for those something else holds. -/
def splUnpin (s : State) (n : Nat) (ps : List Nat) : State :=
  let held := s.heldPages n
  forEach (ps.eraseDups.filter (fun q => !held.contains q)) (fun s q => s.unpinPage n q) s

/-- Pages of the grown parts of an owner's spaces, which a rollback discards. -/
def grownPages (old new : Cnst) : List Nat :=
  ([(old.dataBase, old.dataSize, new.dataSize), (old.retBase, old.retSize, new.retSize), (old.constBase, old.constSize, new.constSize)]
    : List (Nat × Nat × Nat)).flatMap (fun x => let lo := x.1 / 65536 + pagesIn x.2.1
    (List.range (pagesIn x.2.2 - pagesIn x.2.1)).map (fun i => lo + i))

/-- The splice's lines become guard lines, its pins go, the grown parts are discarded, its annex record is removed (R222, R232 steps 3 to 6). -/
def splUndo (s : State) (n : Nat) : State :=
  let p := s.splPkg n
  let x := s.splice n
  let base := (s.ownerCfg n).prgBase
  let new := splSizes x.prevCnst p
  let g := s.withSizes n new
  let ps := g.splPinPages n p ++ g.splCopyPages n p
  let s := forEach (List.range p.lines.length) (fun s k => s.setLine (base + p.progBase + k) guardLine) s
  let s := s.withSizes n x.prevCnst
  let s := s.setAnnex n ((s.annex n).filter (fun r => r.state == 6))
  let s := s.splUnpin n ps
  let grown := grownPages x.prevCnst new
  let s := forEach ((ownerPages s.mmu n).filter (fun q => grown.contains q.1)) (fun s q => s.freshPage n q.1 q.2.1 q.2.2) s
  s.splNone n

/-- A loaded or armed splice is discarded (R224). -/
def splDiscard (s : State) (n : Nat) : State := if s.splSt n = 2 ∨ s.splSt n = 3 then s.splUndo n else s

/-! ### The copy unit (R220, R227, R232) -/

/-- A destination line is written poisoned (Table 11.5). -/
def poisonLine (s : State) (n va : Nat) : State :=
  match s.walkAccess n va 0xFFFF with
  | (.frame f _, s) => s.putLine f va { s.lineAt f va with poison := true }
  | (_, s) => s

/-- Bytes copied to an address, line by line: the source of each piece is read where it lies. -/
def copyBytes (s : State) (n dst src len : Nat) : State :=
  forEach (linePieces (len / 64 + 2) dst (List.replicate len 0)) (fun s p =>
    let at_ := max p.1 dst
    let k := min (p.1 + 64) (dst + len) - at_
    match s.hwReadBytes n 3 (src + (at_ - dst)) k with
    | (some bs, s) => (s.hwWrite n at_ bs).2
    | (none, s) => s.poisonLine n p.1) s

/-- One copy entry at the apply. -/
def copyEntry (s : State) (n : Nat) (c : SplCopy) : State :=
  let dst := (s.spaceBase n c.dsp).1 + c.dst
  if c.kind = 1 then s.copyBytes n dst ((s.spaceBase n c.ssp).1 + c.src) c.len
  else if c.kind = 2 then (s.hwWriteBytes n dst (initBytes (s.cnst n) (c.dsp - 4) c.dst c.len)).2
  else (s.hwWriteBytes n dst (List.replicate c.len 0)).2

/-- The COPY entries reversed, last entry first, for the old spaces listed (R232 step 2, R234). -/
def copyBack (s : State) (n : Nat) (p : SplPkg) (spaces : List Nat) : State :=
  forEach (p.copies.filter (fun c => c.kind == 1 && spaces.contains c.ssp)).reverse (fun s c =>
    s.copyBytes n ((s.spaceBase n c.ssp).1 + c.src) ((s.spaceBase n c.dsp).1 + c.dst) c.len) s

/-! ### Applying (R225 to R227) -/

/-- The reference task of a splice. -/
def splRef (s : State) (n : Nat) : Nat := match (s.splPkg n).targets.head? with | some t => t.task | none => 0

/-- The read epoch of the cycle now tried and its apply or rollback instant, `bound` ns before the reference's next boundary (R225). -/
def splCycle (s : State) (n bound : Nat) : Nat × Nat :=
  let k := s.splRef n
  let e := (s.task k).relAt
  (e, s.nextBoundary k e - nsec bound)

/-- Is the cycle usable at its instant (R225)? -/
def splUsable (s : State) (n a : Nat) : Bool :=
  let p := s.splPkg n
  let b := s.nextBoundary (s.splRef n) (s.task (s.splRef n)).relAt
  p.targets.all (fun t =>
    let x := s.task t.task
    x.st == .idle && x.pend.isNone && x.events.all (fun e => decide (a < e)) && !s.img.commits.any (fun c => c.task == t.task) &&
    ((s.taskCfg t.task).event || t.task == s.splRef n || decide (b < s.nextBoundary t.task a)))

/-- A cycle is counted (R226). -/
def splTry (s : State) (n : Nat) : State := s.wr (Reg.SPL_TRIES n) (min 0xFFFF (s.rd (Reg.SPL_TRIES n) + 1))

/-- The copy unit's time: an open value within its bound (R221). -/
def splSpend (s : State) (n bound : Nat) : State :=
  let (w, s) := s.fresh
  let d := w % (bound + 1)
  (s.wr (Reg.SPL_LASTNS n) d).advance (s.now + nsec d)

/-- The apply at a_E, which is now (R227). -/
def splDo (s : State) (n : Nat) : State :=
  let p := s.splPkg n
  let a := s.now
  let x := s.splice n
  let s := s.setSplice n { x with
    prevTasks := p.targets.map (fun t => (t.task, s.taskCfg t.task)), winEnd := s.mono + p.confWin * 1000000000 * 65536, cause := 0 }
  let s : State := { s with cfg := { s.cfg with tasks := s.splTasks p } }
  let old := s.cnst n
  let s := s.withSizes n (splSizes old p)
  let s := forEach p.copies (fun s c => s.copyEntry n c) s
  let s := s.splSpend n p.bound
  let s := (s.setAnnex n ((s.annex n).map (fun r => if r.state = 2 then { r with state := 4 } else r))).stage 0 4096 (.note 3)
  let s := ((s.wr64 (Reg.SPL_APPLY n) (form64 a)).setSplSt n 4).setBit (Reg.SPL_STAT n) 16 true
  (s.bump (Reg.SPL_APPCNT n) 1).almEvent 0x0018 1 n p.seq

/-- A rollback carried out now (R232), with its cause: 1 command, 2 window expiry, 3 Hold, 4 Held, 5 start, 6 forced. -/
def splBack (s : State) (n cause : Nat) : State :=
  let p := s.splPkg n
  let x := s.splice n
  let tasks := x.prevTasks.foldl (fun m t => m.insert t.1 t.2) s.cfg.tasks
  let s : State := { s with cfg := { s.cfg with tasks := tasks } }
  let s := s.copyBack n p [5, 6]
  let s := s.splSpend n p.rbBound
  let s := s.splUndo n
  let s := (s.setBit (Reg.SPL_STAT n) 18 true).bump (Reg.SPL_RBCNT n) 1
  let s := if 2 ≤ cause ∧ cause ≤ 5 then s.setBit (Reg.SPL_STAT n) 19 true else s
  let s := if cause = 6 then s.setBit (Reg.SPL_STAT n) 20 true else s
  s.almEvent 0x0019 1 n (p.seq + cause * 65536)

/-- A start of an owner (R224, Table 2.4, R234): a loaded or armed splice is discarded, an applied one rolled back. -/
def splStart (s : State) (n : Nat) : State :=
  if s.splSt n = 4 ∨ s.splSt n = 5 then s.splBack n 5 else s.splDiscard n

/-- Device Hold (cause 3) or an owner's Held (cause 4): rolled back at once (R231), or discarded (R224). -/
def splHold (s : State) (n cause : Nat) : State :=
  if s.splSt n = 4 ∨ s.splSt n = 5 then s.splBack n cause else s.splDiscard n

/-- Rollback begins (R231): a usable cycle is sought from now. -/
def splSeek (s : State) (n cause : Nat) : State :=
  let x := s.splice n
  let s := (s.setSplice n { x with cause := cause, cmdAt := s.now, cmdMono := s.mono, nomE := none, mine := none, his := none }).setSplSt n 5
  s.wr (Reg.SPL_TRIES n) 0

/-- Confirmation (R230). -/
def splConfirmNow (s : State) (n : Nat) : State :=
  let p := s.splPkg n
  let base := (s.ownerCfg n).prgBase
  let s := forEach p.free (fun s f => forEach (List.range f.2) (fun s k => s.setLine (base + f.1 + k) guardLine) s) s
  let s := s.setCurSlot { s.curSlot with splNum := s.curSlot.splNum.insert n p.seq }
  let s := (s.setAnnex n ((s.annex n).map (fun r => if r.state = 4 then { r with state := 6 } else r))).stage 0 4096 (.note 4)
  let s := s.splUnpin n (s.splCopyPages n p)
  (s.splNone n).setBit (Reg.SPL_STAT n) 17 true

/-- Seconds left in the window (SPL_CONFLEFT). -/
def splLeft (s : State) (n : Nat) : Nat :=
  if s.splSt n = 4 then ((s.splice n).winEnd - s.mono) / (1000000000 * 65536) else 0

/-! ### Starts: the annex (R234) -/

/-- A confirmed record replayed: code lines, free list, sizes, patches and target values. -/
def splReplay (s : State) (n : Nat) (p : SplPkg) : State :=
  let base := (s.ownerCfg n).prgBase
  let s := forEach p.lines.zipIdx (fun s l => s.setLine (base + p.progBase + l.2) l.1) s
  let s := forEach p.free (fun s f => forEach (List.range f.2) (fun s k => s.setLine (base + f.1 + k) guardLine) s) s
  let old := s.cnst n
  let s := s.withSizes n (splSizes { old with inits := old.inits ++ p.patches } p)
  { s with cfg := { s.cfg with tasks := s.splTasks p } }

/-- The annex at Configure: loaded records discarded, applied ones rolled back in RETAIN, confirmed ones replayed in order. False where a record fails
its tag: a failed plane load. -/
def splConfigure (s : State) (n : Nat) : Bool × State :=
  let l := s.annex n
  if l.any (fun r => r.bad) then (false, s) else
  let s := forEach (l.filter (fun r => r.state == 6)) (fun s r => s.splReplay n r.pkg) s
  let s := forEach (l.filter (fun r => r.state == 4)) (fun s r =>
    let old := s.cnst n
    let s := s.withSizes n (splSizes old r.pkg)
    let s := s.copyBack n r.pkg [6]
    ((s.withSizes n old).setBit (Reg.SPL_STAT n) 18 true).almEvent 0x0019 1 n (r.pkg.seq + 5 * 65536)) s
  (true, (s.setAnnex n (l.filter (fun r => r.state == 6))).splNone n)

end State

end Sys2Proof.Machine
end

