-- ==== Sys2Proof/Machine/LorBase.lean ====
section
/-! DEFINITION. Lorat sessions (R339 to R342, R351, R353): answering, and what ends with a session. A session in Recovery is the remote endpoint it serves,
numbered from 128 (R354). -/
namespace Sys2Proof.Machine

namespace State

def sess (s : State) (k : Nat) : LorSess := s.lor.get {} k
def setSess (s : State) (k : Nat) (x : LorSess) : State := { s with lor := s.lor.set {} k x }

/-- Is the session number in use? -/
def sessLive (s : State) (k : Nat) : Bool := (s.sess k).half || (s.sess k).isOpen

/-- A dropped datagram (R341, R342): counted as bad in its session, and where its tag fails in the owner's security counter. -/
def lorBad (s : State) (k : Nat) : State := if decide (1 ≤ k) && decide (k ≤ 64) then s.bump (Reg.NET_LSBAD k) 1 else s

/-- A response is stored and sent (R342, R343): nothing older than 16 back stays available. -/
def lorAnswer (s : State) (k seq cmd status detail : Nat) (body : List Byte) : State :=
  let x := s.sess k
  let st := SMap.insert (x.stored.filter (fun p => decide (seq < p.1 + 16))) seq { cmd := cmd, status := status, detail := detail, body := body }
  let s := s.setSess k { x with stored := st, waiting := if x.waiting = some seq then none else x.waiting }
  s.emit (.lorat k seq cmd status detail body)

/-- A load in progress is abandoned (R351): slots and splice state stay as they were. -/
def abandonLoads (s : State) (k : Nat) : State :=
  let s := match s.store.load with
    | some l => if l.session = k ∧ l.verified = false then s.setStore { s.store with load := none } else s
    | none => s
  forEach ownerIdx (fun s n => if s.splSt n = 1 ∧ (s.splice n).session = k then s.splDrop n else s) s

/-- A session ends (R341): its loads are abandoned, its freeze is released, its number is free. -/
def lorEnd (s : State) (k : Nat) : State :=
  let s := s.abandonLoads k
  let s := if s.alm.frozenBy = some k then s.almRelease else s
  let s : State := { s with lor := s.lor.erase k }
  if 1 ≤ k ∧ k ≤ 64 then
    forEach ([Reg.NET_LSREQ k, Reg.NET_LSRETRY k, Reg.NET_LSBAD k] : List Nat) (fun s a => s.clr a) s
  else s

/-- Every session a test picks ends. -/
def lorEndAll (s : State) (p : Nat → LorSess → Bool) : State :=
  forEach ((s.lor.filter (fun e => p e.1 e.2)).map (·.1)) (fun s k => s.lorEnd k) s

end State

end Sys2Proof.Machine
end

