-- ==== Sys2Proof/Machine/RedBase.lean ====
section
/-! DEFINITION. A pair's state as every block sees it (R240, R248, R249): roles, the suspect mark, and messages to the partner. -/
namespace Sys2Proof.Machine

namespace State

def setMs (s : State) (m : ModeSt) : State := { s with ms := m }
def setRed (s : State) (r : Red) : State := { s with red := r }

/-- Has the loaded scantling a REDN section? -/
def hasRedn (s : State) : Bool := s.cfg.redn.isSome

/-- A RED_STAT bit, on a module with REDN (every RED register of another reads 0, chapter 10). -/
def redFlag (s : State) (i : Nat) (b : Bool) : State := if s.hasRedn then s.setBit Reg.RED_STAT i b else s

/-- MGT_MODE.ACTIVE and RED_STAT.ACTIVE. -/
def setActive (s : State) (b : Bool) : State := (s.setMs { s.ms with active := b }).redFlag 2 b

/-- MGT_MODE.PAIRED and RED_STAT.PAIRED. -/
def setPaired (s : State) (b : Bool) : State := (s.setMs { s.ms with paired := b }).redFlag 1 b

/-- Send a pair message (Table 10.3): only a paired member does. -/
def redSend (s : State) (kind : Nat) (fields : List Nat) : State := if s.ms.paired then s.emit (.pair kind fields) else s

/-- Is the partner a standby in Shadow that is not suspect? -/
def partnerGood (s : State) : Bool := s.ms.paired && s.red.pMode == 7 && !s.red.pSuspect && s.red.pRole != 1

/-- Is the partner active, as its heartbeats report? -/
def partnerActive (s : State) : Bool := s.ms.paired && s.red.pRole == 1

/-- The base claim of this member (R258). -/
def baseClaim (s : State) : Nat := match s.cfg.redn with | some r => r.base | none => 1

/-- The pair is undone: no partner, no exchange of keys, no digests that wait for one. -/
def redUnpair (s : State) : State :=
  let s := s.setPaired false
  let s := s.setRed { s.red with
    hello := none, confSent := false, confOk := false, key := 0, pMode := 0, pRole := 0, pFlevel := 0, pSuspect := false, holdSince := none,
    digs := [], runs := [], hbAt := 0 }
  s.wr64 Reg.RED_PARTNER 0

/-- LEAVE (Table 10.3), with its cause: 1 power-fail, 2 removal, 3 mode set Drain, 4 mode set Stop. -/
def sendLeave (s : State) (cause : Nat) : State :=
  if s.ms.paired then (s.redSend 0x06 [cause]).setMs { s.ms with leaveSent := true } else s

/-- This member is marked suspect with a cause (R247 to R251). -/
def markSuspect (s : State) (cause : Nat) : State :=
  if s.hasRedn then (s.setBit Reg.RED_STAT 3 true).setFld Reg.RED_STAT 8 3 cause else s

/-- A claim arbitration lost (RED_STAT.CMDREJ and refusals of RED_CMD): the request is not acted on. -/
def redReject (s : State) : State := s.redFlag 22 true

end State

end Sys2Proof.Machine
end

