-- ==== Sys2Proof/Machine/Start.lean ====
section
/-! DEFINITION. What a start sets in an owner's data (Table 2.4, R38, R43, R67) and what follows at its run-start instant (R175). -/
namespace Sys2Proof.Machine

namespace State

/-- Load an owner's program range from its PRGM section: its lines, and guard lines beyond them (R78, Table 4.3). -/
def loadProgram (s : State) (n : Nat) (lines : List Nat) : State :=
  let c := s.ownerCfg n
  let out (a : Nat) : Bool := decide (a < c.prgBase) || decide (c.prgBase + c.prgLen ≤ a)
  let prog := s.prog.keep (fun a _ => out a)
  let prog := (lines.take c.prgLen).zipIdx.foldl (fun m p => SMap.set guardLine m (c.prgBase + p.2) p.1) prog
  { s with prog := prog, progBad := s.progBad.filter out, progWeak := s.progWeak.filter out }

/-- Write the initial-value entries of a target into its space (Table 3.20). -/
def writeInits (s : State) (n target space : Nat) : State :=
  forEach ((s.cnst n).inits.filter (fun e => e.target == target)) (fun s e =>
    s.ownWriteBytes n ((s.spaceBase n space).1 + e.off) e.data (space == 6)) s

/-- CONST pages are written (R272): at Configure, and at a start that R67 forces. -/
def loadConst (s : State) (n : Nat) : State := (s.freshSpace n [7]).writeInits n 0 7

/-- RETAIN set from CONST initial values (Table 2.4, cold start): every line held goes to zeros first. -/
def coldRetain (s : State) (n : Nat) : State :=
  let held := (s.sto.ack.retain.filter (fun p => p.1 / 2 ^ 48 == n)).map (fun p => p.1 % 2 ^ 48 * 64)
  let s := forEach held (fun s va => s.ownWrite n va 0 (BitVec.allOnes 512) true) s
  s.writeInits n 2 6

/-- Does a scantling's layout of an owner's RETAIN differ from the one it last ran with (R67)? -/
def retainMoved (s : State) (n : Nat) (c : Cnst) : Bool := (s.cnst n).retBase != c.retBase || (s.cnst n).retSize != c.retSize

/-- The sections a commit in Stop left for the owner's next start take effect (R66, R67): PRGM, CNST and the task set. Answers whether the start
is forced cold. -/
def takeSections (s : State) (n : Nat) : Bool × State :=
  if !(s.owner n).newSecs then (false, s) else
  let scn := s.curSlot.scn
  let c := scn.cnst.get {} n
  let moved := s.retainMoved n c
  let others := s.cfg.tasks.filter (fun p => p.2.owner != n)
  let mine := scn.tasks.filter (fun p => p.2.owner == n)
  let tasks := mine.foldl (fun m p => SMap.insert m p.1 p.2) others
  let nb := (s.cfg.nobreak.filter (· != n)) ++ (scn.nobreak.filter (· == n))
  let s := if moved then
      let s := s.freshSpace n [6]
      let drop (m : Media) : Media := { m with retain := m.retain.filter (fun p => p.1 / 2 ^ 48 != n) }
      { s with sto := { s.sto with ack := drop s.sto.ack, flash := drop s.sto.flash } }
    else s
  let s : State := { s with cfg := { s.cfg with cnst := s.cfg.cnst.insert n c, tasks := tasks, nobreak := nb } }
  let s := (s.loadProgram n (scn.prgm.get [] n)).setOwner n { s.owner n with newSecs := false }
  let s := if moved then s.almEvent 0x0014 15 n scn.hdr.buildid else s
  (moved, s.loadConst n)

/-- Counters that a start of an owner clears (chapters 6 and 7). -/
def clearCounters (s : State) (n : Nat) : State :=
  let s := (s.wr64 (Reg.IMG_COMMITS n) 0).wr64 (Reg.IMG_VERSIONS n) 0
  let s := forEach ([Reg.IMG_OVLCNT n, Reg.IMG_LATECNT n, Reg.IMG_SKEWCNT n, Reg.IMG_STALLCNT n, Reg.IMG_SOECNT n, Reg.IMG_SOEDROP n,
    Reg.IMG_INUSEMAX n, Reg.SEQ_OMWCNT n] : List Nat) (fun s a => s.clr a) s
  forEach (s.tasksOf n) (fun s k =>
    let s := s.wr64 (Reg.SEQ_TRELCNT k) 0
    forEach ([Reg.SEQ_TOVRCNT k, Reg.SEQ_TBUDCNT k, Reg.SEQ_TDLCNT k, Reg.SEQ_TPREEMPT k, Reg.SEQ_TMAXHS k, Reg.SEQ_TMAXEL k,
      Reg.SEQ_TMAXDISP k, Reg.SEQ_TNOREL k, Reg.SEQ_TCOALESCE k] : List Nat) (fun s a => s.clr a) s) s

/-- SEM rows of an owner are cleared (R158, Table 2.4). -/
def clearSem (s : State) (n : Nat) : State :=
  let r := (s.ownerCfg n).semR
  { s with img := { s.img with sem := s.img.sem.keep (fun a _ => decide (a < r.base) || decide (r.base + r.len ≤ a)) } }

/-- Task contexts are reset to their entries, and what waited for them is gone (Table 2.4). -/
def resetTasks (s : State) (n : Nat) : State :=
  let s := forEach (s.tasksOf n) (fun s k =>
    s.setTask k { ctx := { exc := (s.task k).ctx.exc }, relAt := (s.task k).relAt, everRel := (s.task k).everRel }) s
  s.setOwner n { s.owner n with tokens := [], draining := false }

/-- Rings of an owner. -/
def ringsOf (s : State) (n : Nat) : List Nat :=
  (s.cfg.rings.filter (fun q => q.2.defined && s.ringOwner q.1 == some n)).map (·.1)

/-- Pin the pages an owner's tasks, rings and confirmed splices list (R189, R201). -/
def pinHeld (s : State) (n : Nat) : State := forEach (s.heldPages n).eraseDups (fun s p => s.pinPage n (p * 65536)) s

/-- May a start of the owner be carried out: its keys unwrapped, and no erasure under way (R277)? -/
def startable (s : State) (n : Nat) : Bool :=
  s.ownerDef n && s.fld (Reg.MMU_OSTAT n) 1 1 == 0 && s.fld (Reg.MMU_OSTAT n) 0 1 == 1 && !(s.mmu.keys.get {} n).erasing

/-- Forces on an owner's rows end at any start of it (R349). -/
def dropForces (s : State) (n : Nat) : State :=
  let mine (row : Nat) : Bool := match s.rowPlace row with | some (o, _) => o == n | none => false
  { s with img := { s.img with forces := s.img.forces.keep (fun row _ => !mine row) } }

/-- An owner's data as a warm or cold start sets it (Table 2.4), up to its run-start instant. -/
def ownerPrepare (s : State) (n : Nat) (cold : Bool) : State :=
  let s := (s.splStart n).dropForces n
  let (forced, s) := s.takeSections n
  let cold := cold || forced
  let s := s.resetTasks n
  let s := (s.freshSpace n [5]).writeInits n 1 5
  let s := if cold then s.coldRetain n else s
  let s := forEach (s.ringsOf n) (fun s q => s.ringStart q cold) s
  let s := ((s.clearSem n).initRows n [0, 1, 2] 8).clearCounters n
  let s := s.loopStart n cold
  let s := s.setOwner n { s.owner n with started := true }
  (s.pinHeld n).poolRegs n

/-- The boundaries of an owner's cyclic tasks follow from now, without a release (a join, R260; an exit from Hold, R176). -/
def ownerResume (s : State) (n : Nat) : State :=
  forEach (s.tasksOf n) (fun s k =>
    if (s.taskCfg k).event then s else s.setTask k { s.task k with nextB := some (s.nextBoundary k s.now) }) s

/-- What an owner's run-start instant does (R175, R392, R402, R321, R317): sources write their rows, boundaries begin, and where its tasks may be released
(R41) its publications start and every task marked START is released once. -/
def ownerRun (s : State) (n : Nat) : State :=
  let s := ((s.canStart n).netStart n).fioStart n
  let s := (if s.releasable n then s.pubStart n else s).ownerResume n
  let t := s.now
  let s := forEach ((s.tasksOf n).filter (fun k => !(s.taskCfg k).event && (s.taskCfg k).start && s.releasable n)) (fun s k =>
    if s.relHeld then s.noRelease k else s.release k t) s
  s.dispatch n

/-- Owners that the scantling defines and that are in a run state. -/
def ownersIn (s : State) (st : OwnSt) : List Nat := ownerIdx.filter (fun n => s.ownerDef n && (s.owner n).st == st)

end State

end Sys2Proof.Machine
end

