-- ==== Sys2Proof/Machine/UpdBase.lean ====
section
/-! DEFINITION. Slots made current, the parked NVS image, and an update's outcomes (R64, R65, R69, R70, R490, R491). -/
namespace Sys2Proof.Machine

namespace State

/-- A management-log entry whose detail the spec does not give (R487): an open value. -/
def mgtNote (s : State) (code arg : Nat) : State :=
  let (v, s) := s.fresh
  s.mgtLog code arg v

/-- One whose ARG it does not give either. -/
def mgtNote2 (s : State) (code : Nat) : State :=
  let (v, s) := s.fresh
  s.mgtNote code (v % 65536)

def setMgt (s : State) (m : Mgt) : State := { s with mgt := m }

/-- MGT_UPDSTAT.STATE (Table 21.8), with its log entry. -/
def setUpdState (s : State) (v : Nat) : State :=
  ((s.setMgt { s.mgt with upd := { s.mgt.upd with state := v } }).setFld Reg.MGT_UPDSTAT 0 3 v).mgtNote 0x08 v

/-- An update's outcome (Table 21.8 CODE). -/
def updOutcome (s : State) (code : Nat) : State := (s.setFld Reg.MGT_UPDSTAT 8 8 code).setBit Reg.MGT_UPDSTAT 16 true

/-- The BUILDID of a slot. -/
def slotBuild (s : State) (k : Nat) : Nat := (s.store.slots.get {} k).scn.hdr.buildid

/-- The installed keys follow the current slot's AUTH sections (R59, R491). -/
def followKeys (s : State) : State :=
  let auth := s.curSlot.scn.auth
  s.setStore { s.store with serials := auth.foldl (fun m p => SMap.insert m p.1 p.2) s.store.serials }

/-- SPL_ANNEX and SPL_NUM of every owner follow the slot made current (R235). -/
def annexAll (s : State) : State := forEach ownerIdx (fun s n => s.annexRegs n) s

/-- A commit record makes a slot current again (R64), with its Almanac record (R65). -/
def revertTo (s : State) (k : Nat) : State :=
  let s := (s.setStore { s.store with cur := k, recCur := k }).stage 0 4096 (.note 5)
  (s.followKeys.annexAll).almEvent 0x0011 15 k (s.slotBuild k)

/-- The update fails (R491, R494): idle planes discarded, the previous slot current again, F1926. -/
def updFail (s : State) (code : Nat) : State :=
  let bad := s.store.cur
  let s := s.setStore { s.store with idle := none }
  let s := (s.almEvent 0x0102 15 bad code).revertTo (1 - bad)
  ((s.updOutcome code).setUpdState 0).raise 1926

/-- NVS at a swap to another settings format (R69): the shadow is parked against the previous slot, regions take the new defaults. -/
def nvsPark (s : State) (prev fmt : Nat) : State :=
  if s.nvs.setfmt = fmt then s else
  let img := s.nvsImage 0
  let x := s.store.slots.get {} prev
  let s := s.setSlot prev { x with parked := some img }
  let s := s.nvsDefaults
  (s.setNvs { s.nvs with setfmt := fmt }).almEvent 0x0031 13 0 fmt

/-- NVS when the previous slot has become current again (R70), its planes in place: the parked image is restored, or defaults are taken and F1665
fires. -/
def nvsUnpark (s : State) : State :=
  let x := s.curSlot
  let fmt := x.scn.hdr.setfmt
  match x.parked with
  | some img =>
    let s := s.setNvs { s.nvs with mem := img.mem, badWords := [], weakWords := [] }
    (s.setNvs { s.nvs with setfmt := fmt }).setCurSlot { x with parked := none }
  | none =>
    if s.nvs.setfmt = fmt then s else
    let s := s.nvsDefaults
    ((s.setNvs { s.nvs with setfmt := fmt }).raise 1665).almEvent 0x0031 13 0 fmt

/-- A load that is verified and waits for its commit is discarded (R62). -/
def dropVerified (s : State) : State :=
  match s.store.load with
  | some l => if l.verified then s.setStore { s.store with load := none } else s
  | none => s

end State

end Sys2Proof.Machine
end

