-- ==== Sys2Proof/Machine/Mode.lean ====
section
/-! DEFINITION. Device modes and owner run states (R29 to R32, R38 to R50, R527): entering a mode, Stop, Hold, reset, starts, owners, and what a
MODE_SET or MGT_MODECMD may ask for. -/
namespace Sys2Proof.Machine

namespace State

/-- Leaving Test ends every force (R349, R443). -/
def leaveTest (s : State) : State := ({ s with img := { s.img with forces := [] } } : State).clearForces

/-- The management engine's release at a boundary, made at an instant (R482); one still running skips it. -/
def mgtEngAt (s : State) (t : Nat) : State :=
  if s.mgt.engRunning then s.bump Reg.MGT_ENGOVR 1 else
  let s := s.setMgt { s.mgt with engRunning := true, engAt := t, engHs := 0 }
  (s.setEng 256 { running := true, ctx := { pc := linear 1 0 } }).setBit Reg.MGT_ENGSTAT 1 true

/-- Does the management engine have releases in a mode (R482)? -/
def mgtEngRuns (s : State) : Bool :=
  s.mgt.engInstalled && (s.ms.mode == .stop || s.ms.mode == .run || s.ms.mode == .shadow || s.ms.mode == .test || s.ms.mode == .hold)

/-- A boundary that fell inside Handover is made at its end (R482). -/
def mgtEngCatch (s : State) : State :=
  match s.cfg.mgtp with
  | some p => if s.mgtEngRuns && decide (nextMultiple (us p.period) s.ms.hoAt ≤ s.now) then s.mgtEngAt s.now else s
  | none => s

/-- MGT_ENGINE_RELEASE: the next boundary of station time (R482). -/
def mgtEngBoundary (s : State) : State :=
  match s.cfg.mgtp with
  | some p =>
    if !s.mgtEngRuns then s else
    let per := us (max 1 p.period)
    let t := if s.now % per = 0 ∧ s.mgt.engLast ≠ s.now then s.now else nextMultiple per s.now
    let s := s.advance t
    (s.setMgt { s.mgt with engLast := t }).mgtEngAt t
  | none => s

/-- The device enters a mode (R29): PREV, the record of Table 20.3, the console line (R499), and what follows the mode. -/
def enterMode (s : State) (m : Mode) (cause : Nat) : State :=
  let old := s.ms.mode
  let s := s.setMs { s.ms with mode := m, prev := old, safeLed := false }
  let s := s.almEvent 0x0002 15 0xFF (m.code + old.code * 16)
  let s := s.emit (.console m.code cause 0)
  let s := if old = .test then s.leaveTest else s
  let s := if old = .hold then (s.setBit Reg.FLT_STAT 3 false).setFlt { s.flt with quietFrom := 0 } else s
  let s := if m = .handover then s.setMs { s.ms with hoAt := s.now } else if old = .handover then s.mgtEngCatch else s
  s.wdgModes.drivenRegs

/-- An owner's run state changes (Table 2.9), with its record. -/
def setOwnerSt (s : State) (n : Nat) (st : OwnSt) : State :=
  if (s.owner n).st = st then s else
  let s := s.setOwner n { s.owner n with st := st }
  let s := s.almEvent 0x0003 15 n st.code
  let s := s.setBit (Reg.FLT_OSTAT n) 0 (st == .held)
  s.wdgModes.drivenRegs

/-- Nothing of an owner is released any more; what runs goes to its END (R32, R193). The end of the drain follows in `settleDrains`. -/
def beginDrain (s : State) (n : Nat) : State :=
  let s := s.drainTasks n
  s.setOwner n { s.owner n with draining := true }

/-- An owner's drain has ended (R193, R42, R431, R323): LOP commits SAFEU and publications take their Stop form. -/
def endDrain (s : State) (n : Nat) : State :=
  let s := s.setOwner n { s.owner n with draining := false }
  (s.loopStop n).pubStop n

/-- Has an owner's drain ended: no release and no commit left? -/
def drained (s : State) (n : Nat) : Bool :=
  (s.owner n).draining && !s.anyOpen n && !s.img.commits.any (fun c => c.owner == n)

/-- The active member hands over at the instant the last release has committed (R257). -/
def stopHandOver (s : State) : State :=
  let s := (s.sendLeave 4).setActive false
  let s := s.setMs { s.ms with stopLeave := false, leaveSent := false }
  s.setFio { s.fio with keepUntil := some (s.now + us 20) }

/-- Drains that have ended, and what waits for the last of them. -/
def settleDrains (s : State) : State :=
  let s := forEach ownerIdx (fun s n => if s.drained n then s.endDrain n else s) s
  if s.ms.stopLeave && ownerIdx.all (fun n => !(s.owner n).draining) then s.stopHandOver else s

/-- An owner goes to Stopped (R42, R224). -/
def ownerStop (s : State) (n : Nat) : State :=
  if (s.owner n).st = .running ∨ (s.owner n).st = .held then
    let s := s.splDiscard n
    let s := (s.setOwnerSt n .stopped).setOwner n { s.owner n with st := .stopped, startPend := none }
    s.beginDrain n
  else s

/-- An owner goes to Held (R42, R450): its tasks stop at the next instruction boundary. -/
def ownerHeld (s : State) (n : Nat) : State :=
  let s := s.splHold n 4
  let s := (s.setOwnerSt n .held).stopTasks n
  let s := s.setOwner n { s.owner n with heldAt := s.mono, startPend := none }
  s.setFlt { s.flt with oquietFrom := s.flt.oquietFrom.insert n s.mono }

/-- A pending start is abandoned (R527). -/
def dropStart (s : State) : State :=
  let s := s.setMs { s.ms with startPend := none }
  s.setRed { s.red with startAt := none }

/-- A mode set Stop of a device whose tasks may run on (R32, R257): the active member of a pair with a good standby hands over when they have
ended; another one just is no longer active. -/
def deviceStop (s : State) (cause : Nat) : State :=
  let hand := s.ms.paired && s.ms.active && s.partnerGood
  let s := s.dropStart.enterMode .stop cause
  let s := forEach (s.ownersIn .running ++ s.ownersIn .held) (fun s n => s.beginDrain n) s
  if hand then s.setMs { s.ms with stopLeave := true } else s.setActive false

/-- A member goes to Stop, suspect (R247, R249, R251): as a mode set Stop ends its tasks, without handing over. -/
def suspectStop (s : State) (cause : Nat) : State :=
  let s := (s.markSuspect cause).setActive false
  let s := if s.ms.mode = .stop then s.dropStart else
    let s := s.dropStart.enterMode .stop cause
    forEach (s.ownersIn .running ++ s.ownersIn .held) (fun s n => s.beginDrain n) s
  s.setFio { s.fio with keepUntil := none }

/-- The device enters Hold (R32, R231, R449). -/
def deviceHold (s : State) : State :=
  let from_ := s.ms.mode
  let s := forEach ownerIdx (fun s n => s.splHold n 3) s
  let s := s.enterMode .hold 0
  let s := s.setMs { s.ms with heldFrom := some from_, holdAt := s.mono }
  let s := forEach (s.ownersIn .running) (fun s n => s.stopTasks n) s
  let s := s.setFlt { s.flt with quietFrom := s.mono }
  (s.setBit Reg.FLT_STAT 3 true).setBit Reg.FLT_STAT 18 true

/-- Boundaries follow from now on, and the counts of consecutive overruns are clear (R176). -/
def resumeAll (s : State) : State :=
  forEach (s.ownersIn .running) (fun s n => (s.clearConsec n).ownerResume n) s

/-! ### Starts -/

/-- The start policy's owner states at Configure (R41, R277). -/
def policyOwners (s : State) : State :=
  forEach ownerIdx (fun s n =>
    if !s.ownerDef n then s.setOwner n {}
    else
      let run := s.cfg.mode.pupol != 0 && s.startable n
      s.setOwner n { st := if run then .running else .stopped }) s

/-- The management engine's DATA is cleared and its program restarts at its entry (R482). -/
def mgtEngReset (s : State) : State :=
  let s := (s.setEng 256 {}).setMgt { s.mgt with engRunning := false, engSram := [], engInstalled := s.cfg.mgtp.isSome }
  s.setFld Reg.MGT_ENGSTAT 0 2 (b2n s.cfg.mgtp.isSome)

/-- Is a start of the device pending (R38)? -/
def startPending (s : State) : Bool := s.ms.startPend.isSome

/-- A start command, or the start policy, is taken up (R38, R240): the start is pending. -/
def startDevice (s : State) (cold policy : Bool) : State :=
  let s := s.setMs { s.ms with startPend := some cold, startFrom := s.now, fromPolicy := policy }
  match s.cfg.redn with
  | some r => s.setRed { s.red with startAt := some (s.mono + msec (if r.startwait = 0 then 500 else r.startwait)) }
  | none => s

/-- The policy of an entry to Stop: 0 stays, 1 warm, 2 cold (Table 3.16). -/
def startPolicy (s : State) (pol : Nat) : State :=
  if s.isSuspect then s
  else if pol = 1 then s.startDevice false true
  else if pol = 2 then s.startDevice true true
  else s

/-- Must a pending start wait or join: 0 it may complete, 1 it waits for its partner, 2 it joins (R40, R240)? -/
def startPath (s : State) : Nat :=
  if !s.hasRedn then 0
  else if s.ms.paired then
    if s.partnerActive then 2
    else if s.red.pMode == 5 && !s.red.pSuspect && (match s.red.hello with | some h => decide (s.baseClaim < h.base) | none => false) then 1
    else 0
  else match s.red.startAt with
    | some t => if s.mono < t then 1 else 0
    | none => 0

/-- The run-start instant of a device start (R38, R175): every owner's data is set (Table 2.4), a Stopped or Held owner's too; an owner that cannot start is
Stopped (R67, R277). -/
def runStart (s : State) (cold : Bool) : State :=
  let all := ownerIdx.filter (fun n => s.startable n)
  let s := forEach all (fun s n => s.ownerPrepare n cold) s
  let s := forEach (s.ownersIn .running) (fun s n => if s.startable n then s else s.setOwnerSt n .stopped) s
  let s := s.mgtEngReset.dropStart
  let s := s.enterMode .run 0
  let s := s.setMs { s.ms with start := if cold then 2 else 1, runStart := s.now }
  let s := if s.hasRedn then s.setActive true else s
  forEach all (fun s n => s.ownerRun n) s

/-- A Stopped or Held owner starts alone (R43, R450). -/
def ownerStartNow (s : State) (n : Nat) (cold : Bool) : State :=
  if !s.startable n || (s.owner n).st == .running || (s.owner n).st == .undef then s else
  let s := s.ownerPrepare n cold
  let s := s.setOwner n { s.owner n with startPend := none }
  let s := s.setOwnerSt n .running
  s.ownerRun n

/-! ### Reset and Hold's end -/

/-- Discard every store buffer and every release (R39). -/
def discardWork (s : State) : State :=
  let s : State := { s with engines := s.engines.map (fun p => (p.1, { p.2 with sb := [] })) }
  forEach ownerIdx (fun s n => s.stopTasks n) s

/-- The fault reaction reset (R39, R62, R494): Stop is entered afresh and the policy for reset runs. -/
def resetDevice (s : State) : State :=
  let s := s.discardWork
  let s := s.dropVerified
  let s := if s.mgt.upd.state = 1 ∨ s.mgt.upd.state = 2 then s.updFail 8 else s
  let s := s.dropStart.setActive false
  let s := s.setMs { s.ms with resetDue := false, stopLeave := false }
  let s := s.enterMode .stop 0
  let s := forEach (s.ownersIn .running ++ s.ownersIn .held) (fun s n => s.beginDrain n) s
  s.startPolicy s.cfg.mode.rstpol

/-! ### Mode sets (Tables 2.2, 2.8, 14.6) -/

/-- May the device's mode be set to a target now (Table 2.2, R527)? -/
def modeSetOk (s : State) (target : Nat) : Bool :=
  let m := s.ms.mode
  if target = 5 then
    m == .run || m == .shadow || m == .hold || m == .test || (m == .stop && s.startPending)
  else if target = 6 then m == .stop && !s.startPending && !s.isSuspect
  else if target = 8 then m == .stop && !s.startPending && (!s.ms.paired || s.red.pMode == 5)
  else if target = 0xB then
    m == .configure || m == .stop || m == .run || m == .shadow || m == .test || m == .hold || m == .handover
  else false

/-- Is the kind right for the target (Table 2.8, R350)? -/
def modeKindOk (target kind : Nat) : Bool := if target = 6 then kind == 1 || kind == 2 else kind == 0

/-- Publications of the Running owners leave their Stop form at an entry to Test. -/
def testPubs (s : State) : State :=
  forEach (s.ownersIn .running) (fun s n =>
    forEach s.cfg.pubs (fun s q =>
      if q.2.owner = n ∧ s.pubForm q.1 ≠ 0 then
        let s := s.setFld (Reg.NET_GPSTAT q.1) 4 2 0
        s.pubNew q.1 q.2 (s.pubData q.2 false)
      else s) s) s

/-- Test is entered from Stop (Table 2.2): no start, so data stand as they are. -/
def enterTest (s : State) : State :=
  let s := s.enterMode .test 0
  s.testPubs.resumeAll

/-- MGT_MODE (Table 2.7): bits 16 and 17 are stored. -/
def modeWord (s : State) : Nat :=
  let m := s.ms
  m.mode.code + m.prev.code * 16 + b2n m.paired * 256 + b2n m.active * 512 + m.start * 1024 + m.cause * 4096 + b2n m.slotPrev * 32768 +
  s.fld Reg.MGT_MODE 16 2 * 65536 + b2n m.startPend.isSome * 262144

/-- MGT_OWNSTATE (Table 2.9). -/
def ownWord (s : State) : Nat := ownerIdx.foldl (fun a n => a + (s.owner n).st.code * 4 ^ n) 0

/-- A mode command that is not acted on (R30, Table 2.7): CMDREJ and its log entry. -/
def cmdRej (s : State) : State := (s.setBit Reg.MGT_MODE 17 true).mgtNote2 0x04

end State

end Sys2Proof.Machine
end

