-- ==== Sys2Proof/Machine/Drain.lean ====
section
/-! DEFINITION. Power domains (R19, R485, R486) and Drain (R45 to R48). -/
namespace Sys2Proof.Machine

namespace State

/-- Is a domain used by the scantling (Table 1.5)? -/
def pdUsed (s : State) (d : Nat) : Bool :=
  if d < 64 then (s.bentCfg d).assigned
  else if d = 67 then s.cfg.port.ports.any (fun p => decide (p.1 < 48) && p.2.mode != 0)
  else if d = 68 then s.cfg.port.ports.any (fun p => decide (48 ≤ p.1) && p.2.mode != 0)
  else if d = 73 then !s.cfg.loops.isEmpty
  else if d = 74 then !s.cfg.can.isEmpty
  else if d = 75 then !s.cfg.dch.isEmpty || !s.cfg.ach.isEmpty
  else true

/-- Is a domain switched on? -/
def pdOn (s : State) (d : Nat) : Bool := s.fld (Reg.MGT_PDSTAT d) 0 1 == 1

/-- MGT switches a domain (R486), with its count and its log entry (R487). -/
def pdSwitch (s : State) (d : Nat) (on : Bool) : State :=
  if s.pdOn d = on then s else
  let s := s.setBit (Reg.MGT_PDSTAT d) 0 on
  (if on then s.bump (Reg.MGT_PDONCNT d) 1 else s).mgtNote 0x01 d

def pdSet (s : State) (l : List Nat) (on : Bool) : State := forEach l (fun s d => s.pdSwitch d on) s

/-- The management engine stops at its next instruction boundary (R482). -/
def mgtEngStop (s : State) : State := ((s.setEng 256 {}).setMgt { s.mgt with engRunning := false }).setBit Reg.MGT_ENGSTAT 1 false

/-- Every commit handed over completes (R32, Table 2.5 step 2). -/
def commitAll (s : State) : State :=
  forEach s.img.commits (fun s c => s.commitNext c.owner) s

/-- Steps 2 to 4 of Table 2.5. `wait` is how long after LEAVE the safe states may go to the sill (R256); `safe` says whether they go at all. -/
def drainShut (s : State) (safe : Bool) (wait : Nat) : State :=
  let t0 := s.now
  let s := forEach ownerIdx (fun s n => s.stopTasks n) s
  let s := s.mgtEngStop.commitAll
  let s := (s.lorEndAll (fun _ _ => true)).almRelease.arcStop
  let s := if safe then (s.advance (t0 + wait)).downlinkNow 0 else s
  let s := forEach (List.range 64) (fun s m => if (s.bentCfg m).assigned then s.gateBent m else s) s
  let s := s.pdSet [66, 67, 68, 73, 74, 75] false
  s.setActive false

/-- Entry to Drain (R45, R47, R48), with the cause of Table 20.3. From Configure only steps 6 and 7 run. -/
def enterDrain (s : State) (cause : Nat) : State :=
  let m := s.ms.mode
  let short := m == .configure
  let act := s.ms.paired && s.ms.active
  let s := s.sendLeave cause
  let s := s.dropStart.enterMode .drain 0
  let s := s.setMs { s.ms with drainCause := cause, drainShort := short, lastDrain := s.mono, removeWait := false, resetDue := false }
  let s := s.setRed { s.red with removal := false }
  if short then s else s.drainShut (m != .shadow) (if act && cause == 1 then us 12 else 0)

/-- What the sill keeps while its group supplies last: its filters, queue, commands and claim unit (chapter 17). -/
def sillKept (f : Fio) : Fio :=
  { inRange := f.inRange, reporting := f.reporting, filt := f.filt, queue := f.queue, lostNext := f.lostNext, downMiss := f.downMiss,
    sillSeen := f.sillSeen, lastDown := f.lastDown, sillCmd := f.sillCmd, sillCodes := f.sillCodes, sillEn := f.sillEn, sillClaim := f.sillClaim,
    sillLost := f.sillLost, ordOff := f.ordOff, compl := f.compl, wins := f.wins, seen2 := f.seen2, driven := f.driven, sp5 := f.sp5,
    limitAt := f.limitAt }

/-- Registers that never lose their value: the Almanac's and the log's numbers, wear, the calendar and its RAM. -/
def keptReg (a : Nat) : Bool :=
  a == Reg.ALM_NEXT || a == Reg.ALM_OLDEST || a == Reg.ALM_CYCLES || a == Reg.MGT_LOGNEXT || a == Reg.STO_WEAR || a == Reg.STO_SPARE ||
  (decide (Reg.TIM_CALCTL ≤ a) && decide (a < Reg.TIM_CALRAM 8))

/-- What is left once the domains of Table 2.3 have gone off: `mgt` says that PD76 and PD77 stayed supplied, `sto` that STO did. -/
def afterPower (s : State) (mgt sto : Bool) : State :=
  let keep (a : Nat) : Bool := keptReg a || (mgt && (blockOf a == 15 || blockOf a == 14)) || (sto && blockOf a == 4)
  let kept : Sto :=
    { ack := { s.sto.flash with back := [] }, flash := { s.sto.flash with back := [] }, wins := s.sto.wins, cleanMark := s.sto.cleanMark,
      unreadable := s.sto.unreadable, weak := s.sto.weak }
  let marks : SMap Bent := if mgt then (s.bents.filter (fun b => b.2.unusable)).map (fun b => (b.1, { unusable := true })) else []
  { pending := s.pending, now := s.now, skew := s.skew, free := s.free, out := s.out,
    regs := s.regs.keep (fun a _ => keep a),
    raised := s.raised,
    ms := { mode := s.ms.mode, prev := s.ms.prev, drainCause := s.ms.drainCause },
    pw := s.pw,
    owners := [(0, { st := .stopped })],
    bents := marks,
    wdg := if mgt then (s.wdg.filter (fun w => w.2.lock)).map (fun w => (w.1, { lock := true })) else [],
    sto := if sto then s.sto else kept,
    nvs := { imgA := s.nvs.imgA, imgB := s.nvs.imgB, setfmt := s.nvs.setfmt },
    alm := if mgt then { s.alm with writing := false, closed := false, frozenBy := none }
           else { ckptA := s.alm.ckptA, ckptB := s.alm.ckptB, wrapped := s.alm.wrapped },
    mgt := if mgt then { warn := s.mgt.warn, limit := s.mgt.limit, sampled := s.mgt.sampled, pinFrom := s.mgt.pinFrom, lastBank := s.mgt.lastBank } else {},
    fio := sillKept s.fio,
    mmu := { keys := s.mmu.keys.map (fun p => (p.1, { p.2 with ok := false })), version := s.mmu.version },
    tim := { calCnt := s.tim.calCnt, calAt := s.tim.calAt },
    store := { s.store with load := none, idle := none, prevPlane := none, plane := 0 } }

/-- Backup: every domain but those always supplied is off, and what does not survive without supply is gone. -/
def powerOff (s : State) : State :=
  let prev := s.ms.mode
  let s := s.afterPower false false
  s.setMs { s.ms with mode := .backup, prev := prev }

/-- A restart through Lean with the supply present (Table 2.2), with its cause (Table 2.7); the next SUPPLY_VALID runs Table 2.3. -/
def restartLean (s : State) (cause : Nat) (sto : Bool) : State :=
  let s := (s.enterMode .lean cause).afterPower true sto
  s.setMs { s.ms with cause := cause, drainCause := 0 }

/-- The Drain's records (Table 2.5 step 6). The spec gives the management log's entry no code. -/
def drainRecords (s : State) : State :=
  let s := if s.ms.noConfirm then s.mgtNote2 0x06 else s
  let s := (s.almEvent 0x0004 15 0xFF (s.ms.drainCause + b2n s.ms.noConfirm * 256)).almBegin
  let s := s.almCheckpointNow
  let (c, s) := (s.setAlm { s.alm with closed := true }).fresh
  let s := (s.mgtNote2 (c % 65536)).flushAll
  { s with sto := { s.sto with cleanMark := true } }

/-- Steps 5 and 6 of Table 2.5; `ok` says whether they complete (R46): else an open part of staging has reached flash, and no save and no marker. -/
def drainSave (s : State) (ok : Bool) : State :=
  if ok then
    let s := s.flushAll
    (if s.ms.drainShort then s else s.nvsSave true).drainRecords
  else
    let (v, s) := s.fresh
    let s := s.flushShare 0 (v % (s.sto.staging.length + 1))
    (if s.ms.drainShort then s else s.nvsSave false)

/-- Steps 5 to 7 of Table 2.5 (R45 to R48): into Backup where the supply is absent; else the module stays in Drain, its safe LED lit unless the Drain came
from a supply that has returned. -/
def drainDone (s : State) (ok : Bool) : State :=
  if s.ms.mode ≠ .drain ∨ s.ms.drainOver then s else
  let s := s.drainSave ok
  let s := forEach ([64, 65, 69, 70, 71, 72, 79] : List Nat) (fun s d => s.setBit (Reg.MGT_PDSTAT d) 0 false) s
  if s.pw.inputOk then s.setMs { s.ms with drainOver := true, safeLed := s.ms.drainCause != 1 } else s.powerOff

end State

end Sys2Proof.Machine
end

