-- ==== Sys2Proof/Machine/Red.lean ====
section
/-! DEFINITION. Pairing, heartbeats, digests, takeover and planned switch-over (R236 to R259). -/
namespace Sys2Proof.Machine

namespace State

/-! ### Messages (R241) -/

/-- The EtherType group of a message, as a key of the receive counters. -/
def pairGroup (h : PairHead) : Nat := if h.bulk then 0x88B6 else 0x88B5

/-- Is a pair message accepted (R241)? A failed tag, or a SEQ not above the last accepted, is discarded and counted. -/
def pairRx (s : State) (h : PairHead) : Bool × State :=
  if !s.ms.paired then (false, s)
  else if !h.tag || decide (h.seq < s.red.rxSeq.get 0 (pairGroup h)) then (false, s.bump Reg.RED_LINKERR 1)
  else (true, s.setRed { s.red with rxSeq := s.red.rxSeq.set 0 (pairGroup h) (h.seq + 1) })

/-- RED's configuration registers, set by the end of Configure (Tables 10.11, 10.12). -/
def redConfigure (s : State) : State :=
  let s := s.setBit Reg.RED_STAT 0 true
  match s.cfg.redn with
  | none =>
    let s := (s.wr Reg.RED_CFG 0).wr Reg.RED_PAIRID 0
    if s.ms.paired then s.redUnpair.setActive false else s
  | some r =>
    let v := r.base + 8 + r.hbmiss * 16 + r.disclim * 256 + b2n r.auto * 65536 + r.holdtko * 131072
    (s.wr Reg.RED_CFG v).wr Reg.RED_PAIRID r.pairid

/-! ### Windows passed over: no release falls inside Handover (Table 10.5, R176, R179, R430) -/

/-- How many instants `start + i * per` lie before `t`, from `start` on. -/
def passed (start per t : Nat) : Nat := if t ≤ start then 0 else (t - 1 - start) / per + 1

/-- Time passes to `t` while nothing is released: boundaries and events passed count in SEQ_TNOREL, loop samples in LOP_MISSED. -/
def passOver (s : State) (t : Nat) : State :=
  let s := forEach (s.cfg.tasks.filter (fun p => p.2.defined)) (fun s p =>
    let x := s.task p.1
    let (c, x) := match x.nextB with
      | some b =>
        let c := passed b (us (max 1 p.2.period)) t
        (c, { x with nextB := some (b + c * us (max 1 p.2.period)) })
      | none =>
        let late := x.events.filter (fun e => decide (e < t))
        (late.length, { x with events := x.events.filter (fun e => decide (t ≤ e)) })
    (s.setTask p.1 x).bump (Reg.SEQ_TNOREL p.1) c) s
  let s := forEach s.loopsTimed (fun s l =>
    let per := us (max 1 (s.rd (Reg.LOP_PERIOD l.1)))
    let c := passed l.2 per t
    let s := s.setLoop l.1 { s.loop l.1 with next := some (l.2 + c * per) }
    if s.fld (Reg.LOP_STAT l.1) 8 1 = 1 then s.bump (Reg.LOP_MISSED l.1) c else s) s
  s.advance t

/-- The instant at which Handover ends: an open value within its bound in ns. -/
def openUntil (s : State) (bound : Nat) : Nat × State :=
  let (v, s) := s.fresh
  (s.now + v % (nsec bound + 1), s)

/-- What waits for the end of Handover: a reset reaction (Table 2.2). -/
def handoverEnd (s : State) : State := if s.ms.resetDue then s.resetDevice else s

/-- The module passes through Handover from now to an instant, and enters a mode. -/
def throughHandover (s : State) (t : Nat) (to_ : Mode) (mid : State → State) : State :=
  let s := s.setMs { s.ms with hoFrom := some s.ms.mode }
  let s := (s.enterMode .handover 0).passOver t
  let s := mid s
  (s.enterMode to_ 0).setMs { s.ms with mode := to_, prev := .handover, hoFrom := none, safeLed := false }

/-! ### Joining and leaving a transfer (R240, R260) -/

def xferPhase (s : State) (p : Nat) : State := s.setFld Reg.RED_XFER 0 3 p

/-- A member enters Handover to join its active partner (R240, R250, R260). -/
def joinPair (s : State) : State :=
  let from_ := s.ms.mode
  let s := (s.dropStart.setActive false).setMs { s.ms with active := false, startPend := none, hoFrom := some from_ }
  let s := s.enterMode .handover 0
  let s := s.setRed { s.red with joiner := true, xferAt := s.mono, xferQ := none, rowQ := [], own := [], startAt := none }
  ((s.wr Reg.RED_XFER (s.fld Reg.RED_XFER 8 8 * 256)).xferPhase 1).redFlag 4 true

/-- A transfer ends without success (R260): a joiner goes back to Stop, and F1288 fires. -/
def xferFail (s : State) (code : Nat) : State :=
  if s.fld Reg.RED_STAT 4 1 = 0 then s else
  let join := s.red.joiner
  let s := ((s.setFld Reg.RED_XFER 8 8 code).xferPhase 0).redFlag 4 false
  let s := s.setRed { s.red with joiner := false, xferQ := none, rowQ := [] }
  let s := s.raise 1288 0xFFFF code
  if join && s.ms.mode == .handover then
    let s := (s.setMs { s.ms with hoFrom := none }).enterMode .stop 0
    let s := forEach (s.ownersIn .running ++ s.ownersIn .held) (fun s n => s.beginDrain n) s
    s.handoverEnd
  else s

/-! ### Pairing (R236 to R239) -/

/-- This member's own HELLO (Table 10.3). -/
def myHello (s : State) : Hello :=
  { serial := s.store.serial, pairid := (s.cfg.redn.map (·.pairid)).getD 0, base := s.baseClaim, mode := s.ms.mode.code,
    role := if s.ms.active then 1 else if s.isStandby then 2 else 0, nonce := s.red.nonce, pub := s.store.pubKey, digest := s.cfg.pairDig }

def helloFields (h : Hello) : List Nat := [h.serial, h.pairid, h.base, h.mode, h.role, h.nonce, h.pub, h.digest]

/-- The key confirmation of a HELLO exchange (R239): under O0's installed key, the sender's payload first. -/
def confTag (s : State) (a b : Hello) : Nat :=
  Config.pairTag ((s.keyOf 0 (s.store.serials.get 0 0)).getD 0) (helloFields a ++ helloFields b)

/-- May this member pair now: REDN loaded, no partner, a working link, and not leaving? -/
def canPair (s : State) : Bool :=
  s.hasRedn && s.fld Reg.RED_STAT 0 1 == 1 && !s.ms.paired && !s.pairLinkDown && s.ms.mode != .drain && s.ms.mode != .configure

/-- Every 1 ms while unpaired, with a fresh nonce (R238, R239). -/
def helloSend (s : State) : State :=
  if !s.canPair then s else
  let s := s.advance (nextMultiple (msec 1) s.now)
  let s := s.setRed { s.red with nonce := Config.trng s.free }
  let s : State := { s with free := s.free + 1 }
  s.emit (.pair 0x01 (helloFields s.myHello))

/-- A pairing check fails (R238): CFGMIS, F1284, the code of Table 10.8. -/
def pairRefuse (s : State) (code : Nat) : State :=
  let s := (s.redFlag 21 true).setFld Reg.RED_XFER 8 8 code
  (s.setRed { s.red with hello := none, confSent := false, confOk := false }).raise 1284 0xFFFF code

/-- A HELLO is checked; one that passes is answered once with KEYCONF (R238, R239). -/
def helloRx (s : State) (h : Hello) : State :=
  if !s.canPair then s
  else if h.pairid ≠ s.myHello.pairid then s.pairRefuse 9
  else if h.base = s.baseClaim then s.pairRefuse 8
  else if h.digest ≠ s.cfg.pairDig then s.pairRefuse 1
  else
    let sent := s.red.confSent
    let s := s.setRed { s.red with hello := some h, confSent := true }
    if sent then s else s.emit (.pair 0x02 [s.confTag s.myHello h])

/-- The pair is formed (R238 to R240): of two active members the one with the lower base claim joins. -/
def pairForm (s : State) (h : Hello) : State :=
  let key := Config.pairTag 0 [min s.store.serial h.serial, max s.store.serial h.serial, min s.store.pubKey h.pub, max s.store.pubKey h.pub]
  let s := s.setRed { s.red with
    confOk := true, key := key, pMode := h.mode, pRole := h.role, pFlevel := 0, pSuspect := false, rxSeq := [], txSeq := [], hbAt := s.mono,
    lastHb := s.mono, digs := [], runs := [], holdSince := none }
  let s := (s.setPaired true).wr64 Reg.RED_PARTNER h.serial
  if s.ms.active && h.role == 1 && decide (s.baseClaim < h.base) && s.ms.mode == .run then s.joinPair else s

/-- The partner's KEYCONF is verified (R239). -/
def keyConfRx (s : State) (tag : Nat) : State :=
  if !s.canPair then s else
  match s.red.hello with
  | none => s
  | some h => if tag = s.confTag h s.myHello then s.pairForm h else s.pairRefuse 2

/-! ### Takeover (R249, R250, R252) -/

/-- NET, FIO and CAN install their current states where these differ from the image (Table 10.5 step 3), with their own stamps. -/
def installOwn (s : State) : State :=
  let l := s.red.own
  let s := s.setRed { s.red with own := [] }
  let s := forEach l (fun s p =>
    let row := p.1 / 4
    let diff := (s.curBits row ^^^ p.2.2.1) &&& p.2.1
    match s.rowPlace row with
    | some (n, _) => if diff = 0 then s else s.sourceWrite n [(row, p.2.2.1, diff)] p.2.2.2 (p.1 % 4)
    | none => s) s
  s.fioCatchUp

/-- What becomes this member's own with the active role: rows, CAN transmission, sequence counters, the shared addresses. -/
def becomeActive (s : State) : State := (s.installOwn.canTakeover.seqJump).announceShared

/-- A takeover from its detection instant D to Run (Table 10.5 steps 1 to 4), with its cause (Table 20.3 0x0020). -/
def takeover (s : State) (cause : Nat) : State :=
  let s := ((s.setActive true).redFlag 17 true).redFlag 5 true
  let s := s.setRed { s.red with sw := 4, swCause := cause, swT := s.now, digs := [], runs := [] }
  let (t, s) := s.openUntil 2000
  let s := s.throughHandover t .run (fun s => s.becomeActive)
  (s.srcInvalid 4).handoverEnd

/-- Did SP6 show no claim with the active bit, and was it readable, over the last two cycles (R249)? -/
def sp6Clear (s : State) : Bool := decide (s.fio.seen2.length = 2) && s.fio.seen2.all (fun c => !c.2 && decide (c.1 < 8))

/-- May this member take over at a LEAVE or step-down (R249): in Shadow and not suspect? -/
def mayTakeOver (s : State) : Bool := s.ms.mode == .shadow && !s.isSuspect && !s.ms.active

/-- The active partner has left, without an SP6 check (R249). `keep` says that the pair stays formed (R257). -/
def activeLeft (s : State) (cause : Nat) (keep : Bool) : State :=
  let may := s.mayTakeOver
  let s := s.xferFail 7
  let s := if keep then s.setRed { s.red with pRole := 0 } else s.redUnpair
  if may then s.takeover cause else s

/-- The takeover is complete (Table 10.5 step 6) or the planned switch-over (Table 10.6 step 5). -/
def switchDone (s : State) : State :=
  let cause := s.red.swCause
  let s := s.redSend 0x05 [5, cause, 0]
  let s := (s.raise 1281).almEvent 0x0020 10 0xFF cause
  let s := (s.bump Reg.RED_SWCNT 1).wr64 Reg.RED_LASTSW (form64 s.now)
  (s.setRed { s.red with sw := 0, activeAt := s.mono, removal := false }).redFlag 5 false

/-- TAKEOVER_COMPLETE at most 100 µs after D (R252, R262). -/
def takeoverDone (s : State) : State :=
  if s.red.sw ≠ 4 then s else
  let (v, s) := s.fresh
  (s.advance (max s.now (s.red.swT + v % us 100))).switchDone

/-- RED_DRVAGE (R261). -/
def drvAge (s : State) : Nat :=
  if !s.hasRedn || s.ms.active then 0 else min 0x3FFFF ((s.mono - s.red.activeAt) / (3600 * secU))

/-- No heartbeat for HBMISS periods (R249, R251). -/
def partnerLost (s : State) : State :=
  if !s.ms.paired then s else
  let miss := match s.cfg.redn with | some r => if r.hbmiss = 0 then 3 else r.hbmiss | none => 3
  let s := (s.advanceMono (s.red.hbAt + us (50 * miss))).bump Reg.RED_HBLOST miss
  let wasActive := s.red.pRole = 1
  let may := s.mayTakeOver
  let s := s.xferFail 7
  if wasActive ∧ may then
    let clear := s.sp6Clear
    let s := s.redUnpair
    if clear then s.takeover 1 else (s.suspectStop 3).raise 1280
  else s.redUnpair.raise 1280

/-- The active partner has been in Hold for HOLDTKO (R250). -/
def holdTakeover (s : State) : State :=
  match s.red.holdSince, s.cfg.redn with
  | some t, some r =>
    if s.mayTakeOver && s.partnerActive then
      let s := s.advanceMono (t + msec r.holdtko)
      (s.setRed { s.red with pRole := 0 }).takeover 4
    else s
  | _, _ => s

/-! ### Heartbeats (R240, R249, R369) -/

/-- HEARTBEAT at the next 50 µs boundary (Table 10.3). -/
def heartbeatSend (s : State) : State :=
  if !s.ms.paired then s else
  let s := s.advance (nextMultiple (us 50) s.now)
  let role := if s.ms.active then 1 else if s.isStandby then 2 else 0
  s.redSend 0x03 [s.ms.mode.code, role, s.flevel, s.claimNow, b2n s.isSuspect, form64 s.epochMax, s.rd Reg.RED_DIGTX]

/-- A standby takes its time from the active's heartbeat (R369): beyond 1 µs by a step at once. -/
def partnerTime (s : State) (off : Int) : State :=
  let s := if s.timSrc = 4 then s else
    let s := s.setSrc 4 { s.src 4 with since := some s.now, qual := true, meas := off }
    s.reselect
  if us 1 < off.natAbs then s.applyStep off else s.srcSample 4 off

/-- A received heartbeat: partner state, periods missed, the standby's time; a start that waited for the partner joins (R240). -/
def heartbeatRx (s : State) (mode role flevel suspect epoch : Nat) (off : Int) : State :=
  let gap := (s.mono - s.red.hbAt) / us 50
  let s := if 1 < gap then s.bump Reg.RED_HBLOST (gap - 1) else s
  let since := if mode = 9 ∧ role = 1 then (match s.red.holdSince with | some t => some t | none => some s.mono) else none
  let s := s.setRed { s.red with
    pMode := mode, pRole := role, pFlevel := flevel, pSuspect := suspect == 1, pEpoch := epoch, hbAt := s.mono, lastHb := s.mono, holdSince := since }
  let s := if s.ms.active ∧ s.fld Reg.RED_STAT 4 1 = 1 ∧ mode ≠ 10 then
      (s.redFlag 4 false).xferPhase (if mode = 7 then 5 else 0)
    else if s.ms.active ∧ s.ms.mode = .run ∧ mode = 10 ∧ role ≠ 1 ∧ s.fld Reg.RED_STAT 4 1 = 0 ∧ s.red.sw = 0 then
      ((s.redFlag 4 true).setRed { s.red with xferAt := s.mono, xferQ := none }).wr Reg.RED_XFER 2
    else s
  let s := if s.ms.mode = .shadow ∧ role = 1 then s.partnerTime off else s
  if s.startPending && role == 1 then s.joinPair else s

/-! ### Digests (R246, R247) -/

/-- Stop the standby, suspect with a cause (R247, STOPCMD). -/
def stopStandby (s : State) (cause : Nat) : State := s.redSend 0x07 [cause]

def digKey (d : Dig) : Nat := d.kind * 65536 + d.num

/-- The next armed compare of TIM at or after an instant. -/
def nextCompare (s : State) (t : Nat) : Option Nat :=
  ((List.range 64).filterMap (fun u =>
    if s.cuArmed u then (let (a, _) := s.targetInstant (s.rd64 (Reg.TIM_CUTGT u)); if t ≤ a then some a else none) else none)).min?

/-- The last cyclic boundary, loop sample or compare in [t, t + 5 µs), if any (R253). -/
def gapBlock (s : State) (t : Nat) : Option Nat :=
  let bs := s.cfg.tasks.filterMap (fun p => if p.2.defined && !p.2.event then some (s.nextBoundary p.1 (t - 1)) else none)
  let ls := s.loops.filterMap (fun p => if p.2.next.isSome then some (s.loopNext p.1 (t - 1)) else none)
  ((bs ++ ls ++ (s.nextCompare t).toList).filter (fun x => decide (x < t + us 5))).max?

/-- The first gap of at least 5 µs from an instant on, at a whole ns (R253). -/
def findGap (s : State) (t : Nat) : Nat → Nat
  | 0 => t
  | fuel + 1 => match s.gapBlock t with
    | some b => s.findGap ((max b t / 65536 + 1) * 65536) fuel
    | none => t

/-- The active member asks for a switch-over at T (R253, R247). -/
def switchRequest (s : State) (cause lead : Nat) : State :=
  let t := s.findGap (cdiv (s.now + lead) 65536 * 65536) 100000
  let s := s.setRed { s.red with sw := 1, swT := t, swCause := cause }
  (s.redFlag 5 true).redSend 0x05 [1, cause, form64 t]

/-- A mismatch of a commit (R247, Table 10.4): counted on both members; the active member decides. -/
def mismatch (s : State) (d : Dig) : State :=
  let s := (s.bump Reg.RED_DIGMIS 1).redFlag 16 true
  let run := s.red.runs.get 0 (digKey d) + 1
  let s := (s.setRed { s.red with runs := s.red.runs.insert (digKey d) run }).maxReg Reg.RED_DISCRUN run
  if !s.ms.active then s else
  let mine := decide (3 ≤ s.flevel)
  let his := decide (3 ≤ s.red.pFlevel)
  if his then s.stopStandby 6
  else if mine then (if s.red.sw = 0 then s.switchRequest 3 0 else s)
  else
    let s := s.raise 1282 (if d.kind = 0 then d.num else 0xFFFF)
    let lim := match s.cfg.redn with | some r => if r.disclim = 0 then 16 else r.disclim | none => 16
    if lim ≤ run then ((s.setRed { s.red with runs := s.red.runs.erase (digKey d) }).stopStandby 1).raise 1283 else s

/-- Are digests compared now: both members in Run or Shadow (R246)? -/
def comparing (s : State) : Bool :=
  s.ms.paired && (s.ms.mode == .run || s.ms.mode == .shadow) && (s.red.pMode == 6 || s.red.pMode == 7)

/-- Is a digest compared: not of a task that a fault reaction releases (binding 7)? -/
def compared (s : State) (d : Dig) : Bool := !(d.kind == 0 && (s.taskCfg d.num).event && (s.taskCfg d.num).bkind == 7)

def sameCommit (a b : Dig) : Bool := a.owner == b.owner && a.kind == b.kind && a.num == b.num && a.epoch == b.epoch

/-- Match each of this member's digests with the partner's digest of the same commit (R246). -/
def redCompare (s : State) : State :=
  if !s.comparing then (if s.red.digs.isEmpty then s else s.setRed { s.red with digs := [] }) else
  forEach (s.red.digs.filter (·.mine)) (fun s d =>
    match s.red.digs.find? (fun x => !x.mine && sameCommit x d) with
    | none => s
    | some x =>
      let rest := s.red.digs.filter (fun y => !sameCommit y d)
      let s := s.setRed { s.red with digs := rest }
      if !s.compared d then s
      else if x.dig = d.dig then s.setRed { s.red with runs := s.red.runs.erase (digKey d) }
      else s.mismatch d) s

/-- The partner's digests arrive. -/
def digestRx (s : State) (l : List (Nat × Nat × Nat × Nat × Nat)) : State :=
  let new := l.map (fun d => { owner := d.1, kind := d.2.1, num := d.2.2.1, epoch := d.2.2.2.1, dig := d.2.2.2.2, at_ := s.mono, mine := false : Dig })
  if s.comparing then s.setRed { s.red with digs := s.red.digs ++ new } else s

/-- The oldest digest the partner has not matched reaches 2 ms (R246): a mismatch of kind missing. -/
def digestMissing (s : State) : State :=
  match s.red.digs.filter (·.mine) with
  | [] => s
  | d :: _ =>
    let s := s.advanceMono (d.at_ + msec 2)
    let t := s.mono
    let keep := s.red.digs.filter (fun x => !sameCommit x d && (x.mine || decide (t < x.at_ + msec 2)))
    let s := s.setRed { s.red with digs := keep }
    if s.compared d then (s.bump Reg.RED_DIGMISSING 1).mismatch d else s

/-! ### Planned switch-over (R253, R261) -/

/-- A planned switch-over is asked for on this member: only an active one whose SWITCHING is 0 acts on it (Table 10.12). -/
def switchCmd (s : State) (cause : Nat) : Bool × State :=
  if !s.hasRedn || !s.ms.paired || !s.ms.active || s.fld Reg.RED_STAT 5 1 == 1 || s.ms.mode != .run then (false, s.redReject)
  else (true, s.switchRequest cause (msec 1))

/-- The Lorat request that waits for a switch-over is answered: done, or TRANSITION with the mode code. -/
def switchAnswer (s : State) (ok : Bool) : State :=
  match s.red.swWait with
  | none => s
  | some (k, seq) =>
    let s := s.setRed { s.red with swWait := none }
    if !s.sessLive k then s
    else if ok then s.lorAnswer k seq 0x80 0 0 (leBytes 4 s.modeWord ++ leBytes 4 s.ownWord)
    else s.lorAnswer k seq 0x80 0x0C s.ms.mode.code []

/-- The switch-over is off. -/
def switchOff (s : State) : State := (s.setRed { s.red with sw := 0 }).redFlag 5 false

/-- A ROLE message (Table 10.3); T in the 64-bit form. -/
def roleRx (s : State) (op cause tForm : Nat) : State :=
  let t := tForm * 65536
  if op = 1 then
    let s' := s.setRed { s.red with sw := 2, swT := t, swCause := cause }
    if s.red.sw = 2 then s'
    else if s.ms.mode = .shadow ∧ !s.isSuspect ∧ s.fld Reg.RED_STAT 4 1 = 0 ∧ !s.splBusy then (s'.redFlag 5 true).redSend 0x05 [2, cause, form64 t]
    else s.redSend 0x05 [3, cause, form64 t]
  else if op = 2 then
    if s.red.sw ≠ 1 then s else
    let s := s.setRed { s.red with sw := 2 }
    let s := s.switchAnswer true
    if s.red.removal then
      let t := s.findGap (cdiv s.now 65536 * 65536) 100000
      (s.setRed { s.red with swT := t }).redSend 0x05 [1, s.red.swCause, form64 t]
    else s
  else if op = 3 then
    if s.red.sw ≠ 1 then s else
    let s := s.switchOff.redReject
    let s := s.switchAnswer false
    if s.red.removal then s.enterDrain (if s.ms.removeWait then 2 else 3) else s
  else if op = 4 then
    (if s.partnerActive then s.activeLeft 3 true else s)
  else if op = 5 then
    let s := if s.ms.active then s else s.switchOff
    if s.red.removal && !s.ms.active then s.enterDrain (if s.ms.removeWait then 2 else 3) else s
  else s

/-- At T both members exchange roles through Handover (Table 10.6 steps 1 to 3). -/
def switchoverT (s : State) : State :=
  if s.red.sw ≠ 2 then s else
  let s := s.advance s.red.swT
  if s.ms.active ∧ s.ms.mode = .run then
    let s := s.setActive false
    let s := s.setFio { s.fio with keepUntil := some (s.red.swT + us 200) }
    let (t, s) := s.openUntil 2000
    let s := s.throughHandover t .shadow (fun s => s)
    (s.setRed { s.red with sw := 3, pRole := 1, pMode := 6, own := [], digs := [], runs := [] }).handoverEnd
  else if s.ms.mode = .shadow then
    let s := s.setActive true
    let (t, s) := s.openUntil 2000
    let s := s.throughHandover t .run (fun s => s.becomeActive)
    let s := s.setRed { s.red with sw := 3, pRole := 2, pMode := 7, digs := [], runs := [] }
    (s.srcInvalid 4).handoverEnd
  else s.switchOff

/-- T + 200 µs: the former active's ordinary drivers are disabled (Table 10.6 step 4). -/
def switchoverDriversOff (s : State) : State :=
  match s.fio.keepUntil with
  | none => s
  | some t => ((s.advance t).setFio { s.fio with keepUntil := none }).drivenRegs

/-- At most T + 210 µs: the new active reports the switch-over complete (Table 10.6 step 5). -/
def switchoverDone (s : State) : State :=
  if s.red.sw ≠ 3 ∨ !s.ms.active then s else
  let (v, s) := s.fresh
  (s.advance (max s.now (s.red.swT + us 200 + v % us 10))).switchDone

/-- The automatic planned switch-over (R261): tried at most once per hour. -/
def autoSwitch (s : State) : State :=
  match s.cfg.redn with
  | none => s
  | some r =>
    if !r.auto || !s.ms.active || !s.ms.paired then s else
    let s := if s.red.lastAuto = 0 then s else s.advanceMono (s.red.lastAuto + 3600 * secU)
    let s := s.setRed { s.red with lastAuto := s.mono }
    if s.partnerGood then (s.switchCmd 5).2 else s

/-- CLRSUSP (R248): ignored outside Stop. -/
def clearSuspect (s : State) : State :=
  if s.ms.mode = .stop then ((s.setBit Reg.RED_STAT 3 false).setFld Reg.RED_STAT 8 3 0).drivenRegs else s

/-- A write of RED_CMD (Table 10.12). -/
def redCmd (s : State) (v : Nat) : State :=
  let s := if bit v 0 then (s.switchCmd 5).2 else s
  if bit v 1 then s.clearSuspect else s

/-! ### LEAVE, STOPCMD, SEQMAP, links and inputs -/

/-- A LEAVE from the partner (R249, R257). -/
def leaveRx (s : State) (cause : Nat) : State :=
  if s.partnerActive then s.activeLeft 2 (cause == 4)
  else (s.xferFail 7).redUnpair.raise 1280

/-- The active's frames of publications (R254): port pair, publication, stNum, sqNum, number. Where the standby sent that frame under another number, its
counter follows the active's. -/
def seqmapRx (s : State) (l : List (Nat × Nat × Nat × Nat × Nat)) : State :=
  if !s.isStandby then s else
  forEach l (fun s f =>
    let (pp, p, st, sq, num) := f
    let mine := (s.pubSt p).seq
    if s.rd (Reg.NET_GPST p) ≠ st ∨ s.rd (Reg.NET_GPSQ p) ≠ sq ∨ mine = num then s else
    let next := (s.net.seqs.get 0 pp + num + 65536 - mine) % 65536
    let s := s.setPub p { s.pubSt p with seq := num }
    let s := s.setNet { s.net with seqs := s.net.seqs.set 0 pp next }
    ((s.bump Reg.RED_SEQSLIP 1).redFlag 19 true).raise 1289) s

/-- A claim cycle (R258), with the stop of R251 at the fourth loss in a row. -/
def redClaimCycle (s : State) (other : Nat) (bad : Bool) : State :=
  let s := s.claimCycle other bad
  if 4 ≤ s.fio.losses ∧ s.ms.mode = .run then
    let s := s.setFio { s.fio with losses := 0 }
    ((s.redFlag 18 true).suspectStop 4).raise 1287
  else s

/-- A standby's filtered input has disagreed with the forwarded version for 2 ms (chapter 10, F1290). -/
def inputDisagrees (s : State) (k : Nat) : State :=
  match s.cfg.dch.find? k with
  | none => s
  | some d =>
    if s.isStandby && !d.out && (s.curField (s.dOwner k) 0 d.addr 1 == 1) != bit s.fio.filt k then
      ((s.advance (s.now + msec 2)).bump Reg.RED_INCMP 1).raise 1290 0xFFFF k
    else s

/-- A pair link goes down (Table 10.10): F1285 while others stay up; with all four down a transfer fails. -/
def pairLinkLost (s : State) (k : Nat) : State :=
  if s.fld Reg.RED_LINK k 1 = 0 ∨ 4 ≤ k then s else
  let s := (s.setBit Reg.RED_LINK k false).redFlag 20 true
  if s.pairLinkDown then s.xferFail 7 else s.raise 1285 0xFFFF k

end State

end Sys2Proof.Machine
end

