-- ==== Sys2Proof/Machine/ScnParse.lean ====
section
/-! DEFINITION. A scantling's bytes read as its sections, and its sections as the settings they carry (chapter 3 and the tables of the chapters that
consume a section). Everything here is total: bytes that break a table are refused in ScnCheck.lean. -/
namespace Sys2Proof.Machine

/-- A section as the table gives it (Table 3.2), with its body. TYPE is its four characters as a little-endian number. -/
structure Sec where
  idx : Nat
  ty : Nat
  own : Nat
  sflags : Nat
  sver : Nat
  off : Nat
  len : Nat
  body : List Byte
  deriving DecidableEq, Repr

/-! ### Section types (Table 3.3) -/

def tyVBAS : Nat := 0x53414256
def tyPART : Nat := 0x54524150
def tyPORT : Nat := 0x54524F50
def tyMODE : Nat := 0x45444F4D
def tyFLTR : Nat := 0x52544C46
def tyNVLY : Nat := 0x594C564E
def tyREDN : Nat := 0x4E444552
def tyMGTP : Nat := 0x5054474D
def tyKEYW : Nat := 0x5759454B
def tyPRGM : Nat := 0x4D475250
def tyCNST : Nat := 0x54534E43
def tyTASK : Nat := 0x4B534154
def tyIMGF : Nat := 0x46474D49
def tyRING : Nat := 0x474E4952
def tyTMPL : Nat := 0x4C504D54
def tyCANC : Nat := 0x434E4143
def tyFIOC : Nat := 0x434F4946
def tyLOOP : Nat := 0x504F4F4C
def tyNVDF : Nat := 0x4644564E
def tyAUTH : Nat := 0x48545541

/-- The section table of a scantling's bytes (R52). -/
def secsOf (b : List Byte) : List Sec :=
  (List.range (field b 0x1C 2)).map (fun i =>
    let o := 0x100 + i * 16
    let off := field b (o + 8) 4
    let len := field b (o + 12) 4
    { idx := i, ty := field b o 4, own := field b (o + 4) 1, sflags := field b (o + 5) 1, sver := field b (o + 6) 2, off := off, len := len,
      body := slice b off len })

/-- The body of an owner's section of a type; empty where there is none. -/
def secBody (l : List Sec) (ty own : Nat) : List Byte :=
  match l.find? (fun s => s.ty == ty && s.own == own) with
  | some s => s.body
  | none => []

def hasSec (l : List Sec) (ty own : Nat) : Bool := l.any (fun s => s.ty == ty && s.own == own)

/-- A map of records by number, the later of two of one number kept. -/
def toMap {α : Type} (l : List (Nat × α)) : SMap α := l.foldl (fun m p => SMap.insert m p.1 p.2) []

/-- A signed byte and a signed 32-bit field. -/
def sbyte (b : List Byte) (o : Nat) : Int := signed 8 (field b o 1)
def sword (b : List Byte) (o : Nat) : Int := signed 32 (field b o 4)

/-! ### Header, VBAS, PART (Tables 3.1, 3.9, 3.11, 3.12) -/

def parseHdr (b : List Byte) : ScnHdr :=
  { unit := field b 8 8, setfmt := field b 0x10 4, totlen := field b 0x14 4, buildid := field b 0x20 8, ownmask := field b 0x30 1 }

def parseVbas (b : List Byte) : Vbas := { keyIdx := field b 0 1, secVer := field b 1 1, advance := bit (field b 2 1) 0 }

def parseRange (b : List Byte) (o : Nat) : RowRange := { base := field b o 4, len := field b (o + 4) 4 }

def parseOwner (b : List Byte) (o : Nat) : OwnerCfg :=
  { perm := field b o 2, drlim := field b (o + 4) 4, retmax := field b (o + 8) 8, inR := parseRange b (o + 0x10), outR := parseRange b (o + 0x18),
    mrkR := parseRange b (o + 0x20), sysR := parseRange b (o + 0x28), semR := parseRange b (o + 0x30), prgBase := field b (o + 0x38) 4,
    prgLen := field b (o + 0x3C) 4 }

/-- An assignment table of PART: 0xFF is unassigned. -/
def parseOwn (b : List Byte) (o n : Nat) : SMap Nat :=
  (List.range n).filterMap (fun i => let v := field b (o + i) 1; if v = 0xFF then none else some (i, v))

def parsePart (b : List Byte) (mask : Nat) : Part :=
  { pagTib := if field b 0 1 = 0 then 4 else field b 0 1, grpv := field b 1 1, keyErase := field b 2 1,
    bents := (List.range 64).filterMap (fun m =>
      let v := field b (0x40 + m) 1
      let d := field b (0x80 + 2 * m) 2
      if bit v 3 then some (m, { assigned := true, owner := bits v 0 3, keepWarm := bit v 4, idleUs := if d = 0 then 100 else d }) else none),
    owners := (List.range 8).filterMap (fun n => if bit mask n then some (n, parseOwner b (0x100 + n * 128)) else none),
    taskOwn := parseOwn b 0x500 512, ringOwn := parseOwn b 0x700 4096, loopOwn := parseOwn b 0x1700 256, canOwn := parseOwn b 0x1800 32,
    dOwn := parseOwn b 0x1820 64, aOwn := parseOwn b 0x1860 16, fltOwn := parseOwn b 0x1880 2048 }

/-! ### PORT and MODE (Tables 3.13 to 3.16, 19.4, 21.4) -/

def parsePortRec (b : List Byte) (o : Nat) : PortRec :=
  let f := field b (o + 2) 1
  { mode := field b o 1, fec := field b (o + 1) 1, autoneg := bit f 0, ptp := bit f 1, master := bit f 2, red := field b (o + 3) 1,
    pvid := field b (o + 4) 2, pcp := field b (o + 6) 1, asym := sword b (o + 8),
    vids := (List.range (field b (o + 7) 1)).map (fun k => field b (o + 0x40 + 2 * k) 2) }

def parseIp (b : List Byte) (o : Nat) : IpRec :=
  { v4 := (List.range (field b o 1)).map (fun k => (beNat (slice b (o + 8 + 8 * k) 4), field b (o + 12 + 8 * k) 1)),
    gw4 := beNat (slice b (o + 0x28) 4),
    v6 := (List.range (field b (o + 1) 1)).map (fun k => (beNat (slice b (o + 0x30 + 24 * k) 16), field b (o + 0x40 + 24 * k) 1)),
    gw6 := beNat (slice b (o + 0x90) 16) }

/-- The port index of IP record j: L00 to L27, then SP0 and SP1 as 128 and 129. -/
def ipIndex (j : Nat) : Nat := if j < 28 then 96 + j else 100 + j

def parsePort (b : List Byte) : PortCfg :=
  { lrtport := if field b 0 2 = 0 then 40961 else field b 0 2, timcfg := field b 4 4, timsrc := field b 8 4, timout := field b 12 4,
    profile := field b 0x10 1, domain := field b 0x11 1, role := field b 0x12 1, anntmo := if field b 0x13 1 = 0 then 3 else field b 0x13 1,
    logsync := sbyte b 0x14, logann := sbyte b 0x15, prio1 := field b 0x16 1, prio2 := field b 0x17 1,
    ports := (List.range 128).filterMap (fun i =>
      let r := parsePortRec b (0x40 + i * 192)
      if r = {} then none else some (i, r)),
    ips := (List.range 30).filterMap (fun j =>
      let r := parseIp b (0x6040 + j * 192)
      if r = {} then none else some (ipIndex j, r)) }

def parseMode (b : List Byte) : ModeCfg :=
  { pupol := field b 0 1, rstpol := field b 1 1, holdq := field b 0x40 4, holdalw := field b 0x44 1, holdwin := field b 0x48 4,
    actage := field b 0x4C 4,
    oquiet := (List.range 8).map (fun n => (n, (field b (0x50 + 8 * n) 4, field b (0x54 + 8 * n) 1))),
    wdgs := (List.range 9).map (fun w => (w, (field b (0x90 + 8 * w) 4, field b (0x94 + 8 * w) 1))),
    uconfwin := if field b 0xD8 4 = 0 then 600 else field b 0xD8 4, factreg := field b 0xDC 1 }

/-! ### TASK, IMGF, CNST, PRGM, RING (Tables 3.17 to 3.20, 8.1) -/

def parsePages (b : List Byte) (first n : Nat) : List PageRange :=
  (List.range n).map (fun i =>
    let o := 0x40 + field b 0 2 * 64 + (first + i) * 16
    { space := field b o 1, first := field b (o + 8) 4, count := field b (o + 12) 4 })

def parseTask (b : List Byte) (own o : Nat) : TaskRec :=
  let f := field b (o + 2) 1
  { defined := true, owner := own, event := bit f 0, det := bit f 1, waits := bit f 2, start := bit f 3, prio := field b (o + 3) 1,
    allow := field b (o + 4) 1, bkind := field b (o + 5) 1, edge := field b (o + 6) 1, bspace := field b (o + 7) 1, bind := field b (o + 8) 4,
    period := field b (o + 0xC) 4, phase := field b (o + 0x10) 4, deadline := field b (o + 0x14) 4, budget := field b (o + 0x18) 4,
    lambda := field b (o + 0x1C) 4, entry := field b (o + 0x20) 4, pmin := field b (o + 0x24) 4, pmax := field b (o + 0x28) 4,
    priomin := field b (o + 0x2C) 1, priomax := field b (o + 0x2D) 1, pages := parsePages b (field b (o + 0x2E) 2) (field b (o + 0x30) 2) }

/-- An owner's task records, by task number. -/
def parseTasks (b : List Byte) (own : Nat) : List (Nat × TaskRec) :=
  (List.range (field b 0 2)).map (fun i => (field b (0x40 + i * 64) 2, parseTask b own (0x40 + i * 64)))

def parseImgf (b : List Byte) : Imgf :=
  { quota := if field b 0 4 = 0 then 1024 else field b 0 4, guardUs := field b 4 1,
    soeRing := if field b 6 2 = 0xFFFF then none else some (field b 6 2), stallUs := if field b 8 4 = 0 then 100 else field b 8 4,
    flags := (List.range (field b 0xC 2)).map (fun i =>
      let o := 0x40 + i * 16
      let f := field b (o + 1) 1
      { space := field b o 1, logged := bit f 0, ovlFault := bit f 1, first := field b (o + 4) 4, count := field b (o + 8) 4 }) }

def parseCnst (b : List Byte) : Cnst :=
  { dataBase := field b 0 8, dataSize := field b 8 8, retBase := field b 0x10 8, retSize := field b 0x18 8, constBase := field b 0x20 8,
    constSize := field b 0x28 8,
    inits := (List.range (field b 0x30 2)).map (fun i =>
      let o := 0x40 + i * 16
      { target := field b o 1, off := field b (o + 2) 6, data := slice b (field b (o + 12) 4) (field b (o + 8) 4) }) }

/-- LINES of a program header line (Table 4.4). -/
def prgmLines (b : List Byte) : Nat := bits (field b 0 16) 8 22

def parsePrgm (b : List Byte) : List Nat := (List.range (prgmLines b)).map (fun k => field b (16 * k) 16)

def parseRing (b : List Byte) (o : Nat) : RingRec :=
  { defined := true, esize := field b (o + 2) 1, log2len := field b (o + 3) 1, prod := field b (o + 4) 1, cons := field b (o + 5) 1,
    dbmode := field b (o + 6) 1, enStart := bit (field b (o + 7) 1) 0, base := field b (o + 8) 8, thresh := field b (o + 16) 4 }

def parseRings (b : List Byte) : List (Nat × RingRec) :=
  (List.range (field b 0 4)).map (fun i => (field b (0x40 + i * 32) 2, parseRing b (0x40 + i * 32)))

/-! ### FLTR, NVLY, NVDF, REDN, MGTP, KEYW (R440, R460, R461, R237, R481, R57) -/

def parseFltr (b : List Byte) : List (Nat × FltrRec) :=
  (List.range (field b 0 2)).map (fun i =>
    let o := 0x40 + i * 8
    (field b o 2, { cls := field b (o + 2) 1, react := field b (o + 3) 1, task := field b (o + 4) 2 }))

def parseHring (b : List Byte) : SMap Nat :=
  (List.range 8).filterMap (fun n => let v := field b (0x10 + 2 * n) 2; if v = 0xFFFF then none else some (n, v))

def parseNvly (b : List Byte) (dflt : SMap (List Byte)) : List (Nat × Region) :=
  (List.range (field b 0 2)).map (fun i =>
    let o := 0x40 + i * 32
    let r := field b o 1
    (r, { defined := true, owner := field b (o + 1) 1, base := field b (o + 4) 4, size := field b (o + 8) 4, dflt := dflt.find? r }))

/-- The default images of every NVDF section, by region. -/
def parseNvdf (l : List Sec) : SMap (List Byte) :=
  toMap ((l.filter (fun s => s.ty == tyNVDF)).map (fun s => (field s.body 0 1, slice s.body 0x40 (field s.body 4 4))))

def parseRedn (b : List Byte) : Redn :=
  { pairid := field b 0 4, base := field b 4 1, hbmiss := if field b 5 1 = 0 then 3 else field b 5 1,
    disclim := if field b 6 1 = 0 then 16 else field b 6 1, auto := bit (field b 7 1) 0, planhrs := field b 8 2, holdtko := field b 0xA 2,
    startwait := if field b 0xC 2 = 0 then 500 else field b 0xC 2,
    addrs := toMap ((List.range (field b 0xE 2)).map (fun i =>
      let o := 0x40 + i * 32
      (field b o 1, (beNat (slice b (o + 4) 4), beNat (slice b (o + 8) 16))))) }

def parseMgtp (b : List Byte) : Mgtp :=
  let n := field b 4 4
  { period := field b 0 4, lines := (List.range n).map (fun k => field b (0x40 + 16 * k) 16), const := slice b (0x40 + 16 * n) (field b 8 4),
    dataLen := field b 0xC 4 }

/-! ### TMPL (R314, Tables 12.4, 13.2 to 13.8) -/

def tmplCount (b : List Byte) (k : Nat) : Nat := field b (2 * k) 2
def tmplOff (b : List Byte) (k : Nat) : Nat := field b (0xC + 4 * k) 4

def parseMember (b : List Byte) (o : Nat) : Member :=
  { ty := field b o 1, map := bit (field b (o + 1) 1) 0, count := field b (o + 2) 1, addr := field b (o + 4) 4 }

/-- Templates follow one another, each with its members: their body offsets. -/
def tmplOffs (b : List Byte) : Nat → Nat → List Nat
  | 0, _ => []
  | k + 1, o => o :: tmplOffs b k (o + 8 + field b (o + 2) 2 * 8)

def parseTempl (b : List Byte) (o : Nat) : Template :=
  { space := field b (o + 4) 1, members := (List.range (field b (o + 2) 2)).map (fun i => parseMember b (o + 8 + 8 * i)) }

def parseTempls (b : List Byte) (own : Nat) : List (Nat × Template) :=
  (tmplOffs b (tmplCount b 5) (tmplOff b 5)).map (fun o => (own * 65536 + field b o 2, parseTempl b o))

def parseSubs (b : List Byte) (own : Nat) : List (Nat × SubRec) :=
  (List.range (tmplCount b 0)).map (fun i =>
    let o := tmplOff b 0 + i * 32
    let f := field b (o + 3) 1
    (field b o 2, { owner := own, port := field b (o + 2) 1, paired := bit f 0, simok := bit f 1, dmac := beNat (slice b (o + 4) 6),
                    appid := field b (o + 0xA) 2, vid := field b (o + 0xC) 2, templ := field b (o + 0xE) 2, confrev := field b (o + 0x10) 4,
                    valid := field b (o + 0x14) 4, refcrc := field b (o + 0x18) 4, dscrc := field b (o + 0x1C) 4 }))

def parsePubs (b : List Byte) (own : Nat) : List (Nat × PubRec) :=
  (List.range (tmplCount b 1)).map (fun i =>
    let o := tmplOff b 1 + i * 32
    let f := field b (o + 3) 1
    (field b o 2, { owner := own, port := field b (o + 2) 1, paired := bit f 0, stopform := bit f 1, dmac := beNat (slice b (o + 4) 6),
                    appid := field b (o + 0xA) 2, tci := field b (o + 0xC) 2, templ := field b (o + 0xE) 2, confrev := field b (o + 0x10) 4,
                    minint := field b (o + 0x14) 2, maxint := field b (o + 0x16) 2,
                    talmul := if field b (o + 0x18) 1 = 0 then 2 else field b (o + 0x18) 1 }))

def parseStreams (b : List Byte) (own : Nat) : List (Nat × StreamRec) :=
  (List.range (tmplCount b 2)).map (fun i =>
    let o := tmplOff b 2 + i * 128
    let f := field b (o + 3) 1
    (field b o 2, { owner := own, port := field b (o + 2) 1, paired := bit f 0, rms := bit f 1, freq := if bit f 2 then 60 else 50, simok := bit f 3,
                    dmac := beNat (slice b (o + 4) 6), appid := field b (o + 0xA) 2, vid := field b (o + 0xC) 2, nch := field b (o + 0xE) 1,
                    rate := field b (o + 0x10) 1, reqsync := field b (o + 0x11) 1,
                    miss := if field b (o + 0x12) 1 = 0 then 4 else field b (o + 0x12) 1, confrev := field b (o + 0x14) 4,
                    valid := field b (o + 0x18) 4, svidcrc := field b (o + 0x1C) 4, inst := field b (o + 0x20) 4, rmsaddr := field b (o + 0x24) 4,
                    sel := (List.range (field b (o + 0xF) 1)).map (fun c => field b (o + 0x40 + c) 1) }))

def parseTrigs (b : List Byte) : List TrigRec :=
  (List.range (tmplCount b 3)).map (fun i =>
    let o := tmplOff b 3 + i * 16
    { kind := field b o 1, space := field b (o + 1) 1, cls := field b (o + 2) 1, addr := field b (o + 4) 4, pre := field b (o + 8) 2,
      post := field b (o + 0xA) 2 })

def parseEps (b : List Byte) (own : Nat) : List (Nat × EpRec) :=
  (List.range (tmplCount b 4)).map (fun i =>
    let o := tmplOff b 4 + i * 32
    let f := field b (o + 1) 1
    let ring (k : Nat) : Option Nat := if field b k 2 = 0xFFFF then none else some (field b k 2)
    (own * 16 + field b o 1, { v4 := bit f 0, v6 := bit f 1, lport := field b (o + 2) 2, ports := field b (o + 4) 4, rx := ring (o + 8),
                               tx := ring (o + 0xA), dscp := field b (o + 0xC) 1, rxbuf := field b (o + 0x10) 8, txbuf := field b (o + 0x18) 8 }))

/-! ### CANC, FIOC, LOOP (R386, R414, R434) -/

def parseCan (b : List Byte) : List (Nat × CanRec) :=
  (List.range (field b 0 2)).map (fun i =>
    let o := 0x40 + i * 32
    (field b o 1, { cfg := field b (o + 4) 4, nbt := field b (o + 8) 4, dbt := field b (o + 12) 4, ring := field b (o + 16) 4 }))

def parseCanobj (b : List Byte) : List (Nat × ObjRec) :=
  (List.range (field b 2 2)).map (fun i =>
    let o := 0x40 + field b 0 2 * 32 + i * 32
    (field b o 1 * 128 + field b (o + 1) 1,
     { cfg := field b (o + 4) 4, id := field b (o + 8) 4, mask := field b (o + 12) 4, map := field b (o + 16) 4 }))

def parseDch (b : List Byte) : List (Nat × DRec) :=
  (List.range (field b 0 2)).map (fun i =>
    let o := 0x40 + i * 16
    let f := field b (o + 2) 1
    (field b o 1, { out := field b (o + 1) 1 == 2, safe := bit f 0, ring := bit f 1, filt := field b (o + 4) 4, addr := field b (o + 8) 4 }))

def parseAch (b : List Byte) : List (Nat × ARec) :=
  (List.range (field b 2 2)).map (fun i =>
    let o := 0x40 + field b 0 2 * 16 + i * 16
    (field b o 1, { safe := field b (o + 2) 2, setaddr := field b (o + 4) 4,
                    rb := if field b (o + 8) 4 = 0xFFFFFFFF then none else some (field b (o + 8) 4) }))

/-- The loop number of a LOOP record is its place among the loops PART gives the owner, since a record carries none (log entry 30). -/
def parseLoops (b : List Byte) (mine : List Nat) : List (Nat × List Nat) :=
  (List.range (field b 0 2)).map (fun i =>
    (mine.getD i (256 + i), (List.range 64).map (fun w => field b (0x40 + i * 256 + 4 * w) 4)))

/-! ### The whole (R66, Table 3.5) -/

/-- What R238 hashes: every section except REDN, KEYW and AUTH, in table order. -/
def pairBytes (l : List Sec) : List Byte :=
  (l.filter (fun s => s.ty != tyREDN && s.ty != tyKEYW && s.ty != tyAUTH)).flatMap (fun s =>
    leBytes 4 s.ty ++ leBytes 1 s.own ++ leBytes 2 s.sver ++ leBytes 4 s.len ++ s.body)

/-- A section type of each defined owner that carries it. -/
def perOwner {α : Type} (l : List Sec) (ty : Nat) (f : Nat → List Byte → α) : List (Nat × α) :=
  (List.range 8).filterMap (fun n => if hasSec l ty n then some (n, f n (secBody l ty n)) else none)

/-- The scantling its bytes say. `pub` is the module's transport key, under which KEYW bodies unwrap (R57). -/
def parseScn (pub : Nat) (b : List Byte) : Scn :=
  let l := secsOf b
  let h := parseHdr b
  let part := parsePart (secBody l tyPART 0) h.ownmask
  let gather {α : Type} (ty : Nat) (f : Nat → List Byte → List (Nat × α)) : SMap α := toMap ((perOwner l ty f).flatMap (·.2))
  { hdr := h, vbas := parseVbas (secBody l tyVBAS 0xFF), part := part, port := parsePort (secBody l tyPORT 0),
    tasks := gather tyTASK (fun n x => parseTasks x n),
    nobreak := ((perOwner l tyTASK (fun _ x => bit (field x 4 1) 0)).filter (·.2)).map (·.1),
    imgf := perOwner l tyIMGF (fun _ x => parseImgf x), cnst := perOwner l tyCNST (fun _ x => parseCnst x),
    prgm := perOwner l tyPRGM (fun _ x => parsePrgm x), rings := gather tyRING (fun _ x => parseRings x),
    mode := parseMode (secBody l tyMODE 0), fltr := toMap (parseFltr (secBody l tyFLTR 0)), hring := parseHring (secBody l tyFLTR 0),
    nvly := toMap (parseNvly (secBody l tyNVLY 0) (parseNvdf l)),
    mgtp := if hasSec l tyMGTP 0 then some (parseMgtp (secBody l tyMGTP 0)) else none,
    redn := if hasSec l tyREDN 0 then some (parseRedn (secBody l tyREDN 0)) else none,
    templs := gather tyTMPL (fun n x => parseTempls x n), subs := gather tyTMPL (fun n x => parseSubs x n),
    pubs := gather tyTMPL (fun n x => parsePubs x n), streams := gather tyTMPL (fun n x => parseStreams x n),
    trigs := perOwner l tyTMPL (fun _ x => parseTrigs x), eps := gather tyTMPL (fun n x => parseEps x n),
    can := gather tyCANC (fun _ x => parseCan x), canobj := gather tyCANC (fun _ x => parseCanobj x),
    dch := gather tyFIOC (fun _ x => parseDch x), ach := gather tyFIOC (fun _ x => parseAch x),
    fioring := (perOwner l tyFIOC (fun _ x => field x 4 2)).filter (fun p => p.2 != 0xFFFF),
    loops := gather tyLOOP (fun n x => parseLoops x ((part.loopOwn.filter (·.2 == n)).map (·.1))),
    keyw := (perOwner l tyKEYW (fun n x => (field x 0 4, (Config.keyUnwrap pub n x).getD 0))),
    auth := perOwner l tyAUTH (fun _ x => field x 0 4),
    pairDig := Config.sha384 (pairBytes l), digest := Config.sha384 b }

end Sys2Proof.Machine
end

