-- ==== Sys2Proof/Machine/ScnCheck.lean ====
section
/-! DEFINITION. The loader's checks (R51 to R58, R61, R66, Table 3.4): each answers nothing, or the first refusal. -/
namespace Sys2Proof.Machine

/-- A refusal: its code, the owner and the section it concerns (Table 3.8). -/
structure ScnBad where
  code : Nat
  owner : Option Nat := none
  sect : Option Nat := none
  deriving DecidableEq, Repr

/-- The first refusal of a list of checks, in order. -/
def firstBad (l : List (Option ScnBad)) : Option ScnBad := l.findSome? id

def need (ok : Bool) (code : Nat) : Option ScnBad := if ok then none else some { code := code }

/-- A check of one section: its index stands in the refusal. -/
def needSec (s : Sec) (ok : Bool) (code : Nat) : Option ScnBad := if ok then none else some { code := code, sect := some s.idx }

/-! ### Header (R51) -/

/-- HDRCRC, taken over bytes 0x00 to 0xFF with its own field as 0. -/
def hdrCrcOk (b : List Byte) : Bool := crc32 (slice b 0 0x34 ++ List.replicate 4 0 ++ slice b 0x38 0xC8) == field b 0x34 4

def hdrFieldsOk (b : List Byte) : Bool :=
  let tot := field b 0x14 4
  decide (tot % 64 = 0) && decide (0x400 ≤ tot) && decide (tot ≤ 0x20000000) && field b 0x18 4 == 0x100 && decide (3 ≤ field b 0x1C 2) &&
  decide (field b 0x1C 2 ≤ 1024) && zeros b 0x1E 2 && field b 0x2E 2 == 0 && bit (field b 0x30 1) 0 && zeros b 0x31 3 && zeros b 0x78 136 &&
  field b 0x10 4 != 0

/-- The header checks that a stored copy meets again (R56): codes 0x01 to 0x06. -/
def hdrChecks (serial : Nat) (b : List Byte) : Option ScnBad :=
  firstBad [need (hdrCrcOk b) 1, need (slice b 0 4 == [0x4D, 0x4C, 0x54, 0x53]) 2, need (field b 4 1 == 1) 3, need (field b 6 2 == 0x8256) 4,
    need (hdrFieldsOk b) 5, need (field b 8 8 == serial || field b 8 8 == 2 ^ 64 - 1) 6]

/-! ### Section table (R52, R53) -/

/-- Known types: who carries them (0 vendor, 1 O0, 2 any owner), how many per owner, and whether O0's or the vendor's must be there. -/
def secTypes : List (Nat × Nat × Nat × Bool) :=
  [(tyVBAS, 0, 1, true), (tyPART, 1, 1, true), (tyPORT, 1, 1, true), (tyMODE, 1, 1, true), (tyFLTR, 1, 1, true), (tyNVLY, 1, 1, true),
   (tyREDN, 1, 1, false), (tyMGTP, 1, 1, false), (tyKEYW, 2, 1, false), (tyPRGM, 2, 1, false), (tyCNST, 2, 1, false), (tyTASK, 2, 1, false),
   (tyIMGF, 2, 1, false), (tyRING, 2, 1, false), (tyTMPL, 2, 1, false), (tyCANC, 2, 1, false), (tyFIOC, 2, 1, false), (tyLOOP, 2, 1, false),
   (tyNVDF, 2, 16, false), (tyAUTH, 2, 1, false)]

def secOwnOk (who own : Nat) : Bool := if who = 0 then own == 0xFF else if who = 1 then own == 0 else decide (own < 8)

/-- Is an entry well formed, of a type and owner the table allows? -/
def entryOk (l : List Sec) (tot : Nat) (s : Sec) : Bool :=
  decide (s.sflags < 2) && decide (s.off % 64 = 0) && decide (0x100 + l.length * 16 ≤ s.off) && decide (64 ≤ s.len) && decide (s.len % 64 = 0) &&
  decide (s.off + s.len ≤ tot) &&
  (match secTypes.find? (fun t => t.1 == s.ty) with
   | some (_, who, n, _) => secOwnOk who s.own && decide ((l.filter (fun x => x.ty == s.ty && x.own == s.own)).length ≤ n)
   | none => s.sflags == 1 && decide (s.own < 8))

def tableChecks (b : List Byte) : Option ScnBad :=
  let l := secsOf b
  let tot := field b 0x14 4
  let mask := field b 0x30 1
  let owners := (List.range 8).filter (fun n => bit mask n)
  firstBad [
    l.findSome? (fun s => needSec s (entryOk l tot s) 0x10),
    need (noPair (fun (x y : Sec) => spansMeet (x.off, x.len) (y.off, y.len)) l) 0x10,
    need (secTypes.all (fun t => !t.2.2.2 || hasSec l t.1 (if t.2.1 = 0 then 0xFF else 0))) 0x10,
    need (owners.all (fun n => hasSec l tyPRGM n && hasSec l tyCNST n && hasSec l tyTASK n)) 0x10,
    owners.findSome? (fun n => if hasSec l tyAUTH n then none else some { code := 0x11, owner := some n }),
    l.findSome? (fun s => if s.own = 0xFF ∨ bit mask s.own then none else some { code := 0x11, owner := some (s.own % 8), sect := some s.idx })]

/-- Padding between sections is zeros (R52). -/
def paddingOk (b : List Byte) : Bool :=
  let l := secsOf b
  let covered (i : Nat) : Bool := decide (i < 0x100 + l.length * 16) || l.any (fun s => decide (s.off ≤ i) && decide (i < s.off + s.len))
  (List.range b.length).all (fun i => covered i || b.getD i 0 == 0)

/-! ### Signatures, keys and tags (R54, R55, R57, R58) -/

def vbasBlocksOk (b : List Byte) : Bool :=
  (List.range (field b 4 2)).all (fun i =>
    let o := 0x40 + 16 * i
    crc32 (slice b (field b (o + 4) 4) (field b (o + 8) 4)) == field b (o + 12) 4)

/-- Code 0x30. `checkMin` and `revoked` are what the fuses hold. -/
def vbasSigned (secMin : Nat) (revoked : List Nat) (s : Sec) : Bool :=
  let b := s.body
  let k := b.length - 96
  decide (field b 0 1 ≤ 3) && !revoked.contains (field b 0 1) && decide (secMin ≤ field b 1 1) &&
  Config.ecdsaOk (field b 0 1) (b.drop k) (b.take k) && vbasBlocksOk b

/-- The order of VBAS's block types by their characters: PRPH, GOSV, IPUD, LRTE, SDEQ, PTPT. -/
def vbasTypes : List Nat := [0x48505250, 0x56534F47, 0x44555049, 0x4554524C, 0x51454453, 0x54505450]

/-- R71: the rest of VBAS. -/
def vbasOk (b : List Byte) : Bool :=
  let blks := (List.range (field b 4 2)).map (fun i => (field b (0x40 + 16 * i) 4, field b (0x44 + 16 * i) 4, field b (0x48 + 16 * i) 4))
  decide (field b 2 1 < 2) && zeros b 3 1 && field b 4 2 == 6 && zeros b 6 2 && zeros b 0x10 48 &&
  vbasTypes.all (fun t => (blks.filter (·.1 == t)).length == 1) &&
  blks.all (fun k => decide (k.2.1 % 64 = 0) && decide (0xA0 ≤ k.2.1) && decide (k.2.1 + k.2.2 + 96 ≤ b.length)) &&
  noPair (fun (x y : Nat × Nat × Nat) => spansMeet x.2 y.2) blks

/-- The bytes of an entry that authentication covers (R55): TYPE, OWNER, SFLAGS, SVER, LENGTH. -/
def entryBytes (s : Sec) : List Byte := leBytes 4 s.ty ++ leBytes 1 s.own ++ leBytes 1 s.sflags ++ leBytes 2 s.sver ++ leBytes 4 s.len

/-- What an AUTH tag is computed over (R55). -/
def authBytes (b : List Byte) (l : List Sec) (a : Sec) : List Byte :=
  (if a.own = 0 then slice b 0 (0x100 + l.length * 16) else slice b 6 10) ++
  ((l.filter (fun s => s.own == a.own && s.ty != tyAUTH)).flatMap (fun s => entryBytes s ++ s.body)) ++ slice a.body 0 16

/-! ### Image fields that sections map -/

/-- Bits of an owner's space that a record maps: space, first bit, width. -/
abbrev Span := Nat × Nat × Nat

def spanMeet (x y : Span) : Bool := x.1 == y.1 && spansMeet x.2 y.2

def rangeOf (o : OwnerCfg) (space : Nat) : RowRange :=
  if space = 0 then o.inR else if space = 1 then o.outR else if space = 2 then o.mrkR else if space = 3 then o.sysR else o.semR

def spanIn (o : OwnerCfg) (x : Span) : Bool := decide (x.2.1 + x.2.2 ≤ (rangeOf o x.1).len * 256)

/-- A mapped member's span. -/
def memberSpans (t : Template) : List Span :=
  (t.members.filter (fun m => m.map && m.ty != 16)).map (fun m => (t.space, m.addr, m.width))

/-- Alignment and the fields of a member entry (Tables 13.2, 13.3). -/
def memberOk (b : List Byte) (o : Nat) : Bool :=
  let m := parseMember b o
  let inWord := m.addr / 64 == (m.addr + m.width - 1) / 64
  let known := (decide (1 ≤ m.ty) && decide (m.ty ≤ 8)) || m.ty == 16
  let countOk := if m.ty = 16 then decide (1 ≤ m.count) && decide (m.count ≤ 64) && !m.map
    else if m.ty = 8 then decide (1 ≤ m.count) && decide (m.count ≤ 32) else m.count == 0
  let align := if m.ty = 2 ∨ m.ty = 3 ∨ m.ty = 8 then inWord else if m.ty = 4 ∨ m.ty = 5 ∨ m.ty = 6 then m.addr % 32 == 0
    else if m.ty = 7 then m.addr % 64 == 0 else true
  decide (field b (o + 1) 1 < 2) && zeros b (o + 3) 1 && known && countOk && (if m.map then align else m.addr == 0)

/-- Do structures close within a template (R315)? `due` holds how many members each open structure still needs, innermost first. -/
def structsClose : List Nat → List Member → Bool
  | due, [] => due.all (· == 0)
  | due, m :: ms =>
    let due := match due.dropWhile (· == 0) with | k :: r => (k - 1) :: r | [] => []
    structsClose (if m.ty = 16 then m.count :: due else due) ms

def templOk (b : List Byte) (o : Nat) : Bool :=
  let n := field b (o + 2) 2
  let t := parseTempl b o
  decide (1 ≤ n) && decide (n ≤ 256) && decide (field b (o + 4) 1 < 2) && zeros b (o + 5) 3 && decide (o + 8 + 8 * n ≤ b.length) &&
  (List.range n).all (fun i => memberOk b (o + 8 + 8 * i)) && structsClose [] t.members && noPair spanMeet (memberSpans t)

/-! ### Sections that PART governs -/

structure ScnCtx where
  scn : Scn
  secs : List Sec
  own : Nat

def ScnCtx.oc (c : ScnCtx) : OwnerCfg := c.scn.part.owners.get {} c.own
def ScnCtx.tmpls (c : ScnCtx) : List (Nat × Template) := c.scn.templs.filter (fun t => t.1 / 65536 == c.own)
def ScnCtx.templ (c : ScnCtx) (t : Nat) : Option Template := c.scn.templs.find? (c.own * 65536 + t)

/-- Spans that subscriptions and streams write (R315). -/
def ScnCtx.netSpans (c : ScnCtx) : List (List Span) :=
  (c.scn.subs.filter (fun q => q.2.owner == c.own)).map (fun q =>
    (0, q.2.valid, 1) :: (match c.templ q.2.templ with | some t => memberSpans t | none => [])) ++
  (c.scn.streams.filter (fun q => q.2.owner == c.own)).map (fun q =>
    let n := q.2.sel.length
    let rows := cdiv n 4 * 256
    (0, q.2.valid, 1) :: (0, q.2.inst, rows) :: (if q.2.rms then [(0, q.2.rmsaddr, rows)] else []))

/-- Spans of publications. -/
def ScnCtx.pubSpans (c : ScnCtx) : List Span :=
  (c.scn.pubs.filter (fun q => q.2.owner == c.own)).flatMap (fun q => match c.templ q.2.templ with | some t => memberSpans t | none => [])

def ScnCtx.canSpans (c : ScnCtx) : List Span :=
  (c.scn.canobj.filter (fun p => (c.scn.part.canOwn.find? (p.1 / 128)) == some c.own && bit p.2.cfg 6)).map (fun p =>
    (if bit p.2.cfg 1 then 1 else 0, p.2.map, if bit p.2.cfg 3 then 512 else 256))

def ScnCtx.fioSpans (c : ScnCtx) : List Span :=
  (c.scn.dch.filter (fun p => c.scn.part.dOwn.find? p.1 == some c.own)).map (fun p => (if p.2.out then 1 else 0, p.2.addr, 1)) ++
  (c.scn.ach.filter (fun p => c.scn.part.aOwn.find? p.1 == some c.own)).flatMap (fun p =>
    (1, p.2.setaddr, 32) :: (match p.2.rb with | some a => [(0, a, 64)] | none => []))

def noneMeet (xs ys : List Span) : Bool := xs.all (fun x => ys.all (fun y => !spanMeet x y))

/-- Is a ring the owner's, defined, of an entry size, with a producer or consumer kind? -/
def ScnCtx.ringIs (c : ScnCtx) (q esize : Nat) (prod cons : Option Nat) : Bool :=
  match c.scn.rings.find? q with
  | some r => c.scn.part.ringOwn.find? q == some c.own && r.esize == esize && (match prod with | some k => r.prod == k | none => true) &&
              (match cons with | some k => r.cons == k | none => true)
  | none => false

/-! ### PART (R72, R146, R266) -/

def ranges (p : Part) : List (Nat × Nat) :=
  (p.owners.flatMap (fun o => [o.2.inR, o.2.outR, o.2.mrkR, o.2.sysR, o.2.semR])).map (fun r => (r.base, r.len))

/-- Bytes of STO's paging region an owner reserves (R266). -/
def reserve (c : Cnst) : Nat := (State.pagesIn c.dataSize + State.pagesIn c.constSize) * 65536 + c.retSize

/-- Code 0x40: resources within capacity and not given twice; numbers of TMPL used by one owner alone; NVS regions apart. -/
def partFits (x : Scn) (secs : List Sec) : Bool :=
  let p := x.part
  let pageTib := field (secBody secs tyPART 0) 0 1
  let spans := ranges p
  let progs := p.owners.map (fun o => (o.2.prgBase, o.2.prgLen))
  let regs := x.nvly.map (fun r => (r.2.base, r.2.size))
  let nums (f : List Byte → List Nat) : List Nat := (perOwner secs tyTMPL (fun _ b => f b)).flatMap (·.2)
  let once (l : List Nat) : Bool := noPair (fun (a b : Nat) => a == b) l
  decide (pageTib ≤ 64) && spans.all (fun r => decide (r.1 + r.2 ≤ 2097152)) && noPair spansMeet spans &&
  p.owners.all (fun o => decide (4 ≤ o.2.sysR.len)) &&
  progs.all (fun r => decide (2 ≤ r.2) && decide (r.1 + r.2 ≤ 2097152)) && noPair spansMeet progs &&
  p.owners.all (fun o => decide (128 ≤ o.2.drlim)) && decide (p.owners.foldl (fun a o => a + o.2.drlim) 0 ≤ 8257536) &&
  decide (x.cnst.foldl (fun a c => a + reserve c.2) 0 ≤ p.pagTib * 2 ^ 40) &&
  once (nums (fun b => (parseSubs b 0).map (·.1))) && once (nums (fun b => (parsePubs b 0).map (·.1))) &&
  once (nums (fun b => (parseStreams b 0).map (·.1))) &&
  regs.all (fun r => decide (r.1 + r.2 ≤ 8126464)) && noPair spansMeet regs

/-- R72: the rest of PART. -/
def partOk (x : Scn) (b : List Byte) : Bool :=
  let p := x.part
  let def_ (n : Nat) : Bool := decide (n < 8) && bit x.hdr.ownmask n
  let owned (m : SMap Nat) : Bool := m.all (fun e => def_ e.2)
  b.length == 0x2080 && decide (p.grpv < 16) && decide (p.keyErase &&& x.hdr.ownmask = 0) && zeros b 3 61 && zeros b 0x1870 16 &&
  (List.range 64).all (fun m =>
    let v := field b (0x40 + m) 1
    let d := field b (0x80 + 2 * m) 2
    decide (v < 32) && (d == 0 || (decide (10 ≤ d) && decide (d ≤ 10000))) && (if bit v 3 then def_ (bits v 0 3) else v == 0)) &&
  (List.range 8).all (fun n =>
    let o := 0x100 + n * 128
    if def_ n then zeros b (o + 2) 2 && zeros b (o + 0x40) 64 && decide (field b (o + 8) 8 % 65536 = 0) else zeros b o 128) &&
  owned p.taskOwn && owned p.ringOwn && owned p.loopOwn && owned p.canOwn && owned p.dOwn && owned p.aOwn && owned p.fltOwn

/-! ### PORT, MODE (R73, R74, R448) -/

def portRecOk (b : List Byte) (i : Nat) : Bool :=
  let o := 0x40 + i * 192
  let r := parsePortRec b o
  let nv := field b (o + 7) 1
  let known := decide (field b (o + 2) 1 < 8) && decide (r.pvid ≤ 4094) && decide (r.pcp ≤ 7) && decide (nv ≤ 64) && decide (r.asym.natAbs ≤ 10000) &&
    zeros b (o + 0xC) 52 && r.vids.all (fun v => decide (v < 4096)) && zeros b (o + 0x40 + 2 * nv) (128 - 2 * nv)
  let group :=
    if r.mode = 0 then true
    else if i < 96 then
      (r.mode == 1 && r.fec == 0) || (r.mode == 2 && decide (r.fec ≤ 1) && !r.autoneg)
    else if i < 124 then
      r.red == 0 && !r.autoneg && ((r.mode == 2 && decide (r.fec ≤ 1)) || (r.mode == 3 && decide (r.fec ≤ 2)))
    else r.mode == 3 && r.fec == 2 && r.red == 5 && !r.ptp && !r.autoneg
  let pair :=
    if 96 ≤ i then true
    else
      let t := parsePortRec b (0x40 + State.twin i * 192)
      if r.red = 0 then t.red == 0
      else if i % 2 = 0 then (r.red == 1 && t.red == 2) || (r.red == 3 && t.red == 4)
      else (r.red == 2 && t.red == 1) || (r.red == 4 && t.red == 3)
  known && group && pair

def ipRecOk (b : List Byte) (j : Nat) : Bool :=
  let o := 0x6040 + j * 192
  let r := parseIp b o
  let used := field b o 1 != 0 || field b (o + 1) 1 != 0
  let mode := if j < 28 then field b (0x40 + (96 + j) * 192) 1 else 1
  decide (field b o 1 ≤ 4) && decide (field b (o + 1) 1 ≤ 4) && zeros b (o + 2) 6 && zeros b (o + 0x2C) 4 && zeros b (o + 0xA0) 32 &&
  r.v4.all (fun a => decide (a.2 ≤ 32)) && r.v6.all (fun a => decide (a.2 ≤ 128)) && (!used || mode != 0)

def portOk (b : List Byte) : Bool :=
  let p := parsePort b
  let t := p.timcfg
  let ts := p.timsrc
  let tout := p.timout
  let prios := [bits ts 0 3, bits ts 3 3, bits ts 6 3]
  b.length == 0x76C0 && zeros b 2 2 && zeros b 0x18 40 &&
  decide (1 ≤ bits t 1 20) && decide (bits t 1 20 ≤ 1000000) && decide (10 ≤ bits t 21 10) && decide (bits t 21 10 ≤ 1000) &&
  prios.all (fun x => decide (x ≤ 3)) && noPair (fun (a b : Nat) => a == b && a != 0) prios && bits ts 9 7 == 0 && bits ts 22 10 == 0 &&
  decide (1 ≤ bits ts 16 6) && decide (bits ts 16 6 ≤ 60) && decide (1 ≤ bits tout 4 19) && decide (bits tout 4 19 ≤ 500000) && bits tout 27 5 == 0 &&
  decide (p.profile ≤ 2) && decide (p.role ≤ 3) && decide (2 ≤ p.anntmo) && decide (p.anntmo ≤ 10) &&
  decide (-4 ≤ p.logsync) && decide (p.logsync ≤ 0) && decide (-4 ≤ p.logann) && decide (p.logann ≤ 0) &&
  (List.range 128).all (fun i => portRecOk b i) && (List.range 30).all (fun j => ipRecOk b j)

def within (v lo hi : Nat) : Bool := decide (lo ≤ v) && decide (v ≤ hi)

def modeOk (b : List Byte) : Bool :=
  let m := parseMode b
  let q (v : Nat) : Bool := v == 0 || within v 10 3600000
  b.length == 0x100 && decide (m.pupol ≤ 2) && decide (m.rstpol ≤ 2) && zeros b 2 62 && q m.holdq && decide (m.holdalw ≤ 15) && zeros b 0x45 3 &&
  (m.holdwin == 0 || within m.holdwin 1 86400) && (m.actage == 0 || within m.actage 1 60000) &&
  (List.range 8).all (fun n => q (field b (0x50 + 8 * n) 4) && decide (field b (0x54 + 8 * n) 1 ≤ 15) && zeros b (0x55 + 8 * n) 3) &&
  (List.range 9).all (fun w =>
    let p := field b (0x90 + 8 * w) 4
    (p == 0 || within p 100 60000000) && decide (field b (0x94 + 8 * w) 1 < 4) && zeros b (0x95 + 8 * w) 3) &&
  within m.uconfwin 60 86400 && (decide (m.factreg < 64) || m.factreg == 255) && zeros b 0xDD 3 && zeros b 0xE0 32

/-! ### TASK (R75, R178, R190) -/

/-- Is an event binding one that R178 allows? -/
def bindOk (c : ScnCtx) (num : Nat) (t : TaskRec) : Bool :=
  let either := decide (1 ≤ t.edge) && decide (t.edge ≤ 3)
  if !t.event then t.bkind == 0 && t.edge == 0 && t.bspace == 0 && t.bind == 0
  else if t.bkind = 1 then decide (t.bspace ≤ 3) && either && decide (t.bind < 2 ^ 29) && spanIn c.oc (t.bspace, t.bind, 1)
  else
    t.bspace == 0 &&
    (if t.bkind = 2 then
       t.edge == 0 && c.scn.part.ringOwn.find? t.bind == some c.own &&
       (match c.scn.rings.find? t.bind with | some r => r.dbmode != 0 | none => false) &&
       c.scn.tasks.all (fun p => p.1 == num || !(p.2.event && p.2.bkind == 2 && p.2.bind == t.bind))
     else if t.bkind = 3 then (t.edge == 1 || t.edge == 3) && (match c.scn.subs.find? t.bind with | some q => q.owner == c.own | none => false)
     else if t.bkind = 4 then t.edge == 0 && c.scn.part.canOwn.find? t.bind == some c.own
     else if t.bkind = 5 then
       either && c.scn.part.dOwn.find? t.bind == some c.own && (match c.scn.dch.find? t.bind with | some d => !d.out | none => false)
     else if t.bkind = 6 then
       t.edge == 0 && decide (t.bind < 64) && c.scn.tasks.all (fun p => p.1 == num || !(p.2.event && p.2.bkind == 6 && p.2.bind == t.bind))
     else t.bkind == 7 && t.edge == 0 && t.bind == 0)

def spaceSize (c : Cnst) (space : Nat) : Nat := if space = 5 then c.dataSize else if space = 6 then c.retSize else if space = 7 then c.constSize else 0

/-- Pages of an owner that tasks, rings and datagram buffers pin (R190, R201, R330). -/
def pinnedPages (c : ScnCtx) : List (Nat × Nat) :=
  let k := c.scn.cnst.get {} c.own
  let area (off len : Nat) : List (Nat × Nat) :=
    if len = 0 then [] else (List.range ((off + len - 1) / 65536 - off / 65536 + 1)).map (fun i => (5, off / 65536 + i))
  ((c.scn.tasks.filter (fun p => p.2.owner == c.own)).flatMap (fun p => p.2.pages.flatMap (fun r =>
    (List.range r.count).map (fun i => (r.space, r.first + i))))) ++
  ((c.scn.rings.filter (fun p => c.scn.part.ringOwn.find? p.1 == some c.own)).flatMap (fun p =>
    area (p.2.base - k.dataBase) (2 ^ p.2.log2len * (16 * 2 ^ p.2.esize)))) ++
  ((c.scn.eps.filter (fun p => p.1 / 16 == c.own)).flatMap (fun p =>
    (match p.2.rx with | some q => area p.2.rxbuf (2 ^ (c.scn.rings.get {} q).log2len * 2048) | none => []) ++
    (match p.2.tx with | some q => area p.2.txbuf (2 ^ (c.scn.rings.get {} q).log2len * 2048) | none => [])))

/-- One task record (Table 3.18). -/
def taskOk (c : ScnCtx) (b : List Byte) (i : Nat) : Bool :=
  let o := 0x40 + i * 64
  let num := field b o 2
  let t := parseTask b c.own o
  let k := c.scn.cnst.get {} c.own
  decide (num < 512) && c.scn.part.taskOwn.find? num == some c.own && decide (field b (o + 2) 1 < 16) && decide (t.prio ≤ 31) &&
  decide (t.allow ≤ 15) && within t.period 20 60000000 && (if t.event then t.phase == 0 else decide (t.phase < t.period)) &&
  (t.deadline == 0 || within t.deadline 20 t.period) && decide (0 < t.entry) &&
  bits ((c.scn.prgm.get [] c.own).getD t.entry guardLine) 126 2 == 0 &&
  (t.pmin == 0 || within t.pmin 20 t.period) && (t.pmax == 0 || within t.pmax t.period 60000000) &&
  (t.priomin == 0xFF || decide (t.priomin ≤ t.prio)) && (t.priomax == 0xFF || within t.priomax t.prio 31) &&
  decide (t.pages.length ≤ 64) && decide (field b (o + 0x2E) 2 + t.pages.length ≤ field b 2 2) && zeros b (o + 0x32) 14 && bindOk c num t &&
  t.pages.all (fun r => decide (5 ≤ r.space) && decide (r.space ≤ 7) && decide (1 ≤ r.count) &&
    decide (r.first + r.count ≤ State.pagesIn (spaceSize k r.space))) &&
  (!t.det || !t.pages.isEmpty)

/-- TASK bodies, before admission (R61, R75, R178). -/
def taskSecOk (c : ScnCtx) (b : List Byte) : Bool :=
  let n := field b 0 2
  let g := field b 2 2
  let nums := (parseTasks b c.own).map (·.1)
  decide (n ≤ 512) && decide (g ≤ 4096) && decide (field b 4 1 < 2) && zeros b 5 59 && decide (0x40 + n * 64 + g * 16 ≤ b.length) &&
  zeros b (0x40 + n * 64 + g * 16) (b.length - (0x40 + n * 64 + g * 16)) &&
  (nums.zip (nums.drop 1)).all (fun p => decide (p.1 < p.2)) &&
  (List.range g).all (fun i => zeros b (0x41 + n * 64 + i * 16) 7) && (List.range n).all (fun i => taskOk c b i)

/-! ### IMGF, CNST, PRGM, RING -/

def imgfOk (c : ScnCtx) (b : List Byte) : Bool :=
  let f := parseImgf b
  let n := field b 0xC 2
  decide (f.guardUs ≤ 100) && zeros b 5 1 && within f.stallUs 1 10000 && decide (n ≤ 4096) && zeros b 0xE 50 && decide (0x40 + 16 * n ≤ b.length) &&
  zeros b (0x40 + 16 * n) (b.length - (0x40 + 16 * n)) &&
  (List.range n).all (fun i =>
    let o := 0x40 + i * 16
    decide (field b (o + 1) 1 < 4) && zeros b (o + 2) 2 && zeros b (o + 12) 4) &&
  f.flags.all (fun r => decide (r.space ≤ 2) && decide (1 ≤ r.count) && decide (r.first + r.count ≤ (rangeOf c.oc r.space).len)) &&
  noPair (fun (x y : RowFlag) => x.space == y.space && spansMeet (x.first, x.count) (y.first, y.count)) f.flags &&
  (match f.soeRing with | some q => c.ringIs q 1 (some 1) none | none => true)

def cnstOk (c : ScnCtx) (b : List Byte) : Bool :=
  let k := c.scn.cnst.get {} c.own
  let n := field b 0x30 2
  let spaces := [(k.dataBase, k.dataSize), (k.retBase, k.retSize), (k.constBase, k.constSize)]
  let lenIn (e : InitEntry) : Bool :=
    if e.target < 3 then decide (e.off + e.data.length ≤ (if e.target = 0 then k.constSize else if e.target = 1 then k.dataSize else k.retSize))
    else decide (e.data.length % 32 = 0) && decide (e.off + e.data.length / 32 ≤ (rangeOf c.oc (e.target - 3)).len)
  let unit (e : InitEntry) : Nat × Nat := if e.target < 3 then (e.off, e.data.length) else (e.off, e.data.length / 32)
  zeros b 0x32 14 && decide (0x40 + 16 * n ≤ b.length) && spaces.all (fun p => decide (p.1 % 65536 = 0) && decide (p.1 + p.2 ≤ 2 ^ 48)) &&
  noPair spansMeet spaces && decide (k.retSize ≤ c.oc.retmax) &&
  (List.range n).all (fun i =>
    let o := 0x40 + i * 16
    decide (field b o 1 ≤ 5) && zeros b (o + 1) 1 && decide (0x40 + 16 * n ≤ field b (o + 12) 4) &&
    decide (field b (o + 12) 4 + field b (o + 8) 4 ≤ b.length)) &&
  k.inits.all lenIn && noPair (fun (x y : InitEntry) => x.target == y.target && spansMeet (unit x) (unit y)) k.inits

def prgmOk (c : ScnCtx) (b : List Byte) : Bool :=
  let n := prgmLines b
  progHdrOk (field b 0 16) n c.oc.prgLen && b.length == cdiv (16 * n) 64 * 64 && zeros b (16 * n) (b.length - 16 * n)

/-- Does an entry size suit a hardware kind (Table 8.2, R330, R386, R414)? -/
def kindFits (k esize : Nat) (prod : Bool) : Bool :=
  if k = 0 then true
  else if k = 1 ∨ k = 4 ∨ k = 5 then prod && esize == 1
  else (k == 2 || k == 3) && esize == 2

def ringsOk (c : ScnCtx) (b : List Byte) : Bool :=
  let n := field b 0 4
  let l := parseRings b
  let k := c.scn.cnst.get {} c.own
  let area (r : RingRec) : Nat × Nat := (r.base, 2 ^ r.log2len * (16 * 2 ^ r.esize))
  decide (n ≤ 4096) && zeros b 4 60 && decide (0x40 + 32 * n ≤ b.length) && zeros b (0x40 + 32 * n) (b.length - (0x40 + 32 * n)) &&
  ((l.map (·.1)).zip ((l.map (·.1)).drop 1)).all (fun p => decide (p.1 < p.2)) &&
  (List.range n).all (fun i => decide (field b (0x47 + 32 * i) 1 < 2) && zeros b (0x54 + 32 * i) 12) &&
  l.all (fun p =>
    let r := p.2
    decide (p.1 < 4096) && c.scn.part.ringOwn.find? p.1 == some c.own && decide (r.esize ≤ 2) && within r.log2len 4 16 && decide (r.dbmode ≤ 3) &&
    (if r.dbmode = 3 then within r.thresh 1 (2 ^ r.log2len) else r.thresh == 0) && decide (r.base % 64 = 0) &&
    decide (k.dataBase ≤ r.base) && decide ((area r).1 + (area r).2 ≤ k.dataBase + k.dataSize) &&
    (r.prod == 0 || r.cons == 0) && kindFits r.prod r.esize true && kindFits r.cons r.esize false) &&
  noPair (fun (x y : Nat × RingRec) => spansMeet (area x.2) (area y.2)) l

/-! ### TMPL (R314 to R316, R320, R324, R330) -/

def portSuits (x : Scn) (port : Nat) (paired sv : Bool) : Bool :=
  let on (i : Nat) : Bool := (x.port.ports.get {} i).mode != 0
  (if sv then decide (port < 96) else decide (port < 124)) && on port &&
  (if paired then decide (port < 96) && port % 2 == 0 && on (port + 1) else true)

def stringsOk (b : List Byte) (o : Nat) : Bool :=
  let a := field b o 1
  let d := field b (o + 1 + a) 1
  let g := field b (o + 2 + a + d) 1
  decide (a ≤ 129) && decide (d ≤ 129) && decide (g ≤ 129) && decide (0x40 ≤ o) && decide (o + 3 + a + d + g ≤ b.length)

def rmsWhole (s : StreamRec) : Bool :=
  if s.rms then (if s.rate = 1 ∨ s.rate = 3 then s.freq == 50 else s.rate == 2 || s.rate == 4 || s.rate == 5) else s.rmsaddr == 0

def tmplOk (c : ScnCtx) (b : List Byte) : Bool :=
  let x := c.scn
  let sizes := [32, 32, 128, 16, 32]
  let fits := (sizes.zipIdx).all (fun p => decide (tmplOff b p.2 + tmplCount b p.2 * p.1 ≤ b.length))
  let offs := tmplOffs b (tmplCount b 5) (tmplOff b 5)
  let subs := parseSubs b c.own
  let pubs := parsePubs b c.own
  let svs := parseStreams b c.own
  let eps := parseEps b c.own
  let spans := c.netSpans
  let flag (k sz lim : Nat) : Bool := (List.range (tmplCount b k)).all (fun i => decide (field b (tmplOff b k + i * sz + 3) 1 < lim))
  fits && zeros b 0x24 28 && offs.all (fun o => templOk b o) && noPair (fun (x y : Nat) => field b x 2 == field b y 2) offs &&
  flag 0 32 4 && flag 1 32 4 && flag 2 128 16 &&
  c.tmpls.all (fun t => (memberSpans t.2).all (fun m => spanIn c.oc m)) &&
  subs.all (fun q => decide (q.1 < 4096) && portSuits x q.2.port q.2.paired false && (q.2.vid == 0xFFF || decide (q.2.vid < 4095)) &&
    spanIn c.oc (0, q.2.valid, 1) && (match c.templ q.2.templ with | some t => t.space == 0 | none => false)) &&
  pubs.all (fun q => decide (q.1 < 1024) && portSuits x q.2.port q.2.paired false && bit (q.2.dmac / 2 ^ 40) 0 &&
    (q.2.tci == 0xFFFF || !bit q.2.tci 12) && within q.2.minint 1 1000 && within q.2.maxint q.2.minint 60000 && decide (q.2.talmul ≤ 8) &&
    (match c.templ q.2.templ with | some t => t.space == 1 | none => false)) &&
  (List.range (tmplCount b 1)).all (fun i => zeros b (tmplOff b 1 + i * 32 + 0x19) 3 && stringsOk b (field b (tmplOff b 1 + i * 32 + 0x1C) 4)) &&
  svs.all (fun q => decide (q.1 < 1024) && portSuits x q.2.port q.2.paired true && within q.2.nch 1 128 && decide (q.2.sel.length ≤ 64) &&
    within q.2.rate 1 5 && decide (q.2.reqsync ≤ 2) && decide (q.2.miss ≤ 64) && rmsWhole q.2 && decide (q.2.inst % 256 = 0) &&
    decide (q.2.rmsaddr % 256 = 0) && q.2.sel.all (fun ch => decide (ch < q.2.nch)) && spanIn c.oc (0, q.2.valid, 1) &&
    spanIn c.oc (0, q.2.inst, cdiv q.2.sel.length 4 * 256) && (!q.2.rms || spanIn c.oc (0, q.2.rmsaddr, cdiv q.2.sel.length 4 * 256))) &&
  (List.range (tmplCount b 2)).all (fun i =>
    let o := tmplOff b 2 + i * 128
    let n := field b (o + 0xF) 1
    zeros b (o + 0x13) 1 && zeros b (o + 0x28) 24 && (slice b (o + 0x40 + n) (64 - n)).all (· == 0xFF)) &&
  (parseTrigs b).all (fun t => within t.kind 1 3 && decide (t.pre ≤ 10000) && decide (t.post ≤ 60000) &&
    (if t.kind = 3 then t.space == 0 && t.addr == 0 && within t.cls 1 4 else t.cls == 0 && decide (t.space ≤ 2) && spanIn c.oc (t.space, t.addr, 1))) &&
  (List.range (tmplCount b 3)).all (fun i => zeros b (tmplOff b 3 + i * 16 + 3) 1 && zeros b (tmplOff b 3 + i * 16 + 12) 4) &&
  eps.all (fun q => decide (q.1 - c.own * 16 < 16) && (q.2.v4 || q.2.v6) && decide (1 ≤ q.2.lport) && q.2.lport != x.port.lrtport &&
    decide (q.2.ports < 2 ^ 28) && decide (q.2.dscp ≤ 63) && decide (q.2.rxbuf % 2048 = 0) && decide (q.2.txbuf % 2048 = 0) &&
    (match q.2.rx with | some r => c.ringIs r 2 (some 2) (some 0) | none => true) &&
    (match q.2.tx with | some r => c.ringIs r 2 (some 0) (some 2) | none => true) &&
    x.eps.all (fun e => e.1 == q.1 || e.2.lport != q.2.lport)) &&
  noPair (fun (l m : List Span) => l.any (fun a => m.any (fun b => spanMeet a b))) spans && spans.all (fun l => noPair spanMeet l)

/-! ### CANC, FIOC, LOOP (R384 to R386, R412, R414, R418 to R434) -/

def canRecOk (c : ScnCtx) (k : Nat) (r : CanRec) : Bool :=
  let brp := bits r.nbt 0 9 + 1
  let t1 := bits r.nbt 9 8 + 1
  let t2 := bits r.nbt 17 7 + 1
  let dbrp := bits r.dbt 0 5 + 1
  let d1 := bits r.dbt 5 5 + 1
  let d2 := bits r.dbt 10 4 + 1
  let nq := brp * (1 + t1 + t2)
  let dq := dbrp * (1 + d1 + d2)
  let tdc := bit r.cfg 3
  decide (k < 32) && c.scn.part.canOwn.find? k == some c.own && bits r.cfg 11 21 == 0 && bits r.nbt 31 1 == 0 && bits r.dbt 18 14 == 0 &&
  bits r.ring 13 3 == 0 && bits r.ring 29 3 == 0 && decide (2 ≤ t1) && decide (2 ≤ t2) && decide (bits r.nbt 24 7 + 1 ≤ t2) &&
  decide (80 ≤ nq) && decide (bits r.dbt 14 4 + 1 ≤ d2) && (!bit r.cfg 0 || (decide (10 ≤ dq) && decide (dq ≤ nq))) &&
  (!(bit r.cfg 0 && decide (dq < 40)) || tdc) && (!tdc || decide (dbrp ≤ 2)) &&
  (!bit r.ring 12 || c.ringIs (bits r.ring 0 12) 2 (some 3) none) && (!bit r.ring 28 || c.ringIs (bits r.ring 16 12) 2 none (some 3))

def objOk (c : ScnCtx) (key : Nat) (o : ObjRec) : Bool :=
  let f := o.cfg
  let tx := bit f 1
  let fd := bit (c.scn.can.get { cfg := 0, nbt := 0, dbt := 0, ring := 0 } (key / 128)).cfg 0
  let span : Span := (if tx then 1 else 0, o.map, if bit f 3 then 512 else 256)
  c.scn.part.canOwn.find? (key / 128) == some c.own && (c.scn.can.find? (key / 128)).isSome && bit f 0 && (!bit f 3 || fd) &&
  (if tx then !bit f 5 && !bit f 7 && (bit f 3 || decide (bits f 12 4 ≤ 8)) else true) && bits f 10 2 != 3 &&
  (bits f 10 2 != 2 || within (bits f 16 16) 1 60000) && decide (o.id < 2 ^ 29) && decide (o.mask < 2 ^ 29) &&
  (bit f 2 || (decide (o.id < 2048) && decide (o.mask < 2048))) && decide (o.map < 2 ^ 29) && decide (o.map % 256 = 0) && (!bit f 6 || spanIn c.oc span)

def cancOk (c : ScnCtx) (b : List Byte) : Bool :=
  let nc := field b 0 2
  let no := field b 2 2
  let objs := parseCanobj b
  decide (0x40 + 32 * (nc + no) ≤ b.length) && zeros b 4 60 && zeros b (0x40 + 32 * (nc + no)) (b.length - (0x40 + 32 * (nc + no))) &&
  (List.range nc).all (fun i => zeros b (0x41 + 32 * i) 3 && zeros b (0x54 + 32 * i) 12) &&
  (List.range no).all (fun i => zeros b (0x42 + 32 * (nc + i)) 2 && zeros b (0x54 + 32 * (nc + i)) 12 && decide (field b (0x41 + 32 * (nc + i)) 1 < 128)) &&
  noPair (fun (x y : Nat × CanRec) => x.1 == y.1) (parseCan b) && noPair (fun (x y : Nat × ObjRec) => x.1 == y.1) objs &&
  (parseCan b).all (fun p => canRecOk c p.1 p.2) && objs.all (fun p => objOk c p.1 p.2) &&
  noPair spanMeet c.canSpans && noneMeet c.canSpans (c.netSpans.flatten ++ c.pubSpans)

def fiocOk (c : ScnCtx) (b : List Byte) : Bool :=
  let nd := field b 0 2
  let na := field b 2 2
  let d := parseDch b
  let a := parseAch b
  let e := 0x40 + 16 * (nd + na)
  zeros b 6 58 && decide (e ≤ b.length) && zeros b e (b.length - e) &&
  (List.range nd).all (fun i =>
    let o := 0x40 + 16 * i
    let dir := field b (o + 1) 1
    let f := field b (o + 2) 1
    (dir == 1 || dir == 2) && decide (f < 4) && (dir == 2 || !bit f 0) && (dir == 1 || !bit f 1) && zeros b (o + 3) 1 && zeros b (o + 12) 4 &&
    (if dir = 2 then field b (o + 4) 4 == 0 else decide (field b (o + 4) 4 ≤ 65000) && decide (field b o 1 < 56))) &&
  (List.range na).all (fun i => zeros b (0x41 + 16 * (nd + i)) 1 && zeros b (0x4C + 16 * (nd + i)) 4) &&
  noPair (fun (x y : Nat × DRec) => x.1 == y.1) d && noPair (fun (x y : Nat × ARec) => x.1 == y.1) a &&
  d.all (fun p => decide (p.1 < 64) && c.scn.part.dOwn.find? p.1 == some c.own && spanIn c.oc (if p.2.out then 1 else 0, p.2.addr, 1)) &&
  a.all (fun p => decide (p.1 < 16) && c.scn.part.aOwn.find? p.1 == some c.own && decide (p.2.safe ≤ 48000) && decide (p.2.setaddr % 32 = 0) &&
    spanIn c.oc (1, p.2.setaddr, 32) && (match p.2.rb with | some r => decide (r % 64 = 0) && spanIn c.oc (0, r, 64) | none => true)) &&
  noPair spanMeet c.fioSpans && noneMeet c.fioSpans (c.netSpans.flatten ++ c.pubSpans ++ c.canSpans) &&
  (field b 4 2 == 0xFFFF || c.ringIs (field b 4 2) 1 (some 4) none)

/-- A word of a loop: space and bit address as its register holds them (bits [30:29] the space). -/
def loopWordOk (c : ScnCtx) (w align : Nat) (spaces : List Nat) : Bool :=
  let sp := bits w 29 2
  spaces.contains sp && decide (bits w 0 29 % align = 0) && spanIn c.oc (sp, bits w 0 29, align)

def expOk (v lo hi : Int) : Bool := decide (lo ≤ v) && decide (v ≤ hi)

/-- One loop record (R418 to R434) with its number. -/
def loopOk (c : ScnCtx) (num : Nat) (ws : List Nat) : Bool :=
  let w (o : Nat) : Nat := ws.getD (o / 4) 0
  let cfg := w 0
  let nreg := bits cfg 11 4
  let ch := bits cfg 7 4
  let ea := [0, 8, 16, 24].map (fun i => signed 8 (bits (w 0x20) i 8))
  let bounds := (List.range (nreg - 1)).map (fun j => w (0x38 + 4 * j))
  let others := (c.scn.loops.filter (fun p => p.1 != num && c.scn.part.loopOwn.find? p.1 == some c.own)).map (fun p => bits (p.2.getD 6 0) 0 29)
  let u : Span := (1, bits (w 0x18) 0 29, 32)
  let ins := (c.scn.dch.filter (fun p => !p.2.out && c.scn.part.dOwn.find? p.1 == some c.own)).map (fun p => ((0, p.2.addr, 1) : Span))
  decide (num < 256) && c.scn.part.loopOwn.find? num == some c.own && bit cfg 0 && bits cfg 1 3 == c.own && bits cfg 17 15 == 0 && within nreg 1 8 &&
  within (w 4) 50 10000000 && decide (w 8 < w 4) &&
  loopWordOk c (w 0xC) 32 [0, 1, 2] && loopWordOk c (w 0x10) 32 [0, 1, 2] && (!bit (w 0x14) 31 || loopWordOk c (w 0x14) 32 [0, 1, 2]) &&
  spanIn c.oc u && decide (bits (w 0x18) 0 29 % 32 = 0) && (!bit (w 0x1C) 31 || loopWordOk c (w 0x1C) 64 [0]) &&
  ea.all (fun e => expOk e (-96) 64) && expOk (signed 8 (w 0x24)) (-96) 64 && decide (w 0x24 < 256) &&
  (List.range 32).all (fun k => expOk (signed 8 (bits (w (0x80 + 4 * k)) 24 8)) (-64) 63) &&
  decide (signed 24 (w 0x28) < signed 24 (w 0x2C)) && f32.le 0 (w 0x34) &&
  (bounds.zip (bounds.drop 1)).all (fun p => f32.lt p.1 p.2) && bounds.all (fun v => !f32.isNan v) &&
  noneMeet [u] (c.netSpans.flatten ++ c.pubSpans ++ c.canSpans ++ ins) && !others.contains u.2.1 &&
  (if bit cfg 6 then
     (match c.scn.ach.find? ch with
      | some a => c.scn.part.aOwn.find? ch == some c.own && a.setaddr == u.2.1 && (currentCode (w 0x30) 0xFFFF).1 == a.safe
      | none => false)
   else true)

def loopsOk (c : ScnCtx) (b : List Byte) : Bool :=
  let n := field b 0 2
  zeros b 2 62 && decide (0x40 + 256 * n ≤ b.length) && zeros b (0x40 + 256 * n) (b.length - (0x40 + 256 * n)) &&
  (List.range n).all (fun i => zeros b (0x40 + 256 * i + 0x70) 16) &&
  (parseLoops b ((c.scn.part.loopOwn.filter (·.2 == c.own)).map (·.1))).all (fun p => loopOk c p.1 p.2)

/-! ### FLTR, NVLY, NVDF, REDN, MGTP -/

def fltrOk (x : Scn) (b : List Byte) : Bool :=
  let n := field b 0 2
  let l := parseFltr b
  let ownerOf (f : Nat) : Nat := (x.part.fltOwn.find? f).getD 0
  zeros b 2 14 && zeros b 0x20 32 && decide (0x40 + 8 * n ≤ b.length) && zeros b (0x40 + 8 * n) (b.length - (0x40 + 8 * n)) &&
  (List.range n).all (fun i => zeros b (0x46 + 8 * i) 2) && ((l.map (·.1)).zip ((l.map (·.1)).drop 1)).all (fun p => decide (p.1 < p.2)) &&
  l.all (fun p =>
    let r := p.2
    srcAssigned p.1 && within r.cls 1 4 && decide (r.react ≤ 5) && (r.cls != 4 || within r.react 3 5) && (p.1 != 1536 || r.react == 5) &&
    (if r.react = 1 then
       (match x.tasks.find? r.task with | some t => t.owner == ownerOf p.1 && t.event && t.bkind == 7 | none => false)
     else r.task == 0xFFFF)) &&
  (parseHring b).all (fun p => match x.rings.find? p.2 with
    | some r => x.part.ringOwn.find? p.2 == some p.1 && r.esize == 1 && r.prod == 5
    | none => false)

def nvlyOk (x : Scn) (b : List Byte) : Bool :=
  let n := field b 0 2
  let l := parseNvly b []
  decide (n ≤ 64) && zeros b 2 62 && decide (0x40 + 32 * n ≤ b.length) && zeros b (0x40 + 32 * n) (b.length - (0x40 + 32 * n)) &&
  (List.range n).all (fun i => zeros b (0x42 + 32 * i) 2 && zeros b (0x4C + 32 * i) 20) && noPair (fun (p q : Nat × Region) => p.1 == q.1) l &&
  l.all (fun p => decide (p.1 < 64) && decide (p.2.owner < 8) && bit x.hdr.ownmask p.2.owner && decide (p.2.base % 256 = 0) &&
    decide (p.2.size % 256 = 0) && decide (256 ≤ p.2.size))

def nvdfOk (x : Scn) (secs : List Sec) (s : Sec) : Bool :=
  let b := s.body
  let len := field b 4 4
  zeros b 1 3 && zeros b 8 56 && decide (0x40 + len ≤ b.length) && zeros b (0x40 + len) (b.length - (0x40 + len)) &&
  (match x.nvly.find? (field b 0 1) with | some r => r.owner == s.own && within len 1 r.size | none => false) &&
  secs.all (fun t => t.ty != tyNVDF || t.idx == s.idx || field t.body 0 1 != field b 0 1)

def rednOk (b : List Byte) : Bool :=
  let n := field b 0xE 2
  let raw := field b 5 1
  field b 0 4 != 0 && within (field b 4 1) 1 7 && (raw == 0 || within raw 3 15) && decide (field b 7 1 < 2) &&
  (if field b 7 1 = 0 then field b 8 2 == 0 else within (field b 8 2) 24 8760) && decide (field b 0xA 2 ≤ 1000) && decide (field b 0xC 2 ≤ 10000) &&
  decide (n ≤ 28) && zeros b 0x10 48 && decide (0x40 + 32 * n ≤ b.length) && zeros b (0x40 + 32 * n) (b.length - (0x40 + 32 * n)) &&
  (List.range n).all (fun i => within (field b (0x40 + 32 * i) 1) 96 123 && zeros b (0x41 + 32 * i) 3 && zeros b (0x58 + 32 * i) 8)

def mgtpOk (b : List Byte) : Bool :=
  let n := field b 4 4
  let k := field b 8 4
  within (field b 0 4) 100 60000000 && within n 2 16384 && decide (k ≤ 262144) && decide (field b 0xC 4 ≤ 786432) && zeros b 0x10 48 &&
  decide (0x40 + 16 * n + k ≤ b.length) && zeros b (0x40 + 16 * n + k) (b.length - (0x40 + 16 * n + k)) && progHdrOk (field b 0x40 16) n 16384

/-! ### The checks at the end (Table 3.4, "End") -/

/-- Code 0x45 of one section. -/
def secOk (x : Scn) (secs : List Sec) (s : Sec) : Bool :=
  let c : ScnCtx := { scn := x, secs := secs, own := s.own }
  let b := s.body
  if s.ty = tyVBAS then vbasOk b
  else if s.ty = tyPART then partOk x b
  else if s.ty = tyPORT then portOk b
  else if s.ty = tyMODE then modeOk b
  else if s.ty = tyFLTR then fltrOk x b
  else if s.ty = tyNVLY then nvlyOk x b
  else if s.ty = tyREDN then rednOk b
  else if s.ty = tyMGTP then mgtpOk b
  else if s.ty = tyPRGM then prgmOk c b
  else if s.ty = tyCNST then cnstOk c b
  else if s.ty = tyIMGF then imgfOk c b
  else if s.ty = tyRING then ringsOk c b
  else if s.ty = tyTMPL then tmplOk c b
  else if s.ty = tyCANC then cancOk c b
  else if s.ty = tyFIOC then fiocOk c b
  else if s.ty = tyLOOP then loopsOk c b
  else if s.ty = tyNVDF then nvdfOk x secs s
  else true

namespace State

/-- The key an AUTH section must name and be checked with (R55, R58): the one a KEYW of the same scantling delivers, else the owner's. At a start any key the
module keeps serves (R59). -/
def authKey (s : State) (x : Scn) (own serial : Nat) (start : Bool) : Option Nat :=
  match x.keyw.find? own with
  | some (ser, k) => if start then s.keyOf own serial else if ser = serial then some k else none
  | none => if start || s.store.serials.find? own == some serial then s.keyOf own serial else none

def authOk (s : State) (b : List Byte) (l : List Sec) (x : Scn) (start : Bool) (a : Sec) : Bool :=
  zeros a.body 4 12 && zeros a.body 0x40 (a.body.length - 0x40) &&
  (match s.authKey x a.own (field a.body 0 4) start with
   | some k => Config.hmac384 k (authBytes b l a) == beNat (slice a.body 0x10 48)
   | none => false)

/-- R57 and R58 for one KEYW section. -/
def keywOk (s : State) (b : List Byte) (k : Sec) : Bool :=
  let ser := field k.body 0 4
  let cur := s.store.serials.find? k.own
  field b 8 8 == s.store.serial && (match cur with | some c => decide (c < ser) | none => true) &&
  (Config.keyUnwrap s.store.pubKey k.own k.body).isSome && zeros k.body 0xE1 31 &&
  (match cur with
   | some c => (match s.keyOf k.own c with
     | some key => Config.hmac384 key (slice k.body 0 0xB1) == beNat (slice k.body 0xB1 48)
     | none => false)
   | none => zeros k.body 0xB1 48)

/-- Codes 0x30 to 0x32: at a load, and again on the stored copy at a start (R56), where a delivered key is already in the store. -/
def authChecks (s : State) (b : List Byte) (x : Scn) (start : Bool) : Option ScnBad :=
  let l := secsOf b
  let of (ty : Nat) : List Sec := l.filter (fun k => k.ty == ty)
  firstBad [
    (of tyVBAS).findSome? (fun k => needSec k (vbasSigned s.store.secMin s.store.revoked k) 0x30),
    (of tyKEYW).findSome? (fun k => if start || s.keywOk b k then none else some { code := 0x31, owner := some k.own, sect := some k.idx }),
    (of tyAUTH).findSome? (fun k => if s.authOk b l x start k then none else some { code := 0x32, owner := some k.own, sect := some k.idx })]

/-- Codes 0x40 to 0x45: at a load, and at Configure (R34, R67). -/
def planeChecks (s : State) (b : List Byte) (x : Scn) : Option ScnBad :=
  let l := secsOf b
  let of (ty : Nat) : List Sec := l.filter (fun k => k.ty == ty)
  let s' : State := { s with cfg := x }
  let quota := (List.range 8).foldl (fun a n => if bit x.hdr.ownmask n then a + (x.imgf.get {} n).quota else a) 0
  let pins (n : Nat) : Bool := decide ((pinnedPages { scn := x, secs := l, own := n }).eraseDups.length + 64 ≤ (x.part.owners.get {} n).drlim)
  firstBad [
    need (partFits x l) 0x40,
    need (x.part.bents.all (fun m => !(s.bent m.1).unusable)) 0x41,
    need (x.part.grpv == 0 || s.pw.variantW) 0x42,
    need (decide (x.cnst.foldl (fun a c => a + c.2.retSize) 0 ≤ 268435456)) 0x43,
    (of tyTASK).findSome? (fun k => needSec k (taskSecOk { scn := x, secs := l, own := k.own } k.body) 0x45),
    (of tyTASK).findSome? (fun k => needSec k (s'.poolAdmits k.own x.tasks) 0x44),
    l.findSome? (fun k => needSec k (secOk x l k) 0x45),
    need (decide (quota ≤ 516096)) 0x45,
    (List.range 8).findSome? (fun n => if bit x.hdr.ownmask n && !pins n then some { code := 0x45 } else none)]

/-- Codes 0x46 and 0x47: against the current slot (R66). -/
def sameChecks (s : State) (b : List Byte) (x : Scn) : Option ScnBad :=
  let l := secsOf b
  let old := secsOf s.curSlot.bytes
  let same (ty own : Nat) : Bool := secBody l ty own == secBody old ty own
  let live := s.ms.mode == .run || s.ms.mode == .shadow || s.ms.mode == .test
  let fmt := x.hdr.setfmt == s.nvs.setfmt
  let first (ty own : Nat) : Option Nat := (l.find? (fun k => k.ty == ty && k.own == own)).map (·.idx)
  firstBad [
    if fmt && !s.curSlot.bytes.isEmpty && !same tyNVLY 0 then some { code := 0x46, sect := first tyNVLY 0 } else none,
    if live && (!same tyPART 0) then some { code := 0x47, sect := first tyPART 0 } else none,
    if live && fmt && !same tyNVLY 0 then some { code := 0x47, sect := first tyNVLY 0 } else none,
    if live then (List.range 8).findSome? (fun n =>
      if !same tyPRGM n then some { code := 0x47, sect := first tyPRGM n }
      else if !same tyCNST n then some { code := 0x47, sect := first tyCNST n } else none) else none]

/-- The end step (R61): every check in table order. -/
def scnEnd (s : State) (b : List Byte) (x : Scn) : Option ScnBad :=
  firstBad [s.authChecks b x false, s.planeChecks b x, s.sameChecks b x]

/-- Step 7 of Table 2.3 on a stored copy (R56): header, table, signature and tags. -/
def slotCheck (s : State) (k : Nat) : Option ScnBad :=
  let b := (s.store.slots.get {} k).bytes
  let bad := (s.store.slots.get {} k).bad
  if b.isEmpty then some { code := 0x20 } else
  firstBad [need (bad == 0) bad, hdrChecks s.store.serial b, tableChecks b, need (b.length == field b 0x14 4) 0x20,
    s.authChecks b (parseScn s.store.pubKey b) true]

end State

end Sys2Proof.Machine
end

