-- ==== Sys2Proof/Machine/Upd.lean ====
section
/-! DEFINITION. Scantling loads, commits and updates (R60 to R70, R489 to R495): the loader's stages, the commit record, the plane swap, confirmation and
rollback. A command answers with a Lorat status and its detail. -/
namespace Sys2Proof.Machine

namespace State

/-! ### Loading (R60 to R62, R351) -/

/-- MGT_SCNREFUSE for a refusal (Table 3.8). -/
def scnRefWord (b : ScnBad) (start : Bool) : Nat :=
  b.code + (match b.owner with | some n => n % 8 * 256 + 2048 | none => 0) + (match b.sect with | some i => i % 1024 * 4096 + 2 ^ 22 | none => 0) +
  b2n start * 2 ^ 23 + 2 ^ 31

/-- A refusal is reported (R61, R499). -/
def scnRefused (s : State) (b : ScnBad) (start : Bool) : State :=
  (s.wr Reg.MGT_SCNREFUSE (scnRefWord b start)).emit (.console s.ms.mode.code 0 b.code)

/-- A refusal ends the load: status SCANREF with the detail of MGT_SCNREFUSE. -/
def scnRef (s : State) (b : ScnBad) : (Nat × Nat) × State :=
  let s := s.setStore { s.store with load := none }
  ((0x0A, scnRefWord b false % 2 ^ 23), s.scnRefused b false)

/-- Codes 0x07 and 0x08 of the header step (R60, R68, R224). -/
def scnGate (s : State) (b : List Byte) (accept : Bool) : Option ScnBad :=
  let m := s.ms.mode
  let fmt := field b 0x10 4
  firstBad [
    need (accept || s.nvs.setfmt == 0 || fmt == s.nvs.setfmt) 7,
    need ((m == .stop || m == .run || m == .shadow || m == .test || m == .recovery) && s.mgt.upd.state == 0 && !s.splOpen) 8]

/-- The checks that the bytes up to `new` complete, `old` of them having been there before (R61, R351). -/
def scnStages (s : State) (b : List Byte) (old : Nat) (accept bad : Bool) : Option ScnBad :=
  let new := b.length
  let tbl := 0x100 + 16 * field b 0x1C 2
  let tot := field b 0x14 4
  firstBad [
    if old < 256 ∧ 256 ≤ new then hdrChecks s.store.serial b else none,
    if old < 256 ∧ 256 ≤ new then s.scnGate b accept else none,
    if 256 ≤ new ∧ old < max 256 tbl ∧ tbl ≤ new then tableChecks b else none,
    if 256 ≤ new ∧ tot < new then some { code := 0x20 } else none,
    if 256 ≤ new ∧ tot = new then need (!bad) 0x21 else none,
    if 256 ≤ new ∧ tot = new then need (paddingOk b) 0x10 else none]

/-- A chunk of a scantling load from session `k` (R351). `bad` says that STO fails to write the body. -/
def scnChunk (s : State) (k off : Nat) (bytes : List Byte) (accept bad : Bool) : (Nat × Nat) × State :=
  let open_ : Option Load := match s.store.load with | some l => if l.verified then none else some l | none => none
  let mine : Option Load := match open_ with | some l => if l.session = k then some l else none | none => none
  if off = 0 ∧ open_.isSome ∧ mine.isNone then
    let b : ScnBad := { code := 8 }
    ((0x0A, scnRefWord b false % 2 ^ 23), s.scnRefused b false)
  else
    let start : Option Load :=
      if off = 0 then some { session := k, accept := accept, lastAt := s.mono }
      else match mine with
        | some l => if off = l.bytes.length then some l else none
        | none => none
    match start with
    | none => ((0x0F, match mine with | some l => l.bytes.length | none => 0), s)
    | some l =>
      let b := l.bytes ++ bytes
      let s := s.setStore { s.store with load := some { l with bytes := b, lastAt := s.mono } }
      let s := s.wr Reg.MGT_SCNLOAD b.length
      match s.scnStages b l.bytes.length l.accept bad with
      | some r => s.scnRef r
      | none =>
        if b.length < 256 ∨ b.length ≠ field b 0x14 4 then ((0, 0), s)
        else
          let x := parseScn s.store.pubKey b
          match s.scnEnd b x with
          | some r => s.scnRef r
          | none => ((0, 0), s.setStore { s.store with load := some { l with bytes := b, lastAt := s.mono, verified := true, scn := x } })

/-- No chunk for 10 s (R351): the load is abandoned. -/
def scnLoadTimeout (s : State) : State :=
  match s.store.load with
  | some l => if l.verified then s else
    let s := s.advanceMono (l.lastAt + 10 * secU)
    s.setStore { s.store with load := none }
  | none => s

/-! ### Commit (R59, R63, R64, R235, R276) -/

/-- Installed keys no slot and no owner names any more go (R59). -/
def keepKeys (s : State) : State :=
  let named (own ser : Nat) : Bool :=
    s.store.serials.find? own == some ser || s.store.slots.any (fun x => x.2.scn.auth.find? own == some ser)
  s.setStore { s.store with keys := s.store.keys.keep (fun k _ => named (k / 2 ^ 32) (k % 2 ^ 32)) }

/-- An owner listed for key erasure, when the previous slot is overwritten (R59, R277): its data keys go with its installed key, and so does its data. -/
def eraseKeys (s : State) (n : Nat) : State :=
  let s := s.eraseOwner n
  let s := (s.wr (Reg.MMU_OSTAT n) (putBits (s.rd (Reg.MMU_OSTAT n)) 0 2 0))
  let s : State := { s with mmu := { s.mmu with keys := s.mmu.keys.insert n { gen := s.keyGen n } } }
  s.setStore { s.store with serials := s.store.serials.erase n, keys := s.store.keys.keep (fun k _ => k / 2 ^ 32 != n) }

/-- Data keys are drawn for an owner that has none (R276). -/
def drawKeys (s : State) (n : Nat) : State :=
  let k := s.mmu.keys.get {} n
  if k.drawn then s else
  { s with mmu := { s.mmu with keys := s.mmu.keys.insert n { gen := k.gen + 1, drawn := true, ok := true } } }

/-- The keys a commit installs and removes. -/
def commitKeys (s : State) (x : Scn) (erase : Nat) : State :=
  let s := forEach (ownerIdx.filter (fun n => bit erase n && !bit x.hdr.ownmask n)) (fun s n => s.eraseKeys n) s
  let keys := x.keyw.foldl (fun m p => SMap.insert m (p.1 * 2 ^ 32 + p.2.1) p.2.2) s.store.keys
  let s := s.setStore { s.store with keys := keys }
  let s := s.followKeys.keepKeys
  forEach (ownerIdx.filter (fun n => bit x.hdr.ownmask n)) (fun s n => s.drawKeys n) s

/-- SCN_COMMIT (R64, Table 21.2 step 1): the verified load becomes current. With none the command is not served. -/
def scnCommit (s : State) : (Nat × Nat) × State :=
  let m := s.ms.mode
  let ok := m == .stop || m == .run || m == .shadow || m == .test || m == .recovery
  match s.store.load with
  | some l =>
    if !ok || !l.verified then ((8, m.code), s) else
    let x := l.scn
    let old := s.curSlot
    let k := 1 - s.store.cur
    let carry := m == .run || m == .shadow || m == .test
    let s := s.setCurSlot { old with setfmt := s.nvs.setfmt }
    let slot : Slot :=
      { bytes := l.bytes, scn := x, confirmed := m == .recovery, setfmt := x.hdr.setfmt, annex := if carry then old.annex else [],
        splNum := if carry then old.splNum else [], valid := true }
    let s := s.setSlot k slot
    let s := (s.setStore { s.store with cur := k, recCur := k, load := none }).stage 0 4096 (.note 5)
    let s := s.commitKeys x old.scn.part.keyErase
    let s := forEach (ownerIdx.filter (fun n => bit old.scn.hdr.ownmask n && !bit x.hdr.ownmask n)) (fun s n => s.dropWins n) s
    let s := s.annexAll.almEvent 0x0010 15 k x.hdr.buildid
    if m = .recovery then ((0, 0), s) else
    let s := s.setMgt { s.mgt with upd := { lAt := s.mono, inStop := m == .stop } }
    ((0, 0), s.setUpdState 1)
  | none => ((8, m.code), s)

/-- The new current slot has been streamed into the idle planes and its hash checked (Table 21.2 step 2, R56), at most 2 s after the commit: the search
for a quiet point begins. -/
def planeStreamed (s : State) : State :=
  if s.mgt.upd.state ≠ 1 ∨ s.curSlot.bad ≠ 0 then s else
  let (v, s) := s.fresh
  let s := s.advanceMono (s.mgt.upd.lAt + v % (2 * secU + 1))
  let s := s.setStore { s.store with idle := some s.curSlot.scn }
  (s.setMgt { s.mgt with upd := { s.mgt.upd with lAt := s.mono } }).setUpdState 2

/-- UPDATE_FAIL (R491): the hash fails while the planes stream, or no quiet point has come 10 s after L. -/
def updateFail (s : State) : State :=
  if s.mgt.upd.state = 1 then s.updFail 7
  else if s.mgt.upd.state = 2 then (s.advanceMono (s.mgt.upd.lAt + 10 * secU)).updFail 2
  else s

/-! ### Quiet points (R489) -/

/-- Is now a quiet point: does the span of 20 µs from now meet R489? -/
def quiet (s : State) : Bool :=
  let e := s.now + us 20
  let inSpan (t : Nat) : Bool := decide (s.now ≤ t) && decide (t < e)
  s.tasks.all (fun p =>
    let x := p.2
    (x.st == .idle || x.st == .waiting) && x.pend.isNone && x.events.all (fun t => decide (e ≤ t)) &&
    (match x.nextB with
     | some b => !(s.releasable (s.taskCfg p.1).owner && inSpan b)
     | none => true) &&
    (match x.wait with
     | some w => !inSpan (s.now + ((w.deadline + 2 ^ 40 - s.ns % 2 ^ 40) % 2 ^ 40) * 65536)
     | none => true)) &&
  s.loops.all (fun p => p.2.pend.isNone && (match p.2.next with | some b => !(s.loopRuns p.1 && inSpan b) | none => true)) &&
  (match s.nextCompare s.now with | some t => decide (e ≤ t) | none => true) &&
  s.img.commits.isEmpty && !s.splBusy && s.fld Reg.RED_STAT 4 1 == 0 && s.red.sw == 0

/-! ### The swap -/

/-- A task table with the values of a slot's applied and confirmed splices. -/
def annexTasks (tasks : SMap TaskRec) (x : Slot) : SMap TaskRec :=
  (x.annex.flatMap (fun p => p.2.filter (fun r => r.state != 2))).foldl (fun m r =>
    r.pkg.targets.foldl (fun m t => SMap.insert m t.task (retarget (SMap.get {} m t.task) t)) m) tasks

/-- Bents whose assignment changes are gated off, with their translation caches empty (R20, R269); keep-warm ones are awake. -/
def bentsPlane (s : State) (old : Part) : State :=
  forEach (List.range 64) (fun s m =>
    let a := old.bents.get {} m
    let b := s.bentCfg m
    if a = b then s else
    let s := if a.assigned ∧ (s.bent m).awake then s.gateBent m else s
    let s := if a.owner = b.owner then s else s.emptyTlb m
    if b.assigned && b.keepWarm && !(s.bent m).unusable then
      ((s.setBent m { s.bent m with awake := true, waking := false, idleSince := s.mono }).pdSwitch m true)
    else s) s

/-- The domains of Table 1.5 that the scantling uses are on, the others off (R19). -/
def domainsPlane (s : State) : State := forEach ([67, 68, 73, 74, 75] : List Nat) (fun s d => s.pdSwitch d (s.pdUsed d)) s

/-- Every plane takes the loaded settings, `old` being those before: an unchanged record keeps its state. -/
def planes (s : State) (old : Scn) : State :=
  let s := (s.netConfigure old).timPlane old
  let s := ((s.canConfigure old).fioConfigure old).lopConfigure old
  let s := s.fltConfigure.redConfigure.nvsPlane
  forEach (s.cfg.rings.filter (fun p => old.rings.find? p.1 != some p.2)) (fun s p => s.ringStart p.1 (old.rings.find? p.1).isNone) s

/-- Owner states follow the owners defined (Table 2.9): a new one is Stopped. -/
def ownersPlane (s : State) : State :=
  forEach ownerIdx (fun s n =>
    if !s.ownerDef n then s.setOwner n {}
    else if (s.owner n).st = .undef then s.setOwner n { st := .stopped } else s) s

/-- An owner's publications that are new or changed begin, or stand in their Stop form. -/
def pubsPlane (s : State) (old : Scn) : State :=
  forEach (s.cfg.pubs.filter (fun p => old.pubs.find? p.1 != some p.2)) (fun s p =>
    if s.releasable p.2.owner then s.pubBegin p.1 p.2 else s.pubToStop p.1 p.2) s

/-- Boundaries of cyclic tasks whose record changed follow anew (Table 3.5). -/
def tasksPlane (s : State) (old : SMap TaskRec) : State :=
  let gone := (old.filter (fun p => (s.cfg.tasks.find? p.1).isNone)).map (·.1)
  let s : State := { s with tasks := gone.foldl (fun m k => SMap.erase m k) s.tasks }
  forEach (s.cfg.tasks.filter (fun p => old.find? p.1 != some p.2)) (fun s p =>
    if p.2.defined && !p.2.event then s.setTask p.1 { s.task p.1 with nextB := some (s.nextBoundary p.1 s.now) } else s) s

/-- Pages the task lists, rings and buffers pin follow them (R189, R201). -/
def pinsPlane (s : State) (before : List (Nat × List Nat)) : State :=
  forEach before (fun s p =>
    let now_ := s.heldPages p.1
    let s := forEach (p.2.eraseDups.filter (fun q => !now_.contains q)) (fun s q => s.unpinPage p.1 q) s
    if s.ownerDef p.1 && (s.cfg.cnst.find? p.1).isSome then s.pinHeld p.1 else s) s

/-- Every subsystem makes the planes of a scantling active (R66). After a commit in Stop the data sections wait for each owner's next start (R67);
otherwise the task set takes effect with the splices of its slot. -/
def swapTo (s : State) (x : Scn) (slot : Slot) (inStop : Bool) : State :=
  let old := s.cfg
  let held := ownerIdx.map (fun n => (n, s.heldPages n))
  let keep (p : TaskRec) : Bool := bit x.hdr.ownmask p.owner
  let cnst := old.cnst.keep (fun n _ => bit x.hdr.ownmask n)
  let cfg := if inStop then
      { x with tasks := old.tasks.keep (fun _ p => keep p), cnst := cnst, nobreak := old.nobreak }
    else { x with tasks := annexTasks x.tasks slot, cnst := cnst }
  let s : State := { s with cfg := cfg }
  let s := s.ownersPlane
  let s := if inStop then
      forEach (ownerIdx.filter (fun n => s.ownerDef n)) (fun s n => s.setOwner n { s.owner n with newSecs := true }) s
    else s
  let s := (s.bentsPlane old.part).domainsPlane
  let moved := ownerIdx.filter (fun n => s.ownerDef n && (old.part.owners.get {} n) != s.ownerCfg n)
  let s := forEach moved (fun s n => s.initRows n [0, 1, 2] 7) s
  let s := ((s.planes old).tasksPlane old.tasks).pinsPlane held
  let s := if old.mgtp = x.mgtp then s else s.mgtEngReset
  let s := forEach ownerIdx (fun s n => if s.ownerDef n then s.poolRegs n else s) s
  (s.pubsPlane old).setStore { s.store with plane := 1 - s.store.plane }

/-- A plane swap at now, through Handover in Run and Shadow, at most 8 µs long (Table 21.2 steps 4 and 5). -/
def swapNow (s : State) (mid : State → State) : State :=
  let q := s.now
  let s := (s.wr64 Reg.MGT_QPAT (form64 q)).wr Reg.MGT_QPWAIT (min 0xFFFFFF ((s.mono - s.mgt.upd.lAt) / us 1))
  if s.ms.mode = .run ∨ s.ms.mode = .shadow then
    let to_ := s.ms.mode
    let (t, s) := s.openUntil 8000
    (s.throughHandover t to_ mid).handoverEnd
  else mid s

/-- May planes be swapped in this mode (Table 21.2 step 4)? -/
def swapMode (s : State) : Bool := s.ms.mode == .run || s.ms.mode == .shadow || s.ms.mode == .stop || s.ms.mode == .test

/-- PLANE_SWAP at a quiet point (R490): the confirm window opens. -/
def planeSwap (s : State) : State :=
  match s.store.idle with
  | none => s
  | some x =>
    if s.mgt.upd.state ≠ 2 ∨ !s.swapMode ∨ !s.quiet ∨ s.mgt.upd.lAt + 10 * secU < s.mono then s else
    let inStop := s.mgt.upd.inStop
    let qm := s.mono
    let prev := 1 - s.store.cur
    let old := s.cfg
    let s := s.swapNow (fun s =>
      let s := s.swapTo x s.curSlot inStop
      (s.nvsPark prev x.hdr.setfmt).nvsDropPw)
    let s := s.setStore { s.store with idle := none, prevPlane := some old }
    let win := (if x.mode.uconfwin = 0 then 600 else x.mode.uconfwin) * secU
    let s := s.setMgt { s.mgt with upd := { s.mgt.upd with winEnd := qm + win } }
    (s.setUpdState 3).almEvent 0x0100 15 s.store.cur x.hdr.buildid

/-! ### Confirmation and rollback (R492, R493) -/

/-- Is the confirm window open (MGT_SCNSTAT.CONFIRM)? -/
def confirmOpen (s : State) : Bool := s.mgt.upd.state == 3 && decide (s.mono < s.mgt.upd.winEnd)

/-- SCN_CONFIRM. -/
def scnConfirm (s : State) : (Nat × Nat) × State :=
  if !s.confirmOpen then ((8, s.ms.mode.code), s) else
  let k := s.store.cur
  let s := (s.setCurSlot { s.curSlot with confirmed := true }).stage 0 4096 (.note 6)
  let s := ((s.setStore { s.store with prevPlane := none }).updOutcome 1).setUpdState 0
  let s := s.almEvent 0x0101 15 k (s.slotBuild k)
  let v := s.cfg.vbas
  let s := if v.advance && decide (s.store.secMin < v.secVer) then
      let s := s.setStore { s.store with secMin := v.secVer }
      let p := s.prevSlot
      let s := s.setSlot (1 - k) { p with valid := p.valid && decide (v.secVer ≤ p.scn.vbas.secVer) }
      s.almEvent 0x0121 15 0xFF v.secVer
    else s
  ((0, 0), s)

/-- A rollback begins, with the code it will report. -/
def rollbackBegin (s : State) (code : Nat) : State :=
  (s.setMgt { s.mgt with upd := { s.mgt.upd with rbCode := code, rbFrom := s.mono, lAt := s.mono, forced := false } }).setUpdState 4

/-- SCN_ROLLBACK. -/
def scnRollback (s : State) : (Nat × Nat) × State :=
  if s.confirmOpen then ((0, 0), s.rollbackBegin 3) else ((8, s.ms.mode.code), s)

/-- The window ends unconfirmed. -/
def updateExpire (s : State) : State :=
  if s.mgt.upd.state ≠ 3 then s else
  ((s.advanceMono s.mgt.upd.winEnd).rollbackBegin 4).raise 1927

/-- The previous planes are swapped in and the previous slot becomes current (R493 steps 1 to 3, R70). -/
def rollbackNow (s : State) (code : Nat) : State :=
  let inStop := s.mgt.upd.inStop
  let prev := 1 - s.store.cur
  let slot := s.prevSlot
  let s := s.swapNow (fun s => s.swapTo slot.scn slot inStop)
  let s := ((s.setStore { s.store with prevPlane := none }).revertTo prev).nvsUnpark
  let s := s.setMgt { s.mgt with upd := { s.mgt.upd with forced := false } }
  (s.updOutcome code).setUpdState 0

/-- ROLLBACK_SWAP: at a quiet point; or (`force`) 10 s have passed without one, and SEQ stops releasing (R493). -/
def rollbackSwap (s : State) (force : Bool) : State :=
  if s.mgt.upd.state ≠ 4 then s
  else if !force then
    if s.quiet && s.swapMode && !s.mgt.upd.forced && decide (s.mono ≤ s.mgt.upd.rbFrom + 10 * secU) then s.rollbackNow s.mgt.upd.rbCode else s
  else if s.mgt.upd.forced then s
  else
    let s := s.advanceMono (s.mgt.upd.rbFrom + 10 * secU)
    (s.setMgt { s.mgt with upd := { s.mgt.upd with forced := true } }).setBit Reg.MGT_UPDSTAT 17 true

/-- Does nothing run (R493)? -/
def nothingRuns (s : State) : Bool :=
  s.tasks.all (fun p => p.2.st == .idle || p.2.st == .waiting) && s.img.commits.isEmpty && !s.splBusy && s.fld Reg.RED_STAT 4 1 == 0 && s.red.sw == 0

/-- A forced quiet point: the first instant at which nothing runs. -/
def rollbackForced (s : State) : State :=
  if s.mgt.upd.forced && s.mgt.upd.state == 4 && s.swapMode && s.nothingRuns then
    let at_ := form64 s.now
    (s.rollbackNow 5).almEvent 0x0103 15 0xFF at_
  else s

end State

end Sys2Proof.Machine
end

