-- ==== Sys2Proof/Machine/Power.lean ====
section
/-! DEFINITION. Supply valid, the power-up timeline and Configure (R33 to R37, R496, R498), the supply's loss and return, removal (R44, R47, R48, R504 to
R506, R519). -/
namespace Sys2Proof.Machine

namespace State

/-! ### Domains and the bank (R484 to R486) -/

/-- A bent can no longer be used (R34, R115, R485): marked, logged, gated off; its tasks end without commit. -/
def bentFailed (s : State) (m : Nat) : State :=
  let s := forEach (bentEngines m) (fun s e => match (s.eng e).task with | some k => s.stopRelease k | none => s) s
  let s := (s.setBent m { s.bent m with unusable := true, testReq := false }).mgtNote 0x0A m
  let s := (s.gateBent m).pdSwitch m false
  if (s.bentCfg m).assigned then s.dispatch (s.bentCfg m).owner else s

/-- A switched-on domain is outside its limit (R485). -/
def domainFailed (s : State) (d : Nat) : State :=
  let s := (s.bump (Reg.MGT_PDFAILCNT d) 1).setBit (Reg.MGT_PDSTAT d) 4 true
  let s := (s.setBit (Reg.MGT_PDSTAT d) 16 true).setBit Reg.MGT_STAT 16 true
  let s := (s.mgtNote 0x02 d).raise 1920 0xFFFF d
  if d < 64 then s.bentFailed d else s

/-- The bank's capacitance is measured, in 10 µF (R484). -/
def bankMeasured (s : State) (c : Nat) : State :=
  let was := s.fld Reg.MGT_STAT 1 1 == 1
  let low := decide (c < 380)
  let s := (s.wr Reg.MGT_BANK (c % 4096)).setBit Reg.MGT_STAT 1 low
  let s := s.setMgt { s.mgt with lastBank := s.mono }
  if low && !was then ((s.setBit Reg.MGT_STAT 17 true).mgtNote2 0x03).raise 1925 else s

/-- Every 24 h of operating time (R484). -/
def bankDaily (s : State) (c : Nat) : State :=
  if s.ms.mode = .backup ∨ !s.ms.begun then s else
  (s.advanceMono (s.mgt.lastBank + 86400 * secU)).bankMeasured c

/-! ### Table 2.3 -/

/-- A step is reached at an open instant within its time from supply valid, in ms. -/
def leanStep (s : State) (ms : Nat) : State :=
  let (v, s) := s.fresh
  s.advanceMono (s.ms.leanAt + v % (msec ms + 1))

/-- A self-test failure keeps the module in Lean (R34). -/
def leanFail (s : State) : State := s.setMs { s.ms with leanFailed := true }

/-- Recovery is entered (R496). -/
def enterRecovery (s : State) (c : RecovCause) : State :=
  let code := match c with | .strap => 0 | .bothSlots => 1 | .planeLoad => 2 | .planeLoadBent => 3
  let s := s.enterMode .recovery code
  (s.setMs { s.ms with recov := some c }).almEvent 0x0110 15 0xFF code

/-- A slot fails at the start: its record (Table 20.3 0x0013) and report (R61, R499). The spec gives an annex record that fails its tag no code. -/
def slotFailed (s : State) (k : Nat) (b : ScnBad) : State :=
  let (v, s) := s.fresh
  let code := if b.code = 0 then v % 256 else b.code
  let s := s.setSlot k { s.store.slots.get {} k with valid := false }
  (s.almEvent 0x0013 15 k code).scnRefused { b with code := code } true

/-- The module starts from the previous slot (R35). -/
def useSlotPrev (s : State) (k : Nat) : State :=
  let s := (s.setStore { s.store with cur := k }).setMs { s.ms with slotPrev := true }
  (s.followKeys.annexAll).almEvent 0x0012 15 k (s.slotBuild k)

/-- A start finds an unconfirmed mark (R494): the previous slot becomes current before anything is verified. -/
def revertAtStart (s : State) : State :=
  let k := s.store.recCur
  let s := s.setStore { s.store with cur := k }
  let x := s.store.slots.get {} k
  if x.confirmed then s else
  let s := s.setSlot k { x with confirmed := true }
  ((s.revertTo (1 - k)).updOutcome 6).setMs { s.ms with reverted := true }

/-- Recall and Configure begin (Table 2.3 steps 8 and 9). -/
def recallStep (s : State) (newBad : Bool) : State :=
  let s := (s.pdSet [79] true).enterMode .recall 0
  let (none_, s) := (s.leanStep 1400).nvsRecall newBad
  let s := (s.setMs { s.ms with noImage := none_ }).enterMode .configure 0
  s.pdSet [66] true

/-- Step 7 of Table 2.3 (R35, R496). -/
def slotStep (s : State) (newBad : Bool) : State :=
  let s := s.leanStep 1250
  if s.pw.strap then s.enterRecovery .strap else
  let s := s.revertAtStart
  let k := s.store.cur
  match s.slotCheck k with
  | none => (s.setSlot k { s.store.slots.get {} k with valid := true }).recallStep newBad
  | some b =>
    let s := s.slotFailed k b
    match s.slotCheck (1 - k) with
    | none => ((s.setSlot (1 - k) { s.store.slots.get {} (1 - k) with valid := true }).useSlotPrev (1 - k)).recallStep newBad
    | some b' => (s.slotFailed (1 - k) b').enterRecovery .bothSlots

/-- Step 6 (R46, R289, R471): STO mounts its regions and consumes the clean-shutdown marker; a restart that left it mounted finds it so. -/
def mountStep (s : State) : State :=
  let s := s.leanStep 900
  let s := if s.fld Reg.STO_STAT 0 1 = 1 then s else
    let s := if s.sto.cleanMark then s else (s.setBit Reg.STO_STAT 1 true).raise 519
    let s : State := { s with sto := { s.sto with cleanMark := false } }
    (s.setBit Reg.STO_STAT 0 true).winRegs
  s.almBegin

/-- Step 5 (R34): every bent is powered, tested and gated off; one that fails is unusable. -/
def bentStep (s : State) (bad : List Nat) : State :=
  let s := forEach (List.range 64) (fun s m =>
    let s := s.pdSwitch m true
    if bad.contains m then s.bentFailed m else s.pdSwitch m false) s
  s.leanStep 600

/-- The cause of this entry to Lean (Table 2.7): first power-up, incomplete Drain, removal request, power loss. -/
def leanCause (s : State) : Nat :=
  if s.fld Reg.TIM_CALSTAT 0 1 = 1 then 0 else if !s.sto.cleanMark then 2 else if s.ms.drainCause = 2 then 3 else 1

/-- The calendar as the backup domain left it (R380). -/
def calFound (s : State) (cal : Nat) : State :=
  if cal = 2 then
    let s := forEach ((List.range 8).map Reg.TIM_CALRAM ++ [Reg.TIM_CALCTL, Reg.TIM_CALOFF]) (fun s a => s.wr a (regReset a)) s
    (s.setCal 0).setBit Reg.TIM_CALSTAT 0 true
  else if cal = 1 then s.setBit Reg.TIM_CALSTAT 0 true
  else s

/-- Steps 1 to 9 of Table 2.3 from supply valid, or from the retry of Lean (R34). -/
def leanRun (s : State) (p : PowerUp) : State :=
  let s := s.setMs { s.ms with leanAt := s.mono, begun := true }
  let s := forEach ([76, 77, 78] : List Nat) (fun s d => s.setBit (Reg.MGT_PDSTAT d) 0 true) s
  let s := (s.pdSet [64, 65, 69, 70, 71, 72] true).bankMeasured p.bank
  let bad := p.failed.filter (fun d => decide (64 ≤ d) && decide (d < 80) && s.pdOn d)
  let s := forEach bad (fun s d => s.domainFailed d) s
  if !bad.isEmpty then s.leanFail else
  let s := (s.leanStep 30).timSeed
  let s : State := { s with mmu := { s.mmu with version := (s.mmu.version / 2 ^ 40 + 1) * 2 ^ 40 } }
  let s := (s.leanStep 280).leanStep 400
  if !p.storeOk then s.leanFail else
  ((s.bentStep p.badBents).mountStep).slotStep p.nvsBad

/-- Is the supply valid: input in range, the module seated, bus and bank charged (R33, R506)? -/
def supplyOk (s : State) (p : PowerUp) : Bool := s.pw.inputOk && s.pw.seated && decide (44000 ≤ p.busMv) && decide (47000 ≤ p.bankMv)

/-- What the supervisor saw at supply valid. -/
def supplySeen (s : State) (p : PowerUp) : State :=
  let s : State := { s with pw := { s.pw with busMv := p.busMv, bankMv := p.bankMv, strap := p.strap, outSince := none } }
  s.setBit Reg.MGT_STAT 3 p.strap

/-- SUPPLY_VALID: out of Backup, out of a Drain whose supply had been lost and has returned, or for a restart through Lean (Table 2.2). -/
def supplyValid (s : State) (p : PowerUp) : State :=
  let returned := s.ms.mode == .drain && s.ms.drainOver && s.ms.drainCause == 1
  let restart := s.ms.mode == .lean && !s.ms.begun && s.ms.cause != 0
  let first := s.ms.mode == .lean && !s.ms.begun && s.ms.cause == 0
  if !s.supplyOk p || !(s.ms.mode == .backup || returned || restart || first) then s else
  let s := s.advanceMono p.at_
  if restart then (s.supplySeen p).leanRun p else
  let s := if first then s.setMs { s.ms with mode := .backup } else s
  let s := s.calFound p.cal
  let c := s.leanCause
  let back := if returned then Mode.drain else Mode.backup
  let s := if returned then s.afterPower true false else s
  let s := ((s.setMs { s.ms with mode := back }).almPowerUp p.almBad).enterMode .lean c
  let s := s.setMs { s.ms with cause := c, drainCause := 0 }
  (s.supplySeen p).leanRun p

/-- LEAN_RETRY: the whole of Lean once more, 10 s after it failed (R34). -/
def leanRetry (s : State) (p : PowerUp) : State :=
  if s.ms.mode ≠ .lean ∨ !s.ms.leanFailed ∨ s.ms.leanRetried then s else
  let s := s.advanceMono (s.ms.leanAt + 10 * secU)
  let s := s.setMs { s.ms with leanFailed := false, leanRetried := true }
  s.leanRun p

/-! ### Configure (Table 2.3 steps 9 and 10) -/

/-- A line of a RETAIN image goes to DRAM under its seal (R37, R281). -/
def placeLine (s : State) (n va : Nat) (l : Line) : State :=
  match walk s.mmu n va with
  | .page _ e => if eState e = 1 then s.putLine (frameNo (eFrame e)) va l else s
  | .nothing => match s.allocPage n va true true with
    | (some f, s) => s.putLine f va l
    | (none, s) => s
  | _ => s

/-- An owner's RETAIN image is read from storage into DRAM, sector by sector; one that cannot be read comes back poisoned (R281, Table 12.2). -/
def retainLoad (s : State) (n : Nat) : State :=
  let c := s.cnst n
  let lines := (s.sto.ack.retain.filter (fun p => p.1 / 2 ^ 48 == n)).map (fun p => (p.1 % 2 ^ 48, p.2)) |>.filter (fun p =>
    decide (c.retBase ≤ p.1 * 64) && decide (p.1 * 64 < c.retBase + c.retSize))
  let sects := (lines.map (fun p => p.1 / 64)).eraseDups
  forEach sects (fun s q =>
    let (ok, s) := s.stoRead 7 (n * 2 ^ 42 + q) 4096
    if ok then forEach (lines.filter (fun p => p.1 / 64 == q)) (fun s p => s.placeLine n (p.1 * 64) p.2) s
    else
      let s := forEach (List.range 64) (fun s i => s.placeLine n ((q * 64 + i) * 64) { poison := true }) s
      ((s.bump (Reg.MMU_SECTFAIL n) 1).setBit (Reg.MMU_OSTAT n) 13 true).raise (424 + n)) s

/-- MMU unwraps an owner's data keys (R277). -/
def keysUnwrap (s : State) (n : Nat) : State :=
  let k := s.mmu.keys.get {} n
  if k.drawn && !k.copiesBad then
    ({ s with mmu := { s.mmu with keys := s.mmu.keys.insert n { k with ok := true } } } : State).setFld (Reg.MMU_OSTAT n) 0 2 1
  else (s.setFld (Reg.MMU_OSTAT n) 0 2 2).raise (432 + n)

/-- Why a slot's planes cannot be loaded (R56, R67, R234). -/
def slotPlane (s : State) (k : Nat) : Option ScnBad :=
  let x := s.store.slots.get {} k
  firstBad [need (x.bad == 0) x.bad, s.planeChecks x.bytes x.scn, need (x.annex.all (fun a => a.2.all (fun r => !r.bad))) 0]

/-- Each owner's memories: keys, RETAIN, CONST, program, rows, and its annex replayed. -/
def ownersLoad (s : State) : State :=
  forEach (ownerIdx.filter (fun n => s.ownerDef n)) (fun s n =>
    let s := (s.keysUnwrap n).retainLoad n
    let s := s.loadProgram n (s.cfg.prgm.get [] n)
    let s := (s.loadConst n).initRows n [0, 1, 2] 7
    ((s.splConfigure n).2).annexRegs n) s

/-- NVS once the regions are known (R69, R70, R461, R470). -/
def nvsSettle (s : State) : State :=
  let fmt := s.cfg.hdr.setfmt
  let s := if s.ms.noImage then s.nvsDefaults.setNvs { s.nvsDefaults.nvs with setfmt := fmt }
    else if s.ms.slotPrev || s.ms.reverted then s.nvsUnpark
    else s.nvsPark (1 - s.store.cur) fmt
  s.nvsDropPw

/-- The registers STO, MMU, SEQ and IMG set by the end of Configure. -/
def storeRegs (s : State) : State :=
  let s := ((s.wr Reg.STO_PAGSIZE s.cfg.part.pagTib).wr Reg.STO_ARCSIZE s.arcGiB).setBit Reg.STO_ACTL 0 true
  let s := (s.setBit Reg.STO_STAT 2 true).winRegs
  let s := ((s.setBit Reg.MMU_STAT 0 true).setBit Reg.SEQ_STAT 0 true).setBit Reg.IMG_STAT 0 true
  s.memRegs

/-- Every plane takes the current slot's settings; cyclic boundaries follow station time (R174, R176); the module is in Stop and the start policy runs. -/
def configured (s : State) : State :=
  let s : State := { s with cfg := s.curSlot.scn }
  let s := s.policyOwners.ownersLoad
  let s := forEach ownerIdx (fun s n =>
    if s.ownerDef n && s.fld (Reg.MMU_OSTAT n) 1 1 == 1 then s.setOwner n { st := .stopped } else s) s
  let s := ((s.bentsPlane {}).nvsSettle.planes {}).domainsPlane
  let s := s.timConfigure.wdgConfigure.nvsConfigure.mgtEngReset
  let s := forEach ownerIdx (fun s n => if s.ownerDef n then (s.poolRegs n).pubStop n else s) s.storeRegs
  let s := forEach ownerIdx (fun s n => if s.ownerDef n then s.ownerResume n else s) s
  let s := (s.almEvent 0x0001 15 0xFF s.ms.cause).enterMode .stop 0
  s.startPolicy s.cfg.mode.pupol

/-- CONFIGURE_COMPLETE: the planes are loaded from the slot verified, else from the previous one, else Recovery (R34, R67, Table 2.2). -/
def configureComplete (s : State) : State :=
  if s.ms.mode ≠ .configure then s else
  let s := s.leanStep 1950
  let k := s.store.cur
  match s.slotPlane k with
  | none => s.configured
  | some b =>
    let s := s.slotFailed k b
    let second : Option ScnBad := if s.ms.slotPrev then some { code := 0 } else
      (match s.slotCheck (1 - k) with | some e => some e | none => s.slotPlane (1 - k))
    match second with
    | none => (s.useSlotPrev (1 - k)).configured
    | some e =>
      let s := if s.ms.slotPrev then s else s.slotFailed (1 - k) e
      s.enterRecovery (if b.code = 0x41 ∨ e.code = 0x41 then .planeLoadBent else .planeLoad)

/-! ### Loss of supply (R44 to R48) -/

/-- The power-fail warning asserts: Drain, or the end of Lean, Recall or Recovery (R48). -/
def powerWarning (s : State) : State :=
  match s.ms.mode with
  | .backup => s
  | .drain => s
  | .lean | .recall | .recovery => s.powerOff
  | _ => (s.xferFail 7).enterDrain 1

/-- POWER_FAIL_WARNING: the input has been out of range for 10 ms (cause 0), or the 48 V bus has fallen to a voltage below 44 V (cause 1). -/
def powerFail (s : State) (cause busMv : Nat) : State :=
  if cause = 0 then
    match s.pw.outSince with
    | some t => (s.advanceMono (t + msec 10)).powerWarning
    | none => s
  else if busMv < 44000 then ({ s with pw := { s.pw with busMv := busMv } } : State).powerWarning
  else s

/-- SEATED_LOOP_BREAK (R44, R514, R517): with Drain complete and the safe LED lit the withdrawal goes on to Backup. -/
def seatedBreak (s : State) : State :=
  let s : State := { s with pw := { s.pw with seated := false } }
  if s.ms.mode = .drain ∧ s.ms.drainOver then s else s.powerWarning

/-- SUPPLY_LOSS_NO_DRAIN: the supply goes where no Drain is to be run, or a complete one left the module supplied (Table 2.2, R48, R517). -/
def supplyGone (s : State) : State :=
  let s' : State := { s with pw := { s.pw with inputOk := false, busMv := 0, bankMv := 0 } }
  match s.ms.mode with
  | .lean | .recall | .recovery => s'.powerOff
  | .drain => if s.ms.drainOver then s'.powerOff else s
  | _ => s

/-- MODULE_SEATED (R514). -/
def moduleSeated (s : State) : State := { s with pw := { s.pw with seated := true } }

/-- The acceptance window of the input in 0.1 V: lower, upper, hysteresis (Table 22.1). -/
def inputWindow (s : State) : Nat × Nat × Nat := if s.pw.variantL then (320, 820, 15) else (800, 3200, 30)

/-- STATION_INPUT_OUT_OF_RANGE with the voltage seen (R504); a voltage inside the window leaves it. -/
def inputOut (s : State) (v : Nat) : State :=
  let (lo, hi, _) := s.inputWindow
  if (lo ≤ v ∧ v ≤ hi) ∨ s.pw.inputOk = false then s else
  { s with pw := { s.pw with inputV := v, inputOk := false, outSince := some s.mono } }

/-- STATION_INPUT_IN_RANGE with the voltage seen (R504, R505): an interruption shorter than the ride-through leaves nothing behind. -/
def inputBack (s : State) (v : Nat) : State :=
  let (lo, hi, h) := s.inputWindow
  if s.pw.inputOk ∨ v < lo + h ∨ hi < v + h then s else
  { s with pw := { s.pw with inputV := v, inputOk := true, outSince := none } }

/-! ### Removal (R47, R519) -/

/-- REMOVAL_REQUEST: the switch has been held for this many ms. -/
def removalRequest (s : State) (held : Nat) : State :=
  if held < 100 then s else
  match s.ms.mode with
  | .backup => s
  | .lean | .recall | .recovery => s.setMs { s.ms with safeLed := true }
  | .drain => if s.ms.drainOver && decide (3000 ≤ held) && s.pw.inputOk then s.restartLean 5 false else s
  | .configure => s.enterDrain 2
  | _ =>
    if s.ms.active && s.partnerGood && s.ms.mode == .run && s.red.sw == 0 then
      let s := s.setMs { s.ms with removeWait := true, removeAt := s.mono }
      let s := s.setRed { s.red with removal := true }
      s.switchRequest 5 0
    else if s.ms.active && s.partnerGood && s.red.sw != 0 then
      (s.setMs { s.ms with removeWait := true, removeAt := s.mono }).setRed { s.red with removal := true }
    else (s.xferFail 7).enterDrain 2

/-- A mode set Drain is acted on (R47): an active member with a good standby hands over first. -/
def modeDrain (s : State) : State :=
  if s.ms.active && s.partnerGood && (s.ms.mode == .run || s.red.sw != 0) then
    let s := s.setMs { s.ms with removeWait := false, removeAt := s.mono }
    let s := s.setRed { s.red with removal := true }
    if s.red.sw = 0 then s.switchRequest 5 0 else s
  else (s.xferFail 7).enterDrain 3

/-- REMOVAL_CONFIRM_TIMEOUT: ROLE op 5 has not arrived within 150 ms of the press (R47): Drain as the active member. -/
def removalTimeout (s : State) : State :=
  if !s.red.removal ∨ s.ms.mode = .drain then s else
  let s := s.advanceMono (s.ms.removeAt + msec 150)
  let s := s.setMs { s.ms with noConfirm := true }
  s.enterDrain (if s.ms.removeWait then 2 else 3)

/-- STRAP_RELEASE (R498): where the strap was the only cause and a slot verifies, the module restarts through Lean. -/
def strapRelease (s : State) : State :=
  let s : State := { s with pw := { s.pw with strap := false } }
  let s := s.setBit Reg.MGT_STAT 3 false
  if s.ms.mode = .recovery ∧ s.ms.recov = some .strap ∧ ((s.slotCheck s.store.recCur).isNone ∨ (s.slotCheck (1 - s.store.recCur)).isNone) then
    let s := (s.lorEndAll (fun _ _ => true)).almEvent 0x0111 15 0xFF 1
    s.restartLean 6 true
  else s

/-- The restart after a commit in Recovery (R64, R498), once the commit has been answered. -/
def recoveryCommitted (s : State) : State :=
  let s := (s.lorEndAll (fun _ _ => true)).almEvent 0x0111 15 0xFF 0
  s.restartLean 4 true

/-! ### Sensors (R483) -/

/-- A crossing of a threshold is written to the management log; the spec gives no sensor numbers but those of the temperatures. -/
def crossing (s : State) (sensor : Option Nat) (src : Nat) : State :=
  let s := s.setBit Reg.MGT_STAT 17 true
  let s := match sensor with | some t => s.mgtNote 0x03 t | none => s.mgtNote2 0x03
  s.raise src 0xFFFF (sensor.getD 0)

/-- A value beyond a threshold fires once, and again only after it has come back by the hysteresis: the marks after it, and whether it fires. -/
def mark (l : List Nat) (id : Nat) (beyond back : Bool) : List Nat × Bool :=
  if beyond && !l.contains id then (id :: l, true)
  else if back then (l.filter (· != id), false)
  else (l, false)

/-- Warning, limit and hysteresis of temperature sensor t in 0.1 °C (Table 21.1). -/
def tempLimits (t : Nat) : Int × Int × Int :=
  if t < 16 then (1150, 1250, 50) else if t < 20 then (850, 950, 50) else if t < 23 then (750, 850, 50) else (800, 850, 30)

/-- One temperature. -/
def tempSample (s : State) (t : Nat) (v : Int) : State :=
  let (w, l, h) := tempLimits t
  let s := s.wr (Reg.MGT_TEMP t) (unsigned 16 v)
  let s := if t < 16 ∧ signed 16 (s.rd Reg.MGT_TEMPMAX) < v then s.wr Reg.MGT_TEMPMAX (unsigned 16 v + t * 65536) else s
  let (wl, wf) := mark s.mgt.warn t (decide (w < v)) (decide (v ≤ w - h))
  let (ll, lf) := mark s.mgt.limit t (decide (l < v)) (decide (v ≤ l - h))
  let s := s.setMgt { s.mgt with warn := wl, limit := ll }
  let s := if wf then s.crossing (some t) 1922 else s
  if lf then s.crossing (some t) 1923 else s

/-- Input power beyond a bound for 1 s (Table 21.1): `k` 0 warning, 1 limit. -/
def powerSample (s : State) (k bound v : Nat) : State :=
  let from_ : SMap Nat := if bound < v then (if (s.mgt.pinFrom.find? k).isSome then s.mgt.pinFrom else s.mgt.pinFrom.insert k s.mono)
    else s.mgt.pinFrom.erase k
  let long := match from_.find? k with | some t => decide (t + secU ≤ s.mono) | none => false
  let l := if k = 0 then s.mgt.warn else s.mgt.limit
  let (l', f) := mark l 25 long (decide (v + 100 ≤ bound))
  let m := { s.mgt with pinFrom := from_ }
  let s := s.setMgt (if k = 0 then { m with warn := l' } else { m with limit := l' })
  if f then s.crossing none 1924 else s

/-- The station input's recommended range in 0.1 V (Table 0.2). -/
def inputRange (s : State) : Nat × Nat := if s.pw.variantL then (360, 750) else (880, 3000)

/-- One domain's voltage. -/
def voltSample (s : State) (d mv : Nat) (sustained : Bool) : State :=
  let nom := Config.nominalMv d % 65536
  let s := s.wr (Reg.MGT_PDVOLT d) (mv % 65536 + nom * 65536)
  if !s.pdOn d then s else
  let dev := ((mv : Int) - nom).natAbs
  let (l, f) := mark s.mgt.limit (128 + d) (decide (nom < 20 * dev) && sustained) (decide (25 * dev ≤ nom))
  let s := s.setMgt { s.mgt with limit := l }
  if f then (s.setBit Reg.MGT_STAT 17 true).domainFailed d else s

/-- SENSOR_SAMPLE: every 1 ms (R483). -/
def sensorSample (s : State) (x : Sensors) : State :=
  if s.ms.mode = .backup then s else
  let s := s.advanceMono (s.mgt.sampled + msec 1)
  let s := s.setMgt { s.mgt with sampled := s.mono }
  let s := forEach (x.volts.filter (fun v => decide (v.1 < 80))) (fun s v => s.voltSample v.1 v.2 (x.sustained.contains v.1)) s
  let s := forEach ((x.temps.take 24).zipIdx) (fun s t => s.tempSample t.2 t.1) s
  let s := s.setBit Reg.MGT_STAT 2 (((x.temps.take 24).zipIdx).any (fun t => decide ((tempLimits t.2).1 < t.1)))
  let s := ((s.wr Reg.MGT_VIN (x.vin % 4096)).wr Reg.MGT_IIN (x.iin % 65536)).wr Reg.MGT_PIN (x.pin % 8192)
  let s := (s.maxReg Reg.MGT_PINMAX (x.pin % 8192)).wr Reg.MGT_V48 (x.v48 % 8192)
  let s : State := { s with pw := { s.pw with inputV := x.vin, busMv := x.v48 * 10 } }
  let (lo, hi) := s.inputRange
  let (l, f) := mark s.mgt.limit 24 (decide (x.vin < lo) || decide (hi < x.vin)) (decide (lo * 101 ≤ x.vin * 100) && decide (x.vin * 100 ≤ hi * 99))
  let s := s.setMgt { s.mgt with limit := l }
  let s := if f then s.crossing none 1924 else s
  let s := (s.powerSample 0 3600 x.pin).powerSample 1 3900 x.pin
  let (w, f) := mark s.mgt.warn 26 (decide (x.v48 < 4600)) (decide (4650 ≤ x.v48))
  let s := s.setMgt { s.mgt with warn := w }
  if f then s.crossing none 1924 else s

/-! ### The management log's port and restore-factory (R488, R500, R501) -/

/-- The 32 bytes of a management-log entry (R487). -/
def mgtBytesOf (e : MgtEntry) : List Byte :=
  let b := leBytes 8 e.time ++ leBytes 4 e.num ++ leBytes 2 e.code ++ leBytes 2 e.arg ++ leBytes 12 e.det
  b ++ leBytes 4 (crc32 b)

/-- A write of MGT_LOGSEL: the selected entry's words, or SELBAD. -/
def logSelect (s : State) (num : Nat) : State :=
  let s := s.wr Reg.MGT_LOGSEL num
  let found : Option MgtEntry := match s.sto.ack.mlog.find? (num % 4096) with | some e => if e.num = num then some e else none | none => none
  let ws : List Nat := match found with
    | some e => (List.range 8).map (fun w => field (mgtBytesOf e) (4 * w) 4)
    | none => List.replicate 8 0
  let s := s.setBit Reg.MGT_LOGSTAT 0 found.isNone
  forEach ws.zipIdx (fun s w => s.wr (Reg.MGT_LOGDATA w.2) w.1) s

/-- The outcome of a restore-factory request (R500). -/
def factOutcome (s : State) (code : Nat) : State :=
  let s := (s.setFld Reg.MGT_FACTSTAT 8 8 code).setBit Reg.MGT_FACTSTAT 16 true
  let (v, s) := s.fresh
  s.mgtLog 0x09 (v % 65536) code

/-- MGT_FACTCMD.GO (R500): the checks in their order. -/
def factGo (s : State) : State :=
  if s.fld Reg.MGT_FACTSTAT 0 1 = 1 then s
  else if s.ms.mode ≠ .stop then s.factOutcome 2
  else
    let r := s.cfg.mode.factreg
    if r = 255 ∨ !(s.region r).defined ∨ (s.region r).owner ≠ 0 then s.factOutcome 3
    else if s.nvs.locked.contains r then s.factOutcome 5
    else match s.pwTry r true (s.rd64 Reg.MGT_FACTPWD) with
      | (true, s) => s.setBit Reg.MGT_FACTSTAT 0 true
      | (false, s) => s.factOutcome 4

/-- RESTORE_FACTORY_DONE: within 1 ms the user calibration is erased (R501). -/
def factDone (s : State) : State :=
  if s.fld Reg.MGT_FACTSTAT 0 1 = 0 then s else
  let (v, s) := s.fresh
  let s := s.advance (s.now + v % (msec 1 + 1))
  let s := s.setNvs { s.nvs with sys := { s.nvs.sys with dthr := [], trimG := [], trimO := [], ocxo := 0 } }
  let s := forEach s.cfg.ach (fun s p => (s.wr (Reg.FIO_ATRIMG p.1) 0).wr (Reg.FIO_ATRIMO p.1) 0) s
  let s := forEach ([0, 1, 2, 3] : List Nat) (fun s g => s.wr (Reg.FIO_DTHR g) (dthrFactory (bit s.cfg.part.grpv g))) s
  let s := (s.setBit Reg.MGT_FACTSTAT 0 false).factOutcome 1
  s.almEvent 0x0120 15 0 0

end State

end Sys2Proof.Machine
end

