-- ==== Sys2Proof/Machine/Hold.lean ====
section
/-! DEFINITION. The ends of Hold and Held (R449, R450) and mode sets (R30, R50, R527). -/
namespace Sys2Proof.Machine

namespace State

/-- HOLDWIN as an instant difference (Table 19.4). -/
def holdWin (s : State) : Nat := (if s.cfg.mode.holdwin = 0 then 3600 else s.cfg.mode.holdwin) * secU

/-- HOLDQ as an instant difference. -/
def holdQ (s : State) : Nat := msec (if s.cfg.mode.holdq = 0 then 1000 else s.cfg.mode.holdq)

/-- An owner's quiet period and allowance (Table 19.4). -/
def ownerQ (s : State) (n : Nat) : Nat × Nat :=
  let (q, a) := s.cfg.mode.oquiet.get (0, 0) n
  (msec (if q = 0 then 1000 else q), a)

/-- Exits in the window that ends now (R449). -/
def exitsIn (s : State) (l : List Nat) : List Nat := l.filter (fun e => decide (s.mono < e + s.holdWin))

/-- The device leaves Hold for the mode it was held from (R176, R449); while its partner is active it joins it in the same instant (R250). -/
def holdReturn (s : State) : State :=
  let to_ := s.ms.heldFrom.getD .run
  let s := s.enterMode to_ 0
  let s := s.setMs { s.ms with heldFrom := none }
  if s.partnerActive && (to_ == .run || to_ == .shadow) then s.joinPair else s.resumeAll

/-- The recovery allowance is exceeded: Stop (R449). -/
def holdLimit (s : State) : State :=
  let s := s.deviceStop 0
  let s := s.setMs { s.ms with heldFrom := none }
  ((s.setBit Reg.MGT_MODE 16 true).setBit Reg.FLT_STAT 19 true).raise 1409

/-- HOLD_QUIET_EXPIRY (R449). -/
def holdExpiry (s : State) : State :=
  if s.ms.mode ≠ .hold then s else
  let s := s.advanceMono (s.flt.quietFrom + s.holdQ)
  let l := s.mono :: s.exitsIn s.flt.exits
  let s := s.setFlt { s.flt with exits := l }
  if l.length ≤ s.cfg.mode.holdalw then (s.bump Reg.FLT_RECOVCNT 1).holdReturn else s.holdLimit

/-- OWNER_QUIET_EXPIRY (R450): a warm start of the owner begins, within the bounds of R38 (R43), or the owner goes to Stopped. -/
def ownerExpiry (s : State) (n : Nat) : State :=
  if (s.owner n).st ≠ .held ∨ (s.owner n).startPend.isSome then s else
  let (q, alw) := s.ownerQ n
  let s := s.advanceMono (s.flt.oquietFrom.get 0 n + q)
  let l := s.mono :: s.exitsIn (s.flt.oexits.get [] n)
  let s := s.setFlt { s.flt with oexits := s.flt.oexits.insert n l, oquietFrom := s.flt.oquietFrom.erase n }
  let s := s.bump (Reg.FLT_ORECOV n) 1
  if l.length ≤ alw then (if s.startable n then s.setOwner n { s.owner n with startPend := some false, startFrom := s.now } else s) else (s.ownerStop n).raise (1424 + n)

/-- A mode set that Table 2.2 allows is carried out. -/
def modePerform (s : State) (target kind : Nat) : State :=
  if target = 5 then (if s.ms.mode = .stop then s.dropStart else s.deviceStop 0)
  else if target = 6 then s.startDevice (kind == 2) false
  else if target = 8 then s.enterTest
  else s.modeDrain

/-- A write of MGT_MODECMD (R50, Table 2.8). -/
def modeCmd (s : State) (target kind : Nat) : State :=
  if modeKindOk target kind && s.modeSetOk target then s.modePerform target kind else s.cmdRej

/-- OWNER_START: an owner's start command completes at an instant within the bounds of R38 (R43). -/
def ownerStartDone (s : State) (n t : Nat) : State :=
  match (s.owner n).startPend with
  | none => s
  | some cold => (s.advance (min t ((s.owner n).startFrom + msec (if cold then 200 else 20)))).ownerStartNow n cold

/-- RUN_START: the preparation of a pending start completes at an instant; a start whose partner is active joins it instead (R38, R40, R240). -/
def runStartAt (s : State) (t : Nat) : State :=
  match s.ms.startPend with
  | none => s
  | some cold =>
    if s.ms.mode ≠ .stop then s else
    let s := s.advance (min t (s.ms.startFrom + msec (if cold then 200 else 20)))
    match s.startPath with
    | 0 => s.runStart cold
    | 2 => s.joinPair
    | _ => s

end State

end Sys2Proof.Machine
end

