-- ==== Sys2Proof/Machine/SplCmd.lean ====
section
/-! DEFINITION. Splice commands and their instants, alone and in a pair (R222 to R233). A command answers with a Lorat status and detail, or with none
while it waits for the standby. -/
namespace Sys2Proof.Machine

namespace State

/-- The refusal of Table 9.5 (R222): SPL_STAT.CODE and the status SPLREF. -/
def splRef! (s : State) (n code : Nat) : Option (Nat × Nat) × State := (some (0x0B, code), s.splRefuse n code)

/-- A pair splice message (Table 10.3 SPLICE). -/
def splMsg (s : State) (n op code e : Nat) : State := s.redSend 0x09 [op, code, n, form64 e]

/-- The owner's standby is there to be asked. -/
def splPaired (s : State) : Bool := s.ms.paired && s.ms.active && s.red.pMode == 7

/-- The chunk that completes the package (R222, R223): on the active member of a pair the package is forwarded and the answer waits. -/
def splWhole (s : State) (n k seq : Nat) : Option (Nat × Nat) × State :=
  let b := (s.splice n).buf
  let c := s.splEnd n b
  if c ≠ 0 then let (r, s) := s.splRef! n c; (r, s.splDrop n)
  else if s.splPaired then
    let s := (s.redSend 0x13 (n :: 0 :: b.map (·.toNat))).splMsg n 1 0 0
    (none, s.setSplice n { s.splice n with waitPair := some (k, seq) })
  else (some (0, 0), s.splAccept n b)

/-- A chunk of a load (R222, R351) from session `k`. -/
def splChunk (s : State) (n k seq off : Nat) (bytes : List Byte) : Option (Nat × Nat) × State :=
  let loading := s.splSt n = 1
  if off = 0 ∨ (loading ∧ (s.splice n).session = k ∧ (s.splice n).waitPair.isNone ∧ off = (s.splice n).buf.length) then
    if off = 0 ∧ loading ∧ (s.splice n).session ≠ k then (some (9, (s.splice n).session), s) else
    if off = 0 ∧ 2 ≤ s.splSt n then s.splRef! n 5 else
    let old := if off = 0 then [] else (s.splice n).buf
    let buf := old ++ bytes
    let s := (s.setSplice n { buf := buf, session := k, lastAt := s.mono }).setSplSt n 1
    let hdr := if old.length < 128 ∧ 128 ≤ buf.length then s.splHeader n buf false else 0
    if hdr ≠ 0 then let (r, s) := s.splRef! n hdr; (r, s.splDrop n)
    else if buf.length < 128 then (some (0, 0), s)
    else
      let tot := field buf 0x20 4
      if tot < buf.length then let (r, s) := s.splRef! n 0x10; (r, s.splDrop n)
      else if buf.length < tot then (some (0, 0), s)
      else s.splWhole n k seq
  else (some (0x0F, if loading then (s.splice n).buf.length else 0), s)

/-- No chunk for 10 s (R351). -/
def splLoadTimeout (s : State) (n : Nat) : State :=
  if s.splSt n = 1 then (s.advanceMono ((s.splice n).lastAt + 10 * secU)).splDrop n else s

/-! ### Cycles (R225, R226, R229) -/

/-- The bound in ns of what is armed or rolling back. -/
def splBoundNow (s : State) (n : Nat) : Nat := if s.splSt n = 5 then (s.splPkg n).rbBound else (s.splPkg n).bound

/-- The reference task's first boundary at or after an instant: the epoch a pair nominates. -/
def splEpoch (s : State) (n t : Nat) : Nat := s.nextBoundary (s.splRef n) (t - 1)

/-- The active member nominates a cycle at least 1 ms ahead (R229). -/
def splNominate (s : State) (n from_ : Nat) : State :=
  let e := s.splEpoch n (from_ + msec 1)
  (s.setSplice n { s.splice n with nomE := some e, mine := none, his := none }).splMsg n 4 0 e

/-- An apply or rollback is armed (R225, R229, R231). -/
def splArm (s : State) (n : Nat) : State := if s.splPaired then s.splNominate n s.now else s

/-- SPL_APPLY (R226). `own` says that the requester may give the command. -/
def splApply (s : State) (n : Nat) (own : Bool) : Option (Nat × Nat) × State :=
  if s.splSt n ≠ 2 then s.splRef! n 0x21
  else if !own then s.splRef! n 0x22
  else
    let s := s.setSplice n { s.splice n with cmdAt := s.now, cmdMono := s.mono, nomE := none, mine := none, his := none, cause := 0 }
    let s := ((s.setSplSt n 3).wr (Reg.SPL_TRIES n) 0).splArm n
    (some (0, 0), s)

/-- SPL_CONFIRM (R230, R233). -/
def splConfirm (s : State) (n : Nat) (own : Bool) : Option (Nat × Nat) × State :=
  if s.splSt n ≠ 4 ∨ (s.splice n).winEnd ≤ s.mono then s.splRef! n 0x21
  else if !own then s.splRef! n 0x22
  else
    let s := if s.splPaired then s.splMsg n 7 0 0 else s
    (some (0, 0), s.splConfirmNow n)

/-- SPL_ROLLBACK (R224, R231, R233). -/
def splRollback (s : State) (n : Nat) (own : Bool) : Option (Nat × Nat) × State :=
  let st := s.splSt n
  if st ≠ 2 ∧ st ≠ 3 ∧ st ≠ 4 then s.splRef! n 0x21
  else if !own then s.splRef! n 0x22
  else
    let s := if s.splPaired then s.splMsg n 8 0 0 else s
    if st = 4 then (some (0, 0), ((s.splSeek n 1).splArm n)) else (some (0, 0), s.splUndo n)

/-- The instant of the cycle now tried, and its epoch: the nominated one in a pair, else the reference's latest release at or after the command. -/
def splTarget (s : State) (n : Nat) : Option (Nat × Nat) :=
  match (s.splice n).nomE with
  | some e => some (e, s.nextBoundary (s.splRef n) e - nsec (s.splBoundNow n))
  | none =>
    let (e, a) := s.splCycle n (s.splBoundNow n)
    if !s.isStandby && (s.task (s.splRef n)).everRel && decide ((s.splice n).cmdAt ≤ e) && decide (s.now ≤ a) then some (e, a) else none

/-- Both members have reported on a nominated cycle (R229). -/
def splOutcome (s : State) (n : Nat) : State :=
  let x := s.splice n
  match x.mine, x.his with
  | some (e, a), some (e', b) =>
    if e ≠ e' then s
    else if a ≠ b then
      let s := (s.setBit (Reg.SPL_STAT n) 21 true).stopStandby 2
      s.setSplice n { s.splice n with nomE := none, mine := none, his := none }
    else if a then s.setSplice n { x with nomE := none, mine := none, his := none }
    else s.splNominate n e
  | _, _ => s

/-- What a member did at a nominated cycle is reported. -/
def splReport (s : State) (n e : Nat) (did : Bool) : State :=
  if !s.ms.paired ∨ (s.splice n).nomE.isNone then s else
  let s := s.splMsg n (if did then 5 else 6) 0 e
  let s := s.setSplice n { s.splice n with mine := some (e, did) }
  if s.ms.active then s.splOutcome n else s.setSplice n { s.splice n with nomE := none, mine := none }

/-- SPLICE_APPLY_INSTANT: a_E of the cycle tried (R225 to R227). -/
def splApplyAt (s : State) (n : Nat) : State :=
  if s.splSt n ≠ 3 then s else
  match s.splTarget n with
  | none => s
  | some (e, a) =>
    let s := (s.advance a).splTry n
    if s.splUsable n a then (s.splDo n).splReport n e true else s.splReport n e false

/-- 10 s pass without a usable cycle (R226): code 0x20, and the splice is loaded again. -/
def splApplyTimeout (s : State) (n : Nat) : State :=
  if s.splSt n ≠ 3 then s else
  let s := (s.advanceMono ((s.splice n).cmdMono + 10 * secU)).splRefuse n 0x20
  (s.setSplSt n 2).setSplice n { s.splice n with nomE := none, mine := none, his := none }

/-- The confirm window ends unconfirmed (R231). -/
def splExpire (s : State) (n : Nat) : State :=
  if s.splSt n ≠ 4 then s else
  ((s.advanceMono (s.splice n).winEnd).splSeek n 2).splArm n

/-- SPLICE_ROLLBACK_INSTANT: the rollback's instant in the cycle tried (R231, R232). -/
def splRollbackAt (s : State) (n : Nat) : State :=
  if s.splSt n ≠ 5 ∨ (s.splice n).forcing then s else
  match s.splTarget n with
  | none => s
  | some (e, a) =>
    let s := (s.advance a).splTry n
    if s.splUsable n a then
      let c := (s.splice n).cause
      let x := s.splice n
      let s := s.splBack n c
      let s := s.setSplice n { nomE := x.nomE, his := x.his }
      let s := s.splReport n e true
      if (s.splice n).nomE.isSome ∧ s.ms.active then s else s.setSplice n {}
    else s.splReport n e false

/-- No usable cycle for 10 s (R231): SEQ stops releasing the targets; `settle` rolls back once they are idle. -/
def splForce (s : State) (n : Nat) : State :=
  if s.splSt n ≠ 5 ∨ (s.splice n).forcing then s else
  let s := s.advanceMono ((s.splice n).cmdMono + 10 * secU)
  s.setSplice n { s.splice n with forcing := true, nomE := none }

/-- Forced rollbacks whose targets are all idle are carried out (R231). -/
def splForcedDue (s : State) : State :=
  forEach ownerIdx (fun s n =>
    if (s.splice n).forcing && s.splSt n == 5 && (s.splPkg n).targets.all (fun t => !s.unfinished t.task) then s.splBack n 6 else s) s

/-! ### Pair messages (Table 10.3 SPLICE, PKG) -/

/-- A package chunk forwarded by the active (PKG). -/
def splPkgRx (s : State) (n off : Nat) (bytes : List Byte) : State :=
  if 8 ≤ n ∨ !s.isStandby then s else
  let old := if off = 0 then [] else (s.splice n).buf
  if off ≠ old.length ∨ (off = 0 ∧ 2 ≤ s.splSt n) then s else
  (s.setSplice n { buf := old ++ bytes, session := 8, lastAt := s.mono }).setSplSt n 1

/-- The standby runs the same checks on the forwarded package (R223). -/
def splStored (s : State) (n : Nat) : State :=
  if s.splSt n ≠ 1 then s.splMsg n 3 5 0 else
  let b := (s.splice n).buf
  let c := if s.splHeader n b true ≠ 0 then s.splHeader n b true else if b.length ≠ field b 0x20 4 then 0x10 else s.splEnd n b
  if c = 0 then (s.splAccept n b).splMsg n 2 0 0 else ((s.splRefuse n c).splDrop n).splMsg n 3 c 0

/-- The standby's answer to a forwarded package: accepted, or code 0x1A (R222). -/
def splAnswered (s : State) (n : Nat) (ok : Bool) : State :=
  match (s.splice n).waitPair with
  | none => s
  | some (k, seq) =>
    let b := (s.splice n).buf
    let s := if ok then s.splAccept n b else (s.splRefuse n 0x1A).splDrop n
    if !s.sessLive k then s
    else if ok then s.lorAnswer k seq 0x60 0 0 (leBytes 4 b.length) else s.lorAnswer k seq 0x60 0x0B 0x1A []

/-- A SPLICE message; E in the 64-bit form. -/
def spliceRx (s : State) (op code n eForm : Nat) : State :=
  let e := eForm * 65536
  if 8 ≤ n then s
  else if op = 1 then (if s.isStandby then s.splStored n else s)
  else if op = 2 then (if s.ms.active then s.splAnswered n true else s)
  else if op = 3 then (if s.ms.active then s.splAnswered n false else s)
  else if s.isStandby then
    if op = 4 then
      let st := s.splSt n
      if st = 2 ∨ st = 3 ∨ st = 5 then
        let s := if st = 2 then
            let s := s.setSplice n { s.splice n with cmdAt := s.now, cmdMono := s.mono, cause := 0 }
            (s.setSplSt n 3).wr (Reg.SPL_TRIES n) 0
          else s
        s.setSplice n { s.splice n with nomE := some e, mine := none }
      else s
    else if op = 7 then (if s.splSt n = 4 then s.splConfirmNow n else s)
    else if op = 8 then
      (if s.splSt n = 4 then s.splSeek n (if code = 0 then 1 else code)
       else if s.splSt n = 2 ∨ s.splSt n = 3 then s.splUndo n else s)
    else s
  else if op = 5 ∨ op = 6 then
    (s.setSplice n { s.splice n with his := some (e, op == 5) }).splOutcome n
  else s

end State

end Sys2Proof.Machine
end

