-- ==== Sys2Proof/Machine/Flt.lean ====
section
/-! DEFINITION. FLT's reactions (R438, R441, R442, R445): what the sources fired in a step bring about. -/
namespace Sys2Proof.Machine

/-- Order of firings: instant, then source. -/
def firingBefore (a b : Firing) : Bool := decide (a.at_ < b.at_) || (a.at_ == b.at_ && decide (a.src < b.src))

/-- Insert a firing in order; a forced and a real firing of one source in one instant count as one, forced (R443). -/
def insertFiring (x : Firing) : List Firing → List Firing
  | [] => [x]
  | y :: ys =>
    if y.at_ = x.at_ ∧ y.src = x.src ∧ y.forced ≠ x.forced then { (if x.forced then y else x) with forced := true } :: ys
    else if firingBefore x y then x :: y :: ys
    else y :: insertFiring x ys

/-- The firings of one instant, and the rest. -/
def sameInstant (t : Nat) (l : List Firing) : List Firing × List Firing := (l.filter (fun f => f.at_ == t), l.filter (fun f => f.at_ != t))

namespace State

/-- Does the mode allow a reaction of Table 19.2? -/
def reactionAllowed (s : State) (f : Firing) : Bool :=
  let c := s.srcCfg f.src
  let m := s.ms.mode
  match c.react with
  | 1 => s.releasable (s.srcOwner f.src)
  | 2 => (s.owner (s.srcOwner f.src)).st == .running || (s.owner (s.srcOwner f.src)).st == .held
  | 3 => m == .run || m == .shadow || m == .test || m == .hold
  | 4 => m == .run || m == .shadow || m == .test || m == .hold
  | 5 => m == .stop || m == .run || m == .shadow || m == .test || m == .hold || m == .handover
  | _ => true

/-- Reaction 3, device Hold, or the restart of its quiet period. -/
def reactHold (s : State) : State :=
  if s.ms.mode = .hold then s.setFlt { s.flt with quietFrom := s.mono } else s.deviceHold

/-- Reaction 4: a planned switch-over without its lead; in every other case as device Hold. -/
def reactSwitch (s : State) : State :=
  if s.ms.active && s.ms.mode == .run && s.partnerGood then (if s.red.sw = 0 then s.switchRequest 6 0 else s) else s.reactHold

/-- Reaction 5: reset now, or at the end of Handover. -/
def reactReset (s : State) : State :=
  if s.ms.mode = .handover then s.setMs { s.ms with resetDue := true } else s.resetDevice

/-- Reaction 2 for one owner: to Held, or the restart of its quiet period. -/
def reactOwner (s : State) (n : Nat) : State :=
  if (s.owner n).st = .held then s.setFlt { s.flt with oquietFrom := s.flt.oquietFrom.insert n s.mono } else s.ownerHeld n

/-- The reactions of the firings of one instant but event tasks: the strongest (R442). -/
def reactBatch (s : State) (l : List Firing) : State :=
  let ok := l.filter (fun f => s.reactionAllowed f)
  let has (k : Nat) : Bool := ok.any (fun f => (s.srcCfg f.src).react == k)
  if has 5 then s.reactReset
  else if has 4 then s.reactSwitch
  else if has 3 then s.reactHold
  else
    let s := if s.ms.mode = .hold ∧ l.any (fun f => (s.srcCfg f.src).cls == 4) then s.reactHold else s
    let owners := (ok.filter (fun f => (s.srcCfg f.src).react == 2)).map (fun f => s.srcOwner f.src)
    forEach owners.eraseDups (fun s n => s.reactOwner n) s

/-- A firing opens the archive windows of its owner's trigger entries of KIND 3 (R296, Table 12.4). -/
def faultTriggers (s : State) (f : Firing) : State :=
  let n := s.srcOwner f.src
  forEach (s.cfg.trigs.get [] n) (fun s t =>
    if t.kind = 3 ∧ t.cls ≤ (s.srcCfg f.src).cls then s.trigger n (form64 f.at_) t.pre t.post else s) s

/-- A firing's event-task reaction, in the mode that the instant's other reactions left (R442); then its history entry (R445). -/
def reactTask (s : State) (f : Firing) (allowed : Bool) : State :=
  let c := s.srcCfg f.src
  let ok := if c.react = 1 then s.reactionAllowed f else allowed
  let s := if c.react = 1 ∧ ok then s.postEvent c.task f.at_ else s
  let s := if s.ms.mode = .drain ∧ 3 ≤ c.react ∧ c.react ≤ 5 ∧ !ok then s.mgtNote2 0x05 else s
  let (storm, s) := s.logFiring f (!ok)
  if storm then { s with raised := s.raised ++ [{ src := 1408, at_ := f.at_ }] } else s

/-- The firings of one instant are counted, act, and are logged in ascending source number. -/
def takeInstant (s : State) (l : List Firing) : State :=
  let s := forEach l (fun s f => (s.countFiring f).faultTriggers f) s
  let allowed := l.map (fun f => s.reactionAllowed f)
  let s := s.reactBatch l
  forEach (l.zip allowed) (fun s f => s.reactTask f.1 f.2) s

/-- FLT takes the firings raised so far, instant by instant. -/
def takeFirings (s : State) : State :=
  match s.raised.foldl (fun l f => insertFiring f l) [] with
  | [] => s
  | f :: rest =>
    let (now_, later) := sameInstant f.at_ (f :: rest)
    let s : State := { s with raised := later }
    s.takeInstant now_

end State

end Sys2Proof.Machine
end

