-- ==== Sys2Proof/Machine/Views.lean ====
section
/-! DEFINITION. What a register shows: registers that the rest of the state gives (status words, configuration as it stands), items the scantling does not
define, and the stored rest. -/
namespace Sys2Proof.Machine

namespace State

/-! ### MGT -/

/-- MGT_SCNSTAT (Table 3.7). -/
def scnStat (s : State) : Nat :=
  let x := s.store
  let load := match x.load with | some l => !l.verified | none => false
  let pend := match x.load with | some l => l.verified | none => false
  let keys := ownerIdx.foldl (fun a n => a + b2n (x.serials.find? n).isSome * 2 ^ n) 0
  let win := s.mgt.upd.state == 3 && decide (s.mono < s.mgt.upd.winEnd)
  b2n s.curSlot.valid + b2n s.prevSlot.valid * 2 + b2n load * 4 + b2n pend * 8 + b2n win * 16 + x.plane % 2 * 32 +
  b2n (x.slots.any (fun p => p.2.parked.isSome)) * 64 + keys * 256 + s.curSlot.scn.vbas.keyIdx % 4 * 65536 + x.secMin % 256 * 2 ^ 24

/-- Unusable bents (MGT_UNUSABLE). -/
def unusableMask (s : State) : Nat := s.bents.foldl (fun a b => if b.2.unusable then a + 2 ^ b.1 else a) 0

/-- Bits 1 to 3 of MGT_PDSTAT (Table 21.8). -/
def pdView (s : State) (d : Nat) : Nat :=
  let c := s.bentCfg d
  let on := s.ms.mode == .stop || s.ms.mode == .run || s.ms.mode == .shadow || s.ms.mode == .test || s.ms.mode == .hold || s.ms.mode == .handover
  let gated := decide (d < 64) && c.assigned && on && !(s.bent d).awake && !(s.bent d).unusable
  putBits (s.rd (Reg.MGT_PDSTAT d)) 1 3 (b2n (s.pdUsed d) + b2n gated * 2 + b2n (decide (d < 64) && c.keepWarm) * 4)

/-- The MGT block's computed registers. -/
def viewMgt (s : State) (h : RegHit) : Option Nat :=
  let b := h.desc.base
  if b = Reg.MGT_MODE then some s.modeWord
  else if b = Reg.MGT_OWNSTATE then some s.ownWord
  else if b = Reg.MGT_SCNSTAT then some s.scnStat
  else if b = Reg.MGT_SCNBUILD then some s.curSlot.scn.hdr.buildid
  else if b = Reg.MGT_SCNBUILD_H then some (s.curSlot.scn.hdr.buildid / 2 ^ 32)
  else if b = Reg.MGT_SCNPBUILD then some s.prevSlot.scn.hdr.buildid
  else if b = Reg.MGT_SCNPBUILD_H then some (s.prevSlot.scn.hdr.buildid / 2 ^ 32)
  else if b = Reg.MGT_SCNSETFMT then some s.nvs.setfmt
  else if b = Reg.MGT_SERIAL then some s.store.serial
  else if b = Reg.MGT_SERIAL_H then some (s.store.serial / 2 ^ 32)
  else if b = Reg.MGT_VARIANT then some (b2n s.pw.variantW * 2 + b2n s.pw.variantL)
  else if b = Reg.MGT_UNUSABLE then some s.unusableMask
  else if b = Reg.MGT_UNUSABLE_H then some (s.unusableMask / 2 ^ 32)
  else if b = Reg.MGT_UPDLEFT then some (if s.mgt.upd.state = 3 then (s.mgt.upd.winEnd - s.mono) / secU else 0)
  else if b = Reg.MGT_STAT then some (putBits (s.rd Reg.MGT_STAT) 0 1 (b2n s.mgtEngRuns))
  else if b = Reg.MGT_PDSTAT 0 then some (s.pdView h.i)
  else none

/-! ### ENG -/

/-- ENG_STAT (Table 4.13). -/
def engStat (s : State) (e : Nat) : Nat :=
  let x := s.eng e
  let st := if (s.bent (e / 4)).unusable then 4 else if s.bentTesting (e / 4) then 3
    else if x.stall != .none then 2 else if x.running then 1 else 0
  let (t, v) := match x.task with | some k => (k, true) | none => (0, false)
  st + b2n (s.leanRegime e) * 8 + (s.bentCfg (e / 4)).owner % 8 * 16 + x.ctx.stack.length % 32 * 128 + x.ctx.rstack.length % 64 * 4096 +
  t % 512 * 2 ^ 18 + b2n v * 2 ^ 27

/-- ENG_PC (Table 4.14). -/
def engPcView (s : State) (e : Nat) : Nat := pcForm (s.eng e).ctx.pc + b2n (s.eng e).running * 2 ^ 31

/-! ### SEQ and rings -/

/-- SEQ_TCFG (Table 7.9). -/
def tcfgWord (c : TaskRec) : Nat :=
  b2n c.defined + b2n c.event * 2 + c.prio % 32 * 4 + c.owner % 8 * 128 + b2n c.det * 1024 + b2n c.waits * 2048 + b2n c.start * 4096 +
  c.allow % 16 * 8192 + c.bkind % 8 * 2 ^ 17 + c.edge % 4 * 2 ^ 20 + c.bspace % 4 * 2 ^ 22

/-- SEQ_TSTAT (Table 7.9). -/
def tstatWord (s : State) (k : Nat) : Nat :=
  let x := s.task k
  let n := (s.taskCfg k).owner
  let st := match x.st with
    | .idle => if s.releasable n then 0 else 5
    | .ready => 1 | .running => 2 | .preempted => 3 | .waiting => 4
  let eng := if x.st == .running then x.eng.getD 0 else 0
  let (wk, we) := match x.wait with
    | some w => if x.st == .waiting then (w.kind % 8, s.waitExternal w) else (0, false)
    | none => (0, false)
  st + b2n x.pend.isSome * 8 + eng % 256 * 16 + min 31 x.consec * 4096 + wk * 2 ^ 17 + b2n we * 2 ^ 20

/-- SEQ_OSTAT (Table 7.11); MWNEW is kept in the register. -/
def ostatWord (s : State) (n : Nat) : Nat :=
  let ready := ((s.tasksOf n).filter (fun k => (s.task k).st == .ready)).length
  s.poolEngines n % 512 + ready % 1024 * 512 + b2n (s.mutualWait n) * 2 ^ 19 + b2n (s.owner n).draining * 2 ^ 20 +
  s.fld (Reg.SEQ_OSTAT n) 31 1 * 2 ^ 31

/-- The bents of an owner's pool as a mask (SEQ_OPOOL). -/
def poolMask (s : State) (n : Nat) : Nat :=
  s.cfg.part.bents.foldl (fun a p => if p.2.assigned && p.2.owner == n then a + 2 ^ p.1 else a) 0

/-- Admitted utilisation of an owner (SEQ_OUTIL). -/
def outil (s : State) (n : Nat) : Nat := admUtil ((s.tasksOf n).map (fun k => AdmTask.of (s.taskCfg k)))

/-- Bents of the pool awake (SEQ_OAWAKE). -/
def oawake (s : State) (n : Nat) : Nat :=
  (s.cfg.part.bents.filter (fun p => p.2.assigned && p.2.owner == n && (s.bent p.1).awake)).length

/-- RING_CFG (Table 8.8). -/
def ringCfgWord (s : State) (q : Nat) : Nat :=
  let c := s.ringCfg q
  c.esize % 4 + c.log2len % 32 * 4 + b2n c.defined * 128 + c.prod % 16 * 256 + c.cons % 16 * 4096 + (s.ringOwner q).getD 0 % 8 * 65536 +
  c.dbmode % 8 * 2 ^ 19 + b2n c.enStart * 2 ^ 22

/-- RING_BIND (Table 8.8). -/
def ringBindWord (s : State) (q : Nat) : Nat :=
  (s.ringCfg q).thresh % 2 ^ 17 + (match (s.boundTo 2 q).head? with | some k => k % 512 * 2 ^ 17 + 2 ^ 26 | none => 0)

/-- The SEQ block's computed registers. -/
def viewSeq (s : State) (h : RegHit) : Option Nat :=
  let b := h.desc.base
  let n := h.i
  if b = Reg.SEQ_TCFG 0 then some (tcfgWord (s.taskCfg n))
  else if b = Reg.SEQ_TPERIOD 0 then some (s.taskCfg n).period
  else if b = Reg.SEQ_TPHASE 0 then some (s.taskCfg n).phase
  else if b = Reg.SEQ_TDEADLINE 0 then some (s.taskCfg n).deadline
  else if b = Reg.SEQ_TBUDGET 0 then some (s.taskCfg n).budget
  else if b = Reg.SEQ_TBIND 0 then some (s.taskCfg n).bind
  else if b = Reg.SEQ_TSTAT 0 then some (s.tstatWord n)
  else if b = Reg.SEQ_OSTAT 0 then some (s.ostatWord n)
  else if b = Reg.SEQ_OPOOL 0 then some (s.poolMask n)
  else if b = Reg.SEQ_OPOOL_H 0 then some (s.poolMask n / 2 ^ 32)
  else if b = Reg.SEQ_OCFG 0 then some (b2n (!s.cfg.nobreak.contains n))
  else if b = Reg.SEQ_OUTIL 0 then some (s.outil n)
  else if b = Reg.SEQ_OAWAKE 0 then some (s.oawake n)
  else if b = Reg.SPL_CONFLEFT 0 then some (s.splLeft n)
  else if b = Reg.RING_CFG 0 then some (s.ringCfgWord n)
  else if b = Reg.RING_BASE 0 then some (s.ringCfg n).base
  else if b = Reg.RING_BASE_H 0 then some ((s.ringCfg n).base / 2 ^ 32)
  else if b = Reg.RING_BIND 0 then some (s.ringBindWord n)
  else none

/-! ### IMG and MMU -/

/-- Does a store of the owner wait for a pool row (IMG_OSTAT.STALLING)? -/
def storeStalls (s : State) (n : Nat) : Bool :=
  s.engines.any (fun p => s.engOwner p.1 == n && (match p.2.stall with | .pool .. => true | _ => false))

/-- The IMG block's computed registers (Table 6.10). -/
def viewImg (s : State) (h : RegHit) : Option Nat :=
  let b := h.desc.base
  let n := h.i
  let o := b - Reg.IMG_INBASE 0
  if o < 0x28 ∧ o % 8 = 0 then some (s.range n (o / 8)).base
  else if o < 0x28 ∧ o % 8 = 4 then some (s.range n (o / 8)).len
  else if b = Reg.IMG_GUARD 0 then some (s.imgf n).guardUs
  else if b = Reg.IMG_STALLLIM 0 then some (s.imgf n).stallUs
  else if b = Reg.IMG_QUOTA 0 then some (s.imgf n).quota
  else if b = Reg.IMG_SOERING 0 then some (match (s.imgf n).soeRing with | some q => q % 4096 + 2 ^ 31 | none => 0)
  else if b = Reg.IMG_INUSE 0 then some (s.inUse n)
  else if b = Reg.IMG_POOLFREE then some (s.fld Reg.IMG_STAT 0 1 * s.poolFree)
  else if b = Reg.IMG_RESFREE then some (s.fld Reg.IMG_STAT 0 1 * (8192 - s.reserveUse))
  else if b = Reg.IMG_STAT then some (putBits (s.rd Reg.IMG_STAT) 1 1 (b2n (decide (8192 - s.reserveUse < 1024))))
  else if b = Reg.IMG_OSTAT 0 then some (putBits (s.rd (Reg.IMG_OSTAT n)) 0 1 (b2n (s.storeStalls n)))
  else none

/-- The MMU block's computed registers (R266). -/
def viewMmu (s : State) (h : RegHit) : Option Nat :=
  let b := h.desc.base
  let n := h.i
  if b = Reg.MMU_DRLIM 0 then some (s.ownerCfg n).drlim
  else if b = Reg.MMU_PINLIM 0 then some ((s.ownerCfg n).drlim - 64)
  else if b = Reg.MMU_BACKPG 0 then some (pagesIn (s.cnst n).dataSize + pagesIn (s.cnst n).constSize)
  else none

/-! ### NET, TIM, CAN, FLT, WDG, ALM, RED -/

/-- NET_LSSTAT (Table 14.9). -/
def lsStat (s : State) (k : Nat) : Nat :=
  let x := s.sess k
  let loading := (match s.store.load with | some l => l.session == k | none => false) ||
    s.spl.any (fun p => p.2.session == k && !p.2.buf.isEmpty)
  b2n (x.isOpen && !x.half) + b2n x.half * 2 + x.owner % 8 * 4 + b2n x.v6 * 32 +
  (if x.port = 128 then 0xF0 else if x.port = 129 then 0xF1 else x.port % 256) * 256 + min 31 x.held.length * 65536 + b2n loading * 2 ^ 21 +
  b2n (s.alm.frozenBy == some k) * 2 ^ 22

/-- NET_GPSTAT: FORM reads 3 in Hold and Handover (Table 13.15). -/
def gpStat (s : State) (p : Nat) : Nat :=
  let w := s.rd (Reg.NET_GPSTAT p)
  if s.ms.mode == .hold || s.ms.mode == .handover then putBits w 4 2 3 else w

/-- The NET block's computed registers. -/
def viewNet (s : State) (h : RegHit) : Option Nat :=
  let b := h.desc.base
  if b = Reg.NET_LSSTAT 0 then some (s.lsStat h.i)
  else if b = Reg.NET_GPSTAT 0 then some (s.gpStat h.i)
  else none

/-- The TIM block's computed registers. -/
def viewTim (s : State) (h : RegHit) : Option Nat :=
  let b := h.desc.base
  if b = Reg.TIM_NOW then some (form64 s.now)
  else if b = Reg.TIM_NOW_H then some (form64 s.now / 2 ^ 32)
  else if b = Reg.TIM_HOLDS then some s.holds
  else if b = Reg.TIM_CALSEC then some s.calSec
  else if b = Reg.TIM_CALSEC_H then some (s.calSec / 2 ^ 32)
  else if b = Reg.TIM_CALSUB then some s.calSub
  else if b = Reg.TIM_CALDATE then some s.calDate
  else if b = Reg.TIM_CALTIME then some s.calTime
  else none

/-- What is left of a period of OCXO time, in ms. -/
def msLeft (s : State) (from_ len : Nat) : Nat := (from_ + len - s.mono) / msec 1

/-- FLT_OSTAT (Table 19.7). -/
def fltOstat (s : State) (n : Nat) : Nat :=
  let held := (s.owner n).st == .held
  let left := match s.flt.oquietFrom.find? n with
    | some t => if held then s.msLeft t (s.ownerQ n).1 else 0
    | none => 0
  b2n held + min 15 (s.exitsIn (s.flt.oexits.get [] n)).length * 2 + left % 2 ^ 22 * 1024

/-- The FLT block's computed registers. -/
def viewFlt (s : State) (h : RegHit) : Option Nat :=
  let b := h.desc.base
  if b = Reg.FLT_QLEFT then some (if s.ms.mode = .hold then s.msLeft s.flt.quietFrom s.holdQ else 0)
  else if b = Reg.FLT_RECOV then some (min 31 (s.exitsIn s.flt.exits).length)
  else if b = Reg.FLT_OSTAT 0 then some (s.fltOstat h.i)
  else none

/-- The RED block on a module without REDN (chapter 10, RED registers): only READY and RED_CLAIM are there. -/
def viewRed (s : State) (h : RegHit) : Option Nat :=
  let b := h.desc.base
  if b = Reg.RED_DRVAGE then some s.drvAge
  else if s.hasRedn || b == Reg.RED_CLAIM then none
  else if b = Reg.RED_STAT then some (s.fld Reg.RED_STAT 0 1)
  else some 0

/-- The computed value of a register, where it has one. -/
def view (s : State) (a : Nat) (h : RegHit) : Option Nat :=
  match blockOf a with
  | 15 => s.viewMgt h
  | 0 => if h.desc.base = Reg.ENG_STAT 0 then some (s.engStat h.i) else if h.desc.base = Reg.ENG_PC 0 then some (s.engPcView h.i) else none
  | 1 => s.viewSeq h
  | 2 => s.viewImg h
  | 3 => s.viewMmu h
  | 5 => s.viewNet h
  | 6 => s.viewTim h
  | 7 => if h.desc.base = Reg.CAN_SOFCNT 0 then some s.canCount else none
  | 10 => s.viewRed h
  | 11 => s.viewFlt h
  | 12 => if h.desc.base = Reg.WDG_REMAIN 0 then some (s.wdgRemain h.i) else none
  | 14 => if h.desc.base = Reg.ALM_HOURS then some (s.opSecs / 3600 % 2 ^ 24) else none
  | _ => none

/-! ### Undefined items -/

/-- Is the thing a register instance belongs to defined? The registers of an undefined owner, task, ring, loop, controller, object, channel, region,
network item or free session read 0, and of a port that is off all but NET_PMODE (chapters 6 to 20). -/
def itemDefined (s : State) (a : Nat) (h : RegHit) : Bool :=
  match h.desc.scope with
  | .own => match blockOf a with
    | 1 | 2 | 3 | 4 => s.ownerDef h.i
    | 5 => s.fld (Reg.NET_UEPSTAT h.i h.j) 0 1 == 1
    | _ => true
  | .task => (s.taskCfg h.i).defined
  | .ring => (s.ringCfg h.i).defined
  | .loop => s.loopDef h.i
  | .sub => s.fld (Reg.NET_GSSTAT h.i) 0 1 == 1
  | .pub => s.fld (Reg.NET_GPSTAT h.i) 0 1 == 1
  | .strm => s.fld (Reg.NET_SVSTAT h.i) 0 1 == 1
  | .sess => s.sessLive h.i
  | .can => (s.cfg.can.find? h.i).isSome && (decide (h.desc.base < Reg.OBJCFG 0 0) || s.fld (Reg.OBJCFG h.i h.j) 0 1 == 1)
  | .dch => (s.cfg.dch.find? h.i).isSome
  | .ach => (s.cfg.ach.find? h.i).isSome
  | .reg => (s.region h.i).defined
  | .glob =>
    if blockOf a = 5 ∧ h.desc.base < Reg.NET_GSSTAT 0 ∧ h.desc.base ≠ Reg.NET_PMODE 0 then
      (s.portRec h.i).mode != 0 || decide (124 ≤ h.i)
    else true
  | _ => true

/-- The current value of a register (R7): WO bits read 0. -/
def regValue (s : State) (a : Nat) (h : RegHit) : Nat :=
  if s.itemDefined a h then
    let v := if h.shadow then s.rd a else (s.view a h).getD (s.rd a)
    let wo := if h.shadow then 0 else h.desc.wo
    (v &&& (0xFFFFFFFF ^^^ wo)) % 2 ^ 32
  else 0

end State

end Sys2Proof.Machine
end

