-- ==== Sys2Proof/Machine/Bus.lean ====
section
/-! DEFINITION. The register bus: who may reach what (R25, R26), the latches of 64-bit quantities (R9, R10), reads and writes as the access types state
(R7, R8), and what the write of a field starts. -/
namespace Sys2Proof.Machine

/-- The outcome of a register access (Table 1.8): the value read (0 for a write), or a refusal: 1 not ready, 2 alignment, 3 unmapped, 4 denied,
5 domain off. -/
inductive BusRes where
  | ok (v : Nat)
  | refused (kind : Nat)
  deriving DecidableEq, Repr

namespace State

/-! ### Requesters -/

/-- The owner a requester acts for. -/
def reqOwner (s : State) : Req → Nat
  | .mgt => 0
  | .session k => (s.sess k).owner
  | .engine e => s.engOwner e

/-- A requester's latches (R28): an engine's belong to the context it runs. -/
def reqLat (s : State) : Req → Latches
  | .mgt => (s.eng 256).ctx.lat
  | .session k => (s.sess k).lat
  | .engine e => (s.eng e).ctx.lat

def setEngLat (s : State) (e : Nat) (l : Latches) : State :=
  let x := s.eng e
  s.setEng e { x with ctx := { x.ctx with lat := l } }

def setReqLat (s : State) (r : Req) (l : Latches) : State :=
  match r with
  | .mgt => s.setEngLat 256 l
  | .session k => s.setSess k { s.sess k with lat := l }
  | .engine e => s.setEngLat e l

/-! ### The checks of Table 1.8 -/

/-- An owner's block permission (R25). -/
def blockPerm (s : State) (n b : Nat) : Bool := n == 0 || (bit (s.ownerCfg n).perm b && b != 10 && b != 15)

/-- The owner of the source of a history slot, or of the first error (hist scope). -/
def histOwner (s : State) (a : Nat) (h : RegHit) : Option Nat :=
  if a < Reg.FLT_HIST 0 0 then s.flt.first.map (·.owner) else (s.flt.hist.find? h.i).map (·.owner)

/-- The owner a register instance belongs to (R16, Table 1.4); none where it belongs to none. -/
def instOwner (s : State) (a : Nat) (h : RegHit) : Option Nat :=
  match h.desc.scope with
  | .glob | .o0 => some 0
  | .own => some h.i
  | .eng => if (s.bentCfg (h.i / 4)).assigned then some (s.bentCfg (h.i / 4)).owner else none
  | .bent => if (s.bentCfg h.i).assigned then some (s.bentCfg h.i).owner else none
  | .task => if (s.taskCfg h.i).defined then some (s.taskCfg h.i).owner else none
  | .ring => s.ringOwner h.i
  | .loop => s.cfg.part.loopOwn.find? h.i
  | .sub => (s.cfg.subs.find? h.i).map (·.owner)
  | .pub => (s.cfg.pubs.find? h.i).map (·.owner)
  | .strm => (s.cfg.streams.find? h.i).map (·.owner)
  | .sess => if s.sessLive h.i then some (s.sess h.i).owner else none
  | .cu => some (s.fld (Reg.TIM_CUSTAT h.i) 1 3)
  | .can => s.cfg.part.canOwn.find? h.i
  | .dch => s.cfg.part.dOwn.find? h.i
  | .ach => s.cfg.part.aOwn.find? h.i
  | .src => some (s.srcOwner h.i)
  | .hist => s.histOwner a h
  | .reg => if (s.region h.i).defined then some (s.region h.i).owner else none
  | .wdg => some (if h.i = 0 then 0 else h.i - 1)

/-- A calibration register: a write by another owner is not refused but ignored (R415). -/
def calReg (h : RegHit) : Bool :=
  h.desc.base == Reg.FIO_DTHR 0 || h.desc.base == Reg.FIO_ATRIMG 0 || h.desc.base == Reg.FIO_ATRIMO 0

/-- Is the access denied by ownership (Table 1.8 row 4, R25)? O0 reaches everything. A global register is every granted owner's to read and O0's to write, all
of FLT is O0's to write, and another owner's source or history word in FLT reads 0 instead. -/
def instDenied (s : State) (n a : Nat) (h : RegHit) (write : Bool) : Bool :=
  if n = 0 then false else
  match h.desc.scope with
  | .o0 => true
  | .glob => write && !calReg h
  | .src | .hist => write
  | _ => s.instOwner a h != some n || (write && blockOf a == 11)

/-- Does the read give 0 because the FLT word is another owner's (chapter 19, FLT registers)? -/
def foreignWord (s : State) (n a : Nat) (h : RegHit) : Bool :=
  n != 0 && (h.desc.scope == .src || h.desc.scope == .hist) && s.instOwner a h != some n

/-- The power domain of a register, where the scantling can leave it unused (Table 1.5). -/
def regDomain (a : Nat) (h : RegHit) : Option Nat :=
  match blockOf a with
  | 0 => some (h.i / 4)
  | 5 => if h.desc.base < Reg.NET_GSSTAT 0 then some (if h.i < 48 then 67 else 68) else none
  | 7 => some 74
  | 8 => some 75
  | 9 => some 73
  | _ => none

/-- The register at an address; session 0 has none (Table 14.8). -/
def busFind (a : Nat) : Option RegHit :=
  match findReg a with
  | some h => if h.desc.scope == .sess && h.i == 0 then none else some h
  | none => none

/-- Rows 1 to 6 of Table 1.8, in order: a refusal, or the register. -/
def busCheck (s : State) (r : Req) (a : Nat) (write : Bool) : Except Nat RegHit :=
  let m := s.ms.mode
  let n := s.reqOwner r
  if m = .backup ∨ m = .recall ∨ m = .lean ∨ m = .recovery ∨ (m = .drain ∧ write) then .error 1
  else if a % 4 ≠ 0 then .error 2
  else if 0x7000000 ≤ a then .error 3
  else match busFind a with
    | none => .error 3
    | some h =>
      if !s.blockPerm n (blockOf a) || s.instDenied n a h write then .error 4
      else if m = .configure ∨ (m = .drain ∧ s.ms.drainShort) then .error 1
      else if (match regDomain a h with | some d => !s.pdUsed d | none => false) then .error 5
      else .ok h

/-! ### A bent wakes (R21) -/

/-- A bent's wake ends: it is awake, with its reset registers, and every task promised one of its engines starts there. -/
def bentWake (s : State) (m : Nat) : State :=
  let b := s.bent m
  if b.awake || b.unusable || !(s.bentCfg m).assigned then s else
  let s := (s.setBent m { b with awake := true, waking := false, idleSince := s.now }).bump (Reg.MGT_PDONCNT m) 1
  let s := forEach (bentEngines m) (fun s e => match (s.eng e).task with | some k => s.startOn e k | none => s) s
  s.dispatch (s.bentCfg m).owner

/-- Row 7 of Table 1.8: an access to a gated bent wakes it, within 10 µs. -/
def busWake (s : State) (a : Nat) (h : RegHit) : State :=
  if blockOf a = 0 ∧ !(s.bent (h.i / 4)).awake then
    let (w, s) := s.fresh
    (s.advance (s.now + w % (us 10 + 1))).bentWake (h.i / 4)
  else s

/-! ### Reads -/

/-- RC fields clear (R7, R12); the pace maximum is the bent's, shown by its four engines (Table 4.17). -/
def rcClear (s : State) (a : Nat) (h : RegHit) : State :=
  if h.shadow || h.desc.rc == 0 then s
  else if h.desc.base = Reg.ENG_PACEMAX 0 then forEach (bentEngines (h.i / 4)) (fun s e => s.clr (Reg.ENG_PACEMAX e)) s
  else s.wr a (s.rd a &&& (0xFFFFFFFF ^^^ h.desc.rc))

/-- A read performed: the value, the RC fields cleared, the high word latched or given from the latch (R9). -/
def readNow (s : State) (r : Req) (a : Nat) (h : RegHit) : Nat × State :=
  if h.desc.base = Reg.NVS_PDATA 0 then s.portRead h.i
  else
    let v := s.regValue a h
    match h.desc.pair with
    | .one => (v, s.rcClear a h)
    | .lo =>
      let hi := match busFind (a + 4) with | some h2 => s.regValue (a + 4) h2 | none => 0
      (v, s.setReqLat r { s.reqLat r with hi := some (a, hi) })
    | .hi => match (s.reqLat r).hi with
      | some (b, x) => (if b + 4 = a then x else v, s)
      | none => (v, s)

/-- A register read by a requester (R26). -/
def busRead (s : State) (r : Req) (a : Nat) : BusRes × State :=
  match s.busCheck r a false with
  | .error k => (.refused k, if k = 4 then s.secEvent (s.reqOwner r) else s)
  | .ok h =>
    let s := s.busWake a h
    if s.foreignWord (s.reqOwner r) a h then (.ok 0, s)
    else
      let (v, s) := s.readNow r a h
      (.ok v, s)

/-! ### What writes do -/

/-- A bent self-test is requested by O0 in Test (R115). -/
def selfTestRequest (s : State) (n m : Nat) : State :=
  if n ≠ 0 ∨ s.ms.mode ≠ .test ∨ (s.bent m).unusable then s else
  let s := s.setBent m { s.bent m with testReq := true }
  forEach (bentEngines m) (fun s e => s.setBit (Reg.ENG_STEST e) 1 true) s

/-- STO_ACTL.EN = 0 (R300). -/
def archiveDisable (s : State) : State :=
  if s.fld Reg.STO_ACTL 0 1 = 0 then s else (s.wr Reg.STO_ACTL 0).arcStop

/-- STO_ACTL.EN = 1 (R300): the next record of each subscription carries FLAGS bit 0. -/
def archiveEnable (s : State) : State :=
  if s.fld Reg.STO_ACTL 0 1 = 1 then s else
  let s := (s.wr Reg.STO_ACTL 1).setBit Reg.STO_STAT 2 true
  { s with sto := { s.sto with gapNext := s.cfg.streams.map (·.1) } }

/-- MMU_OCMD.ERASE (R277): for O0, while the owner is Stopped; otherwise ignored. -/
def eraseBegin (s : State) (byO0 : Bool) (n : Nat) : State :=
  if byO0 && s.ownerDef n && (s.owner n).st == .stopped then
    let k := s.mmu.keys.get {} n
    let s : State := { s with mmu := { s.mmu with keys := s.mmu.keys.insert n { k with erasing := true } } }
    s.setBit (Reg.MMU_OSTAT n) 2 true
  else s

/-- The erasure ends (R277). -/
def eraseDone (s : State) (n : Nat) : State :=
  if (s.mmu.keys.get {} n).erasing then (s.eraseOwner n).setBit (Reg.MMU_OSTAT n) 2 false else s

/-- A TIM_UTCOFF write (Table 15.10): ignored while PTP supplies the offset. -/
def utcWrite (s : State) (v : Nat) : State :=
  if s.fld Reg.TIM_UTCOFF 20 1 = 1 then s else s.setFld Reg.TIM_UTCOFF 0 20 v

/-- TIM_CUCTL (R371). -/
def cuCtlWrite (s : State) (u v : Nat) : State := s.setArm u (bit v 0)

/-- The write of a 64-bit quantity, both halves at one instant (R10). -/
def wideWrite (s : State) (a : Nat) (h : RegHit) (v : Nat) : State :=
  let b := h.desc.base
  if b = Reg.TIM_CALSEC_H then s.calSecWrite v
  else if b = Reg.NVS_PPWD_H 0 then (s.wr64 (a - 4) v).portPassword h.i v
  else s.wr64 (a - 4) v

/-- Registers of MGT, RED, FLT and WDG whose write acts. -/
def sysWriteHook (s : State) (byO0 : Bool) (h : RegHit) (v : Nat) : Option State :=
  let b := h.desc.base
  if b = Reg.MGT_MODECMD then some (s.modeCmd (bits v 0 4) (bits v 4 2))
  else if b = Reg.MGT_FACTCMD then some (if bit v 0 then s.factGo else s)
  else if b = Reg.MGT_LOGSEL then some (s.logSelect v)
  else if b = Reg.RED_CMD then some (if s.hasRedn then s.redCmd v else s)
  else if b = Reg.FLT_FECLR then some (if bit v 0 then s.clearFirst else s)
  else if b = Reg.FLT_PLUMBCTL then some (s.plumbCtl v)
  else if b = Reg.FLT_SFORCE 0 then some (s.forceWrite h.i (bit v 0))
  else if b = Reg.WDG_CTL 0 then some (s.wdgCtl h.i v)
  else if b = Reg.WDG_KEY 0 then some (s.wdgKey h.i (v % 65536))
  else if b = Reg.WDG_PERIOD 0 then some (s.wdgPeriod h.i (v % 2 ^ 26))
  else if b = Reg.NVS_PSEL 0 then some (s.portSelect h.i v)
  else if b = Reg.NVS_PDATA 0 then some (s.portWrite h.i v)
  else if b = Reg.NVS_PCMD 0 then some (s.portCmd h.i v)
  else if b = Reg.ENG_STEST 0 then some (if bit v 0 then s.selfTestRequest (if byO0 then 0 else 1) (h.i / 4) else s)
  else if b = Reg.MMU_OCMD 0 then some (if bit v 0 then s.eraseBegin byO0 h.i else s)
  else if b = Reg.STO_ACTL then some (if bit v 0 then s.archiveEnable else s.archiveDisable)
  else none

/-- Registers of the sequencer and the I/O blocks whose write acts. -/
def ioWriteHook (s : State) (byO0 : Bool) (h : RegHit) (v : Nat) : Option State :=
  let b := h.desc.base
  let i := h.i
  if b = Reg.RING_CTL 0 then some (if bit v 0 then s.ringEnable i else s.ringDisable i)
  else if b = Reg.LOP_CTL 0 then some (if bit v 0 then s.loopEnable i else s.loopDisable i)
  else if b = Reg.NET_PCTL 0 then some (if bit v 0 then s.portEnable i else s.portDisable i)
  else if b = Reg.CAN_CTL 0 then some (s.canCtlWrite i v)
  else if b = Reg.OBJTXREQ 0 0 then some (if bit v 0 then s.canTxReq i h.j else s)
  else if b = Reg.OBJDATA 0 0 0 then some (if bit (s.objCfg i h.j) 1 then s.wr (Reg.OBJDATA i h.j h.k) v else s)
  else if b = Reg.FIO_DTHR 0 then some (s.dthrWrite i v byO0)
  else if b = Reg.FIO_ATRIMG 0 then some (s.trimWrite i v true byO0)
  else if b = Reg.FIO_ATRIMO 0 then some (s.trimWrite i v false byO0)
  else if b = Reg.TIM_UTCOFF then some (s.utcWrite v)
  else if b = Reg.TIM_CUCTL 0 then some (s.cuCtlWrite i v)
  else if b = Reg.TIM_CALCTL then some (s.calCtlWrite v)
  else if b = Reg.TIM_CALDATE then some (s.calDateWrite v)
  else if b = Reg.TIM_CALTIME then some (s.calTimeWrite v)
  else none

/-- A plain write (R7, R8): RW bits take the value, W1C bits written 1 clear, the rest keep. -/
def plainWrite (s : State) (a : Nat) (h : RegHit) (v : Nat) : State :=
  let old := s.rd a
  let m := h.desc.rw
  let new := (old &&& (0xFFFFFFFF ^^^ m)) ||| (v &&& m)
  s.wr a (new &&& (0xFFFFFFFF ^^^ (v &&& h.desc.w1c)))

/-- A write performed. A register of an undefined item takes none (it reads 0). -/
def writeNow (s : State) (r : Req) (a : Nat) (h : RegHit) (v : Nat) : State :=
  let byO0 := s.reqOwner r == 0
  let w := h.desc.rw ||| h.desc.wo
  if h.shadow || !s.itemDefined a h then s
  else match h.desc.pair with
    | .lo => if w = 0 then s else s.setReqLat r { s.reqLat r with lo := some (a, v &&& w) }
    | .hi =>
      if w = 0 then s else
      let l := s.reqLat r
      let low := match l.lo with | some (b, x) => if b + 4 = a then some x else none | none => none
      let s := if low.isSome then s.setReqLat r { l with lo := none } else s
      let cur := if h.desc.base = Reg.TIM_CALSEC_H then s.calSec % 2 ^ 32 else s.rd (a - 4)
      s.wideWrite a h (low.getD cur + (v &&& w) * 2 ^ 32)
    | .one =>
      match s.sysWriteHook byO0 h v with
      | some s => s
      | none => match s.ioWriteHook byO0 h v with
        | some s => s
        | none => s.plainWrite a h v

/-- A register write by a requester (R26). -/
def busWrite (s : State) (r : Req) (a v : Nat) : BusRes × State :=
  match s.busCheck r a true with
  | .error k => (.refused k, if k = 4 then s.secEvent (s.reqOwner r) else s)
  | .ok h => (.ok 0, (s.busWake a h).writeNow r a h (v % 2 ^ 32))

/-- Is there such a requester: MGT, an open session, an engine? -/
def reqLive (s : State) : Req → Bool
  | .mgt => true
  | .session k => s.sessLive k
  | .engine e => decide (e ≤ 256)

/-- A write whose outcome nobody keeps (a command of the opcode table that is a register write). -/
def busSet (s : State) (r : Req) (a v : Nat) : State := if s.reqLive r then (s.busWrite r a v).2 else s

/-- A read whose answer goes out to the requester. -/
def busGet (s : State) (r : Req) (a : Nat) : State :=
  if !s.reqLive r then s else
  match s.busRead r a with
  | (.ok v, s) => s.emit (.reg a v 0)
  | (.refused k, s) => s.emit (.reg a 0 k)

/-- A write whose answer goes out to the requester. -/
def busPut (s : State) (r : Req) (a v : Nat) : State :=
  if !s.reqLive r then s else
  match s.busWrite r a v with
  | (.ok _, s) => s.emit (.reg a 0 0)
  | (.refused k, s) => s.emit (.reg a 0 k)

/-! ### DIN and DOUT (R139) -/

/-- The refusal kind as DEVACC records it. -/
def devExc (kind a : Nat) : Res := .exc 0x0D kind a

end State

end Sys2Proof.Machine
end

