-- ==== Sys2Proof/Machine/Lorat.lean ====
section
/-! DEFINITION. The Lorat commands (Table 14.5): what each answers and does for a session's request. -/
namespace Sys2Proof.Machine

/-- A response (R344): status, detail, data; none while the answer waits for the partner. -/
abbrev LorRes := Option (Nat × Nat × List Byte)

/-- The command's code (Table 14.5). -/
def lorCode : LorCmd → Nat
  | .status => 0x01 | .close => 0x02 | .imgRead .. => 0x10 | .imgWrite .. => 0x11 | .imgForce .. => 0x12 | .regRead .. => 0x20
  | .regWrite .. => 0x21 | .nvsRead .. => 0x30 | .nvsWrite .. => 0x31 | .almRead .. => 0x40 | .almFreeze .. => 0x41 | .arcRead .. => 0x50
  | .arcTrig .. => 0x51 | .splLoad .. => 0x60 | .splApply .. => 0x61 | .splConfirm .. => 0x62 | .splRollback .. => 0x63 | .scnLoad .. => 0x70
  | .scnCommit => 0x71 | .scnConfirm => 0x72 | .scnRollback => 0x73 | .modeSet .. => 0x80 | .plumb .. => 0x90

/-- A refusal. -/
def lorNo (status detail : Nat) : LorRes := some (status, detail, [])

/-- A command done. -/
def lorOk (body : List Byte) : LorRes := some (0, 0, body)

/-- BADPARAM with the entry or the field's offset. -/
def badParam (detail : Nat) : LorRes := lorNo 7 detail

/-- The first entry that fails a check. -/
def firstNot {α : Type} (p : α → Bool) (l : List α) : Option Nat := (l.zipIdx.find? (fun x => !p x.1)).map (·.2)

namespace State

/-- MODE with the device mode's code. -/
def lorMode (s : State) : LorRes := lorNo 8 s.ms.mode.code

/-- The modes in which sessions are served (S of Table 14.4). -/
def lorServed (s : State) : Bool :=
  let m := s.ms.mode
  m == .stop || m == .run || m == .shadow || m == .test || m == .hold || m == .handover

/-- STATUS (160 bytes); the registers of the scantling are O0's. -/
def lorStatus (s : State) (k n : Nat) : List Byte :=
  let m := s.ms
  let keys := ownerIdx.foldl (fun a i => a + b2n (s.store.serials.find? i).isSome * 2 ^ i) 0
  let own (v : Nat) : Nat := if n = 0 then v else 0
  leBytes 8 s.store.serial ++ leBytes 2 0x8256 ++ leBytes 1 (b2n s.pw.variantW * 2 + b2n s.pw.variantL) ++ leBytes 1 m.mode.code ++
  leBytes 1 m.prev.code ++ leBytes 1 (b2n m.paired + b2n m.active * 2 + b2n s.isSuspect * 4) ++ leBytes 2 s.ownWord ++
  leBytes 8 (form64 s.now) ++ leBytes 1 s.qStep ++ leBytes 1 keys ++ leBytes 2 k ++ leBytes 4 s.nvs.setfmt ++
  leBytes 8 s.curSlot.scn.hdr.buildid ++ leBytes 8 s.prevSlot.scn.hdr.buildid ++ leBytes 4 (own s.scnStat) ++
  leBytes 4 (own (s.rd Reg.MGT_SCNREFUSE)) ++ leBytes 97 s.store.pubKey ++ leBytes 7 0

/-! ### Image (R347 to R349) -/

/-- Current bits of a row of a space, SEM included. -/
def rowNow (s : State) (space row : Nat) : Row := if space = 4 then s.img.sem.get 0 row else s.curBits row

/-- IMG_READ. -/
def lorImgRead (s : State) (n space rows first : Nat) : LorRes × State :=
  let r := s.range n space
  if 4 < space then (badParam 0, s)
  else if rows = 0 ∨ 40 < rows then (badParam 1, s)
  else if r.len < first + rows then (badParam 4, s)
  else
    let l := (List.range rows).map (fun i => r.base + first + i)
    let s := forEach l (fun s row => s.eccRead row 0xFFFF) s
    (lorOk (leBytes 8 (form64 s.now) ++ l.flatMap (fun row => bytesOfRow (s.rowNow space row))), s)

/-- Entries of one row merged in order, so that a row takes one version. -/
def mergeEntries (base : Nat) (entries : List (Nat × Row × Row)) : SMap (Row × Row) :=
  entries.foldl (fun m e =>
    let (v, k) := SMap.get (0, 0) m (base + e.1)
    SMap.insert m (base + e.1) (mergeRow v e.2.2 e.2.1, k ||| e.2.1)) []

/-- IMG_WRITE: entries of row, mask, value. -/
def lorImgWrite (s : State) (n stamp : Nat) (entries : List (Nat × Row × Row)) : LorRes × State :=
  let m := s.ms.mode
  let r := s.range n 0
  if !(m == .stop || m == .run || m == .test || m == .hold) || (s.ms.paired && !s.ms.active) then (s.lorMode, s)
  else if entries.isEmpty ∨ 16 < entries.length then (badParam 0, s)
  else match firstNot (fun e => decide (e.1 < r.len)) entries with
    | some i => (badParam i, s)
    | none =>
      let t := form64 s.now
      let s := s.sourceWrite n ((mergeEntries r.base entries).map (fun e => (e.1, e.2.1, e.2.2))) stamp 0
      (lorOk (leBytes 8 t ++ leBytes 8 (form64 stamp)), s)

/-- Forced rows once an entry (space, op, row, mask, value) has acted. -/
def forceEntry (s : State) (n : Nat) (f : SMap (Row × Row)) (e : Nat × Nat × Nat × Row × Row) : SMap (Row × Row) :=
  let (space, op, row, mask, val) := e
  let a := (s.range n space).base + row
  let (v, k) := f.get (0, 0) a
  if op = 1 then f.set (0, 0) a (mergeRow v val mask, k ||| mask)
  else if op = 2 then f.set (0, 0) a (if k &&& ~~~mask = 0 then (0, 0) else (v &&& ~~~mask, k &&& ~~~mask))
  else f.keep (fun x _ => match s.rowPlace x with | some (o, _) => o != n | none => true)

/-- Is a force entry in range? -/
def forceOk (s : State) (n : Nat) (e : Nat × Nat × Nat × Row × Row) : Bool :=
  let (space, op, row, _, _) := e
  decide (space < 2) && decide (1 ≤ op) && decide (op ≤ 3) && (op == 3 || decide (row < (s.range n space).len))

/-- A set force installs its row's version at once. -/
def forceInstall (s : State) (n : Nat) (e : Nat × Nat × Nat × Row × Row) : State :=
  let (space, op, row, _, _) := e
  if op ≠ 1 then s else
  let a := (s.range n space).base + row
  let (d, s) := s.install n space a 0 0 s.now 6 false
  if space = 1 ∧ d ≠ 0 then (s.pubHook n [(a, d)]).canOutHook n [a] else s

/-- IMG_FORCE. -/
def lorImgForce (s : State) (n : Nat) (entries : List (Nat × Nat × Nat × Row × Row)) : LorRes × State :=
  if s.ms.mode ≠ .test then (s.lorMode, s)
  else if entries.isEmpty ∨ 16 < entries.length then (badParam 0, s)
  else match firstNot (fun e => s.forceOk n e) entries with
    | some i => (badParam i, s)
    | none =>
      let f := entries.foldl (fun f e => s.forceEntry n f e) s.img.forces
      if 256 < f.length then (lorNo 0x10 s.img.forces.length, s)
      else
        let s : State := { s with img := { s.img with forces := f } }
        let s := forEach entries (fun s e => s.forceInstall n e) s
        let mine := (f.filter (fun x => match s.rowPlace x.1 with | some (o, _) => o == n | none => false)).length
        (lorOk (leBytes 2 mine ++ leBytes 2 f.length ++ leBytes 4 0), s)

/-! ### Registers -/

/-- One register read of a session: value and status. A refused one gives an open value. -/
def lorRegOne (s : State) (k a : Nat) : List Byte × State :=
  match s.busRead (.session k) a with
  | (.ok v, s) => (leBytes 4 v ++ leBytes 4 0, s)
  | (.refused c, s) => let (v, s) := s.fresh; (leBytes 4 v ++ leBytes 1 c ++ leBytes 3 0, s)

/-- REG_READ. -/
def lorRegRead (s : State) (k : Nat) (addrs : List Nat) : LorRes × State :=
  if addrs.isEmpty ∨ 64 < addrs.length then (badParam 0, s)
  else
    let (b, s) := addrs.foldl (fun (acc : List Byte × State) a => let (b, s) := acc.2.lorRegOne k a; (acc.1 ++ b, s)) (([] : List Byte), s)
    (lorOk b, s)

/-- One register write of a session: its status. -/
def lorRegPut (s : State) (k a v : Nat) : List Byte × State :=
  match s.busWrite (.session k) a v with
  | (.ok _, s) => (leBytes 1 0, s)
  | (.refused c, s) => (leBytes 1 c, s)

/-- REG_WRITE. -/
def lorRegWrite (s : State) (k : Nat) (entries : List (Nat × Nat)) : LorRes × State :=
  if entries.isEmpty ∨ 64 < entries.length then (badParam 0, s)
  else
    let (b, s) := entries.foldl (fun (acc : List Byte × State) e => let (b, s) := acc.2.lorRegPut k e.1 e.2; (acc.1 ++ b, s)) (([] : List Byte), s)
    (lorOk (b ++ leBytes ((4 - b.length % 4) % 4) 0), s)

/-! ### NVS (R463 to R466) -/

/-- The checks of an NVS access: a refusal, or none. -/
def lorNvsCheck (s : State) (n r off len pw : Nat) (write : Bool) : Option LorRes × State :=
  let c := s.region r
  if c.defined && n != 0 && c.owner != n then (some (lorNo 4 0), s)
  else if len = 0 ∨ 1280 < len then (some (badParam 2), s)
  else match s.nvsCheck r off len write pw with
    | (none, s) => (none, s)
    | (some 1, s) => (some (badParam (if !c.defined then 0 else if c.size ≤ off then 4 else 2)), s)
    | (some 2, s) => (some (lorNo 0x0E 0), s)
    | (some _, s) => (some (lorNo 0x0D (8 - s.nvs.fails.get 0 r)), s)

/-- NVS_READ. -/
def lorNvsRead (s : State) (n r len off pw : Nat) : LorRes × State :=
  match s.lorNvsCheck n r off len pw false with
  | (some x, s) => (x, s)
  | (none, s) => let (bs, _, s) := s.nvsRead r off len; (lorOk bs, s)

/-- NVS_WRITE. -/
def lorNvsWrite (s : State) (n r len off pw : Nat) (bytes : List Byte) : LorRes × State :=
  if bytes.length ≠ len then (badParam 2, s) else
  match s.lorNvsCheck n r off len pw true with
  | (some x, s) => (x, s)
  | (none, s) => (lorOk [], s.nvsWrite r off bytes)

/-! ### Almanac (R353, R476, R477) -/

/-- ALM_READ. -/
def lorAlmRead (s : State) (count first : Nat) : LorRes × State :=
  if count = 0 ∨ 40 < count then (badParam 0, s)
  else
    let (_, skipped, bs, s) := s.almRead first count
    (lorOk (leBytes 4 (s.rd Reg.ALM_NEXT) ++ leBytes 4 skipped ++ bs), s)

/-- ALM_FREEZE. -/
def lorAlmFreeze (s : State) (k op : Nat) : LorRes × State :=
  let done (s : State) : LorRes × State := (lorOk (leBytes 4 (b2n s.alm.frozenBy.isSome)), s)
  if op = 1 then
    match s.alm.frozenBy with
    | none => done (s.almFreeze k)
    | some j => if j = k then done s else (lorNo 9 j, s)
  else if op = 2 then
    match s.alm.frozenBy with
    | none => (lorNo 9 0, s)
    | some j => if j = k then done s.almRelease else (lorNo 9 j, s)
  else (badParam 0, s)

end State

/-! ### The archive stream (R299, R352) -/

/-- A place in an item stream: kind 1 record, 2 gap, 3 the end; a record's stamp and fraction, or a gap's start; bytes of it already returned. The cursor is
this as 16 bytes; zeros begin. -/
structure ArcPos where
  kind : Nat
  time : Nat
  frac : Nat
  off : Nat
  deriving DecidableEq, Repr

def ArcPos.num (p : ArcPos) : Nat := p.time + p.frac * 2 ^ 64 + p.kind * 2 ^ 80 + p.off * 2 ^ 88
def ArcPos.of (c : Nat) : ArcPos := { kind := bits c 80 8, time := bits c 0 64, frac := bits c 64 16, off := bits c 88 40 }

/-- An item of the stream: its place and its bytes. -/
abbrev ArcItem := ArcPos × List Byte

/-- A record's bytes (Table 12.3). -/
def arcBytes (r : ArcRec) : List Byte :=
  leBytes 8 r.time ++ leBytes 2 r.frac ++ leBytes 2 r.frame.length ++ leBytes 2 r.sub ++ leBytes 1 r.port ++ leBytes 1 r.flags ++ r.frame ++
  leBytes ((8 - r.frame.length % 8) % 8) 0

def arcRecItem (r : ArcRec) : ArcItem :=
  let b := arcBytes r
  ({ kind := 1, time := r.time, frac := r.frac, off := 0 }, leBytes 1 1 ++ leBytes 1 0 ++ leBytes 2 b.length ++ b)

def arcGapItem (lo hi : Nat) : ArcItem :=
  ({ kind := 2, time := lo, frac := 0, off := 0 }, leBytes 1 2 ++ leBytes 1 0 ++ leBytes 2 16 ++ leBytes 8 lo ++ leBytes 8 hi)

/-- Insert a record in stamp order. -/
def insertRec (r : ArcRec) : List ArcRec → List ArcRec
  | [] => [r]
  | x :: xs => if r.time < x.time ∨ (r.time = x.time ∧ r.frac < x.frac) then r :: x :: xs else x :: insertRec r xs

/-- Items of the records from `at_` on, the last record before it having been read (`gap`: nothing is held just before the next one). A record is
(record, readable?). -/
def arcItems (hi : Nat) : Nat → Bool → List (ArcRec × Bool) → List ArcItem
  | at_, gap, [] => if gap then [arcGapItem at_ hi] else []
  | at_, gap, (r, ok) :: rest =>
    if !ok then arcItems hi (if gap then at_ else r.time) true rest
    else
      let g := (gap && decide (at_ < r.time)) || bit r.flags 0
      (if g then [arcGapItem at_ r.time, arcRecItem r] else [arcRecItem r]) ++ arcItems hi r.time false rest

/-- The items from a place on: where it is gone, a gap from its start first. -/
def arcFrom (items : List ArcItem) (p : ArcPos) (hi : Nat) : List ArcItem :=
  if p.kind = 0 then items
  else if p.kind = 3 then []
  else
    match items.dropWhile (fun x => !(x.1.kind == p.kind && x.1.time == p.time && x.1.frac == p.frac)) with
    | (q, b) :: rest => ({ q with off := p.off }, b.drop p.off) :: rest
    | [] =>
      let rest := items.filter (fun x => decide (p.time < x.1.time) && x.1.kind == 1)
      arcGapItem p.time (match rest with | x :: _ => x.1.time | [] => hi) :: rest

/-- Up to `k` bytes of the items, and the place that follows. -/
def arcCut : Nat → List ArcItem → List Byte × Option ArcPos
  | _, [] => ([], none)
  | k, (p, b) :: rest =>
    if b.length ≤ k then
      let (bs, q) := arcCut (k - b.length) rest
      (b ++ bs, q)
    else (b.take k, some { p with off := p.off + k })

namespace State

/-- ARC_READ: the records of one subscription in a span of stamps, each page read from STO (R290). -/
def lorArcRead (s : State) (n sub most lo hi cursor : Nat) : LorRes × State :=
  match s.arcOwner sub with
  | none => (badParam 0, s)
  | some o =>
    if n ≠ 0 ∧ o ≠ n then (lorNo 4 0, s)
    else if most < 64 ∨ 1360 < most then (badParam 4, s)
    else
      let recs := (s.sto.ack.arc.filter (fun r => r.sub == sub && decide (lo ≤ r.time) && decide (r.time ≤ hi))).foldl (fun l r => insertRec r l) []
      let (l, s) := recs.foldl (fun (acc : List (ArcRec × Bool) × State) r =>
        let (ok, s) := acc.2.stoRead 7 r.time (arcLen r)
        (acc.1 ++ [(r, ok)], s)) (([] : List (ArcRec × Bool)), s)
      let (bs, next) := arcCut most (arcFrom (arcItems hi lo true l) (ArcPos.of cursor) hi)
      let c := (next.getD { kind := 3, time := hi, frac := 0, off := 0 }).num
      (lorOk (leBytes 16 c ++ leBytes 2 bs.length ++ leBytes 1 (b2n next.isSome) ++ leBytes 1 0 ++ bs), s)

/-- ARC_TRIG (R296, R297). -/
def lorArcTrig (s : State) (n stamp t p q : Nat) : LorRes × State :=
  if s.fld Reg.STO_ACTL 0 1 = 0 then (s.lorMode, s)
  else if 10000 < p then (badParam 8, s)
  else if 60000 < q then (badParam 0xA, s)
  else
    let t := if t = 0 then form64 stamp else t
    let at_ := t + q * 1000000
    let w := (s.trigWins n t p q).find? (fun w => w.owner == n && decide (w.lo ≤ at_) && decide (at_ ≤ w.hi))
    let (lo, hi) := match w with | some w => (w.lo, w.hi) | none => (t - p * 1000000, at_)
    (lorOk (leBytes 8 lo ++ leBytes 8 hi), s.trigger n t p q)

/-! ### Loads, splices, updates -/

/-- A bulk chunk's length is right (R351). -/
def chunkOk (bytes : List Byte) : Bool := decide (1 ≤ bytes.length) && decide (bytes.length ≤ 1280)

/-- SPL_LOAD (R222, R223). -/
def lorSplLoad (s : State) (k n seq off : Nat) (bytes : List Byte) : LorRes × State :=
  if !chunkOk bytes then (badParam 4, s) else
  let (r, s) := s.splChunk n k seq off bytes
  (match r with | none => none | some (0, _) => lorOk (leBytes 4 (off + bytes.length)) | some (c, d) => lorNo c d, s)

/-- The answer of a splice command: SPL_STAT of the owner. -/
def splAnswer (owner : Nat) (x : Option (Nat × Nat) × State) : LorRes × State :=
  (match x.1 with | none => none | some (0, _) => lorOk (leBytes 4 (x.2.rd (Reg.SPL_STAT owner))) | some (c, d) => lorNo c d, x.2)

/-- SPL_APPLY, by the splice's owner (R222, code 0x22). -/
def lorSplApply (s : State) (n owner : Nat) : LorRes × State :=
  if 8 ≤ owner ∨ !s.ownerDef owner then (badParam 0, s) else splAnswer owner (s.splApply owner (n == owner))

/-- SPL_CONFIRM. -/
def lorSplConfirm (s : State) (n owner : Nat) : LorRes × State :=
  if 8 ≤ owner ∨ !s.ownerDef owner then (badParam 0, s) else splAnswer owner (s.splConfirm owner (n == owner))

/-- SPL_ROLLBACK, by the owner or O0. -/
def lorSplRollback (s : State) (n owner : Nat) : LorRes × State :=
  if 8 ≤ owner ∨ !s.ownerDef owner then (badParam 0, s) else splAnswer owner (s.splRollback owner (n == owner || n == 0))

/-- SCN_LOAD (R60, R351). -/
def lorScnLoad (s : State) (k off : Nat) (bytes : List Byte) (accept bad : Bool) : LorRes × State :=
  if !chunkOk bytes then (badParam 4, s) else
  let ((c, d), s) := s.scnChunk k off bytes accept bad
  (if c = 0 then lorOk (leBytes 4 (off + bytes.length)) else lorNo c d, s)

/-- The answer of an update command: MGT_SCNSTAT. -/
def scnAnswer (x : (Nat × Nat) × State) : LorRes × State :=
  (if x.1.1 = 0 then lorOk (leBytes 4 x.2.scnStat) else lorNo x.1.1 x.1.2, x.2)

/-! ### Mode set (R350, Table 14.6) -/

/-- TRANSITION with the current mode's code. -/
def lorTrans (s : State) : LorRes := lorNo 0x0C s.ms.mode.code

/-- MODE_SET done: MGT_MODE and MGT_OWNSTATE. -/
def modeDone (s : State) : LorRes × State := (lorOk (leBytes 4 s.modeWord ++ leBytes 4 s.ownWord), s)

/-- Device scope. -/
def modeSetDevice (s : State) (n target kind : Nat) : LorRes × State :=
  if n = 0 ∧ s.modeSetOk target then (s.modePerform target kind).modeDone else (s.lorTrans, s)

/-- Owner scope. -/
def modeSetOwner (s : State) (n own target kind : Nat) : LorRes × State :=
  let st := (s.owner own).st
  if 8 ≤ own ∨ !s.ownerDef own then (badParam 1, s)
  else if n ≠ 0 ∧ n ≠ own then (s.lorTrans, s)
  else if target = 5 then
    if st = .stopped then s.modeDone
    else if st = .held ∧ n ≠ 0 then (s.lorTrans, s)
    else (s.ownerStop own).modeDone
  else if target = 6 then
    if (st = .stopped ∨ (st = .held ∧ n = 0)) ∧ s.startable own ∧ (s.owner own).startPend.isNone then
      (s.setOwner own { s.owner own with startPend := some (kind == 2), startFrom := s.now }).modeDone
    else (s.lorTrans, s)
  else (s.lorTrans, s)

/-- Pair scope: a planned switch-over, answered once it is decided. -/
def modeSetPair (s : State) (k n seq target : Nat) : LorRes × State :=
  if n = 0 ∧ target = 6 then
    match s.switchCmd 5 with
    | (true, s) => (none, s.setRed { s.red with swWait := some (k, seq) })
    | (false, s) => (s.lorTrans, s)
  else (s.lorTrans, s)

/-- MODE_SET. -/
def lorModeSet (s : State) (k n seq scope own target kind : Nat) : LorRes × State :=
  if 2 < scope then (badParam 0, s)
  else if (scope ≠ 2 ∨ target ≠ 6) ∧ !modeKindOk target kind then (badParam 3, s)
  else if scope = 0 then s.modeSetDevice n target kind
  else if scope = 1 then s.modeSetOwner n own target kind
  else s.modeSetPair k n seq target

/-- PLUMB (R451). -/
def lorPlumb (s : State) (t : Nat) : LorRes × State :=
  if t = 0 then let s := s.plumbNow; (lorOk (leBytes 8 (s.rd64 Reg.FLT_PLUMBAT)), s)
  else (lorOk (leBytes 8 t), (s.setFlt { s.flt with plumb := some t }).setBit Reg.FLT_STAT 4 true)

/-! ### Executing a request -/

/-- Is the command reserved to O0, or does the block mask refuse it (R25, R346)? -/
def lorDenied (s : State) (n : Nat) (c : LorCmd) : Bool :=
  let o0 := match c with
    | .almRead .. | .almFreeze .. | .scnLoad .. | .scnCommit | .scnConfirm | .scnRollback | .plumb .. => true
    | _ => false
  let blk := match c with
    | .imgRead .. | .imgWrite .. | .imgForce .. => some 2
    | .nvsRead .. | .nvsWrite .. => some 13
    | .arcRead .. | .arcTrig .. => some 4
    | _ => none
  (o0 && n != 0) || (match blk with | some b => !s.blockPerm n b | none => false)

/-- A request of session `k` for owner `n` is executed (Table 14.5). -/
def lorDo (s : State) (k n seq flags stamp : Nat) (c : LorCmd) : LorRes × State :=
  if s.lorDenied n c then (lorNo 4 0, s) else
  let okFlags := match c with | .scnLoad .. => decide (flags ≤ 1) | _ => decide (flags = 0)
  if !okFlags then let (v, s) := s.fresh; (badParam v, s) else
  match c with
  | .status => (lorOk (s.lorStatus k n), s)
  | .close => (lorOk [], s)
  | .imgRead sp rows first => s.lorImgRead n sp rows first
  | .imgWrite es => s.lorImgWrite n stamp es
  | .imgForce es => s.lorImgForce n es
  | .regRead as => s.lorRegRead k as
  | .regWrite es => s.lorRegWrite k es
  | .nvsRead r len off pw => s.lorNvsRead n r len off pw
  | .nvsWrite r len off pw bs => s.lorNvsWrite n r len off pw bs
  | .almRead count first => s.lorAlmRead count first
  | .almFreeze op => s.lorAlmFreeze k op
  | .arcRead sub most lo hi cur => s.lorArcRead n sub most lo hi cur
  | .arcTrig t p q => s.lorArcTrig n stamp t p q
  | .splLoad off bs => s.lorSplLoad k n seq off bs
  | .splApply o => s.lorSplApply n o
  | .splConfirm o => s.lorSplConfirm n o
  | .splRollback o => s.lorSplRollback n o
  | .scnLoad off bs bad => s.lorScnLoad k off bs (bit flags 0) bad
  | .scnCommit => scnAnswer s.scnCommit
  | .scnConfirm => scnAnswer s.scnConfirm
  | .scnRollback => scnAnswer s.scnRollback
  | .modeSet sc o t kd => s.lorModeSet k n seq sc o t kd
  | .plumb t => s.lorPlumb t

/-- A request's answer: stored and sent, or waited for; a session that the command ended only sends it. -/
def lorFinish (s : State) (k seq : Nat) (c : LorCmd) (r : LorRes) : State :=
  match r with
  | none => s.setSess k { s.sess k with waiting := some seq }
  | some (st, d, b) =>
    if !s.sessLive k then s.emit (.lorat k seq (lorCode c) st d b)
    else
      let s := s.lorAnswer k seq (lorCode c) st d b
      match c with
      | .close => if st = 0 then s.lorEnd k else s
      | _ => s

/-- A request is executed, within 100 µs (R342, R343). -/
def lorExec (s : State) (k seq flags stamp : Nat) (c : LorCmd) : State :=
  let (w, s) := s.fresh
  let s := s.advance (s.now + w % (us 100 + 1))
  let n := (s.sess k).owner
  let s := s.setSess k { s.sess k with h := seq }
  let s := if k ≤ 64 then s.bump (Reg.NET_LSREQ k) 1 else s
  let (r, s) := s.lorDo k n seq flags stamp c
  s.lorFinish k seq c r

/-- May the session execute now: not in Handover (R336), and not while an answer waits (R343)? -/
def lorReady (s : State) (k : Nat) : Bool := s.lorServed && s.ms.mode != .handover && (s.sess k).waiting.isNone

/-- A held request that now follows in order, if any (R342). -/
def lorNext (s : State) (k : Nat) : Option HeldReq :=
  if s.lorReady k then (s.sess k).held.find? (fun x => x.seq == (s.sess k).h + 1) else none

/-- Execute one held request that follows, the lowest session first. -/
def lorPumpOne (s : State) : State :=
  match s.lor.findSome? (fun e => (s.lorNext e.1).map (fun x => (e.1, x))) with
  | none => s
  | some (k, x) =>
    let s := s.setSess k { s.sess k with held := (s.sess k).held.erase x }
    s.lorExec k x.seq x.flags x.stamp x.cmd

/-- Execute the held requests that follow, in turn. -/
def lorPumpN (s : State) : Nat → State
  | 0 => s
  | n + 1 => lorPumpN s.lorPumpOne n

def lorPump (s : State) : State := s.lorPumpN (s.lor.foldl (fun a e => a + e.2.held.length) 0)

/-! ### Datagrams (R337, R341, R342, R354) -/

/-- Table 14.2. -/
def lorSeq (s : State) (k : Nat) (h : LorHead) (c : LorCmd) (exec : State → State) : State :=
  let x := s.sess k
  if h.seq = 0 ∨ x.h + 16 < h.seq ∨ h.seq + 16 ≤ x.h then s.lorBad k
  else if h.seq ≤ x.h then
    match x.stored.find? h.seq with
    | none => s
    | some r =>
      let s := s.emit (.lorat k h.seq r.cmd r.status r.detail r.body)
      if k ≤ 64 then s.bump (Reg.NET_LSRETRY k) 1 else s
  else if h.seq = x.h + 1 ∧ s.lorReady k then exec s
  else if x.held.any (fun y => y.seq == h.seq) then s
  else s.setSess k { x with held := x.held ++ [{ seq := h.seq, stamp := h.stamp, at_ := s.mono, flags := h.flags, cmd := c }] }

/-- A request datagram on a session port. A datagram that names a free session counts for O0. -/
def lorRequest (s : State) (h : LorHead) (c : LorCmd) : State :=
  let k := h.session
  let s := s.advance h.stamp
  if k = 0 ∨ 64 < k ∨ !s.sessLive k then s.secEvent 0
  else if !h.fmt then s.lorBad k
  else if !h.tag then (s.lorBad k).secEvent (s.sess k).owner
  else
    let x := s.sess k
    let s := if x.half && h.seq == 1 then s.setSess k { x with half := false, isOpen := true, lastAt := s.mono }
      else if x.isOpen then s.setSess k { x with lastAt := s.mono }
      else s
    s.lorSeq k h c (fun s => s.lorExec k h.seq h.flags h.stamp c)

/-- What Recovery serves (R354). -/
def recovDo (s : State) (k flags : Nat) (c : LorCmd) : LorRes × State :=
  match c with
  | .status => if flags ≠ 0 then (let (v, s) := s.fresh; (badParam v, s)) else (lorOk (s.lorStatus 0 0), s)
  | .scnLoad off bs bad =>
    if 1 < flags then (let (v, s) := s.fresh; (badParam v, s)) else s.lorScnLoad k off bs (bit flags 0) bad
  | .scnCommit => if flags ≠ 0 then (let (v, s) := s.fresh; (badParam v, s)) else scnAnswer s.scnCommit
  | _ => (lorNo 6 0, s)

/-- A request of a remote endpoint in Recovery; a commit restarts the module after its answer (R64). -/
def recovExec (s : State) (k seq flags : Nat) (c : LorCmd) : State :=
  let (w, s) := s.fresh
  let s := s.advance (s.now + w % (us 100 + 1))
  let s := s.setSess k { s.sess k with h := seq }
  let (r, s) := s.recovDo k flags c
  let s := s.lorFinish k seq c r
  if c = .scnCommit ∧ r.any (fun x => x.1 == 0) then s.recoveryCommitted else s

/-- Executing the requests that follow in order, for a remote endpoint in Recovery. -/
def recovPump (s : State) (k : Nat) : Nat → State
  | 0 => s
  | n + 1 =>
    match (s.sess k).held.find? (fun x => x.seq == (s.sess k).h + 1) with
    | none => s
    | some x =>
      let s := s.setSess k { s.sess k with held := (s.sess k).held.erase x }
      recovPump (s.recovExec k x.seq x.flags x.cmd) k n

/-- A request datagram in Recovery: no session, no tag, on the service ports (R354). -/
def recovRequest (s : State) (h : LorHead) (c : LorCmd) : State :=
  let k := 128 + h.ep
  let s := s.advance h.stamp
  if !h.fmt || h.session != 0 || !(h.port == 128 || h.port == 129 || h.port == 130) then s
  else
    let s := s.setSess k { s.sess k with isOpen := true, port := h.port, v6 := h.v6, lastAt := s.mono }
    let x := s.sess k
    if h.seq = x.h + 1 then (s.recovExec k h.seq h.flags c).recovPump k 16
    else s.lorSeq k h c (fun s => s)

/-- Is the port one that serves sessions (R336)? -/
def lorPort (p : Nat) : Bool := (decide (96 ≤ p) && decide (p ≤ 123)) || p == 128 || p == 129

/-- A request datagram, in any mode (R336). -/
def lorRun (s : State) (h : LorHead) (c : LorCmd) : State :=
  if s.ms.mode = .recovery then s.recovRequest h c
  else if s.lorServed && lorPort h.port then s.lorRequest h c
  else s

/-! ### Opening and time-outs (R339, R341, R342) -/

/-- OPEN fails a condition: REJECT, and the named owner's security counter. -/
def openReject (s : State) (n code : Nat) : State :=
  let s := s.emit (.open_ 0 code)
  if n < 8 then s.secEvent n else s.secEvent 0

/-- The lowest free session number. -/
def freeSession (s : State) : Option Nat := ((List.range 64).map (· + 1)).find? (fun k => !s.sessLive k)

/-- OPEN for an owner under a key serial. -/
def lorOpen (s : State) (h : LorHead) (n serial : Nat) : State :=
  if !s.lorServed || !lorPort h.port then s else
  let s := s.advance h.stamp
  if !h.fmt || h.session != 0 then s.secEvent 0
  else if 8 ≤ n ∨ !s.ownerDef n then s.openReject n 1
  else if s.curSlot.scn.auth.find? n ≠ some serial then s.openReject n 2
  else match s.freeSession with
    | none => s.openReject n 3
    | some k =>
      if 16 ≤ (s.lor.filter (fun e => e.2.owner == n && decide (e.1 ≤ 64))).length then s.openReject n 4
      else
        let s := forEach ([Reg.NET_LSREQ k, Reg.NET_LSRETRY k, Reg.NET_LSBAD k] : List Nat) (fun s a => s.clr a) s
        let s := s.setSess k { half := true, owner := n, v6 := h.v6, port := h.port, lastAt := s.mono }
        s.emit (.open_ k n)

/-- 2 s pass after OPEN-ACK without a request of SEQ 1 (R341). -/
def halfOpenTimeout (s : State) (k : Nat) : State :=
  if (s.sess k).half then (s.advanceMono ((s.sess k).lastAt + 2 * secU)).lorEnd k else s

/-- 60 s pass without a request whose tag verifies (R341). -/
def sessionTimeout (s : State) (k : Nat) : State :=
  let x := s.sess k
  if x.isOpen && decide (1 ≤ k) && decide (k ≤ 64) then (s.advanceMono (x.lastAt + 60 * secU)).lorEnd k else s

/-- A request has been held for 500 ms out of order (R342): it is discarded without answer. -/
def heldTimeout (s : State) (k : Nat) : State :=
  let late (x : LorSess) : List HeldReq := x.held.filter (fun y => y.seq != x.h + 1)
  match (late (s.sess k)).foldl (fun (a : Option Nat) y => match a with | none => some y.at_ | some t => some (min t y.at_)) none with
  | none => s
  | some t =>
    let s := s.advanceMono (t + msec 500)
    let x := s.sess k
    s.setSess k { x with held := x.held.filter (fun y => y.seq == x.h + 1 || decide (s.mono < y.at_ + msec 500)) }

end State

end Sys2Proof.Machine
end

