-- ==== Sys2Proof/Machine/RedXfer.lean ====
section
/-! DEFINITION. Forwarded rows, ring entries and instants, and the state transfer of a joiner (R243, R244, R260). -/
namespace Sys2Proof.Machine

namespace State

/-- A forwarded version is installed as a source write with the active's stamp (R243). -/
def installFwd (s : State) (row : Nat) (mask val : Row) (stamp writer : Nat) : State :=
  match s.rowPlace row with
  | some (n, 0) => (((s.healWords row mask).install n 0 row val mask stamp writer false).2).bump64 Reg.RED_FWDCNT 1
  | _ => s

/-- ROWS on the standby: installed in the active's order; a joiner queues them until the cut (R150, Table 10.8). The latency is an open value of at most
6 µs (R244, R262). -/
def rowsRx (s : State) (l : List (Nat × Nat × Nat × Row × Row)) : State :=
  if !s.isStandby then s
  else if s.ms.mode = .handover then
    s.setRed { s.red with rowQ := s.red.rowQ ++ l.map (fun r => (r.1, r.2.2.2.1, r.2.2.2.2, r.2.2.1, r.2.1)) }
  else
    let (v, s) := s.fresh
    let s := s.maxReg Reg.RED_FWDLAT (v % 6001)
    forEach l (fun s r => s.installFwd r.1 r.2.2.2.1 r.2.2.2.2 r.2.2.1 r.2.1) s

/-- RINGE on the standby: the entry at the same index (R243). -/
def ringeRx (s : State) (q esize pidx : Nat) (bytes : List Byte) : State :=
  match s.ringOwner q with
  | none => s
  | some n =>
    let c := s.ringCfg q
    if !s.isStandby || !c.defined || c.esize != esize then s else
    let i := (pidx + 2 ^ 32 - 1) % 2 ^ 32
    let s := s.ringSet q i (s.ringC q)
    match s.hwWrite n (s.ringSlot q i) ((bytes ++ List.replicate (ringEsize c) 0).take (ringEsize c)) with
    | (true, s) => s.ringAdvance q
    | (false, s) => ((s.ringSet q pidx (s.ringC q)).ringDrop q).setBit (Reg.RING_STAT q) 9 true

/-- EVENT on the standby: the event instant of the bound tasks is the active's store instant plus the guard (R244). -/
def eventRx (s : State) (k instant : Nat) : State :=
  match s.canOwner k with
  | none => s
  | some n => if s.isStandby then s.postBound 4 k (instant * 65536 + us (s.imgf n).guardUs) else s

/-! ### State transfer (R260) -/

/-- The active's annex replaces the joiner's (Table 10.8 step 1); its confirmed splices the joiner has not are replayed, and an unconfirmed one's code is
put in place. -/
def xferAnnex (s : State) (n num : Nat) (recs : List (Nat × List Byte)) : State :=
  let mine := (s.annex n).map (fun r => r.pkg.seq)
  let s := forEach recs (fun s r =>
    let p := splParse r.2
    if r.1 = 6 then (if mine.contains p.seq then s else s.splReplay n p)
    else s.splAccept n r.2) s
  let s := s.setAnnex n (recs.map (fun r => { state := r.1, pkg := splParse r.2 }))
  let s := s.setCurSlot { s.curSlot with splNum := s.curSlot.splNum.insert n num }
  s.annexRegs n

/-- The active's splice state: an applied one takes its values and what is left of its window. -/
def xferSpl (s : State) (n st left : Nat) : State :=
  if st = 4 then
    let p := s.splPkg n
    let x := s.splice n
    let s := s.setSplice n { x with prevTasks := p.targets.map (fun t => (t.task, s.taskCfg t.task)), winEnd := s.mono + left * secU }
    let s : State := { s with cfg := { s.cfg with tasks := s.splTasks p } }
    (s.withSizes n (splSizes (s.cnst n) p)).setSplSt n 4
  else s.setSplSt n st

def ownStOf (code : Nat) : OwnSt := match code with | 0 => .stopped | 1 => .running | 2 => .held | _ => .undef

/-- One item of an XFER message (Table 10.3, Table 10.8 step 3). -/
def xferItem (s : State) (n : Nat) (it : XferItem) : State :=
  match it with
  | .line va data => s.ownWrite n va data (BitVec.allOnes 512) (s.vaSpace n va == some 6)
  | .row row val stamp writer => s.setRow row { cur := { bits := val, stamp := stamp, inst := s.now, writer := writer } }
  | .sem row val => { s with img := { s.img with sem := s.img.sem.set 0 row val } }
  | .ctx k stack rstack pc epoch wait staged =>
    let w := wait.map (fun w => { kind := w.1, tmo := w.2.1, id := w.2.2.1, deadline := w.2.2.2 : WaitDesc })
    let st := staged.foldl (fun m r => SMap.insert m r.1 (r.2.1, r.2.2)) ([] : SMap (Row × Row))
    s.setTask k { st := if w.isSome then .waiting else .idle, ctx := { stack := stack, rstack := rstack, pc := pc }, relAt := epoch, everRel := true,
                  staged := st, wait := w }
  | .loop i iT f x u y r pend =>
    let s := (((s.wr (Reg.LOP_I i) iT).wr (Reg.LOP_F i) f).wr (Reg.LOP_X i) x).wr (Reg.LOP_U i) u
    let s := (s.wr (Reg.LOP_YHAT i) y).setFld (Reg.LOP_STAT i) 0 3 r
    s.setLoop i { s.loop i with pend := pend, init := false }
  | .ring q en p c =>
    let s := (s.ringSet q p c).setFld (Reg.RING_STAT q) 0 4 en
    s.setBit (Reg.RING_CTL q) 0 (bit en 0)
  | .own st tokens => (s.setOwnerSt n (ownStOf st)).setOwner n { s.owner n with st := ownStOf st, tokens := tokens }
  | .annex num recs => s.xferAnnex n num recs
  | .spl st left => s.xferSpl n st left

/-- An XFER message to the joiner: `kind` as Table 10.3; for 6 the bytes the pass sent, for 7 the instant Q in the 64-bit form. -/
def xferRx (s : State) (kind n count : Nat) (items : List XferItem) : State :=
  if !s.red.joiner || s.ms.mode != .handover then s else
  let s := if s.fld Reg.RED_XFER 0 3 = 1 then (s.xferPhase 2).setRed { s.red with xferAt := s.mono } else s
  let s := forEach items (fun s it => s.xferItem n it) s
  if kind = 6 then
    let s := s.setFld Reg.RED_XFER 16 8 (min 255 (s.fld Reg.RED_XFER 16 8 + 1))
    if count < 65536 ∧ s.fld Reg.RED_XFER 0 3 = 2 then (s.xferPhase 3).setRed { s.red with xferAt := s.mono } else s
  else if kind = 7 then
    let q := s.red.rowQ
    let s := (s.xferPhase 4).setRed { s.red with rowQ := [], xferQ := some (count * 65536) }
    forEach q (fun s r => s.installFwd r.1 r.2.1 r.2.2.1 r.2.2.2.1 r.2.2.2.2) s
  else s

/-- Q + 25 µs: the joiner enters Shadow (R260, R40); its first releases are those at or after that instant. -/
def xferShadow (s : State) : State :=
  match s.red.xferQ with
  | none => s
  | some q =>
    if !s.red.joiner || s.ms.mode != .handover then s else
    let s := s.advance (q + us 25)
    let s := ((s.xferPhase 5).redFlag 4 false).setRed { s.red with joiner := false, xferQ := none, own := [] }
    let s := (s.setMs { s.ms with hoFrom := none, runStart := s.now }).enterMode .shadow 0
    let run := s.ownersIn .running
    let s := forEach run (fun s n => s.pubStart n) s
    let s := forEach run (fun s n =>
      forEach (s.tasksOf n) (fun s k =>
        if (s.taskCfg k).event then s else s.setTask k { s.task k with nextB := some (s.nextBoundary k (s.now - 1)) }) s) s
    s.mgtEngReset.handoverEnd

/-- Does a window of 25 µs from now hold no running, ready or preempted task, no release, no loop sample and no commit (Table 10.8 step 4)? -/
def cutWindow (s : State) : Bool :=
  let e := s.now + us 25
  s.img.commits.isEmpty &&
  s.cfg.tasks.all (fun p =>
    let x := s.task p.1
    (x.st == .idle || x.st == .waiting) && x.pend.isNone && x.events.isEmpty && (match x.nextB with | some b => decide (e ≤ b) || !s.releasable p.2.owner | none => true)) &&
  s.loopsTimed.all (fun l => decide (e ≤ l.2))

/-- The active finds the cut instant Q, now, and sends the final changes and kind 7 (Table 10.8 steps 4 and 5). -/
def xferCut (s : State) : State :=
  if !s.ms.active || s.ms.mode != .run || s.fld Reg.RED_STAT 4 1 != 1 || !s.cutWindow then s else
  let s := (s.redSend 0x12 [7, form64 s.now]).setRed { s.red with xferQ := some s.now }
  s.xferPhase 4

/-- A wait of the transfer exceeds its limit (Table 10.8): 10 s in step 2, 60 s in step 3, 10 s in step 4. -/
def xferTimeout (s : State) : State :=
  if !s.red.joiner then s else
  let p := s.fld Reg.RED_XFER 0 3
  if p = 1 then (s.advanceMono (s.red.xferAt + 10 * secU)).xferFail (if s.partnerActive && s.red.pMode == 6 then 4 else 3)
  else if p = 2 then (s.advanceMono (s.red.xferAt + 60 * secU)).xferFail 6
  else if p = 3 then (s.advanceMono (s.red.xferAt + 10 * secU)).xferFail 5
  else s

/-- STARTWAIT passes without a HELLO (R240): the pending start no longer waits. -/
def startWaitDone (s : State) : State :=
  match s.red.startAt with
  | some t => if s.startPending && !s.ms.paired then (s.advanceMono t).setRed { s.red with startAt := none } else s
  | none => s

end State

end Sys2Proof.Machine
end

