-- ==== Sys2Proof/Machine/Act.lean ====
section
/-! DEFINITION. How a command ends: what it brings about at once is carried out (reactions of the sources it fired, drains that are over, forced rollbacks, digests to
compare, Lorat requests that follow) before the next command. -/
namespace Sys2Proof.Machine

namespace State

/-- One round of what follows at once. -/
def settleOnce (s : State) : State := s.takeFirings.settleDrains.splForcedDue.rollbackForced.redCompare.lorPump

/-- Rounds until FLT has taken every firing; what is left then waits for the next command. -/
def settleN (s : State) : Nat → State
  | 0 => s
  | k + 1 => let s := s.settleOnce; if s.raised.isEmpty then s else settleN s k

/-- Carry out what follows at once. -/
def settle (s : State) : State := s.settleN (s.raised.length + 64)

end State

/-- A command's effect and what follows from it at once, on everything but the queue of waiting commands. -/
def act (f : State → State) (s : State) : Host.Outcome State Fault Refusal := .next { (f s).settle with pending := s.pending }

end Sys2Proof.Machine
end

