-- ==== Sys2Proof/Machine/CmdBus.lean ====
section
/-! DEFINITION. Register accesses as commands (chapter 1). -/
namespace Sys2Proof.Machine

/-- REGISTER_WRITE (R7, R10, R26). -/
def execRegisterWrite (r : Req) (a v : Nat) (s : State) : Host.Outcome State Fault Refusal :=
  act (fun s => s.busPut r a v) s

/-- RC_REGISTER_READ (R12): a read; its RC fields clear. -/
def execRcRegisterRead (r : Req) (a : Nat) (s : State) : Host.Outcome State Fault Refusal :=
  act (fun s => s.busGet r a) s

/-- RL_LOW_READ (R9): a read; the low word of a quantity latches its high word. -/
def execRlLowRead (r : Req) (a : Nat) (s : State) : Host.Outcome State Fault Refusal :=
  act (fun s => s.busGet r a) s

end Sys2Proof.Machine
end

