-- ==== Sys2Proof/Machine/CmdCan.lean ====
section
/-! DEFINITION. The CAN commands (chapter 16). -/
namespace Sys2Proof.Machine

namespace State

/-- CAN_CTL's EN and MODE as they stand. -/
def canCtlNow (s : State) (k : Nat) : Nat := s.fld (Reg.CAN_CTL k) 0 3

/-- At a 1 ms boundary TIM latches the capture registers of every controller (R391). -/
def canCaptureAll (s : State) : State :=
  let s := s.advance (nextMultiple (msec 1) s.now)
  forEach (List.range 32) (fun s k => s.canCapture k) s

end State

/-- CAN_FRAME_RECEIVED (R388). -/
def execCanFrameReceived (k : Nat) (f : CanFrame) (arb : Bool) (s : State) : Host.Outcome State Fault Refusal :=
  act (fun s => s.canReceive k f arb) s

/-- CAN_FRAME_SENT (R390). -/
def execCanFrameSent (k sof tdcv : Nat) (s : State) : Host.Outcome State Fault Refusal :=
  act (fun s => s.canSent k sof tdcv) s

/-- CAN_TXREQ (R390): OBJTXREQ. -/
def execCanTxreq (r : Req) (k j : Nat) (s : State) : Host.Outcome State Fault Refusal :=
  act (fun s => s.busSet r (Reg.OBJTXREQ k j) 1) s

/-- CAN_PERIODIC_TX (R390). -/
def execCanPeriodicTx (k j : Nat) (s : State) : Host.Outcome State Fault Refusal :=
  act (fun s => s.canPeriodic k j) s

/-- CAN_BUS_ERROR (R393): what ISO 11898-1 adds to the counters, and whether the frame was this controller's. -/
def execCanBusError (k dTec dRec : Nat) (ours : Bool) (s : State) : Host.Outcome State Fault Refusal :=
  act (fun s => s.canError k dTec dRec ours) s

/-- CAN_REJOIN (R393). -/
def execCanRejoin (k : Nat) (s : State) : Host.Outcome State Fault Refusal :=
  act (fun s => s.canRejoin k) s

/-- RECOVER (R393): CAN_CTL.RECOVER. -/
def execRecover (r : Req) (k : Nat) (s : State) : Host.Outcome State Fault Refusal :=
  act (fun s => s.busSet r (Reg.CAN_CTL k) (s.canCtlNow k + 256)) s

/-- CAPREQ (R391): CAN_CTL.CAPREQ. -/
def execCapreq (r : Req) (k : Nat) (s : State) : Host.Outcome State Fault Refusal :=
  act (fun s => s.busSet r (Reg.CAN_CTL k) (s.canCtlNow k + 512)) s

/-- CAN_CAPTURE (R391). -/
def execCanCapture (s : State) : Host.Outcome State Fault Refusal :=
  act (fun s => s.canCaptureAll) s

/-- CAN_MODE_WRITE (R392): CAN_CTL.MODE. -/
def execCanModeWrite (r : Req) (k m : Nat) (s : State) : Host.Outcome State Fault Refusal :=
  act (fun s => s.busSet r (Reg.CAN_CTL k) (putBits (s.canCtlNow k) 1 2 m)) s

/-- CAN_DISABLE (R395): CAN_CTL.EN = 0. -/
def execCanDisable (r : Req) (k : Nat) (s : State) : Host.Outcome State Fault Refusal :=
  act (fun s => s.busSet r (Reg.CAN_CTL k) (putBits (s.canCtlNow k) 0 1 0)) s

/-- CAN_ENABLE (R395): CAN_CTL.EN = 1. -/
def execCanEnable (r : Req) (k : Nat) (s : State) : Host.Outcome State Fault Refusal :=
  act (fun s => s.busSet r (Reg.CAN_CTL k) (putBits (s.canCtlNow k) 0 1 1)) s

/-- TRANSCEIVER_FAULT (R397). -/
def execTransceiverFault (k : Nat) (s : State) : Host.Outcome State Fault Refusal :=
  act (fun s => s.canXcvr k) s

end Sys2Proof.Machine
end

