-- ==== Sys2Proof/Machine/CmdFio.lean ====
section
/-! DEFINITION. The commands of field I/O and the loops (chapters 17 and 18). -/
namespace Sys2Proof.Machine

/-- BARRIER_DOWNLINK (R409): 0 received, 1 lost, 2 with a failed CRC. -/
def execBarrierDownlink (kind : Nat) (s : State) : Host.Outcome State Fault Refusal :=
  act (fun s => s.downlink kind) s

/-- BARRIER_UPLINK (R409). -/
def execBarrierUplink (kind term codeA codeB : Nat) (s : State) : Host.Outcome State Fault Refusal :=
  act (fun s => s.uplink kind term codeA codeB) s

/-- INPUT_CHANGE (R401). -/
def execInputChange (k : Nat) (new : Bool) (t : Nat) (s : State) : Host.Outcome State Fault Refusal :=
  act (fun s => s.inputChange k new t) s

/-- SILL_REFRESH_LOST (R411). -/
def execSillRefreshLost (s : State) : Host.Outcome State Fault Refusal :=
  act (fun s => s.sillRefreshLost) s

/-- LOGIC_REFRESH_LOST (R411). -/
def execLogicRefreshLost (s : State) : Host.Outcome State Fault Refusal :=
  act (fun s => s.logicRefreshLost) s

/-- GROUP_SUPPLY_FAULT (R399). -/
def execGroupSupplyFault (g volt : Nat) (s : State) : Host.Outcome State Fault Refusal :=
  act (fun s => s.supplyFault g volt) s

/-- GROUP_SUPPLY_RETURN (R399). -/
def execGroupSupplyReturn (g volt : Nat) (s : State) : Host.Outcome State Fault Refusal :=
  act (fun s => s.supplyReturn g volt) s

/-- OUTPUT_FAULT (R405). -/
def execOutputFault (k kind : Nat) (s : State) : Host.Outcome State Fault Refusal :=
  act (fun s => s.outputFault k kind) s

/-- OUTPUT_RETRY (R405). -/
def execOutputRetry (k : Nat) (still : Bool) (s : State) : Host.Outcome State Fault Refusal :=
  act (fun s => s.outputRetry k still) s

/-- COMPLIANCE_LOST (R407). -/
def execComplianceLost (k : Nat) (s : State) : Host.Outcome State Fault Refusal :=
  act (fun s => s.complianceLost k) s

/-- COMPLIANCE_RESTORED (R407). -/
def execComplianceRestored (k : Nat) (s : State) : Host.Outcome State Fault Refusal :=
  act (fun s => s.complianceBack k) s

/-- CALIBRATION_WRITE (R415): thresholds (0), gain (1) or offset (2) trims. -/
def execCalibrationWrite (r : Req) (which k v : Nat) (s : State) : Host.Outcome State Fault Refusal :=
  act (fun s => s.busSet r (if which = 0 then Reg.FIO_DTHR k else if which = 1 then Reg.FIO_ATRIMG k else Reg.FIO_ATRIMO k) v) s

/-- LOOP_SAMPLE (R420). -/
def execLoopSample (s : State) : Host.Outcome State Fault Refusal :=
  act (fun s => s.loopSample) s

/-- LOOP_DISABLE (R432): LOP_CTL.EN = 0. -/
def execLoopDisable (r : Req) (i : Nat) (s : State) : Host.Outcome State Fault Refusal :=
  act (fun s => s.busSet r (Reg.LOP_CTL i) 0) s

/-- LOOP_ENABLE (R429, R432): LOP_CTL.EN = 1. -/
def execLoopEnable (r : Req) (i : Nat) (s : State) : Host.Outcome State Fault Refusal :=
  act (fun s => s.busSet r (Reg.LOP_CTL i) 1) s

end Sys2Proof.Machine
end

