-- ==== Sys2Proof/Machine/CmdFlt.lean ====
section
/-! DEFINITION. The commands of faults and watchdogs (chapter 19). -/
namespace Sys2Proof.Machine

namespace State

/-- A source fires (R438) with the task and details of its history entry. -/
def firing (s : State) (src task det1 det2 : Nat) : State := if srcAssigned src then s.raise src task det1 det2 else s

end State

/-- FAULT_FIRING (R438, R441). -/
def execFaultFiring (src task det1 det2 : Nat) (s : State) : Host.Outcome State Fault Refusal :=
  act (fun s => s.firing src task det1 det2) s

/-- HISTORY_WRITE (R445). -/
def execHistoryWrite (s : State) : Host.Outcome State Fault Refusal :=
  act (fun s => s.historyWrite) s

/-- STORM_END (R445). -/
def execStormEnd (s : State) : Host.Outcome State Fault Refusal :=
  act (fun s => s.stormEnd) s

/-- SOURCE_INACTIVE (R439). -/
def execSourceInactive (src : Nat) (s : State) : Host.Outcome State Fault Refusal :=
  act (fun s => s.sourceInactive src) s

/-- FORCE (R443): FLT_SFORCE.FORCE. -/
def execForce (r : Req) (src : Nat) (v : Bool) (s : State) : Host.Outcome State Fault Refusal :=
  act (fun s => s.busSet r (Reg.FLT_SFORCE src) (b2n v)) s

/-- CLR (R446): FLT_FECLR.CLR. -/
def execClr (r : Req) (s : State) : Host.Outcome State Fault Refusal :=
  act (fun s => s.busSet r Reg.FLT_FECLR 1) s

/-- NOW_PLUMB (R451): FLT_PLUMBCTL.NOW. -/
def execNowPlumb (r : Req) (s : State) : Host.Outcome State Fault Refusal :=
  act (fun s => s.busSet r Reg.FLT_PLUMBCTL 1) s

/-- ARM_PLUMB (R451): FLT_PLUMBCTL.ARM. -/
def execArmPlumb (r : Req) (s : State) : Host.Outcome State Fault Refusal :=
  act (fun s => s.busSet r Reg.FLT_PLUMBCTL 2) s

/-- CANCEL_PLUMB (R451): FLT_PLUMBCTL.CANCEL. -/
def execCancelPlumb (r : Req) (s : State) : Host.Outcome State Fault Refusal :=
  act (fun s => s.busSet r Reg.FLT_PLUMBCTL 4) s

/-- SCHEDULED_PLUMB (R451). -/
def execScheduledPlumb (s : State) : Host.Outcome State Fault Refusal :=
  act (fun s => s.plumbDue) s

/-- WDG_WINDOW_OPEN (R455). -/
def execWdgWindowOpen (w : Nat) (s : State) : Host.Outcome State Fault Refusal :=
  act (fun s => s.wdgWindow w) s

/-- WDG_EXPIRY (R457). -/
def execWdgExpiry (w : Nat) (s : State) : Host.Outcome State Fault Refusal :=
  act (fun s => s.wdgExpire w) s

/-- SERVICE_ARM (R455): key 0x5A3C. -/
def execServiceArm (r : Req) (w : Nat) (s : State) : Host.Outcome State Fault Refusal :=
  act (fun s => s.busSet r (Reg.WDG_KEY w) 0x5A3C) s

/-- SERVICE (R455): key 0xC3A5. -/
def execService (r : Req) (w : Nat) (s : State) : Host.Outcome State Fault Refusal :=
  act (fun s => s.busSet r (Reg.WDG_KEY w) 0xC3A5) s

/-- DISABLE_ARM (R455): key 0x96E1. -/
def execDisableArm (r : Req) (w : Nat) (s : State) : Host.Outcome State Fault Refusal :=
  act (fun s => s.busSet r (Reg.WDG_KEY w) 0x96E1) s

/-- WDG_DISABLE (R455): key 0x691E. -/
def execWdgDisable (r : Req) (w : Nat) (s : State) : Host.Outcome State Fault Refusal :=
  act (fun s => s.busSet r (Reg.WDG_KEY w) 0x691E) s

/-- WDG_PERIOD (R456). -/
def execWdgPeriod (r : Req) (w v : Nat) (s : State) : Host.Outcome State Fault Refusal :=
  act (fun s => s.busSet r (Reg.WDG_PERIOD w) v) s

/-- WDG_ENABLE (R456): WDG_CTL.EN = 1. -/
def execWdgEnable (r : Req) (w : Nat) (s : State) : Host.Outcome State Fault Refusal :=
  act (fun s => s.busSet r (Reg.WDG_CTL w) 1) s

/-- WDG_LOCK (R456): WDG_CTL.LOCK = 1. -/
def execWdgLock (r : Req) (w : Nat) (s : State) : Host.Outcome State Fault Refusal :=
  act (fun s => s.busSet r (Reg.WDG_CTL w) 2) s

/-- WDG_FALLBACK (R453). -/
def execWdgFallback (w : Nat) (s : State) : Host.Outcome State Fault Refusal :=
  act (fun s => s.wdgFallback w) s

/-- WDG_TIMEBASE_RETURN (R453). -/
def execWdgTimebaseReturn (w : Nat) (s : State) : Host.Outcome State Fault Refusal :=
  act (fun s => s.wdgReturn w) s

end Sys2Proof.Machine
end

