-- ==== Sys2Proof/Machine/CmdLor.lean ====
section
/-! DEFINITION. The Lorat commands (chapter 14): sessions, and each request as a datagram brings it. -/
namespace Sys2Proof.Machine

/-- OPEN (R339). -/
def execOpen (h : LorHead) (n serial : Nat) (s : State) : Host.Outcome State Fault Refusal :=
  act (fun s => s.lorOpen h n serial) s

/-- HALF_OPEN_TIMEOUT (R341). -/
def execHalfOpenTimeout (k : Nat) (s : State) : Host.Outcome State Fault Refusal :=
  act (fun s => s.halfOpenTimeout k) s

/-- SESSION_TIMEOUT (R341). -/
def execSessionTimeout (k : Nat) (s : State) : Host.Outcome State Fault Refusal :=
  act (fun s => s.sessionTimeout k) s

/-- HELD_REQUEST_TIMEOUT (R342). -/
def execHeldRequestTimeout (k : Nat) (s : State) : Host.Outcome State Fault Refusal :=
  act (fun s => s.heldTimeout k) s

/-- STATUS (R346) as a request of a Lorat session. -/
def execStatus (h : LorHead) (s : State) : Host.Outcome State Fault Refusal :=
  act (fun s => s.lorRun h .status) s

/-- CLOSE (R341) as a request of a Lorat session. -/
def execClose (h : LorHead) (s : State) : Host.Outcome State Fault Refusal :=
  act (fun s => s.lorRun h .close) s

/-- IMG_READ (R347) as a request of a Lorat session. -/
def execImgRead (h : LorHead) (space rows first : Nat) (s : State) : Host.Outcome State Fault Refusal :=
  act (fun s => s.lorRun h (.imgRead space rows first)) s

/-- IMG_WRITE (R348) as a request of a Lorat session. -/
def execImgWrite (h : LorHead) (entries : List (Nat × Row × Row)) (s : State) : Host.Outcome State Fault Refusal :=
  act (fun s => s.lorRun h (.imgWrite entries)) s

/-- IMG_FORCE (R349) as a request of a Lorat session. -/
def execImgForce (h : LorHead) (entries : List (Nat × Nat × Nat × Row × Row)) (s : State) : Host.Outcome State Fault Refusal :=
  act (fun s => s.lorRun h (.imgForce entries)) s

/-- REG_READ (R345) as a request of a Lorat session. -/
def execRegRead (h : LorHead) (addrs : List Nat) (s : State) : Host.Outcome State Fault Refusal :=
  act (fun s => s.lorRun h (.regRead addrs)) s

/-- REG_WRITE (R345) as a request of a Lorat session. -/
def execRegWrite (h : LorHead) (entries : List (Nat × Nat)) (s : State) : Host.Outcome State Fault Refusal :=
  act (fun s => s.lorRun h (.regWrite entries)) s

/-- NVS_READ (R464) as a request of a Lorat session. -/
def execNvsRead (h : LorHead) (region len off pw : Nat) (s : State) : Host.Outcome State Fault Refusal :=
  act (fun s => s.lorRun h (.nvsRead region len off pw)) s

/-- NVS_WRITE (R462) as a request of a Lorat session. -/
def execNvsWrite (h : LorHead) (region len off pw : Nat) (bytes : List Byte) (s : State) : Host.Outcome State Fault Refusal :=
  act (fun s => s.lorRun h (.nvsWrite region len off pw bytes)) s

/-- ALM_READ (R476) as a request of a Lorat session. -/
def execAlmRead (h : LorHead) (count first : Nat) (s : State) : Host.Outcome State Fault Refusal :=
  act (fun s => s.lorRun h (.almRead count first)) s

/-- ALM_FREEZE (R477) as a request of a Lorat session. -/
def execAlmFreeze (h : LorHead) (op : Nat) (s : State) : Host.Outcome State Fault Refusal :=
  act (fun s => s.lorRun h (.almFreeze op)) s

/-- ARC_READ (R299, R352) as a request of a Lorat session. -/
def execArcRead (h : LorHead) (sub most lo hi cursor : Nat) (s : State) : Host.Outcome State Fault Refusal :=
  act (fun s => s.lorRun h (.arcRead sub most lo hi cursor)) s

/-- ARC_TRIG (R296) as a request of a Lorat session. -/
def execArcTrig (h : LorHead) (t p q : Nat) (s : State) : Host.Outcome State Fault Refusal :=
  act (fun s => s.lorRun h (.arcTrig t p q)) s

/-- MODE_SET (R350) as a request of a Lorat session. -/
def execModeSet (h : LorHead) (scope owner target kind : Nat) (s : State) : Host.Outcome State Fault Refusal :=
  act (fun s => s.lorRun h (.modeSet scope owner target kind)) s

/-- PLUMB (R451) as a request of a Lorat session. -/
def execPlumb (h : LorHead) (t : Nat) (s : State) : Host.Outcome State Fault Refusal :=
  act (fun s => s.lorRun h (.plumb t)) s

end Sys2Proof.Machine
end

