-- ==== Sys2Proof/Machine/CmdMode.lean ====
section
/-! DEFINITION. The commands of the supply, the modes, owners and the scantling update (chapters 2, 3, 21 and 22). -/
namespace Sys2Proof.Machine

namespace State

/-- LOAD_TIMEOUT: no chunk has come for 10 s (R222, R351); numbers 0 to 7 are an owner's splice load, others the scantling load. -/
def loadTimeout (s : State) (n : Nat) : State := if n < 8 then s.splLoadTimeout n else s.scnLoadTimeout

end State

/-- SUPPLY_VALID (R33, Table 2.3): power-up from Lean toward Stop. -/
def execSupplyValid (p : PowerUp) (s : State) : Host.Outcome State Fault Refusal :=
  act (fun s => s.supplyValid p) s

/-- LEAN_RETRY (R34): the whole of Lean once more. -/
def execLeanRetry (p : PowerUp) (s : State) : Host.Outcome State Fault Refusal :=
  act (fun s => s.leanRetry p) s

/-- CONFIGURE_COMPLETE (R33, R40): Configure ends in Stop, or in Recovery. -/
def execConfigureComplete (s : State) : Host.Outcome State Fault Refusal :=
  act (fun s => s.configureComplete) s

/-- POWER_FAIL_WARNING (R44): the input out for 10 ms, or the bus down; Drain begins. -/
def execPowerFailWarning (cause busMv : Nat) (s : State) : Host.Outcome State Fault Refusal :=
  act (fun s => s.powerFail cause busMv) s

/-- SEATED_LOOP_BREAK (R514). -/
def execSeatedLoopBreak (s : State) : Host.Outcome State Fault Refusal :=
  act (fun s => s.seatedBreak) s

/-- DRAIN_COMPLETE (R45, Table 2.5): `ok` says whether the NVS save image was written whole. -/
def execDrainComplete (ok : Bool) (s : State) : Host.Outcome State Fault Refusal :=
  act (fun s => s.drainDone ok) s

/-- SUPPLY_LOSS_NO_DRAIN (R48). -/
def execSupplyLossNoDrain (s : State) : Host.Outcome State Fault Refusal :=
  act (fun s => s.supplyGone) s

/-- REMOVAL_REQUEST (R47): the switch pressed and held for some ms. -/
def execRemovalRequest (heldMs : Nat) (s : State) : Host.Outcome State Fault Refusal :=
  act (fun s => s.removalRequest heldMs) s

/-- REMOVAL_CONFIRM_TIMEOUT (R47, Table 10.8). -/
def execRemovalConfirmTimeout (s : State) : Host.Outcome State Fault Refusal :=
  act (fun s => s.removalTimeout) s

/-- MODECMD_STOP (R50): MGT_MODECMD with TARGET Stop. -/
def execModecmdStop (r : Req) (kind : Nat) (s : State) : Host.Outcome State Fault Refusal :=
  act (fun s => s.busSet r Reg.MGT_MODECMD (5 + kind % 4 * 16)) s

/-- MODECMD_RUN (R38, R50): MGT_MODECMD with TARGET Run. -/
def execModecmdRun (r : Req) (kind : Nat) (s : State) : Host.Outcome State Fault Refusal :=
  act (fun s => s.busSet r Reg.MGT_MODECMD (6 + kind % 4 * 16)) s

/-- MODECMD_TEST (R50): MGT_MODECMD with TARGET Test. -/
def execModecmdTest (r : Req) (kind : Nat) (s : State) : Host.Outcome State Fault Refusal :=
  act (fun s => s.busSet r Reg.MGT_MODECMD (8 + kind % 4 * 16)) s

/-- MODECMD_DRAIN (R47, R50): MGT_MODECMD with TARGET Drain. -/
def execModecmdDrain (r : Req) (kind : Nat) (s : State) : Host.Outcome State Fault Refusal :=
  act (fun s => s.busSet r Reg.MGT_MODECMD (11 + kind % 4 * 16)) s

/-- RUN_START (R38, R175): the preparation of the pending start completes at instant t. -/
def execRunStart (t : Nat) (s : State) : Host.Outcome State Fault Refusal :=
  act (fun s => s.runStartAt t) s

/-- HOLD_QUIET_EXPIRY (R449). -/
def execHoldQuietExpiry (s : State) : Host.Outcome State Fault Refusal :=
  act (fun s => s.holdExpiry) s

/-- OWNER_QUIET_EXPIRY (R450). -/
def execOwnerQuietExpiry (n : Nat) (s : State) : Host.Outcome State Fault Refusal :=
  act (fun s => s.ownerExpiry n) s

/-- OWNER_STOP (R42). -/
def execOwnerStop (n : Nat) (s : State) : Host.Outcome State Fault Refusal :=
  act (fun s => s.ownerStop n) s

/-- OWNER_START (R43): the pending start of an owner completes at instant t. -/
def execOwnerStart (n t : Nat) (s : State) : Host.Outcome State Fault Refusal :=
  act (fun s => s.ownerStartDone n t) s

/-- SCN_LOAD (R351): a scantling chunk of a Lorat session. -/
def execScnLoad (h : LorHead) (off : Nat) (bytes : List Byte) (bad : Bool) (s : State) : Host.Outcome State Fault Refusal :=
  act (fun s => s.lorRun h (.scnLoad off bytes bad)) s

/-- LOAD_TIMEOUT (R222, R351). -/
def execLoadTimeout (n : Nat) (s : State) : Host.Outcome State Fault Refusal :=
  act (fun s => s.loadTimeout n) s

/-- SCN_COMMIT (R64, R490). -/
def execScnCommit (h : LorHead) (s : State) : Host.Outcome State Fault Refusal :=
  act (fun s => s.lorRun h .scnCommit) s

/-- PLANE_STREAM_DONE (R490). -/
def execPlaneStreamDone (s : State) : Host.Outcome State Fault Refusal :=
  act (fun s => s.planeStreamed) s

/-- PLANE_SWAP (R490): at a quiet point. -/
def execPlaneSwap (s : State) : Host.Outcome State Fault Refusal :=
  act (fun s => s.planeSwap) s

/-- UPDATE_FAIL (R491). -/
def execUpdateFail (s : State) : Host.Outcome State Fault Refusal :=
  act (fun s => s.updateFail) s

/-- SCN_CONFIRM (R492). -/
def execScnConfirm (h : LorHead) (s : State) : Host.Outcome State Fault Refusal :=
  act (fun s => s.lorRun h .scnConfirm) s

/-- SCN_ROLLBACK (R493). -/
def execScnRollback (h : LorHead) (s : State) : Host.Outcome State Fault Refusal :=
  act (fun s => s.lorRun h .scnRollback) s

/-- UPDATE_WINDOW_EXPIRY (R493). -/
def execUpdateWindowExpiry (s : State) : Host.Outcome State Fault Refusal :=
  act (fun s => s.updateExpire) s

/-- ROLLBACK_SWAP (R493): at a quiet point, or at a forced one. -/
def execRollbackSwap (force : Bool) (s : State) : Host.Outcome State Fault Refusal :=
  act (fun s => s.rollbackSwap force) s

/-- MODULE_SEATED (R506). -/
def execModuleSeated (s : State) : Host.Outcome State Fault Refusal :=
  act (fun s => s.moduleSeated) s

/-- STATION_INPUT_OUT_OF_RANGE (R504): the input, in 0.1 V. -/
def execStationInputOutOfRange (v : Nat) (s : State) : Host.Outcome State Fault Refusal :=
  act (fun s => s.inputOut v) s

/-- STATION_INPUT_IN_RANGE (R504): the input, in 0.1 V. -/
def execStationInputInRange (v : Nat) (s : State) : Host.Outcome State Fault Refusal :=
  act (fun s => s.inputBack v) s

end Sys2Proof.Machine
end

