-- ==== Sys2Proof/Machine/CmdNet.lean ====
section
/-! DEFINITION. The network commands (chapter 13). -/
namespace Sys2Proof.Machine

namespace State

/-- The link of a port goes down (R335); of a pair link, its traffic moves (R263). -/
def netLinkDown (s : State) (i : Nat) : State :=
  let s := s.linkDown i
  if 124 ≤ i ∧ i < 128 then s.pairLinkLost (i - 124) else s

/-- The link of a port comes up (R329); of a pair link, RED_LINK shows it. -/
def netLinkUp (s : State) (i : Nat) : State :=
  let s := s.linkUp i
  if 124 ≤ i ∧ i < 128 ∧ s.hasRedn ∧ s.portLink i then s.setBit Reg.RED_LINK (i - 124) true else s

end State

/-- GOOSE_FRAME (R317). -/
def execGooseFrame (h : NetHead) (p : GoosePdu) (s : State) : Host.Outcome State Fault Refusal :=
  act (fun s => s.gooseRx h p) s

/-- GOOSE_TAL_EXPIRY (R319). -/
def execGooseTalExpiry (k : Nat) (s : State) : Host.Outcome State Fault Refusal :=
  act (fun s => s.gsExpire k) s

/-- GOOSE_RETRANSMIT (R322). -/
def execGooseRetransmit (p : Nat) (s : State) : Host.Outcome State Fault Refusal :=
  act (fun s => s.pubRetransmit p) s

/-- SV_FRAME (R325). -/
def execSvFrame (h : NetHead) (p : SvPdu) (s : State) : Host.Outcome State Fault Refusal :=
  act (fun s => s.svRx h p) s

/-- SV_MISS_EXPIRY (R328). -/
def execSvMissExpiry (v : Nat) (s : State) : Host.Outcome State Fault Refusal :=
  act (fun s => s.svExpire v) s

/-- SUPERVISION_FRAME (R313). -/
def execSupervisionFrame (h : NetHead) (s : State) : Host.Outcome State Fault Refusal :=
  act (fun s => s.supervisionRx h) s

/-- SUPERVISION_SEND (R313). -/
def execSupervisionSend (s : State) : Host.Outcome State Fault Refusal :=
  act (fun s => s.supervisionTx) s

/-- DUP_ENTRY_AGING (R311). -/
def execDupEntryAging (s : State) : Host.Outcome State Fault Refusal :=
  act (fun s => s.dupAge) s

/-- UDP_DATAGRAM (R331). -/
def execUdpDatagram (i : Nat) (u : Udp) (stamp : Nat) (s : State) : Host.Outcome State Fault Refusal :=
  act (fun s => s.udpRx i u stamp) s

/-- UDP_SEND (R332). -/
def execUdpSend (n e : Nat) (s : State) : Host.Outcome State Fault Refusal :=
  act (fun s => s.udpTake n e) s

/-- ARP_REQUEST (R329). -/
def execArpRequest (i target sender : Nat) (s : State) : Host.Outcome State Fault Refusal :=
  act (fun s => s.arpRequest i target sender) s

/-- ICMP_ECHO (R329). -/
def execIcmpEcho (i : Nat) (v6 echo : Bool) (dst remote : Nat) (s : State) : Host.Outcome State Fault Refusal :=
  act (fun s => s.icmpEcho i v6 echo dst remote) s

/-- NDP (R329). -/
def execNdp (i kind target : Nat) (s : State) : Host.Outcome State Fault Refusal :=
  act (fun s => s.ndp i kind target) s

/-- NEIGHBOUR_TIMEOUT (R332). -/
def execNeighbourTimeout (i : Nat) (v6 : Bool) (a : Nat) (s : State) : Host.Outcome State Fault Refusal :=
  act (fun s => s.nbrTimeout i v6 a) s

/-- PORT_DISABLE (R306): NET_PCTL.EN = 0. -/
def execPortDisable (r : Req) (i : Nat) (s : State) : Host.Outcome State Fault Refusal :=
  act (fun s => s.busSet r (Reg.NET_PCTL i) 0) s

/-- PORT_ENABLE (R306): NET_PCTL.EN = 1. -/
def execPortEnable (r : Req) (i : Nat) (s : State) : Host.Outcome State Fault Refusal :=
  act (fun s => s.busSet r (Reg.NET_PCTL i) 1) s

/-- LINK_DOWN (R335). -/
def execLinkDown (i : Nat) (s : State) : Host.Outcome State Fault Refusal :=
  act (fun s => s.netLinkDown i) s

/-- LINK_UP (R329). -/
def execLinkUp (i : Nat) (s : State) : Host.Outcome State Fault Refusal :=
  act (fun s => s.netLinkUp i) s

/-- ARP_REPLY (R329). -/
def execArpReply (i a : Nat) (s : State) : Host.Outcome State Fault Refusal :=
  act (fun s => s.nbrReply i false a) s

/-- ARP_REQUEST_REPEAT (R329). -/
def execArpRequestRepeat (i a : Nat) (s : State) : Host.Outcome State Fault Refusal :=
  act (fun s => s.arpRepeat i a) s

/-- ARP_CACHE_AGING (R329). -/
def execArpCacheAging (i : Nat) (s : State) : Host.Outcome State Fault Refusal :=
  act (fun s => s.arpAge i) s

/-- DUPLICATE_ADDRESS_DETECTION_DONE (R329). -/
def execDuplicateAddressDetectionDone (i : Nat) (s : State) : Host.Outcome State Fault Refusal :=
  act (fun s => s.dadDone i) s

end Sys2Proof.Machine
end

