-- ==== Sys2Proof/Machine/CmdNvs.lean ====
section
/-! DEFINITION. The commands of NVS and the Almanac (chapter 20) and of MGT (chapter 21). -/
namespace Sys2Proof.Machine

/-- NVS_PSEL (R467). -/
def execNvsPsel (r : Req) (n region dir : Nat) (s : State) : Host.Outcome State Fault Refusal :=
  act (fun s => s.busSet r (Reg.NVS_PSEL n) (region % 256 + dir % 2 * 256)) s

/-- NVS_PPWD (R467): low word, then the high word that checks the password. -/
def execNvsPpwd (r : Req) (n pw : Nat) (s : State) : Host.Outcome State Fault Refusal :=
  act (fun s => (s.busSet r (Reg.NVS_PPWD n) pw).busSet r (Reg.NVS_PPWD_H n) (pw / 2 ^ 32)) s

/-- NVS_PDATA_READ (R467). -/
def execNvsPdataRead (r : Req) (n : Nat) (s : State) : Host.Outcome State Fault Refusal :=
  act (fun s => s.busGet r (Reg.NVS_PDATA n)) s

/-- NVS_PDATA_WRITE (R467). -/
def execNvsPdataWrite (r : Req) (n v : Nat) (s : State) : Host.Outcome State Fault Refusal :=
  act (fun s => s.busSet r (Reg.NVS_PDATA n) v) s

/-- SETRD (R467): NVS_PCMD.SETRD. -/
def execSetrd (r : Req) (n : Nat) (s : State) : Host.Outcome State Fault Refusal :=
  act (fun s => s.busSet r (Reg.NVS_PCMD n) 1) s

/-- SETWR (R467): NVS_PCMD.SETWR. -/
def execSetwr (r : Req) (n : Nat) (s : State) : Host.Outcome State Fault Refusal :=
  act (fun s => s.busSet r (Reg.NVS_PCMD n) 2) s

/-- ALMANAC_WRITE (R475). -/
def execAlmanacWrite (s : State) : Host.Outcome State Fault Refusal :=
  act (fun s => s.almWrite) s

/-- ALMANAC_CHECKPOINT (R473). -/
def execAlmanacCheckpoint (s : State) : Host.Outcome State Fault Refusal :=
  act (fun s => s.almCheckpoint) s

/-- MGT_ENGINE_RELEASE (R482). -/
def execMgtEngineRelease (s : State) : Host.Outcome State Fault Refusal :=
  act (fun s => s.mgtEngBoundary) s

/-- SENSOR_SAMPLE (R483). -/
def execSensorSample (x : Sensors) (s : State) : Host.Outcome State Fault Refusal :=
  act (fun s => s.sensorSample x) s

/-- BANK_MEASURE (R484): the capacitance found, in 10 µF. -/
def execBankMeasure (c : Nat) (s : State) : Host.Outcome State Fault Refusal :=
  act (fun s => s.bankDaily c) s

/-- MGT_LOGSEL (R488). -/
def execMgtLogsel (r : Req) (num : Nat) (s : State) : Host.Outcome State Fault Refusal :=
  act (fun s => s.busSet r Reg.MGT_LOGSEL num) s

/-- GO (R500): MGT_FACTCMD.GO. -/
def execGo (r : Req) (s : State) : Host.Outcome State Fault Refusal :=
  act (fun s => s.busSet r Reg.MGT_FACTCMD 1) s

/-- STRAP_RELEASE (R498). -/
def execStrapRelease (s : State) : Host.Outcome State Fault Refusal :=
  act (fun s => s.strapRelease) s

/-- RESTORE_FACTORY_DONE (R501). -/
def execRestoreFactoryDone (s : State) : Host.Outcome State Fault Refusal :=
  act (fun s => s.factDone) s

end Sys2Proof.Machine
end

