-- ==== Sys2Proof/Machine/CmdRed.lean ====
section
/-! DEFINITION. The commands of hot-standby pairs (chapter 10). -/
namespace Sys2Proof.Machine

namespace State

/-- A pair message is taken only where its checks pass (R241). -/
def paired (s : State) (h : PairHead) (f : State → State) : State :=
  match s.pairRx h with
  | (true, s) => f s
  | (false, s) => s

/-- STOPCMD (R247): the standby is told to stop suspect. -/
def stopCmd (s : State) (cause : Nat) : State := if s.ms.active then s else s.suspectStop cause

end State

/-- HELLO (R238) of the partner. -/
def execHello (x : Hello) (s : State) : Host.Outcome State Fault Refusal :=
  act (fun s => s.helloRx x) s

/-- HELLO_SEND (R238). -/
def execHelloSend (s : State) : Host.Outcome State Fault Refusal :=
  act (fun s => s.helloSend) s

/-- KEYCONF (R239) of the partner. -/
def execKeyconf (tag : Nat) (s : State) : Host.Outcome State Fault Refusal :=
  act (fun s => s.keyConfRx tag) s

/-- HEARTBEAT_SEND (R242). -/
def execHeartbeatSend (s : State) : Host.Outcome State Fault Refusal :=
  act (fun s => s.heartbeatSend) s

/-- HEARTBEAT (R242) of the partner. -/
def execHeartbeat (h : PairHead) (mode role flevel suspect epoch : Nat) (off : Int) (s : State) : Host.Outcome State Fault Refusal :=
  act (fun s => s.paired h (fun s => s.heartbeatRx mode role flevel suspect epoch off)) s

/-- PARTNER_LOST (R249). -/
def execPartnerLost (s : State) : Host.Outcome State Fault Refusal :=
  act (fun s => s.partnerLost) s

/-- TAKEOVER_COMPLETE (R252). -/
def execTakeoverComplete (s : State) : Host.Outcome State Fault Refusal :=
  act (fun s => s.takeoverDone) s

/-- HOLD_TAKEOVER (R250). -/
def execHoldTakeover (s : State) : Host.Outcome State Fault Refusal :=
  act (fun s => s.holdTakeover) s

/-- DIGEST (R246, R247) of the partner: owner, kind, number, epoch and digest of each commit. -/
def execDigest (h : PairHead) (l : List (Nat × Nat × Nat × Nat × Nat)) (s : State) : Host.Outcome State Fault Refusal :=
  act (fun s => s.paired h (fun s => s.digestRx l)) s

/-- DIGEST_MISSING (R246). -/
def execDigestMissing (s : State) : Host.Outcome State Fault Refusal :=
  act (fun s => s.digestMissing) s

/-- ROLE (R253) of the partner. -/
def execRole (h : PairHead) (op cause t : Nat) (s : State) : Host.Outcome State Fault Refusal :=
  act (fun s => s.paired h (fun s => s.roleRx op cause t)) s

/-- LEAVE (R249) of the partner. -/
def execLeave (h : PairHead) (cause : Nat) (s : State) : Host.Outcome State Fault Refusal :=
  act (fun s => s.paired h (fun s => s.leaveRx cause)) s

/-- STOPCMD (R247) of the partner. -/
def execStopcmd (h : PairHead) (cause : Nat) (s : State) : Host.Outcome State Fault Refusal :=
  act (fun s => s.paired h (fun s => s.stopCmd cause)) s

/-- SEQMAP (R254) of the active member. -/
def execSeqmap (h : PairHead) (l : List (Nat × Nat × Nat × Nat × Nat)) (s : State) : Host.Outcome State Fault Refusal :=
  act (fun s => s.paired h (fun s => s.seqmapRx l)) s

/-- SPLICE (R229) of the partner. -/
def execSplice (h : PairHead) (op code n e : Nat) (s : State) : Host.Outcome State Fault Refusal :=
  act (fun s => s.paired h (fun s => s.spliceRx op code n e)) s

/-- EVENT (R244) of the active member. -/
def execEvent (h : PairHead) (k t : Nat) (s : State) : Host.Outcome State Fault Refusal :=
  act (fun s => s.paired h (fun s => s.eventRx k t)) s

/-- ROWS (R243) of the active member: row, writer, stamp, mask and value of each version. -/
def execRows (h : PairHead) (l : List (Nat × Nat × Nat × Row × Row)) (s : State) : Host.Outcome State Fault Refusal :=
  act (fun s => s.paired h (fun s => s.rowsRx l)) s

/-- RINGE (R243) of the active member. -/
def execRinge (h : PairHead) (q esize pidx : Nat) (bytes : List Byte) (s : State) : Host.Outcome State Fault Refusal :=
  act (fun s => s.paired h (fun s => s.ringeRx q esize pidx bytes)) s

/-- XFER (R260) of the active member. -/
def execXfer (h : PairHead) (kind n count : Nat) (items : List XferItem) (s : State) : Host.Outcome State Fault Refusal :=
  act (fun s => s.paired h (fun s => s.xferRx kind n count items)) s

/-- PKG (R223) of the active member. -/
def execPkg (h : PairHead) (n off : Nat) (bytes : List Byte) (s : State) : Host.Outcome State Fault Refusal :=
  act (fun s => s.paired h (fun s => s.splPkgRx n off bytes)) s

/-- XFER_CUT (R260). -/
def execXferCut (s : State) : Host.Outcome State Fault Refusal :=
  act (fun s => s.xferCut) s

/-- XFER_SHADOW_ENTRY (R260). -/
def execXferShadowEntry (s : State) : Host.Outcome State Fault Refusal :=
  act (fun s => s.xferShadow) s

/-- XFER_TIMEOUT (R260). -/
def execXferTimeout (s : State) : Host.Outcome State Fault Refusal :=
  act (fun s => s.xferTimeout) s

/-- SWITCH (R253): RED_CMD.SWITCH. -/
def execSwitch (r : Req) (s : State) : Host.Outcome State Fault Refusal :=
  act (fun s => s.busSet r Reg.RED_CMD 1) s

/-- CLRSUSP (R248): RED_CMD.CLRSUSP. -/
def execClrsusp (r : Req) (s : State) : Host.Outcome State Fault Refusal :=
  act (fun s => s.busSet r Reg.RED_CMD 2) s

/-- SWITCHOVER_T (R253). -/
def execSwitchoverT (s : State) : Host.Outcome State Fault Refusal :=
  act (fun s => s.switchoverT) s

/-- SWITCHOVER_DRIVERS_OFF (R253). -/
def execSwitchoverDriversOff (s : State) : Host.Outcome State Fault Refusal :=
  act (fun s => s.switchoverDriversOff) s

/-- SWITCHOVER_COMPLETE (R253). -/
def execSwitchoverComplete (s : State) : Host.Outcome State Fault Refusal :=
  act (fun s => s.switchoverDone) s

/-- AUTO_SWITCHOVER (R261). -/
def execAutoSwitchover (s : State) : Host.Outcome State Fault Refusal :=
  act (fun s => s.autoSwitch) s

/-- CLAIM_CYCLE (R251, R258): the claim read on SP6, or that it could not be read. -/
def execClaimCycle (other : Nat) (bad : Bool) (s : State) : Host.Outcome State Fault Refusal :=
  act (fun s => s.redClaimCycle other bad) s

/-- INPUT_DISAGREEMENT (R263). -/
def execInputDisagreement (k : Nat) (s : State) : Host.Outcome State Fault Refusal :=
  act (fun s => s.inputDisagrees k) s

/-- PAIR_LINK_DOWN (R263). -/
def execPairLinkDown (k : Nat) (s : State) : Host.Outcome State Fault Refusal :=
  act (fun s => if k < 4 then (s.linkDown (124 + k)).pairLinkLost k else s) s

/-- STARTWAIT_EXPIRY (R240). -/
def execStartwaitExpiry (s : State) : Host.Outcome State Fault Refusal :=
  act (fun s => s.startWaitDone) s

end Sys2Proof.Machine
end

