-- ==== Sys2Proof/Machine/GuTask.lean ====
section
/-! DEFINITION. The Guaris flow instructions (Table 5.3), task and event instructions (Table 5.15), ring instructions (Table 5.17)
and time instructions (Table 5.19). -/
namespace Sys2Proof.Machine

namespace State

/-- A flow instruction with a computed target (R91, R106, R110). -/
def flowOp (s : State) (q : Issue) (word nin rout off : Nat) (taken : Row → Bool) (call : Bool) : State :=
  let e := q.eng
  s.runOp q { word := word, slotBad := true, nin := nin, rout := rout } (fun ins s =>
    let pc := (s.eng e).ctx.pc
    let t : Int := (pc : Int) + 1 + signed 10 off
    if s.flowBad e t then (.exc 0x08 0 (unsigned 64 t), s)
    else (.ok { goto := some (t.toNat, taken (inp ins 0)),
                rpush := if call then some (if s.leanRegime e then pc + 1 else pc + 2) else none }, s))

/-- Save the context of a running task into its context store (R87): the reservation is lost, the engine freed. -/
def saveCtx (s : State) (e k : Nat) (st : TaskSt) : State :=
  let x := s.eng e
  let s := s.setTask k { s.task k with st := st, eng := none, ctx := x.ctx, readyAt := s.now }
  (s.freeEng e).setBent (e / 4) { (s.freeEng e).bent (e / 4) with idleSince := s.now }

/-- The task a YIELD hands the engine to: the first ready one of the pool, of equal or higher priority (R133). -/
def yieldTo (s : State) (n k : Nat) : Option Nat :=
  ((s.readyList n).find? (fun r => decide ((s.taskCfg k).prio ≤ r.1))).map (·.2.2)

/-- What YIELD does once complete (R133, R136); a preemption promised to the engine is served by it (R181). -/
def yieldPost (e k : Nat) (s : State) : State :=
  let n := s.engOwner e
  match (match (s.eng e).preempt with | some j => some j | none => s.yieldTo n k) with
  | none => s
  | some j =>
    let s := (s.bump64 (Reg.ENG_HSCNT e) 20).saveCtx e k .ready
    (s.startOn e j).dispatch n

/-- Check a WAIT descriptor (R134): an exception (code, address), or none. -/
def waitCheck (s : State) (e d : Nat) : Option (Nat × Nat) :=
  let n := s.engOwner e
  let kind := bits d 60 4
  let id := bits d 0 29
  if kind = 5 ∧ (s.absRow n 4 id).isNone then some (0x09, id)
  else if (kind = 3 ∨ kind = 4) ∧ (4096 ≤ id ∨ s.ringOwner id ≠ some n) then some (0x15, id)
  else if kind = 0 ∨ 5 < kind ∨ bits d 29 30 ≠ 0 ∨ (kind = 1 ∧ 255 < id) ∨ (kind = 2 ∧ id ≠ 0) then some (0x0C, 0)
  else none

/-- Take a token (R135). -/
def takeToken (s : State) (n tok : Nat) : State :=
  let o := s.owner n
  s.setOwner n { o with tokens := o.tokens.filter (· != tok) }

/-- The status a WAIT gives at once, or none (R134): the event before the deadline. -/
def waitNow (s : State) (n : Nat) (w : WaitDesc) : Option Nat × State :=
  if w.kind = 2 then (if s.deadlinePassed w.deadline then some 0 else none, s)
  else if s.waitHolds n w then (some 0, if w.kind = 1 then s.takeToken n w.id else s)
  else if w.tmo && s.deadlinePassed w.deadline then (some 1, s)
  else (none, s)

/-- Suspend a task in a WAIT (R133, R134). -/
def waitPost (e k : Nat) (w : WaitDesc) (s : State) : State :=
  let s := (s.bump64 (Reg.ENG_HSCNT e) 20).saveCtx e k .waiting
  let s := s.setTask k { s.task k with wait := some w, wstat := none }
  s.dispatch (s.taskCfg k).owner

/-- SIGNAL's effect (R135): the waiting tasks are released and the token cleared, or the token is set. -/
def signalToken (s : State) (n tok : Nat) : State :=
  let isWait (k : Nat) : Bool :=
    let x := s.task k
    x.st == .waiting && x.wstat == none && (match x.wait with | some w => w.kind == 1 && w.id == tok | none => false)
  if (s.tasksOf n).any isWait then s.wakeWhere n (fun w => w.kind == 1 && w.id == tok)
  else
    let o := s.owner n
    s.setOwner n { o with tokens := (o.tokens.filter (· < tok)) ++ [tok] ++ (o.tokens.filter (tok < ·)) }

/-- What END does once complete (R133, R155, R156): the staged rows go to IMG as a commit in the order of ENDs, and the release ends;
with none staged it has ended, its commit included. -/
def endPost (e k : Nat) (s : State) : State :=
  let x := s.task k
  let n := (s.taskCfg k).owner
  let c : Commit := { owner := n, task := k, epoch := x.relAt, rows := x.staged, endAt := s.now, eng := e }
  if x.staged.isEmpty then ((s.endRelease k).pendAfter k).dispatch n
  else
    let s : State := { s with img := { s.img with commits := s.img.commits ++ [c] } }
    (s.endRelease k).dispatch n

/-- The management engine's END: the release is completed (R482). -/
def mgtEnd (s : State) : State :=
  let s : State := { s with mgt := { s.mgt with engRunning := false } }
  ((s.setEng 256 {}).bump Reg.MGT_ENGRUNS 1).setBit Reg.MGT_ENGSTAT 1 false

/-! ### Rings -/

/-- RINGACC of a ring instruction (Table 4.11). -/
def ringBad (s : State) (e q : Nat) : Bool := decide (4096 ≤ q) || s.ringOwner q != some (s.engOwner e)

/-- The status of an ENQ (hw: the producer side) or DEQ before it transfers (R137): 3, 2, then 1. -/
def ringStatus (s : State) (q : Nat) (enq : Bool) : Nat :=
  let c := s.ringCfg q
  if c.defined && (if enq then c.prod != 0 else c.cons != 0) then 3
  else if !c.defined || !s.ringOpen q then 2
  else if (if enq then s.ringFull q else s.ringCount q == 0) then 1 else 0

/-- ENQ and ENQ2 (R137): write the entry, then advance. `bytes` is the whole stack value offered. -/
def enqOp (s : State) (q : Issue) (two : Bool) : State :=
  let e := q.eng
  s.runOp q { word := if two then 0x0901 else 0x0900, illegal := e == 256, space := 5, nin := if two then 3 else 2,
              nout := 1, base := 6, worst := 19200000, drains := true } (fun ins s =>
    let r := scalar (inp ins 0)
    if s.ringBad e r then (.exc 0x15 0 r, s)
    else if two && (s.ringCfg r).defined && (s.ringCfg r).esize != 2 then (.exc 0x0C 0 0, s)
    else
      match s.ringStatus r true with
      | 0 =>
        let size := ringEsize (s.ringCfg r)
        let v0 := bytesOfRow (inp ins 1)
        let v1 := if two then bytesOfRow (inp ins 2) else List.replicate 32 0
        let va := s.ringSlot r (s.ringP r)
        match s.engXlat e va with
        | (.exc c l, s) => (.exc c l va, s)
        | (.pageIn, s) =>
          match s.pageWait e va with
          | (.exc c kd ad, s) => (.exc c kd ad, s)
          | (_, s) => (.stall (.page (s.engOwner e) (va / 65536)), s)
        | (_, s) =>
          match s.hwWrite (s.engOwner e) va ((v0 ++ v1).take size) with
          | (true, s) => (.ok { outs := [ofScalar 0], base := 6 }, (s.loseResv (s.engOwner e) va).ringAdvance r)
          | (false, s) => (.exc 0x11 0 va, s)
      | st => (.ok { outs := [ofScalar st], base := 6 }, if st = 1 then s.bump (Reg.RING_FULLCNT r) 1 else s))

/-- DEQ and DEQ2 (R137): read the entry, then advance; zeros with a status other than 0. -/
def deqOp (s : State) (q : Issue) (two : Bool) : State :=
  let e := q.eng
  let nout := if two then 3 else 2
  s.runOp q { word := if two then 0x0903 else 0x0902, illegal := e == 256, space := 5, nin := 1,
              nout := nout, base := 6, worst := 18400000, late := nout, drains := true } (fun ins s =>
    let r := scalar (inp ins 0)
    if s.ringBad e r then (.exc 0x15 0 r, s)
    else if two && (s.ringCfg r).defined && (s.ringCfg r).esize != 2 then (.exc 0x0C 0 0, s)
    else
      match s.ringStatus r false with
      | 0 =>
        let size := ringEsize (s.ringCfg r)
        let va := s.ringSlot r (s.ringC r)
        match s.engXlat e va with
        | (.exc c l, s) => (.exc c l va, s)
        | (.pageIn, s) =>
          match s.pageWait e va with
          | (.exc c kd ad, s) => (.exc c kd ad, s)
          | (_, s) => (.stall (.page (s.engOwner e) (va / 65536)), s)
        | (_, s) =>
          match s.hwRead (s.engOwner e) va size with
          | (some bs, s) =>
            let v0 := rowOfBytes (bs.take 32)
            let v1 := rowOfBytes ((bs.drop 32).take 32)
            (.ok { outs := if two then [ofScalar 0, v0, v1] else [ofScalar 0, v0], base := 6 }, s.ringConsume r)
          | (none, s) => (.exc 0x10 0 va, s)
      | st => (.ok { outs := ofScalar st :: List.replicate (nout - 1) 0, base := 6 }, s))

end State

/-- BR (Table 5.3). -/
def execBr (q : Issue) (off : Nat) (s : State) : Host.Outcome State Fault Refusal :=
  act (fun s => s.flowOp q (0x2000 + off % 1024) 0 0 off (fun _ => true) false) s

/-- BZ: pops TOS and branches if bits [63:0] are 0. -/
def execBz (q : Issue) (off : Nat) (s : State) : Host.Outcome State Fault Refusal :=
  act (fun s => s.flowOp q (0x2400 + off % 1024) 1 0 off (fun w => scalar w == 0) false) s

/-- BNZ: pops TOS and branches if bits [63:0] are not 0. -/
def execBnz (q : Issue) (off : Nat) (s : State) : Host.Outcome State Fault Refusal :=
  act (fun s => s.flowOp q (0x2800 + off % 1024) 1 0 off (fun w => scalar w != 0) false) s

/-- CALL: pushes the return point, then branches. -/
def execCall (q : Issue) (off : Nat) (s : State) : Host.Outcome State Fault Refusal :=
  act (fun s => s.flowOp q (0x2C00 + off % 1024) 0 1 off (fun _ => true) true) s

/-- RET (Table 5.15): pops the return stack and branches after the delay slot. -/
def execRet (q : Issue) (s : State) : Host.Outcome State Fault Refusal :=
  act (fun s => s.runOp q { word := 0x0804, slotBad := true, rin := 1 } (fun _ s =>
    (.ok { goto := some ((s.eng q.eng).ctx.rstack.headD 0, true), rpop := true }, s))) s

/-- TRAP: takes the TRAP exception with TOS as its address. -/
def execTrap (q : Issue) (s : State) : Host.Outcome State Fault Refusal :=
  act (fun s => s.runOp q { word := 0x0805, slotBad := true, nin := 1 } (fun ins s => (.exc 0x14 0 (scalar (inp ins 0)), s))) s

/-- YIELD (R133). -/
def execYield (q : Issue) (s : State) : Host.Outcome State Fault Refusal :=
  act (fun s => s.runOp q { word := 0x0800, slotBad := true, illegal := q.eng == 256, base := 2, worst := 12800000, drains := true }
    (fun _ s => (.ok { base := 2, post := match (s.eng q.eng).task with
      | some k => State.yieldPost q.eng k
      | none => id }, s))) s

/-- WAIT (R134): a status at once, or the task waits and the engine is free. -/
def execWait (q : Issue) (s : State) : Host.Outcome State Fault Refusal :=
  act (fun s => s.runOp q { word := 0x0801, slotBad := true, illegal := q.eng == 256, space := 4, nin := 2, nout := 1, base := 4,
                            worst := 14400000, drains := true } (fun ins s =>
    let d := scalar (inp ins 0)
    match s.waitCheck q.eng d with
    | some (c, a) => (.exc c 0 a, s)
    | none =>
      let w : WaitDesc := { kind := bits d 60 4, tmo := bit d 59 && bits d 60 4 != 2, id := bits d 0 29,
                            deadline := bits (scalar (inp ins 1)) 0 40 }
      match s.waitNow (s.engOwner q.eng) w with
      | (some st, s) => (.ok { outs := [ofScalar st], base := 4 }, s)
      | (none, s) => (.ok { outs := ins, base := 4, post := match (s.eng q.eng).task with
          | some k => State.waitPost q.eng k w
          | none => id }, s))) s

/-- SIGNAL (R135). -/
def execSignal (q : Issue) (s : State) : Host.Outcome State Fault Refusal :=
  act (fun s => s.runOp q { word := 0x0802, slotBad := true, illegal := q.eng == 256, nin := 1, base := 3, worst := 12800000,
                            drains := true } (fun ins s =>
    let n := scalar (inp ins 0)
    if 255 < n then (.exc 0x0C 0 0, s) else (.ok { base := 3 }, s.signalToken (s.engOwner q.eng) n))) s

/-- END (R133). -/
def execEnd (q : Issue) (s : State) : Host.Outcome State Fault Refusal :=
  act (fun s => s.runOp q { word := 0x0803, slotBad := true, base := 2, worst := 12800000, drains := true } (fun _ s =>
    (.ok { base := 2, post := if q.eng = 256 then State.mgtEnd else match (s.eng q.eng).task with
      | some k => State.endPost q.eng k
      | none => id }, s))) s

/-- ENQ (Table 5.17). -/
def execEnq (q : Issue) (s : State) : Host.Outcome State Fault Refusal := act (fun s => s.enqOp q false) s
/-- ENQ2: a 64-byte entry. -/
def execEnq2 (q : Issue) (s : State) : Host.Outcome State Fault Refusal := act (fun s => s.enqOp q true) s
/-- DEQ (Table 5.17). -/
def execDeq (q : Issue) (s : State) : Host.Outcome State Fault Refusal := act (fun s => s.deqOp q false) s
/-- DEQ2: a 64-byte entry. -/
def execDeq2 (q : Issue) (s : State) : Host.Outcome State Fault Refusal := act (fun s => s.deqOp q true) s

/-- RCNT: the entries present, 0 for an undefined ring (R137). -/
def execRcnt (q : Issue) (s : State) : Host.Outcome State Fault Refusal :=
  act (fun s => s.runOp q { word := 0x0904, illegal := q.eng == 256, nin := 1, nout := 1, base := 4, worst := 14400000, drains := true }
    (fun ins s =>
      let r := scalar (inp ins 0)
      if s.ringBad q.eng r then (.exc 0x15 0 r, s)
      else (.ok { outs := [ofScalar (if (s.ringCfg r).defined then s.ringCount r else 0)], base := 4 }, s))) s

/-- A time instruction (R140): a value of the state. -/
def timeOp (q : Issue) (word : Nat) (f : State → Nat) (s : State) : Host.Outcome State Fault Refusal :=
  act (fun s => s.runOp q { word := word, nout := 1, base := 2 } (fun _ s => (.ok { outs := [ofScalar (f s)], base := 2 }, s))) s

/-- NOW: current station time. -/
def execNow (q : Issue) (s : State) : Host.Outcome State Fault Refusal := timeOp q 0x0B00 (fun s => form64 s.now) s
/-- NOWE: the release's read epoch. -/
def execNowe (q : Issue) (s : State) : Host.Outcome State Fault Refusal := timeOp q 0x0B01 (fun s => form64 (s.engEpoch q.eng)) s
/-- ELAPSED: NOW - NOWE. -/
def execElapsed (q : Issue) (s : State) : Host.Outcome State Fault Refusal :=
  timeOp q 0x0B02 (fun s => (form64 s.now + 2 ^ 64 - form64 (s.engEpoch q.eng)) % 2 ^ 64) s
/-- ELAPSEDH: the handshakes counted for the release up to the end of the instruction before. -/
def execElapsedh (q : Issue) (s : State) : Host.Outcome State Fault Refusal :=
  timeOp q 0x0B03 (fun s => if q.eng = 256 then s.mgt.engHs else
    match (s.eng q.eng).task with
    | some k => (s.task k).hs
    | none => 0) s

end Sys2Proof.Machine
end

