-- ==== Sys2Proof/Machine/CmdSeq.lean ====
section
/-! DEFINITION. The commands of the engines, SEQ, IMG and the rings (chapters 4 to 8): store-buffer lines, reservations, pace reports, bent self-tests, gating and
wakes, releases, preemptions, faults of releases, waits, commits, pool stalls, SYS rows, and ring enables and hardware ring entries. -/
namespace Sys2Proof.Machine

namespace State

/-! ### Engines and bents -/

/-- A store-buffer line of an engine completes its write (R100); a refused one takes the exception of its store (R142). -/
def lineWritten (s : State) (e : Nat) : State :=
  match s.lineOut e with
  | (some l, s) => s.takeExc e 1 (excOlder l)
  | (none, s) => s

/-- The reservation of an engine is lost (R102). -/
def resvGone (s : State) (e : Nat) : State := s.setEng e { s.eng e with resv := none }

/-- A pace report of a bent, in ps (R81, R82): shown by its four engines; above 2500 ps, F(m) fires. -/
def paceReport (s : State) (m ps : Nat) : State :=
  if !(s.bent m).awake then s else
  let v := ps % 4096
  let s := forEach (bentEngines m) (fun s e => (s.wr (Reg.ENG_PACE e) v).maxReg (Reg.ENG_PACEMAX e) v) s
  if 2500 < v then s.raise m else s

/-- A bent's self-test ends (R115): the result in all four engines, and the bent back in its pool, or unusable. -/
def selfTestDone (s : State) (m : Nat) (pass : Bool) : State :=
  if !s.bentTesting m then s else
  let (w, s) := s.fresh
  let s := s.advance (s.now + w % (us 200 + 1))
  let s := s.setBent m { s.bent m with testReq := false, idleSince := s.now }
  let s := if pass then s else s.bentFailed m
  let s := forEach (bentEngines m) (fun s e => s.wr (Reg.ENG_STEST e) (if pass then 4 else 8)) s
  if (s.bentCfg m).assigned then
    let n := (s.bentCfg m).owner
    (forEach (s.tasksOf n) (fun s k => s.pendAfter k) s).dispatch n
  else s

/-- An idle bent's hold time has passed (R20): it is gated off, unless it is keep-warm, holds or is promised a context, or is not awake. -/
def bentGateOff (s : State) (m : Nat) : State :=
  let c := s.bentCfg m
  let b := s.bent m
  if !c.assigned || c.keepWarm || !b.awake || b.testReq || s.busyEngines m != 0 then s
  else (s.advance (b.idleSince + us c.idleUs)).gateBent m

/-- A waking bent's wake completes, within 10 µs (R21). -/
def bentWoken (s : State) (m : Nat) : State :=
  if !(s.bent m).waking then s else
  let (w, s) := s.fresh
  (s.advance (s.now + w % (us 10 + 1))).bentWake m

/-! ### Releases -/

/-- The owners of tasks, each once. -/
def ownersOf (s : State) (ks : List Nat) : List Nat := ownerIdx.filter (fun n => ks.any (fun k => (s.taskCfg k).owner == n))

/-- Dispatch every owner of these tasks (R182). -/
def dispatchFor (s : State) (ks : List Nat) : State := forEach (s.ownersOf ks) (fun s n => s.dispatch n) s

/-- The least of a list. -/
def leastOf (l : List Nat) : Option Nat := l.foldl (fun o t => match o with | none => some t | some u => some (min t u)) none

/-- The next boundary of the cyclic tasks: every task whose boundary it is is judged and released at it (R174, R182, Table 7.3). -/
def cyclicRelease (s : State) : State :=
  match leastOf (s.tasks.filterMap (fun p => p.2.nextB)) with
  | none => s
  | some t =>
    let s := s.advance t
    let ks := (s.tasks.filter (fun p => p.2.nextB == some t)).map (·.1)
    let s := forEach ks (fun s k =>
      let s := s.boundary k t
      s.setTask k { s.task k with nextB := some (s.nextBoundary k t) }) s
    s.dispatchFor ks

/-- The earliest event instant of the event tasks: each task with an event there is released, or a pending release is latched (R178, R179). -/
def eventRelease (s : State) : State :=
  match leastOf (s.tasks.flatMap (fun p => p.2.events)) with
  | none => s
  | some t =>
    let s := s.advance t
    let ks := (s.tasks.filter (fun p => p.2.events.contains t)).map (·.1)
    let s := forEach ks (fun s k =>
      let x := s.task k
      let evs := x.events.filter (fun u => u == t)
      let s := s.setTask k { x with events := x.events.filter (fun u => u != t) }
      forEach evs (fun s _ => s.eventAt k t) s) s
    s.dispatchFor ks

/-- The earliest latched release falls due (R179, Table 7.3 case 6). -/
def pendingRelease (s : State) : State :=
  match leastOf (s.tasks.filterMap (fun p => if p.2.pendJudged then none else p.2.pend)) with
  | none => s
  | some t =>
    let s := s.advance t
    let ks := (s.tasks.filter (fun p => p.2.pend == some t && !p.2.pendJudged)).map (·.1)
    (forEach ks (fun s k => s.pendDue k) s).dispatchFor ks

/-- A preemption takes effect at the engine's next instruction boundary, after a delay slot (R87, R108, R181): the store buffer drains, the context is saved, the
promised task starts. -/
def preempt (s : State) (e : Nat) : State :=
  let x := s.eng e
  match x.task, x.preempt with
  | some k, some j =>
    if !x.running || x.stall != .none || x.ctx.flow.isSome then s else
    match s.drain e with
    | (some l, s) => s.takeExc e 1 (excOlder l)
    | (none, s) =>
      let s := (s.bump (Reg.SEQ_TPREEMPT k) 1).saveCtx e k .preempted
      (s.startOn e j).dispatch (s.taskCfg j).owner
  | _, _ => s

/-- A release's handshakes have passed its budget (R183): counted, flagged and F0136 + n fires, once for the release. -/
def budgetExceeded (s : State) (k : Nat) : State :=
  let c := s.taskCfg k
  let x := s.task k
  if x.st == .idle || c.budget == 0 || decide (x.hs ≤ c.budget) || x.budFired then s else
  let s := s.setTask k { x with budFired := true }
  ((s.bump (Reg.SEQ_TBUDCNT k) 1).setBit (Reg.SEQ_TFLAG k) 1 true).raise (136 + c.owner) k

/-- A release has not ended at its release instant plus D (R184): counted, flagged and F0144 + n fires, once for the release. -/
def deadlineMiss (s : State) (k : Nat) : State :=
  let c := s.taskCfg k
  let x := s.task k
  if x.st == .idle || x.dlFired then s else
  let s := s.advance (x.relAt + us c.deadline)
  let s := s.setTask k { s.task k with dlFired := true }
  ((s.bump (Reg.SEQ_TDLCNT k) 1).setBit (Reg.SEQ_TFLAG k) 2 true).raise (144 + c.owner) k

/-- Mutual wait of an owner is detected (R191, R192): counted, MWNEW, F0152 + n, and with BREAK set every wait ends with status 2. The history entry carries one of the waiting tasks (R196). -/
def mutualWaitSeen (s : State) (n : Nat) : State :=
  if !s.mutualWait n then s else
  let ws := (s.tasksOf n).filter (fun k => (s.task k).st == .waiting)
  let (w, s) := s.fresh
  let s := ((s.bump (Reg.SEQ_OMWCNT n) 1).setBit (Reg.SEQ_OSTAT n) 31 true).raise (152 + n) (ws.getD (w % max 1 ws.length) 0)
  if s.cfg.nobreak.contains n then s
  else (forEach ws (fun s k => (s.setBit (Reg.SEQ_TFLAG k) 3 true).finishWait k 2) s).dispatch n

/-- The awaited event of a waiting task has occurred: its WAIT completes with status 0 (R134). -/
def waitEvent (s : State) (k : Nat) : State :=
  let x := s.task k
  match x.wstat with
  | some v => if x.st == .waiting then (s.finishWait k v).dispatch (s.taskCfg k).owner else s
  | none => s

/-- The first instant not before now at which a 40-bit deadline has passed (R134, R370). -/
def deadlineInstant (s : State) (d : Nat) : Nat :=
  if s.deadlinePassed d then s.now else (s.ns + (d % 2 ^ 40 + 2 ^ 40 - s.ns % 2 ^ 40) % 2 ^ 40) * 65536

/-- A waiting task's deadline passes (R134): status 0 for the deadline kind, else 1. An event that has already occurred keeps its status 0. -/
def waitDeadline (s : State) (k : Nat) : State :=
  let x := s.task k
  match x.wait, x.wstat with
  | some w, none =>
    if x.st == .waiting && (w.kind == 2 || w.tmo) then
      let s := s.advance (s.deadlineInstant w.deadline)
      (s.finishWait k (if w.kind = 2 then 0 else 1)).dispatch (s.taskCfg k).owner
    else s
  | _, _ => s

/-- After a backward step, station time reaches the latest epoch issued (R177): the hold ends and latched releases are made. -/
def releaseHoldEnd (s : State) : State :=
  if !s.relHold then s else
  let s := s.advance s.epochMax
  let s : State := { s with relHold := false }
  let s := s.setBit Reg.SEQ_STAT 1 false
  let ks := (s.tasks.filter (fun p => p.2.pend.isSome)).map (·.1)
  let s := forEach ks (fun s k =>
    let x := s.task k
    let due := max s.now (if x.everRel then x.relAt + s.sepOf k else 0)
    let s := s.setTask k { x with pend := some due }
    if due ≤ s.now then s.pendDue k else s) s
  s.dispatchFor ks

/-! ### Staged rows -/

/-- A store waiting for a pool row gets one and stages its bits (R162); the wait counts in its cost (R83). -/
def stagedStore (s : State) (e : Nat) : State :=
  let x := s.eng e
  match x.stall, x.task with
  | .pool row val mask stack cost _, some k =>
    if s.poolFull k row then s else
    let s := s.setEng e { x with stall := .none }
    let s := s.stageBits k row val mask
    s.complete e { word := 0, nin := x.ctx.stack.length } { outs := stack, base := cost } ((s.now - x.since) * 1000 / 65536)
  | _, _ => s

/-- A store has waited for a pool row longer than the owner's stall limit (R162). -/
def poolLimit (s : State) (e : Nat) : State :=
  let x := s.eng e
  match x.stall, x.task with
  | .pool row val mask stack cost false, some k =>
    let n := (s.taskCfg k).owner
    let s := s.advance (x.since + us (s.imgf n).stallUs)
    let s := s.setEng e { s.eng e with stall := .pool row val mask stack cost true }
    (s.setBit (Reg.IMG_OSTAT n) 12 true).raise (256 + n) k
  | _, _ => s

/-- IMG installs a new version of a fixed SYS row of an owner (R167): row 1 at most once per 100 µs. -/
def sysRowUpdate (s : State) (n row : Nat) : State :=
  if row = 0 then s.sysWrite n 0 (s.sysRow0 n)
  else if row = 1 then
    let r := s.range n 3
    if r.len < 2 then s else
    let s := s.advance ((s.rowHist (r.base + 1)).cur.inst + us 100)
    s.sysWrite n 1 (s.sysRow1 n)
  else s

/-! ### Rings -/

/-- A hardware producer offers an entry to a ring (R203). -/
def hwRingEntry (s : State) (q : Nat) (bytes : List Byte) : State :=
  if (s.ringCfg q).defined && (s.ringCfg q).prod != 0 then (s.hwEnq q bytes).2 else s

/-- A hardware consumer takes the entry at CIDX and acts on it (R204): NET sends a datagram, CAN stages a frame. -/
def hwRingTake (s : State) (q : Nat) : State :=
  let c := s.ringCfg q
  if c.cons = 2 then
    match s.cfg.eps.search (fun _ c => c.tx == some q) with
    | some (k, _) => s.udpTake (k / 16) (k % 16)
    | none => s
  else if c.cons = 3 then
    forEach ((s.cfg.can.map (·.1)).filter (fun k => bit (s.rd (Reg.CAN_RING k)) 28 && bits (s.rd (Reg.CAN_RING k)) 16 12 == q))
      (fun s k => s.canTake k) s
  else s

end State

/-! ### The commands -/

/-- STORE_LINE_WRITE (R100, R142). -/
def execStoreLineWrite (e : Nat) (s : State) : Host.Outcome State Fault Refusal := act (fun s => s.lineWritten e) s
/-- RESERVATION_EXPIRY (R102). -/
def execReservationExpiry (e : Nat) (s : State) : Host.Outcome State Fault Refusal := act (fun s => s.resvGone e) s
/-- PACE_REPORT (R81, R82). -/
def execPaceReport (m ps : Nat) (s : State) : Host.Outcome State Fault Refusal := act (fun s => s.paceReport m ps) s
/-- BENT_SELF_TEST (R115): a write of ENG_STEST.REQ of an engine. -/
def execBentSelfTest (r : Req) (e : Nat) (s : State) : Host.Outcome State Fault Refusal := act (fun s => s.busSet r (Reg.ENG_STEST e) 1) s
/-- SELF_TEST_DONE (R115). -/
def execSelfTestDone (m : Nat) (pass : Bool) (s : State) : Host.Outcome State Fault Refusal := act (fun s => s.selfTestDone m pass) s
/-- BENT_GATE_OFF (R20). -/
def execBentGateOff (m : Nat) (s : State) : Host.Outcome State Fault Refusal := act (fun s => s.bentGateOff m) s
/-- BENT_WAKE_COMPLETE (R21). -/
def execBentWakeComplete (m : Nat) (s : State) : Host.Outcome State Fault Refusal := act (fun s => s.bentWoken m) s
/-- CYCLIC_RELEASE (R174). -/
def execCyclicRelease (s : State) : Host.Outcome State Fault Refusal := act (fun s => s.cyclicRelease) s
/-- EVENT_RELEASE (R178, R179). -/
def execEventRelease (s : State) : Host.Outcome State Fault Refusal := act (fun s => s.eventRelease) s
/-- PENDING_RELEASE (R179). -/
def execPendingRelease (s : State) : Host.Outcome State Fault Refusal := act (fun s => s.pendingRelease) s
/-- PREEMPTION (R181). -/
def execPreemption (e : Nat) (s : State) : Host.Outcome State Fault Refusal := act (fun s => s.preempt e) s
/-- BUDGET_EXCEEDED (R183). -/
def execBudgetExceeded (k : Nat) (s : State) : Host.Outcome State Fault Refusal := act (fun s => s.budgetExceeded k) s
/-- DEADLINE_MISS (R184). -/
def execDeadlineMiss (k : Nat) (s : State) : Host.Outcome State Fault Refusal := act (fun s => s.deadlineMiss k) s
/-- MUTUAL_WAIT_DETECTED (R192). -/
def execMutualWaitDetected (n : Nat) (s : State) : Host.Outcome State Fault Refusal := act (fun s => s.mutualWaitSeen n) s
/-- WAIT_EVENT (R134). -/
def execWaitEvent (k : Nat) (s : State) : Host.Outcome State Fault Refusal := act (fun s => s.waitEvent k) s
/-- WAIT_DEADLINE (R134). -/
def execWaitDeadline (k : Nat) (s : State) : Host.Outcome State Fault Refusal := act (fun s => s.waitDeadline k) s
/-- RELEASE_HOLD_END (R177). -/
def execReleaseHoldEnd (s : State) : Host.Outcome State Fault Refusal := act (fun s => s.releaseHoldEnd) s
/-- COMMIT (R155, R156). -/
def execCommit (n : Nat) (s : State) : Host.Outcome State Fault Refusal := act (fun s => s.commitNext n) s
/-- STAGED_STORE_RESUME (R162). -/
def execStagedStoreResume (e : Nat) (s : State) : Host.Outcome State Fault Refusal := act (fun s => s.stagedStore e) s
/-- POOL_STALL_LIMIT (R162). -/
def execPoolStallLimit (e : Nat) (s : State) : Host.Outcome State Fault Refusal := act (fun s => s.poolLimit e) s
/-- SYS_ROW_UPDATE (R167). -/
def execSysRowUpdate (n row : Nat) (s : State) : Host.Outcome State Fault Refusal := act (fun s => s.sysRowUpdate n row) s
/-- RING_ENABLE (R209): a write of RING_CTL.EN = 1. -/
def execRingEnable (r : Req) (q : Nat) (s : State) : Host.Outcome State Fault Refusal := act (fun s => s.busSet r (Reg.RING_CTL q) 1) s
/-- RING_ENABLE_DONE (R209). -/
def execRingEnableDone (q : Nat) (s : State) : Host.Outcome State Fault Refusal := act (fun s => s.ringEnableDone q) s
/-- RING_DISABLE (R207): a write of RING_CTL.EN = 0. -/
def execRingDisable (r : Req) (q : Nat) (s : State) : Host.Outcome State Fault Refusal := act (fun s => s.busSet r (Reg.RING_CTL q) 0) s
/-- RING_DISABLE_DONE (R207). -/
def execRingDisableDone (q : Nat) (s : State) : Host.Outcome State Fault Refusal := act (fun s => s.ringDisableDone q) s
/-- HW_RING_ENTRY (R203). -/
def execHwRingEntry (q : Nat) (bytes : List Byte) (s : State) : Host.Outcome State Fault Refusal := act (fun s => s.hwRingEntry q bytes) s
/-- HW_RING_TAKE (R204). -/
def execHwRingTake (q : Nat) (s : State) : Host.Outcome State Fault Refusal := act (fun s => s.hwRingTake q) s

end Sys2Proof.Machine
end

