-- ==== Sys2Proof/Machine/CmdSpl.lean ====
section
/-! DEFINITION. The splice commands (chapter 9). -/
namespace Sys2Proof.Machine

/-- SPL_LOAD (R222). -/
def execSplLoad (h : LorHead) (off : Nat) (bytes : List Byte) (s : State) : Host.Outcome State Fault Refusal :=
  act (fun s => s.lorRun h (.splLoad off bytes)) s

/-- SPL_APPLY (R225). -/
def execSplApply (h : LorHead) (owner : Nat) (s : State) : Host.Outcome State Fault Refusal :=
  act (fun s => s.lorRun h (.splApply owner)) s

/-- SPLICE_APPLY_INSTANT (R227). -/
def execSpliceApplyInstant (n : Nat) (s : State) : Host.Outcome State Fault Refusal :=
  act (fun s => s.splApplyAt n) s

/-- SPLICE_APPLY_TIMEOUT (R226). -/
def execSpliceApplyTimeout (n : Nat) (s : State) : Host.Outcome State Fault Refusal :=
  act (fun s => s.splApplyTimeout n) s

/-- SPL_CONFIRM (R230). -/
def execSplConfirm (h : LorHead) (owner : Nat) (s : State) : Host.Outcome State Fault Refusal :=
  act (fun s => s.lorRun h (.splConfirm owner)) s

/-- SPL_ROLLBACK (R231). -/
def execSplRollback (h : LorHead) (owner : Nat) (s : State) : Host.Outcome State Fault Refusal :=
  act (fun s => s.lorRun h (.splRollback owner)) s

/-- SPLICE_WINDOW_EXPIRY (R231). -/
def execSpliceWindowExpiry (n : Nat) (s : State) : Host.Outcome State Fault Refusal :=
  act (fun s => s.splExpire n) s

/-- SPLICE_ROLLBACK_INSTANT (R232). -/
def execSpliceRollbackInstant (n : Nat) (s : State) : Host.Outcome State Fault Refusal :=
  act (fun s => s.splRollbackAt n) s

/-- SPLICE_FORCED_ROLLBACK (R231). -/
def execSpliceForcedRollback (n : Nat) (s : State) : Host.Outcome State Fault Refusal :=
  act (fun s => s.splForce n) s

end Sys2Proof.Machine
end

