-- ==== Sys2Proof/Machine/CmdSto.lean ====
section
/-! DEFINITION. The commands of paging and storage (chapters 11 and 12). -/
namespace Sys2Proof.Machine

namespace State

/-- Engines whose stall a test accepts go on: their instruction is issued again, and the wait counts in its cost (R83, R274). -/
def wakeStalled (s : State) (p : Stall → Bool) : State :=
  { s with engines := SMap.mapAll {} (fun _ x =>
      if p x.stall then { x with stall := .none, waited := x.waited + max 1 ((s.now - x.since) / 65536) } else x) s.engines }

/-- A page-in of an owner's page completes at an instant (R274). -/
def pageIn (s : State) (n page t : Nat) : State :=
  if !s.mmu.transit.contains (n, page, true) then s else
  let s := (s.advance t).pageInDone n page
  if s.mmu.transit.contains (n, page, true) then s else s.wakeStalled (fun st => st == .page n page)

/-- A frame has been prepared (R271): accesses that waited for one go on. -/
def framePrepared (s : State) : State :=
  let s := s.prepareOne
  if s.mmu.prep.isEmpty then s else s.wakeStalled (fun st => st == .frame)

/-- The share flushed next (R288): critical, general, archive. -/
def nextShare (s : State) : Option Nat := ([0, 1, 2] : List Nat).find? (fun k => 0 < s.shareUsed k)

/-- Flush k writes in priority order (R288). -/
def flushSome (s : State) : Nat → State
  | 0 => s
  | k + 1 => match s.nextShare with
    | some sh => flushSome (s.flushOne sh) k
    | none => s

/-- Staging is flushed; the wear of the blocks written is reported (R288, R300, R301). -/
def stagingFlush (s : State) (k avg most : Nat) : State :=
  let s := s.flushSome k
  let s := if s.shareUsed 2 = 0 then s.setBit Reg.STO_STAT 3 false else s
  let was := s.fld Reg.STO_WEAR 16 16
  let top := min 65535 (max was most)
  let s := s.wr Reg.STO_WEAR (min 65535 (max (s.fld Reg.STO_WEAR 0 16) avg) + top * 65536)
  if was < 2400 ∧ 2400 ≤ top then s.raise 515 else s

/-- A flash package is retired (R291): its rebuild begins; a second failure before the rebuild ends loses the sectors of the stripes not yet rebuilt. -/
def packageFailed (s : State) (spare : Nat) (lost : List Nat) : State :=
  let again := 0 < s.sto.rebuilding
  let s : State := { s with sto := { s.sto with rebuilding := s.sto.rebuilding + 1,
                                                unreadable := if again then lost ++ s.sto.unreadable else s.sto.unreadable } }
  let s := ((s.setBit Reg.STO_STAT 5 true).wr Reg.STO_SPARE (min 1000 spare)).raise 513
  if spare < 20 ∧ s.fld Reg.STO_STAT 4 1 = 0 then (s.setBit Reg.STO_STAT 4 true).raise 514 else s

/-- The rebuild of the retired packages completes (R291). -/
def rebuildDone (s : State) : State :=
  ({ s with sto := { s.sto with rebuilding := 0 } } : State).setBit Reg.STO_STAT 5 false

/-- The earliest end of an open window passes (R297): the window grows no more. -/
def windowEnd (s : State) : State :=
  match ((s.sto.wins.map (·.hi)).filter (fun h => decide (s.ns ≤ h))).foldl (fun (o : Option Nat) h =>
      match o with | none => some h | some g => some (min g h)) none with
  | some h => (s.advance ((h + 1) * 65536)).winRegs
  | none => s

end State

/-- PAGE_IN_DONE (R274). -/
def execPageInDone (n page t : Nat) (s : State) : Host.Outcome State Fault Refusal :=
  act (fun s => s.pageIn n page t) s

/-- PAGE_OUT_DONE (R273). -/
def execPageOutDone (n page : Nat) (s : State) : Host.Outcome State Fault Refusal :=
  act (fun s => s.pageOutDone n page) s

/-- ERASE (R277): MMU_OCMD.ERASE. -/
def execErase (r : Req) (n : Nat) (s : State) : Host.Outcome State Fault Refusal :=
  act (fun s => s.busSet r (Reg.MMU_OCMD n) 1) s

/-- ERASE_COMPLETE (R277). -/
def execEraseComplete (n : Nat) (s : State) : Host.Outcome State Fault Refusal :=
  act (fun s => s.eraseDone n) s

/-- STAGING_FLUSH (R288): writes flushed, and the average and highest program/erase cycles. -/
def execStagingFlush (k avg most : Nat) (s : State) : Host.Outcome State Fault Refusal :=
  act (fun s => s.stagingFlush k avg most) s

/-- PACKAGE_FAILED (R291): spare blocks left in 0.1 %, and the sectors a second failure loses. -/
def execPackageFailed (spare : Nat) (lost : List Nat) (s : State) : Host.Outcome State Fault Refusal :=
  act (fun s => s.packageFailed spare lost) s

/-- REBUILD_DONE (R291). -/
def execRebuildDone (s : State) : Host.Outcome State Fault Refusal :=
  act (fun s => s.rebuildDone) s

/-- ARCHIVE_WINDOW_END (R297). -/
def execArchiveWindowEnd (s : State) : Host.Outcome State Fault Refusal :=
  act (fun s => s.windowEnd) s

/-- ARCHIVE_DISABLE (R300): STO_ACTL.EN = 0. -/
def execArchiveDisable (r : Req) (s : State) : Host.Outcome State Fault Refusal :=
  act (fun s => s.busSet r Reg.STO_ACTL 0) s

/-- ARCHIVE_ENABLE (R300): STO_ACTL.EN = 1. -/
def execArchiveEnable (r : Req) (s : State) : Host.Outcome State Fault Refusal :=
  act (fun s => s.busSet r Reg.STO_ACTL 1) s

/-- FRAME_PREPARED (R271). -/
def execFramePrepared (s : State) : Host.Outcome State Fault Refusal :=
  act (fun s => s.framePrepared) s

end Sys2Proof.Machine
end

