-- ==== Sys2Proof/Machine/CmdTim.lean ====
section
/-! DEFINITION. The commands of station time (chapter 15). -/
namespace Sys2Proof.Machine

namespace State

/-- TIM_CALCTL as it stands. -/
def calCtl (s : State) : Nat := b2n s.calMode + b2n s.calAuto * 2 + b2n s.calHold * 4

/-- The calendar's oscillator misses 8 cycles (R380): OSF is set, and the count falls behind by what it missed. -/
def oscStopped (s : State) : State :=
  let (w, s) := s.fresh
  (s.setCal (s.calNow - (8 + w))).setBit Reg.TIM_CALSTAT 0 true

end State

/-- PTP_SYNC (R359): kind 0 Sync, 1 two-step Sync, 2 Follow_Up. -/
def execPtpSync (i dom kind srcId seq origin corr rx : Nat) (s : State) : Host.Outcome State Fault Refusal :=
  act (fun s => s.ptpSync i dom kind srcId seq origin corr rx) s

/-- PTP_ANNOUNCE (R359). -/
def execPtpAnnounce (i dom : Nat) (a : Ann) (utcOff : Int) (utcValid : Bool) (leap : Nat) (s : State) : Host.Outcome State Fault Refusal :=
  act (fun s => s.ptpAnnounce i dom a utcOff utcValid leap) s

/-- PDELAY_REQ (R359). -/
def execPdelayReq (i dom seq : Nat) (s : State) : Host.Outcome State Fault Refusal :=
  act (fun s => s.pdelayReq i dom seq) s

/-- PDELAY_RESP (R359). -/
def execPdelayResp (i dom t1 t2 t3 t4 : Nat) (s : State) : Host.Outcome State Fault Refusal :=
  act (fun s => s.pdelayResp i dom t1 t2 t3 t4) s

/-- SYNC_SEND (R361). -/
def execSyncSend (i kind : Nat) (s : State) : Host.Outcome State Fault Refusal :=
  act (fun s => s.syncSend i kind) s

/-- ANNOUNCE_TIMEOUT (R359). -/
def execAnnounceTimeout (i : Nat) (s : State) : Host.Outcome State Fault Refusal :=
  act (fun s => s.ptpTimeout i) s

/-- HOLDOVER_DEGRADE (R365). -/
def execHoldoverDegrade (s : State) : Host.Outcome State Fault Refusal :=
  act (fun s => s.holdDegrade) s

/-- PPS_EDGE (R363). -/
def execPpsEdge (inp t : Nat) (s : State) : Host.Outcome State Fault Refusal :=
  act (fun s => s.ppsEdge inp t) s

/-- IRIG_FRAME (R362). -/
def execIrigFrame (t : Nat) (ok hasYear : Bool) (year doy hour min_ sec x : Nat) (am : Bool) (s : State) : Host.Outcome State Fault Refusal :=
  act (fun s => s.irigFrame t ok hasYear year doy hour min_ sec x am) s

/-- SOURCE_QUALIFIED (R366). -/
def execSourceQualified (k : Nat) (s : State) : Host.Outcome State Fault Refusal :=
  act (fun s => s.srcQualify k) s

/-- TIME_STEP (R366). -/
def execTimeStep (s : State) : Host.Outcome State Fault Refusal :=
  act (fun s => s.timeStep) s

/-- COMPARE_FIRE (R371). -/
def execCompareFire (u : Nat) (s : State) : Host.Outcome State Fault Refusal :=
  act (fun s => s.compareFire u) s

/-- COMPARE_TARGET_WRITE (R371): TIM_CUTGT, low word then high word. -/
def execCompareTargetWrite (r : Req) (u v : Nat) (s : State) : Host.Outcome State Fault Refusal :=
  act (fun s => (s.busSet r (Reg.TIM_CUTGT u) v).busSet r (Reg.TIM_CUTGT_H u) (v / 2 ^ 32)) s

/-- COMPARE_ARM (R371): TIM_CUCTL.ARM. -/
def execCompareArm (r : Req) (u : Nat) (arm : Bool) (s : State) : Host.Outcome State Fault Refusal :=
  act (fun s => s.busSet r (Reg.TIM_CUCTL u) (b2n arm)) s

/-- PPS_OUTPUT (R374, R376). -/
def execPpsOutput (s : State) : Host.Outcome State Fault Refusal :=
  act (fun s => s.ppsOutput) s

/-- CALENDAR_AUTO_WRITE (R379). -/
def execCalendarAutoWrite (s : State) : Host.Outcome State Fault Refusal :=
  act (fun s => s.calAutoWrite) s

/-- CALENDAR_HOLD (R379): TIM_CALCTL.HOLD, the other fields as they stand. -/
def execCalendarHold (r : Req) (hold : Bool) (s : State) : Host.Outcome State Fault Refusal :=
  act (fun s => s.busSet r Reg.TIM_CALCTL (putBits s.calCtl 2 1 (b2n hold))) s

/-- CALENDAR_MODE_CHANGE (R378): TIM_CALCTL.MODE changed, the other fields as they stand. -/
def execCalendarModeChange (r : Req) (s : State) : Host.Outcome State Fault Refusal :=
  act (fun s => s.busSet r Reg.TIM_CALCTL (putBits s.calCtl 0 1 (b2n (!s.calMode)))) s

/-- OSCILLATOR_STOPPED (R380). -/
def execOscillatorStopped (s : State) : Host.Outcome State Fault Refusal :=
  act (fun s => s.oscStopped) s

/-- REFERENCE_INPUT_LOST (R358). -/
def execReferenceInputLost (b : Nat) (s : State) : Host.Outcome State Fault Refusal :=
  act (fun s => s.inputLost b) s

/-- REFERENCE_INPUT_RETURN (R358). -/
def execReferenceInputReturn (s : State) : Host.Outcome State Fault Refusal :=
  act (fun s => s.inputReturn) s

/-- OCXO_FAULT (R382). -/
def execOcxoFault (s : State) : Host.Outcome State Fault Refusal :=
  act (fun s => s.ocxoFault) s

/-- LEAP_SECOND (R355). -/
def execLeapSecond (s : State) : Host.Outcome State Fault Refusal :=
  act (fun s => s.leapSecond) s

/-- PDELAY_REQ_SEND (R359). -/
def execPdelayReqSend (s : State) : Host.Outcome State Fault Refusal :=
  act (fun s => s.pdelaySend) s

end Sys2Proof.Machine
end

