-- ==== Sys2Proof/Machine/GuCalc.lean ====
section
/-! DEFINITION. The Guaris instructions that only move and compute stack entries: stack (Table 5.4), row logic (Table 5.5), lanes
(Table 5.6), integers (Table 5.11), reals (Table 5.12), compares (Table 5.13), conversions (Table 5.14) and literals (R120). -/
namespace Sys2Proof.Machine

/-- An instruction that turns `nin` entries into `nout` (TOS first in both lists). -/
def comp (q : Issue) (word nin nout base : Nat) (f : List Row → List Row) (s : State) : Host.Outcome State Fault Refusal :=
  act (fun s => s.runOp q { word := word, nin := nin, nout := nout, base := base } (pureBody base f)) s

/-- One entry in, one out. -/
def comp1 (q : Issue) (word base : Nat) (f : Row → Row) (s : State) : Host.Outcome State Fault Refusal :=
  comp q word 1 1 base (fun ins => [f (inp ins 0)]) s

/-- Two entries in (the second is TOS), one out. -/
def comp2 (q : Issue) (word base : Nat) (f : Row → Row → Row) (s : State) : Host.Outcome State Fault Refusal :=
  comp q word 2 1 base (fun ins => [f (inp ins 1) (inp ins 0)]) s

/-- A division or remainder (R129): ARITH when the divisor is 0. -/
def compDiv (q : Issue) (word : Nat) (f : Row → Row → Row) (s : State) : Host.Outcome State Fault Refusal :=
  act (fun s => s.runOp q { word := word, nin := 2, nout := 1, base := 36 } (fun ins s =>
    if scalar (inp ins 0) = 0 then (.exc 0x0C 0 0, s)
    else (.ok { outs := [f (inp ins 1) (inp ins 0)], base := 36 }, s))) s

/-- NOP: no operation. -/
def execNop (q : Issue) (s : State) : Host.Outcome State Fault Refusal :=
  comp q 0x0000 0 0 1 (fun _ => []) s

/-- DUP ( x -- x x ). -/
def execDup (q : Issue) (s : State) : Host.Outcome State Fault Refusal :=
  comp q 0x0001 1 2 1 (fun i => [inp i 0, inp i 0]) s

/-- DROP ( x -- ). -/
def execDrop (q : Issue) (s : State) : Host.Outcome State Fault Refusal :=
  comp q 0x0002 1 0 1 (fun _ => []) s

/-- SWAP ( x y -- y x ). -/
def execSwap (q : Issue) (s : State) : Host.Outcome State Fault Refusal :=
  comp q 0x0003 2 2 1 (fun i => [inp i 1, inp i 0]) s

/-- OVER ( x y -- x y x ). -/
def execOver (q : Issue) (s : State) : Host.Outcome State Fault Refusal :=
  comp q 0x0004 2 3 1 (fun i => [inp i 1, inp i 0, inp i 1]) s

/-- ROT ( x y z -- y z x ). -/
def execRot (q : Issue) (s : State) : Host.Outcome State Fault Refusal :=
  comp q 0x0005 3 3 1 (fun i => [inp i 2, inp i 0, inp i 1]) s

/-- NIP ( x y -- y ). -/
def execNip (q : Issue) (s : State) : Host.Outcome State Fault Refusal :=
  comp q 0x0006 2 1 1 (fun i => [inp i 0]) s

/-- PICK ( … n -- … x ) (R122): STKUNF when n is above 14 or not less than the depth left. -/
def execPick (q : Issue) (s : State) : Host.Outcome State Fault Refusal :=
  act (fun s => s.runOp q { word := 0x0007, nin := 1, nout := 1 } (fun ins s =>
    let n := scalar (inp ins 0)
    let rest := (s.eng q.eng).ctx.stack.drop 1
    if 14 < n ∨ rest.length ≤ n then (.exc 0x02 0 0, s) else (.ok { outs := [rest.getD n 0] }, s))) s

/-- AND: r[i] = r1[i] and r2[i]. (R123) -/
def execAnd (q : Issue) (s : State) : Host.Outcome State Fault Refusal :=
  comp2 q 0x0100 1 (fun a b => a &&& b) s

/-- OR. (R123) -/
def execOr (q : Issue) (s : State) : Host.Outcome State Fault Refusal :=
  comp2 q 0x0101 1 (fun a b => a ||| b) s

/-- XOR. (R123) -/
def execXor (q : Issue) (s : State) : Host.Outcome State Fault Refusal :=
  comp2 q 0x0102 1 (fun a b => a ^^^ b) s

/-- NOT. (R123) -/
def execNot (q : Issue) (s : State) : Host.Outcome State Fault Refusal :=
  comp1 q 0x0103 1 (fun a => ~~~a) s

/-- ANDN: r1 and not r2. (R123) -/
def execAndn (q : Issue) (s : State) : Host.Outcome State Fault Refusal :=
  comp2 q 0x0104 1 (fun a b => a &&& ~~~b) s

/-- ORN: r1 or not r2. (R123) -/
def execOrn (q : Issue) (s : State) : Host.Outcome State Fault Refusal :=
  comp2 q 0x0105 1 (fun a b => a ||| ~~~b) s

/-- MUX ( r1 r2 m -- r ): r2 where m is 1, r1 elsewhere. (R123) -/
def execMux (q : Issue) (s : State) : Host.Outcome State Fault Refusal :=
  comp q 0x0106 3 1 1 (fun i => [mergeRow (inp i 2) (inp i 1) (inp i 0)]) s

/-- LSHU ( r1 n -- r ). (R124) -/
def execLshu (q : Issue) (s : State) : Host.Outcome State Fault Refusal :=
  comp2 q 0x0200 1 (fun a b => laneShU a (scalar b)) s

/-- LSHD ( r1 n -- r ). (R124) -/
def execLshd (q : Issue) (s : State) : Host.Outcome State Fault Refusal :=
  comp2 q 0x0201 1 (fun a b => laneShD a (scalar b)) s

/-- LROT ( r1 n -- r ). (R124) -/
def execLrot (q : Issue) (s : State) : Host.Outcome State Fault Refusal :=
  comp2 q 0x0202 1 (fun a b => laneRot a (scalar b)) s

/-- BCAST ( r1 n -- r ). (R124) -/
def execBcast (q : Issue) (s : State) : Host.Outcome State Fault Refusal :=
  comp2 q 0x0203 1 (fun a b => laneBcast a (scalar b)) s

/-- ANY: 1 if any lane is 1. (R124) -/
def execAny (q : Issue) (s : State) : Host.Outcome State Fault Refusal :=
  comp1 q 0x0204 1 (fun a => ofBool (a != 0)) s

/-- ALL: 1 if every lane is 1. (R124) -/
def execAll (q : Issue) (s : State) : Host.Outcome State Fault Refusal :=
  comp1 q 0x0205 1 (fun a => ofBool (a == BitVec.allOnes 256)) s

/-- POPC: the number of lanes that are 1. (R124) -/
def execPopc (q : Issue) (s : State) : Host.Outcome State Fault Refusal :=
  comp1 q 0x0206 2 (fun a => ofScalar (laneCount a)) s

/-- LMASK: the n lowest lanes. (R124) -/
def execLmask (q : Issue) (s : State) : Host.Outcome State Fault Refusal :=
  comp1 q 0x0207 1 (fun a => laneLow (scalar a)) s

/-- ADD (R129). -/
def execAdd (q : Issue) (s : State) : Host.Outcome State Fault Refusal :=
  comp2 q 0x0400 1 (fun a b => ofInt (sscalar a + sscalar b)) s

/-- SUB (R129). -/
def execSub (q : Issue) (s : State) : Host.Outcome State Fault Refusal :=
  comp2 q 0x0401 1 (fun a b => ofInt (sscalar a - sscalar b)) s

/-- MUL: the low 64 bits of the product (R129). -/
def execMul (q : Issue) (s : State) : Host.Outcome State Fault Refusal :=
  comp2 q 0x0405 3 (fun a b => ofInt (sscalar a * sscalar b)) s

/-- MULH: the high 64 bits of the signed product (R129). -/
def execMulh (q : Issue) (s : State) : Host.Outcome State Fault Refusal :=
  comp2 q 0x0406 4 (fun a b => ofInt (sscalar a * sscalar b / 2 ^ 64)) s

/-- MULHU: the high 64 bits of the unsigned product (R129). -/
def execMulhu (q : Issue) (s : State) : Host.Outcome State Fault Refusal :=
  comp2 q 0x0407 4 (fun a b => ofScalar (scalar a * scalar b / 2 ^ 64)) s

/-- SHL (R129). -/
def execShl (q : Issue) (s : State) : Host.Outcome State Fault Refusal :=
  comp2 q 0x040C 1 (fun a b => ofScalar (scalar a <<< shCount b)) s

/-- SHR (R129). -/
def execShr (q : Issue) (s : State) : Host.Outcome State Fault Refusal :=
  comp2 q 0x040D 1 (fun a b => ofScalar (scalar a >>> shCount b)) s

/-- SAR (R129). -/
def execSar (q : Issue) (s : State) : Host.Outcome State Fault Refusal :=
  comp2 q 0x040E 1 (fun a b => ofInt (sscalar a / 2 ^ shCount b)) s

/-- MIN, signed (R129). -/
def execMin (q : Issue) (s : State) : Host.Outcome State Fault Refusal :=
  comp2 q 0x040F 1 (fun a b => ofInt (if sscalar a ≤ sscalar b then sscalar a else sscalar b)) s

/-- MAX, signed (R129). -/
def execMax (q : Issue) (s : State) : Host.Outcome State Fault Refusal :=
  comp2 q 0x0410 1 (fun a b => ofInt (if sscalar a ≤ sscalar b then sscalar b else sscalar a)) s

/-- MINU, unsigned (R129). -/
def execMinu (q : Issue) (s : State) : Host.Outcome State Fault Refusal :=
  comp2 q 0x0411 1 (fun a b => ofScalar (min (scalar a) (scalar b))) s

/-- MAXU, unsigned (R129). -/
def execMaxu (q : Issue) (s : State) : Host.Outcome State Fault Refusal :=
  comp2 q 0x0412 1 (fun a b => ofScalar (max (scalar a) (scalar b))) s

/-- ADDSAT: the signed sum, saturated (R129). -/
def execAddsat (q : Issue) (s : State) : Host.Outcome State Fault Refusal :=
  comp2 q 0x0414 1 (fun a b => ofInt (satInt (sscalar a + sscalar b))) s

/-- SUBSAT: the signed difference, saturated (R129). -/
def execSubsat (q : Issue) (s : State) : Host.Outcome State Fault Refusal :=
  comp2 q 0x0415 1 (fun a b => ofInt (satInt (sscalar a - sscalar b))) s

/-- NEG (R129). -/
def execNeg (q : Issue) (s : State) : Host.Outcome State Fault Refusal :=
  comp1 q 0x0402 1 (fun a => ofInt (-sscalar a)) s

/-- INC (R129). -/
def execInc (q : Issue) (s : State) : Host.Outcome State Fault Refusal :=
  comp1 q 0x0403 1 (fun a => ofInt (sscalar a + 1)) s

/-- DEC (R129). -/
def execDec (q : Issue) (s : State) : Host.Outcome State Fault Refusal :=
  comp1 q 0x0404 1 (fun a => ofInt (sscalar a - 1)) s

/-- ABS (R129). -/
def execAbs (q : Issue) (s : State) : Host.Outcome State Fault Refusal :=
  comp1 q 0x0413 1 (fun a => ofInt (sscalar a).natAbs) s

/-- DIV (R129): ARITH on a zero divisor. -/
def execDiv (q : Issue) (s : State) : Host.Outcome State Fault Refusal :=
  compDiv q 0x0408 (fun a b => ofInt (divS (sscalar a) (sscalar b))) s

/-- DIVU (R129): ARITH on a zero divisor. -/
def execDivu (q : Issue) (s : State) : Host.Outcome State Fault Refusal :=
  compDiv q 0x0409 (fun a b => ofScalar (scalar a / scalar b)) s

/-- REM (R129): ARITH on a zero divisor. -/
def execRem (q : Issue) (s : State) : Host.Outcome State Fault Refusal :=
  compDiv q 0x040A (fun a b => ofInt (remS (sscalar a) (sscalar b))) s

/-- REMU (R129): ARITH on a zero divisor. -/
def execRemu (q : Issue) (s : State) : Host.Outcome State Fault Refusal :=
  compDiv q 0x040B (fun a b => ofScalar (scalar a % scalar b)) s

/-- FADD in binary32 or binary64 (R130). -/
def execFadd (q : Issue) (dbl : Bool) (s : State) : Host.Outcome State Fault Refusal :=
  comp2 q (0x0500 + b2n dbl * 128) (if dbl then 4 else 3) (fun a b => ofReal ((fmtOf dbl).add (realOf dbl a) (realOf dbl b))) s

/-- FSUB in binary32 or binary64 (R130). -/
def execFsub (q : Issue) (dbl : Bool) (s : State) : Host.Outcome State Fault Refusal :=
  comp2 q (0x0501 + b2n dbl * 128) (if dbl then 4 else 3) (fun a b => ofReal ((fmtOf dbl).sub (realOf dbl a) (realOf dbl b))) s

/-- FMUL in binary32 or binary64 (R130). -/
def execFmul (q : Issue) (dbl : Bool) (s : State) : Host.Outcome State Fault Refusal :=
  comp2 q (0x0502 + b2n dbl * 128) (if dbl then 5 else 3) (fun a b => ofReal ((fmtOf dbl).mul (realOf dbl a) (realOf dbl b))) s

/-- FDIV in binary32 or binary64 (R130). -/
def execFdiv (q : Issue) (dbl : Bool) (s : State) : Host.Outcome State Fault Refusal :=
  comp2 q (0x0503 + b2n dbl * 128) (if dbl then 18 else 10) (fun a b => ofReal ((fmtOf dbl).div (realOf dbl a) (realOf dbl b))) s

/-- FMIN in binary32 or binary64 (R130). -/
def execFmin (q : Issue) (dbl : Bool) (s : State) : Host.Outcome State Fault Refusal :=
  comp2 q (0x0508 + b2n dbl * 128) (if dbl then 1 else 1) (fun a b => ofReal ((fmtOf dbl).min (realOf dbl a) (realOf dbl b))) s

/-- FMAX in binary32 or binary64 (R130). -/
def execFmax (q : Issue) (dbl : Bool) (s : State) : Host.Outcome State Fault Refusal :=
  comp2 q (0x0509 + b2n dbl * 128) (if dbl then 1 else 1) (fun a b => ofReal ((fmtOf dbl).max (realOf dbl a) (realOf dbl b))) s

/-- FSQRT (R130). -/
def execFsqrt (q : Issue) (dbl : Bool) (s : State) : Host.Outcome State Fault Refusal :=
  comp1 q (0x0504 + b2n dbl * 128) (if dbl then 22 else 12) (fun a => ofReal ((fmtOf dbl).sqrt (realOf dbl a))) s

/-- FNEG (R130). -/
def execFneg (q : Issue) (dbl : Bool) (s : State) : Host.Outcome State Fault Refusal :=
  comp1 q (0x0506 + b2n dbl * 128) (if dbl then 1 else 1) (fun a => ofReal ((fmtOf dbl).fneg (realOf dbl a))) s

/-- FABS (R130). -/
def execFabs (q : Issue) (dbl : Bool) (s : State) : Host.Outcome State Fault Refusal :=
  comp1 q (0x0507 + b2n dbl * 128) (if dbl then 1 else 1) (fun a => ofReal ((fmtOf dbl).fabs (realOf dbl a))) s

/-- FMA ( f1 f2 f3 -- f ): f1 * f2 + f3, one rounding (R130). -/
def execFma (q : Issue) (dbl : Bool) (s : State) : Host.Outcome State Fault Refusal :=
  comp q (0x0505 + b2n dbl * 128) 3 1 (if dbl then 6 else 4)
    (fun i => [ofReal ((fmtOf dbl).fma (realOf dbl (inp i 2)) (realOf dbl (inp i 1)) (realOf dbl (inp i 0)))]) s

/-- EQ (R131). -/
def execEq (q : Issue) (s : State) : Host.Outcome State Fault Refusal :=
  comp2 q 0x0600 1 (fun a b => ofBool (scalar a == scalar b)) s

/-- NE (R131). -/
def execNe (q : Issue) (s : State) : Host.Outcome State Fault Refusal :=
  comp2 q 0x0601 1 (fun a b => ofBool (scalar a != scalar b)) s

/-- LT (R131). -/
def execLt (q : Issue) (s : State) : Host.Outcome State Fault Refusal :=
  comp2 q 0x0602 1 (fun a b => ofBool (decide (sscalar a < sscalar b))) s

/-- LE (R131). -/
def execLe (q : Issue) (s : State) : Host.Outcome State Fault Refusal :=
  comp2 q 0x0603 1 (fun a b => ofBool (decide (sscalar a ≤ sscalar b))) s

/-- GT (R131). -/
def execGt (q : Issue) (s : State) : Host.Outcome State Fault Refusal :=
  comp2 q 0x0604 1 (fun a b => ofBool (decide (sscalar b < sscalar a))) s

/-- GE (R131). -/
def execGe (q : Issue) (s : State) : Host.Outcome State Fault Refusal :=
  comp2 q 0x0605 1 (fun a b => ofBool (decide (sscalar b ≤ sscalar a))) s

/-- LTU (R131). -/
def execLtu (q : Issue) (s : State) : Host.Outcome State Fault Refusal :=
  comp2 q 0x0606 1 (fun a b => ofBool (decide (scalar a < scalar b))) s

/-- LEU (R131). -/
def execLeu (q : Issue) (s : State) : Host.Outcome State Fault Refusal :=
  comp2 q 0x0607 1 (fun a b => ofBool (decide (scalar a ≤ scalar b))) s

/-- GTU (R131). -/
def execGtu (q : Issue) (s : State) : Host.Outcome State Fault Refusal :=
  comp2 q 0x0608 1 (fun a b => ofBool (decide (scalar b < scalar a))) s

/-- GEU (R131). -/
def execGeu (q : Issue) (s : State) : Host.Outcome State Fault Refusal :=
  comp2 q 0x0609 1 (fun a b => ofBool (decide (scalar b ≤ scalar a))) s

/-- REQ (R131). -/
def execReq (q : Issue) (s : State) : Host.Outcome State Fault Refusal :=
  comp2 q 0x060A 1 (fun a b => ofBool (a == b)) s

/-- FEQ (R131). -/
def execFeq (q : Issue) (dbl : Bool) (s : State) : Host.Outcome State Fault Refusal :=
  comp2 q (0x0610 + b2n dbl * 8) 2 (fun a b => ofBool ((fmtOf dbl).eq (realOf dbl a) (realOf dbl b))) s

/-- FLT (R131). -/
def execFlt (q : Issue) (dbl : Bool) (s : State) : Host.Outcome State Fault Refusal :=
  comp2 q (0x0611 + b2n dbl * 8) 2 (fun a b => ofBool ((fmtOf dbl).lt (realOf dbl a) (realOf dbl b))) s

/-- FLE (R131). -/
def execFle (q : Issue) (dbl : Bool) (s : State) : Host.Outcome State Fault Refusal :=
  comp2 q (0x0612 + b2n dbl * 8) 2 (fun a b => ofBool ((fmtOf dbl).le (realOf dbl a) (realOf dbl b))) s

/-- FUN (R131). -/
def execFun (q : Issue) (dbl : Bool) (s : State) : Host.Outcome State Fault Refusal :=
  comp2 q (0x0613 + b2n dbl * 8) 2 (fun a b => ofBool ((fmtOf dbl).un (realOf dbl a) (realOf dbl b))) s

/-- The width a narrow conversion's form names: 0, 1, 2 for 8, 16, 32 bits (Table 5.14). -/
def formBits (form : Nat) : Nat := 8 * 2 ^ (form % 3)

/-- SX8, SX16, SX32 (R132). -/
def execSx (q : Issue) (form : Nat) (s : State) : Host.Outcome State Fault Refusal :=
  comp1 q (0x0700 + form % 3) 1 (fun a => sext (formBits form) a) s

/-- ZX8, ZX16, ZX32 (R132). -/
def execZx (q : Issue) (form : Nat) (s : State) : Host.Outcome State Fault Refusal :=
  comp1 q (0x0703 + form % 3) 1 (fun a => zext (formBits form) a) s

/-- I2S (R132). -/
def execI2s (q : Issue) (s : State) : Host.Outcome State Fault Refusal :=
  comp1 q 0x0708 3 (fun a => ofReal (f32.roundInt (sscalar a) 0 false)) s

/-- I2D (R132). -/
def execI2d (q : Issue) (s : State) : Host.Outcome State Fault Refusal :=
  comp1 q 0x0709 3 (fun a => ofReal (f64.roundInt (sscalar a) 0 false)) s

/-- U2S (R132). -/
def execU2s (q : Issue) (s : State) : Host.Outcome State Fault Refusal :=
  comp1 q 0x070A 3 (fun a => ofReal (f32.roundInt (scalar a) 0 false)) s

/-- U2D (R132). -/
def execU2d (q : Issue) (s : State) : Host.Outcome State Fault Refusal :=
  comp1 q 0x070B 3 (fun a => ofReal (f64.roundInt (scalar a) 0 false)) s

/-- S2I (R132). -/
def execS2i (q : Issue) (s : State) : Host.Outcome State Fault Refusal :=
  comp1 q 0x070C 3 (fun a => ofInt (f32.toInt (realOf false a))) s

/-- D2I (R132). -/
def execD2i (q : Issue) (s : State) : Host.Outcome State Fault Refusal :=
  comp1 q 0x070D 3 (fun a => ofInt (f64.toInt (realOf true a))) s

/-- S2D (R132). -/
def execS2d (q : Issue) (s : State) : Host.Outcome State Fault Refusal :=
  comp1 q 0x070E 2 (fun a => ofReal (convert f32 f64 (realOf false a))) s

/-- D2S (R132). -/
def execD2s (q : Issue) (s : State) : Host.Outcome State Fault Refusal :=
  comp1 q 0x070F 2 (fun a => ofReal (convert f64 f32 (realOf true a))) s

/-- WEXT ( r k -- w ): word k of a row, k modulo 4 (R132). -/
def execWext (q : Issue) (s : State) : Host.Outcome State Fault Refusal :=
  comp2 q 0x0710 1 (fun a b => ofScalar (rowWord a (scalar b % 4))) s

/-- WINS ( r1 w k -- r ): word k of r1 replaced, every other bit kept (R132). -/
def execWins (q : Issue) (s : State) : Host.Outcome State Fault Refusal :=
  comp q 0x0711 3 1 1 (fun i => [setWord (inp i 2) (scalar (inp i 0) % 4) (scalar (inp i 1))]) s

/-- LIT: an 11-bit literal sign-extended to 64 bits, bits [255:64] 0 (R120). -/
def execLit (q : Issue) (imm : Nat) (s : State) : Host.Outcome State Fault Refusal :=
  comp q (0x3000 + imm % 2048) 0 1 1 (fun _ => [ofInt (signed 11 imm)]) s

/-- EXT: TOS shifted left by 11 with 11 bits ORed in (R120). -/
def execExt (q : Issue) (imm : Nat) (s : State) : Host.Outcome State Fault Refusal :=
  comp1 q (0x3800 + imm % 2048) 1 (fun a => ofScalar (scalar a * 2048 % 2 ^ 64 + imm % 2048)) s

end Sys2Proof.Machine
end

