-- ==== Sys2Proof/Machine/GuDev.lean ====
section
/-! DEFINITION. The Guaris device instructions (Table 5.18, R139). -/
namespace Sys2Proof.Machine

/-- What both device instructions need (Table 5.18): the buffer drains first, and the access may wait. -/
def devInfo (word nin nout : Nat) : OpInfo :=
  { word := word, nin := nin, nout := nout, base := 3, worst := 28800000, late := nout, drains := true }

/-- DIN ( a -- w ): the register's value, zero-extended; a refusal raises DEVACC with its kind. -/
def execDin (q : Issue) (s : State) : Host.Outcome State Fault Refusal :=
  act (fun s => s.runOp q (devInfo 0x0A00 1 1) (fun ins s =>
    let a := scalar (inp ins 0)
    if 2 ^ 32 ≤ a then (State.devExc 3 a, s)
    else
      match s.busRead (.engine q.eng) a with
      | (.ok v, s) => (.ok { outs := [ofScalar v], base := 3 }, s)
      | (.refused k, s) => (State.devExc k a, s))) s

/-- DOUT ( w a -- ): bits [31:0] of w are written; the write acts as the instruction completes. -/
def execDout (q : Issue) (s : State) : Host.Outcome State Fault Refusal :=
  act (fun s => s.runOp q (devInfo 0x0A01 2 0) (fun ins s =>
    let a := scalar (inp ins 0)
    let v := scalar (inp ins 1) % 2 ^ 32
    if 2 ^ 32 ≤ a then (State.devExc 3 a, s)
    else
      match s.busCheck (.engine q.eng) a true with
      | .ok _ => (.ok { base := 3, post := fun s => s.busSet (.engine q.eng) a v }, s)
      | .error k => (State.devExc k a, s.busSet (.engine q.eng) a v))) s

end Sys2Proof.Machine
end

