-- ==== Sys2Proof/Machine/GuMem.lean ====
section
/-! DEFINITION. The Guaris memory instructions (Table 5.20), the edge instructions (Table 5.7) and the lane timers (Table 5.9). -/
namespace Sys2Proof.Machine

/-! ### Class 01 -/

/-- KEEP and FENCE of a modifier (Table 4.7). -/
def keeps (md : Nat) : Bool := bit md 3
def fences (md : Nat) : Bool := bit md 2

/-- Is an operation refused on the space (Table 4.5), or to the management engine (R480)? -/
def spaceDenied (e : Nat) (o : MemOp) (sp : Nat) : Bool := !o.allowed sp || (e == 256 && (decide (sp < 5) || sp == 6))

/-- Stages 1 to 4 of a memory instruction (R98, R141, Table 5.21). -/
def memInfo (e : Nat) (o : MemOp) (sp md : Nat) (nin vals base worst late : Nat) (drains : Bool) : OpInfo :=
  { word := o.word sp md, illegal := decide (8 ≤ sp) || md % 4 != 0, denied := spaceDenied e o sp, space := sp,
    nin := nin, nout := vals + b2n (keeps md), base := base,
    worst := worst + (if fences md then 12800000 else 0), late := late, drains := drains }

/-- The address KEEP leaves (Table 4.7). -/
def kept (o : MemOp) (sp md : Nat) (a : Row) : List Row := if keeps md then [ofScalar (scalar a + o.step sp)] else []

namespace State

/-- The end of a memory instruction: FENCE drains the buffer, its own store included (Table 4.7). -/
def memEnd (s : State) (e md base : Nat) (outs : List Row) : Res × State :=
  if fences md && e != 256 then
    match s.drain e with
    | (some l, s) => (.older l, s)
    | (none, s) => (.ok { outs := outs, base := base }, s)
  else (.ok { outs := outs, base := base }, s)

/-- A load (R95 to R99, R142) of `o.size` bits at an address; `k` answers what follows the value read. -/
def loadElem (s : State) (e : Nat) (o : MemOp) (sp a : Nat) (k : Row → Nat → State → Res × State) : Res × State :=
  match s.elem e o sp a with
  | .exc c => (.exc c 0 a, s)
  | .row row b =>
    let (r, s) := s.imageRead e sp row
    k (if o.size = 1 then ofBool (r.getLsbD b) else r) 4 s
  | .byte off b =>
    match s.loadBytes e sp off ((o.size + 7) / 8) with
    | (.ok bs buf, s) =>
      let v := leNat bs
      k (if o.size = 1 then ofBool (bit v b) else BitVec.ofNat 256 v) (if buf then 2 else 3) s
    | (.exc c kd ad, s) => (.exc c kd ad, s)
    | (.stall st, s) => (.stall st, s)

/-- A plain load instruction: value at TOS, the kept address below it (R141). -/
def loadOp (s : State) (q : Issue) (o : MemOp) (sp md : Nat) : State :=
  let w := if sp < 5 then 400000 else 4000000
  s.runOp q (memInfo q.eng o sp md 1 1 (if sp < 5 then 4 else 3) w 1 false) (fun ins s =>
    s.loadElem q.eng o sp (scalar (inp ins 0)) (fun v base s => s.memEnd q.eng md base (v :: kept o sp md (inp ins 0))))

/-- A store of a value under a lane mask (R95 to R98, R154, R162, R100, R144): SEM at once, OUT and MRK staged (waiting for a pool
row when the quota is full), DATA and RETAIN through the store buffer. -/
def storeElem (s : State) (e : Nat) (o : MemOp) (sp md a word : Nat) (v mask : Row) (outs rest : List Row) : Res × State :=
  match s.elem e o sp a with
  | .exc c => (.exc c 0 a, s)
  | .row row b =>
    let val : Row := if o.size = 1 then (if v.getLsbD 0 then laneMask b else 0) else v
    let msk : Row := if o.size = 1 then laneMask b else mask
    if sp = 4 then (s.semWrite (s.engOwner e) row val msk).memEnd e md 4 outs
    else
      match (s.eng e).task with
      | none => s.memEnd e md 3 outs
      | some k =>
        if s.poolFull k row then
          let n := s.engOwner e
          let (bad, s) := if fences md then s.drain e else (none, s)
          match bad with
          | some l => (.older l, s)
          | none =>
            let s := s.bump (Reg.IMG_STALLCNT n) 1
            (.stall (.pool row val msk (outs ++ rest) 3 false), s)
        else (s.stageBits k row val msk).memEnd e md 3 outs
  | .byte off b =>
    let len := (o.size + 7) / 8
    let val := if o.size = 1 then b2n (v.getLsbD 0) * 2 ^ b else v.toNat % 2 ^ o.size
    let msk := if o.size = 1 then 2 ^ b else if o = .strm then mask.toNat else 2 ^ o.size - 1
    match s.storeBytes e sp off (leBytes len val) msk (s.eng e).ctx.pc word with
    | (.ok _ _, none, s) => s.memEnd e md 1 outs
    | (.ok _ _, some l, s) => (.older l, s)
    | (.exc c kd ad, _, s) => (.exc c kd ad, s)
    | (.stall st, _, s) => (.stall st, s)

/-- A plain store instruction: ( v a -- ), or ( m r a -- ) for STRM. -/
def storeOp (s : State) (q : Issue) (o : MemOp) (sp md : Nat) : State :=
  let nin := if o = .strm then 3 else 2
  let base := if sp = 4 then 4 else if sp < 5 then 3 else 1
  s.runOp q (memInfo q.eng o sp md nin 0 base (if sp < 5 then 400000 else 4800000) 0 false) (fun ins s =>
    s.storeElem q.eng o sp md (scalar (inp ins 0)) (o.word sp md) (inp ins 1)
      (if o = .strm then inp ins 2 else BitVec.allOnes 256) (kept o sp md (inp ins 0))
      ((s.eng q.eng).ctx.stack.drop nin))

/-- The virtual line an element lies in, as a reservation names it (R102). -/
def resvLine (s : State) (e sp off : Nat) : Nat :=
  if e = 256 then off / 64 else ((s.spaceBase (s.engOwner e) sp).1 + off) / 64

/-- SC's write (R143): straight to the line, other reservations on it lost; refused on a failed or poisoned line. -/
def scWrite (s : State) (e sp off v : Nat) : Option MemRes × State :=
  if e = 256 then (none, s.mgtStore off (leBytes 8 v)) else
  let n := s.engOwner e
  let va := (s.spaceBase n sp).1 + off
  match s.lineFrame e va with
  | (.inl r, s) => (some r, s)
  | (.inr f, s) =>
    let sh := 8 * (va % 64)
    match s.mergeLine n f va (BitVec.ofNat 512 (v * 2 ^ sh)) (BitVec.ofNat 512 ((2 ^ 64 - 1) * 2 ^ sh)) (s.engTask e) with
    | (true, s) => (none, s.loseResv n va)
    | (false, s) => (some (.exc 0x11 0 va), s)

end State

/-! ### Edges and timers: group 0x3 -/

namespace State

/-- The space bit 63 of an edge or timer address selects, as an engine's TOS has it (group 0x3). -/
def edgeSpace (s : State) (e : Nat) : Nat :=
  match (s.eng e).ctx.stack with
  | a :: _ => if bit (scalar a) 63 then 6 else 5
  | [] => 5

/-- Check an edge or timer address (R125, R126): its offset, or an exception code. -/
def edgeElem (s : State) (e a len align : Nat) : Except Nat Nat :=
  let sp := if bit a 63 then 6 else 5
  let off := bits a 0 48
  if e = 256 ∧ sp = 6 then .error 0x0B
  else if bits a 48 15 ≠ 0 ∨ s.engSpaceSize e sp < off + len then .error 0x09
  else if off % align ≠ 0 then .error 0x0A else .ok off

/-- RISE and FALL (R125): the element is read as LDR does, the result pushed, the input stored as STR does. -/
def edgeOp (s : State) (q : Issue) (word : Nat) (f : Row → Row → Row) : State :=
  let e := q.eng
  let sp := s.edgeSpace e
  s.runOp q { word := word, space := sp, nin := 2, nout := 1, base := 4, worst := 5600000 } (fun ins s =>
    let a := scalar (inp ins 0)
    match s.edgeElem e a 32 32 with
    | .error c => (.exc c 0 a, s)
    | .ok off =>
      match s.loadBytes e sp off 32 with
      | (.exc c kd ad, s) => (.exc c kd ad, s)
      | (.stall st, s) => (.stall st, s)
      | (.ok bs buf, s) =>
        let x := inp ins 1
        match s.storeBytes e sp off (bytesOfRow x) (2 ^ 256 - 1) (s.eng e).ctx.pc word with
        | (.ok _ _, none, s) => (.ok { outs := [f x (rowOfBytes bs)], base := if buf then 3 else 4 }, s)
        | (.ok _ _, some l, s) => (.older l, s)
        | (.exc c kd ad, _, s) => (.exc c kd ad, s)
        | (.stall st, _, s) => (.stall st, s))

/-- Read lines of a timer block (R128 step 2), in the order listed; the first failure is answered. -/
def blockRead (s : State) (e sp off : Nat) : List Nat → (MemRes ⊕ List (Nat × Nat)) × State
  | [] => (.inr [], s)
  | j :: rest =>
    match s.loadBytes e sp (off + 64 * j) 64 with
    | (.ok bs _, s) =>
      match blockRead s e sp off rest with
      | (.inr ls, s) => (.inr ((j, leNat bs) :: ls), s)
      | (.inl r, s) => (.inl r, s)
    | (r, s) => (.inl r, s)

/-- Write lines of a timer block whole, as one burst (R128 step 3): the frames first, then every line. -/
def blockWrite (s : State) (e sp off : Nat) : List (Nat × Nat) → Option MemRes × State
  | [] => (none, s)
  | (j, v) :: rest =>
    if e = 256 then blockWrite (s.mgtStore (off + 64 * j) (leBytes 64 v)) e sp off rest
    else
      let n := s.engOwner e
      let va := (s.spaceBase n sp).1 + off + 64 * j
      match s.lineFrame e va with
      | (.inl r, s) => (some r, s)
      | (.inr f, s) =>
        match blockWrite s e sp off rest with
        | (some r, s) => (some r, s)
        | (none, s) => (none, (s.loseResv n va).writeLine n f va (BitVec.ofNat 512 v))

/-- The store-buffer lines that overlap a block leave, with every line ahead of them (R128 step 1). -/
def blockOvl (s : State) (e sp off : Nat) : Option SbLine × State :=
  if e = 256 then (none, s) else
  let va := (s.spaceBase (s.engOwner e) sp).1 + off
  s.drainSb e (s.overlapCount e va 2176)

end State

/-- The row whose lane i is f i. -/
def rowOf (f : Nat → Bool) : Row := BitVec.ofNat 256 ((List.range 256).foldl (fun a i => a + b2n (f i) * 2 ^ i) 0)

/-- Lane i of a block from its lines (Table 5.8): lines 0 and 1, and the stamp line if it was read. -/
def laneOf (l0 l1 : Nat) (stamps : List (Nat × Nat)) (i : Nat) : Lane :=
  { prev := bit l0 (256 + i), q := bit l1 i, run := bit l1 (256 + i),
    start := match stamps.find? (fun p => p.1 == 2 + i / 8) with
      | some (_, v) => bits v (64 * (i % 8)) 64
      | none => 0 }

namespace State

/-- TON, TOF and TP (R127, R128). -/
def timerOp (s : State) (q : Issue) (word : Nat) (kind : TimerKind) : State :=
  let e := q.eng
  let sp := s.edgeSpace e
  s.runOp q { word := word, space := sp, nin := 2, nout := 1, base := 6, worst := 20240000 } (fun ins s =>
    let a := scalar (inp ins 0)
    let x := inp ins 1
    match s.edgeElem e a 2176 64 with
    | .error c => (.exc c 0 a, s)
    | .ok off =>
    match s.blockOvl e sp off with
    | (some l, s) => (.older l, s)
    | (none, s) =>
    match s.blockRead e sp off [0, 1] with
    | (.inl (.exc c kd ad), s) => (.exc c kd ad, s)
    | (.inl (.stall st), s) => (.stall st, s)
    | (.inl (.ok _ _), s) => (.stall .none, s)
    | (.inr ls, s) =>
      let l0 := (ls.headD (0, 0)).2
      let l1 := (ls.getD 1 (1, 0)).2
      let now := form64 (s.engEpoch e)
      let pt := bits l0 0 64
      let needs (j : Nat) : Bool := (List.range 8).any (fun t =>
        let i := 8 * j + t
        let l := laneOf l0 l1 [] i
        l.run || laneStarts kind now pt (x.getLsbD i) l)
      match s.blockRead e sp off (((List.range 32).filter needs).map (2 + ·)) with
      | (.inl (.exc c kd ad), s) => (.exc c kd ad, s)
      | (.inl (.stall st), s) => (.stall st, s)
      | (.inl (.ok _ _), s) => (.stall .none, s)
      | (.inr stamps, s) =>
        let old := (List.range 256).map (laneOf l0 l1 stamps)
        let new := old.zipIdx.map (fun p => laneStep kind now pt (x.getLsbD p.2) p.1)
        let started := (old.zipIdx.filter (fun p => laneStarts kind now pt (x.getLsbD p.2) p.1)).map (·.2)
        let at_ (f : Lane → Bool) : Row := rowOf (fun i => match new[i]? with | some l => f l | none => false)
        let qr := at_ (·.q)
        let n0 := putBits l0 256 256 (at_ (·.prev)).toNat
        let n1 := qr.toNat + (at_ (·.run)).toNat * 2 ^ 256
        let sl := (stamps.filter (fun p => started.any (fun i => 2 + i / 8 == p.1))).map (fun p =>
          (p.1, started.foldl (fun v i => if 2 + i / 8 = p.1 then putBits v (64 * (i % 8)) 64 now else v) p.2))
        match s.blockWrite e sp off ((0, n0) :: (1, n1) :: sl) with
        | (some (.exc c kd ad), s) => (.exc c kd ad, s)
        | (some (.stall st), s) => (.stall st, s)
        | (_, s) => (.ok { outs := [qr], base := 6 }, s))

/-- TRST (Table 5.9): PREV, Q and RUN to 0; line 0 is read, lines 0 and 1 written. -/
def trstOp (s : State) (q : Issue) : State :=
  let e := q.eng
  let sp := s.edgeSpace e
  s.runOp q { word := 0x0305, space := sp, nin := 1, nout := 0, base := 4, worst := 17640000 } (fun ins s =>
    let a := scalar (inp ins 0)
    match s.edgeElem e a 2176 64 with
    | .error c => (.exc c 0 a, s)
    | .ok off =>
    match s.blockOvl e sp off with
    | (some l, s) => (.older l, s)
    | (none, s) =>
    match s.blockRead e sp off [0] with
    | (.inl (.exc c kd ad), s) => (.exc c kd ad, s)
    | (.inl (.stall st), s) => (.stall st, s)
    | (.inl (.ok _ _), s) => (.stall .none, s)
    | (.inr ls, s) =>
      match s.blockWrite e sp off [(0, bits (ls.headD (0, 0)).2 0 256), (1, 0)] with
      | (some (.exc c kd ad), s) => (.exc c kd ad, s)
      | (some (.stall st), s) => (.stall st, s)
      | (_, s) => (.ok { outs := [], base := 4 }, s))

end State


/-- RISE: r[i] = r1[i] and not e[i], then e = r1 (Table 5.7). -/
def execRise (q : Issue) (s : State) : Host.Outcome State Fault Refusal :=
  act (fun s => s.edgeOp q 0x0300 (fun x e => x &&& ~~~e)) s

/-- FALL: r[i] = e[i] and not r1[i], then e = r1 (Table 5.7). -/
def execFall (q : Issue) (s : State) : Host.Outcome State Fault Refusal :=
  act (fun s => s.edgeOp q 0x0301 (fun x e => e &&& ~~~x)) s

/-- TON over 256 lanes (R127, R128). -/
def execTon (q : Issue) (s : State) : Host.Outcome State Fault Refusal :=
  act (fun s => s.timerOp q 0x0302 .ton) s

/-- TOF over 256 lanes (R127, R128). -/
def execTof (q : Issue) (s : State) : Host.Outcome State Fault Refusal :=
  act (fun s => s.timerOp q 0x0303 .tof) s

/-- TP over 256 lanes (R127, R128). -/
def execTp (q : Issue) (s : State) : Host.Outcome State Fault Refusal :=
  act (fun s => s.timerOp q 0x0304 .tp) s

/-- TRST (R128, Table 5.9). -/
def execTrst (q : Issue) (s : State) : Host.Outcome State Fault Refusal :=
  act (fun s => s.trstOp q) s

/-- LDB (Table 5.20). -/
def execLdb (q : Issue) (sp md : Nat) (s : State) : Host.Outcome State Fault Refusal :=
  act (fun s => s.loadOp q .ldb sp md) s

/-- LDR (Table 5.20). -/
def execLdr (q : Issue) (sp md : Nat) (s : State) : Host.Outcome State Fault Refusal :=
  act (fun s => s.loadOp q .ldr sp md) s

/-- LDW (Table 5.20). -/
def execLdw (q : Issue) (sp md : Nat) (s : State) : Host.Outcome State Fault Refusal :=
  act (fun s => s.loadOp q .ldw sp md) s

/-- LDL (Table 5.20). -/
def execLdl (q : Issue) (sp md : Nat) (s : State) : Host.Outcome State Fault Refusal :=
  act (fun s => s.loadOp q .ldl sp md) s

/-- STB (Table 5.20). -/
def execStb (q : Issue) (sp md : Nat) (s : State) : Host.Outcome State Fault Refusal :=
  act (fun s => s.storeOp q .stb sp md) s

/-- STR (Table 5.20). -/
def execStr (q : Issue) (sp md : Nat) (s : State) : Host.Outcome State Fault Refusal :=
  act (fun s => s.storeOp q .str sp md) s

/-- STRM (Table 5.20). -/
def execStrm (q : Issue) (sp md : Nat) (s : State) : Host.Outcome State Fault Refusal :=
  act (fun s => s.storeOp q .strm sp md) s

/-- STW (Table 5.20). -/
def execStw (q : Issue) (sp md : Nat) (s : State) : Host.Outcome State Fault Refusal :=
  act (fun s => s.storeOp q .stw sp md) s

/-- STL (Table 5.20). -/
def execStl (q : Issue) (sp md : Nat) (s : State) : Host.Outcome State Fault Refusal :=
  act (fun s => s.storeOp q .stl sp md) s

/-- LR (R102): a 64-bit load that sets the engine's reservation on the line, after the drain of R101. -/
def execLr (q : Issue) (sp md : Nat) (s : State) : Host.Outcome State Fault Refusal :=
  act (fun s => s.runOp q (memInfo q.eng .lr sp md 1 1 3 16800000 1 true) (fun ins s =>
    let a := scalar (inp ins 0)
    match s.loadElem q.eng .lr sp a (fun v base s => s.memEnd q.eng md base (v :: kept .lr sp md (inp ins 0))) with
    | (.ok d, s) =>
      let r : Resv := { owner := s.engOwner q.eng, line := s.resvLine q.eng sp a, age := 0 }
      (.ok { d with post := fun s => s.setEng q.eng { s.eng q.eng with resv := some r } }, s)
    | r => r)) s

/-- SC (R102, R143): stored, with status 0, only while the reservation is held on the address's line; else status 1. The
reservation is cleared in either case. -/
def execSc (q : Issue) (sp md : Nat) (s : State) : Host.Outcome State Fault Refusal :=
  act (fun s => s.runOp q (memInfo q.eng .sc sp md 2 1 3 17600000 0 true) (fun ins s =>
    let e := q.eng
    let a := scalar (inp ins 0)
    match s.elem e .sc sp a with
    | .exc c => (.exc c 0 a, s)
    | .row _ _ => (.exc 0x0B 0 a, s)
    | .byte off _ =>
      let held := match (s.eng e).resv with
        | some r => r.owner == s.engOwner e && r.line == s.resvLine e sp off
        | none => false
      let clear (s : State) : State := s.setEng e { s.eng e with resv := none }
      if held then
        match s.scWrite e sp off (scalar (inp ins 1)) with
        | (some (.exc c kd ad), s) => (.exc c kd ad, s)
        | (some (.stall st), s) => (.stall st, s)
        | (_, s) => (clear s).memEnd e md 3 (ofScalar 0 :: kept .sc sp md (inp ins 0))
      else (clear s).memEnd e md 2 (ofScalar 1 :: kept .sc sp md (inp ins 0)))) s

/-- TSET (R103): reads and sets one SEM bit indivisibly. -/
def execTset (q : Issue) (sp md : Nat) (s : State) : Host.Outcome State Fault Refusal :=
  act (fun s => s.runOp q (memInfo q.eng .tset sp md 1 1 6 13200000 1 true) (fun ins s =>
    let e := q.eng
    let a := scalar (inp ins 0)
    match s.elem e .tset sp a with
    | .row row b =>
      let was := (s.img.sem.get 0 row).getLsbD b
      let s := s.semWrite (s.engOwner e) row (laneMask b) (laneMask b)
      s.memEnd e md 6 (ofBool was :: kept .tset sp md (inp ins 0))
    | .byte _ _ => (.exc 0x0B 0 a, s)
    | .exc c => (.exc c 0 a, s))) s

/-- LDC (R95): the initial value CNST gives the element. -/
def execLdc (q : Issue) (sp md : Nat) (s : State) : Host.Outcome State Fault Refusal :=
  act (fun s => s.runOp q (memInfo q.eng .ldc sp md 1 1 3 4000000 1 false) (fun ins s =>
    let e := q.eng
    let a := scalar (inp ins 0)
    let done (off : Nat) : Res × State :=
      match s.loadInit e sp off with
      | (.ok bs _, s) => s.memEnd e md 3 (rowOfBytes bs :: kept .ldc sp md (inp ins 0))
      | (.exc c kd ad, s) => (.exc c kd ad, s)
      | (.stall st, s) => (.stall st, s)
    match s.elem e .ldc sp a with
    | .exc c => (.exc c 0 a, s)
    | .row _ _ => done (a / 256 * 32)
    | .byte off _ => done off)) s

end Sys2Proof.Machine
end

