-- ==== Sys2Proof/Machine/Dispatch.lean ====
section
/-! DEFINITION. The effect of each command on everything but the queue: one direct call of its meaning per constructor. -/
namespace Sys2Proof.Machine

/-- A command's effect. -/
def exec (i : Instr) (s : State) : Host.Outcome State Fault Refusal :=
  match i with
  -- Modes, supply, start and scantling update (chapters 2, 3, 21, 22).
  | .supplyValid p => Sys2Proof.Machine.execSupplyValid p s
  | .leanRetry p => Sys2Proof.Machine.execLeanRetry p s
  | .configureComplete => Sys2Proof.Machine.execConfigureComplete s
  | .powerFailWarning cause busMv => Sys2Proof.Machine.execPowerFailWarning cause busMv s
  | .seatedLoopBreak => Sys2Proof.Machine.execSeatedLoopBreak s
  | .drainComplete ok => Sys2Proof.Machine.execDrainComplete ok s
  | .supplyLossNoDrain => Sys2Proof.Machine.execSupplyLossNoDrain s
  | .removalRequest heldMs => Sys2Proof.Machine.execRemovalRequest heldMs s
  | .removalConfirmTimeout => Sys2Proof.Machine.execRemovalConfirmTimeout s
  | .modecmdStop r kind => Sys2Proof.Machine.execModecmdStop r kind s
  | .modecmdRun r kind => Sys2Proof.Machine.execModecmdRun r kind s
  | .modecmdTest r kind => Sys2Proof.Machine.execModecmdTest r kind s
  | .modecmdDrain r kind => Sys2Proof.Machine.execModecmdDrain r kind s
  | .runStart t => Sys2Proof.Machine.execRunStart t s
  | .holdQuietExpiry => Sys2Proof.Machine.execHoldQuietExpiry s
  | .ownerQuietExpiry n => Sys2Proof.Machine.execOwnerQuietExpiry n s
  | .ownerStop n => Sys2Proof.Machine.execOwnerStop n s
  | .ownerStart n t => Sys2Proof.Machine.execOwnerStart n t s
  | .scnLoad h off bytes bad => Sys2Proof.Machine.execScnLoad h off bytes bad s
  | .loadTimeout n => Sys2Proof.Machine.execLoadTimeout n s
  | .scnCommit h => Sys2Proof.Machine.execScnCommit h s
  | .planeStreamDone => Sys2Proof.Machine.execPlaneStreamDone s
  | .planeSwap => Sys2Proof.Machine.execPlaneSwap s
  | .updateFail => Sys2Proof.Machine.execUpdateFail s
  | .scnConfirm h => Sys2Proof.Machine.execScnConfirm h s
  | .scnRollback h => Sys2Proof.Machine.execScnRollback h s
  | .updateWindowExpiry => Sys2Proof.Machine.execUpdateWindowExpiry s
  | .rollbackSwap force => Sys2Proof.Machine.execRollbackSwap force s
  -- The Guaris instructions (chapter 5): `q` says which engine runs it and when.
  | .nop q => Sys2Proof.Machine.execNop q s
  | .dup q => Sys2Proof.Machine.execDup q s
  | .drop q => Sys2Proof.Machine.execDrop q s
  | .swap q => Sys2Proof.Machine.execSwap q s
  | .over q => Sys2Proof.Machine.execOver q s
  | .rot q => Sys2Proof.Machine.execRot q s
  | .nip q => Sys2Proof.Machine.execNip q s
  | .pick q => Sys2Proof.Machine.execPick q s
  | .and_ q => Sys2Proof.Machine.execAnd q s
  | .or_ q => Sys2Proof.Machine.execOr q s
  | .xor q => Sys2Proof.Machine.execXor q s
  | .not_ q => Sys2Proof.Machine.execNot q s
  | .andn q => Sys2Proof.Machine.execAndn q s
  | .orn q => Sys2Proof.Machine.execOrn q s
  | .mux q => Sys2Proof.Machine.execMux q s
  | .lshu q => Sys2Proof.Machine.execLshu q s
  | .lshd q => Sys2Proof.Machine.execLshd q s
  | .lrot q => Sys2Proof.Machine.execLrot q s
  | .bcast q => Sys2Proof.Machine.execBcast q s
  | .any q => Sys2Proof.Machine.execAny q s
  | .all q => Sys2Proof.Machine.execAll q s
  | .popc q => Sys2Proof.Machine.execPopc q s
  | .lmask q => Sys2Proof.Machine.execLmask q s
  | .rise q => Sys2Proof.Machine.execRise q s
  | .fall q => Sys2Proof.Machine.execFall q s
  | .ton q => Sys2Proof.Machine.execTon q s
  | .tof q => Sys2Proof.Machine.execTof q s
  | .tp q => Sys2Proof.Machine.execTp q s
  | .trst q => Sys2Proof.Machine.execTrst q s
  | .add q => Sys2Proof.Machine.execAdd q s
  | .sub q => Sys2Proof.Machine.execSub q s
  | .neg q => Sys2Proof.Machine.execNeg q s
  | .inc q => Sys2Proof.Machine.execInc q s
  | .dec q => Sys2Proof.Machine.execDec q s
  | .mul q => Sys2Proof.Machine.execMul q s
  | .mulh q => Sys2Proof.Machine.execMulh q s
  | .mulhu q => Sys2Proof.Machine.execMulhu q s
  | .div q => Sys2Proof.Machine.execDiv q s
  | .divu q => Sys2Proof.Machine.execDivu q s
  | .rem q => Sys2Proof.Machine.execRem q s
  | .remu q => Sys2Proof.Machine.execRemu q s
  | .shl q => Sys2Proof.Machine.execShl q s
  | .shr q => Sys2Proof.Machine.execShr q s
  | .sar q => Sys2Proof.Machine.execSar q s
  | .min q => Sys2Proof.Machine.execMin q s
  | .max q => Sys2Proof.Machine.execMax q s
  | .minu q => Sys2Proof.Machine.execMinu q s
  | .maxu q => Sys2Proof.Machine.execMaxu q s
  | .abs q => Sys2Proof.Machine.execAbs q s
  | .addsat q => Sys2Proof.Machine.execAddsat q s
  | .subsat q => Sys2Proof.Machine.execSubsat q s
  | .fadd q dbl => Sys2Proof.Machine.execFadd q dbl s
  | .fsub q dbl => Sys2Proof.Machine.execFsub q dbl s
  | .fmul q dbl => Sys2Proof.Machine.execFmul q dbl s
  | .fdiv q dbl => Sys2Proof.Machine.execFdiv q dbl s
  | .fsqrt q dbl => Sys2Proof.Machine.execFsqrt q dbl s
  | .fma q dbl => Sys2Proof.Machine.execFma q dbl s
  | .fneg q dbl => Sys2Proof.Machine.execFneg q dbl s
  | .fabs q dbl => Sys2Proof.Machine.execFabs q dbl s
  | .fmin q dbl => Sys2Proof.Machine.execFmin q dbl s
  | .fmax q dbl => Sys2Proof.Machine.execFmax q dbl s
  | .eq q => Sys2Proof.Machine.execEq q s
  | .ne q => Sys2Proof.Machine.execNe q s
  | .lt q => Sys2Proof.Machine.execLt q s
  | .le q => Sys2Proof.Machine.execLe q s
  | .gt q => Sys2Proof.Machine.execGt q s
  | .ge q => Sys2Proof.Machine.execGe q s
  | .ltu q => Sys2Proof.Machine.execLtu q s
  | .leu q => Sys2Proof.Machine.execLeu q s
  | .gtu q => Sys2Proof.Machine.execGtu q s
  | .geu q => Sys2Proof.Machine.execGeu q s
  | .req q => Sys2Proof.Machine.execReq q s
  | .feq q dbl => Sys2Proof.Machine.execFeq q dbl s
  | .flt q dbl => Sys2Proof.Machine.execFlt q dbl s
  | .fle q dbl => Sys2Proof.Machine.execFle q dbl s
  | .fun q dbl => Sys2Proof.Machine.execFun q dbl s
  | .sx q form => Sys2Proof.Machine.execSx q form s
  | .zx q form => Sys2Proof.Machine.execZx q form s
  | .i2s q => Sys2Proof.Machine.execI2s q s
  | .i2d q => Sys2Proof.Machine.execI2d q s
  | .u2s q => Sys2Proof.Machine.execU2s q s
  | .u2d q => Sys2Proof.Machine.execU2d q s
  | .s2i q => Sys2Proof.Machine.execS2i q s
  | .d2i q => Sys2Proof.Machine.execD2i q s
  | .s2d q => Sys2Proof.Machine.execS2d q s
  | .d2s q => Sys2Proof.Machine.execD2s q s
  | .wext q => Sys2Proof.Machine.execWext q s
  | .wins q => Sys2Proof.Machine.execWins q s
  | .yield q => Sys2Proof.Machine.execYield q s
  | .wait q => Sys2Proof.Machine.execWait q s
  | .signal q => Sys2Proof.Machine.execSignal q s
  | .end_ q => Sys2Proof.Machine.execEnd q s
  | .ret q => Sys2Proof.Machine.execRet q s
  | .trap q => Sys2Proof.Machine.execTrap q s
  | .enq q => Sys2Proof.Machine.execEnq q s
  | .enq2 q => Sys2Proof.Machine.execEnq2 q s
  | .deq q => Sys2Proof.Machine.execDeq q s
  | .deq2 q => Sys2Proof.Machine.execDeq2 q s
  | .rcnt q => Sys2Proof.Machine.execRcnt q s
  | .din q => Sys2Proof.Machine.execDin q s
  | .dout q => Sys2Proof.Machine.execDout q s
  | .now q => Sys2Proof.Machine.execNow q s
  | .nowe q => Sys2Proof.Machine.execNowe q s
  | .elapsed q => Sys2Proof.Machine.execElapsed q s
  | .elapsedh q => Sys2Proof.Machine.execElapsedh q s
  | .br q off => Sys2Proof.Machine.execBr q off s
  | .bz q off => Sys2Proof.Machine.execBz q off s
  | .bnz q off => Sys2Proof.Machine.execBnz q off s
  | .call q off => Sys2Proof.Machine.execCall q off s
  | .lit q imm => Sys2Proof.Machine.execLit q imm s
  | .ext q imm => Sys2Proof.Machine.execExt q imm s
  | .ldb q sp md => Sys2Proof.Machine.execLdb q sp md s
  | .stb q sp md => Sys2Proof.Machine.execStb q sp md s
  | .ldr q sp md => Sys2Proof.Machine.execLdr q sp md s
  | .str q sp md => Sys2Proof.Machine.execStr q sp md s
  | .strm q sp md => Sys2Proof.Machine.execStrm q sp md s
  | .ldw q sp md => Sys2Proof.Machine.execLdw q sp md s
  | .stw q sp md => Sys2Proof.Machine.execStw q sp md s
  | .ldl q sp md => Sys2Proof.Machine.execLdl q sp md s
  | .stl q sp md => Sys2Proof.Machine.execStl q sp md s
  | .lr q sp md => Sys2Proof.Machine.execLr q sp md s
  | .sc q sp md => Sys2Proof.Machine.execSc q sp md s
  | .tset q sp md => Sys2Proof.Machine.execTset q sp md s
  | .ldc q sp md => Sys2Proof.Machine.execLdc q sp md s
  -- Engines, SEQ, IMG and rings (chapters 4 to 8).
  | .storeLineWrite e => Sys2Proof.Machine.execStoreLineWrite e s
  | .reservationExpiry e => Sys2Proof.Machine.execReservationExpiry e s
  | .paceReport m ps => Sys2Proof.Machine.execPaceReport m ps s
  | .bentSelfTest r e => Sys2Proof.Machine.execBentSelfTest r e s
  | .selfTestDone m pass => Sys2Proof.Machine.execSelfTestDone m pass s
  | .bentGateOff m => Sys2Proof.Machine.execBentGateOff m s
  | .bentWakeComplete m => Sys2Proof.Machine.execBentWakeComplete m s
  | .cyclicRelease => Sys2Proof.Machine.execCyclicRelease s
  | .eventRelease => Sys2Proof.Machine.execEventRelease s
  | .pendingRelease => Sys2Proof.Machine.execPendingRelease s
  | .preemption e => Sys2Proof.Machine.execPreemption e s
  | .budgetExceeded k => Sys2Proof.Machine.execBudgetExceeded k s
  | .deadlineMiss k => Sys2Proof.Machine.execDeadlineMiss k s
  | .mutualWaitDetected n => Sys2Proof.Machine.execMutualWaitDetected n s
  | .waitEvent k => Sys2Proof.Machine.execWaitEvent k s
  | .waitDeadline k => Sys2Proof.Machine.execWaitDeadline k s
  | .releaseHoldEnd => Sys2Proof.Machine.execReleaseHoldEnd s
  | .commit n => Sys2Proof.Machine.execCommit n s
  | .stagedStoreResume e => Sys2Proof.Machine.execStagedStoreResume e s
  | .poolStallLimit e => Sys2Proof.Machine.execPoolStallLimit e s
  | .sysRowUpdate n row => Sys2Proof.Machine.execSysRowUpdate n row s
  | .ringEnable r q => Sys2Proof.Machine.execRingEnable r q s
  | .ringEnableDone q => Sys2Proof.Machine.execRingEnableDone q s
  | .ringDisable r q => Sys2Proof.Machine.execRingDisable r q s
  | .ringDisableDone q => Sys2Proof.Machine.execRingDisableDone q s
  | .hwRingEntry q bytes => Sys2Proof.Machine.execHwRingEntry q bytes s
  | .hwRingTake q => Sys2Proof.Machine.execHwRingTake q s
  -- Splices (chapter 9).
  | .splLoad h off bytes => Sys2Proof.Machine.execSplLoad h off bytes s
  | .splApply h owner => Sys2Proof.Machine.execSplApply h owner s
  | .spliceApplyInstant n => Sys2Proof.Machine.execSpliceApplyInstant n s
  | .spliceApplyTimeout n => Sys2Proof.Machine.execSpliceApplyTimeout n s
  | .splConfirm h owner => Sys2Proof.Machine.execSplConfirm h owner s
  | .splRollback h owner => Sys2Proof.Machine.execSplRollback h owner s
  | .spliceWindowExpiry n => Sys2Proof.Machine.execSpliceWindowExpiry n s
  | .spliceRollbackInstant n => Sys2Proof.Machine.execSpliceRollbackInstant n s
  | .spliceForcedRollback n => Sys2Proof.Machine.execSpliceForcedRollback n s
  -- Hot-standby pairs (chapter 10).
  | .hello x => Sys2Proof.Machine.execHello x s
  | .helloSend => Sys2Proof.Machine.execHelloSend s
  | .keyconf tag => Sys2Proof.Machine.execKeyconf tag s
  | .heartbeatSend => Sys2Proof.Machine.execHeartbeatSend s
  | .heartbeat h mode role flevel suspect epoch off => Sys2Proof.Machine.execHeartbeat h mode role flevel suspect epoch off s
  | .partnerLost => Sys2Proof.Machine.execPartnerLost s
  | .takeoverComplete => Sys2Proof.Machine.execTakeoverComplete s
  | .holdTakeover => Sys2Proof.Machine.execHoldTakeover s
  | .digest h l => Sys2Proof.Machine.execDigest h l s
  | .digestMissing => Sys2Proof.Machine.execDigestMissing s
  | .role h op cause t => Sys2Proof.Machine.execRole h op cause t s
  | .leave h cause => Sys2Proof.Machine.execLeave h cause s
  | .stopcmd h cause => Sys2Proof.Machine.execStopcmd h cause s
  | .seqmap h l => Sys2Proof.Machine.execSeqmap h l s
  | .splice h op code n e => Sys2Proof.Machine.execSplice h op code n e s
  | .event h k t => Sys2Proof.Machine.execEvent h k t s
  | .rows h l => Sys2Proof.Machine.execRows h l s
  | .ringe h q esize pidx bytes => Sys2Proof.Machine.execRinge h q esize pidx bytes s
  | .xfer h kind n count items => Sys2Proof.Machine.execXfer h kind n count items s
  | .pkg h n off bytes => Sys2Proof.Machine.execPkg h n off bytes s
  | .xferCut => Sys2Proof.Machine.execXferCut s
  | .xferShadowEntry => Sys2Proof.Machine.execXferShadowEntry s
  | .xferTimeout => Sys2Proof.Machine.execXferTimeout s
  | .switch r => Sys2Proof.Machine.execSwitch r s
  | .clrsusp r => Sys2Proof.Machine.execClrsusp r s
  | .switchoverT => Sys2Proof.Machine.execSwitchoverT s
  | .switchoverDriversOff => Sys2Proof.Machine.execSwitchoverDriversOff s
  | .switchoverComplete => Sys2Proof.Machine.execSwitchoverComplete s
  | .autoSwitchover => Sys2Proof.Machine.execAutoSwitchover s
  | .claimCycle other bad => Sys2Proof.Machine.execClaimCycle other bad s
  | .inputDisagreement k => Sys2Proof.Machine.execInputDisagreement k s
  | .pairLinkDown k => Sys2Proof.Machine.execPairLinkDown k s
  -- Memory and storage (chapters 11 and 12).
  | .pageInDone n page t => Sys2Proof.Machine.execPageInDone n page t s
  | .pageOutDone n page => Sys2Proof.Machine.execPageOutDone n page s
  | .erase r n => Sys2Proof.Machine.execErase r n s
  | .eraseComplete n => Sys2Proof.Machine.execEraseComplete n s
  | .stagingFlush k avg most => Sys2Proof.Machine.execStagingFlush k avg most s
  | .packageFailed spare lost => Sys2Proof.Machine.execPackageFailed spare lost s
  | .rebuildDone => Sys2Proof.Machine.execRebuildDone s
  | .archiveWindowEnd => Sys2Proof.Machine.execArchiveWindowEnd s
  | .archiveDisable r => Sys2Proof.Machine.execArchiveDisable r s
  | .archiveEnable r => Sys2Proof.Machine.execArchiveEnable r s
  -- Network (chapter 13).
  | .gooseFrame h p => Sys2Proof.Machine.execGooseFrame h p s
  | .gooseTalExpiry k => Sys2Proof.Machine.execGooseTalExpiry k s
  | .gooseRetransmit p => Sys2Proof.Machine.execGooseRetransmit p s
  | .svFrame h p => Sys2Proof.Machine.execSvFrame h p s
  | .svMissExpiry v => Sys2Proof.Machine.execSvMissExpiry v s
  | .supervisionFrame h => Sys2Proof.Machine.execSupervisionFrame h s
  | .supervisionSend => Sys2Proof.Machine.execSupervisionSend s
  | .dupEntryAging => Sys2Proof.Machine.execDupEntryAging s
  | .udpDatagram ix u stamp => Sys2Proof.Machine.execUdpDatagram ix u stamp s
  | .udpSend n e => Sys2Proof.Machine.execUdpSend n e s
  | .arpRequest ix target sender => Sys2Proof.Machine.execArpRequest ix target sender s
  | .icmpEcho ix v6 echo dst remote => Sys2Proof.Machine.execIcmpEcho ix v6 echo dst remote s
  | .ndp ix kind target => Sys2Proof.Machine.execNdp ix kind target s
  | .neighbourTimeout ix v6 a => Sys2Proof.Machine.execNeighbourTimeout ix v6 a s
  | .portDisable r ix => Sys2Proof.Machine.execPortDisable r ix s
  | .portEnable r ix => Sys2Proof.Machine.execPortEnable r ix s
  | .linkDown ix => Sys2Proof.Machine.execLinkDown ix s
  | .linkUp ix => Sys2Proof.Machine.execLinkUp ix s
  -- Lorat (chapter 14).
  | .open_ h n serial => Sys2Proof.Machine.execOpen h n serial s
  | .halfOpenTimeout k => Sys2Proof.Machine.execHalfOpenTimeout k s
  | .sessionTimeout k => Sys2Proof.Machine.execSessionTimeout k s
  | .heldRequestTimeout k => Sys2Proof.Machine.execHeldRequestTimeout k s
  | .status h => Sys2Proof.Machine.execStatus h s
  | .close h => Sys2Proof.Machine.execClose h s
  | .imgRead h space rows first => Sys2Proof.Machine.execImgRead h space rows first s
  | .imgWrite h entries => Sys2Proof.Machine.execImgWrite h entries s
  | .imgForce h entries => Sys2Proof.Machine.execImgForce h entries s
  | .regRead h addrs => Sys2Proof.Machine.execRegRead h addrs s
  | .regWrite h entries => Sys2Proof.Machine.execRegWrite h entries s
  | .nvsRead h region len off pw => Sys2Proof.Machine.execNvsRead h region len off pw s
  | .nvsWrite h region len off pw bytes => Sys2Proof.Machine.execNvsWrite h region len off pw bytes s
  | .almRead h count first => Sys2Proof.Machine.execAlmRead h count first s
  | .almFreeze h op => Sys2Proof.Machine.execAlmFreeze h op s
  | .arcRead h sub most lo hi cursor => Sys2Proof.Machine.execArcRead h sub most lo hi cursor s
  | .arcTrig h t p q => Sys2Proof.Machine.execArcTrig h t p q s
  | .modeSet h scope owner target kind => Sys2Proof.Machine.execModeSet h scope owner target kind s
  | .plumb h t => Sys2Proof.Machine.execPlumb h t s
  -- Station time (chapter 15).
  | .ptpSync ix dom kind srcId seq origin corr rx => Sys2Proof.Machine.execPtpSync ix dom kind srcId seq origin corr rx s
  | .ptpAnnounce ix dom a utcOff utcValid leap => Sys2Proof.Machine.execPtpAnnounce ix dom a utcOff utcValid leap s
  | .pdelayReq ix dom seq => Sys2Proof.Machine.execPdelayReq ix dom seq s
  | .pdelayResp ix dom t1 t2 t3 t4 => Sys2Proof.Machine.execPdelayResp ix dom t1 t2 t3 t4 s
  | .syncSend ix kind => Sys2Proof.Machine.execSyncSend ix kind s
  | .announceTimeout ix => Sys2Proof.Machine.execAnnounceTimeout ix s
  | .holdoverDegrade => Sys2Proof.Machine.execHoldoverDegrade s
  | .ppsEdge inp t => Sys2Proof.Machine.execPpsEdge inp t s
  | .irigFrame t ok hasYear year doy hour min_ sec x am => Sys2Proof.Machine.execIrigFrame t ok hasYear year doy hour min_ sec x am s
  | .sourceQualified k => Sys2Proof.Machine.execSourceQualified k s
  | .timeStep => Sys2Proof.Machine.execTimeStep s
  | .compareFire u => Sys2Proof.Machine.execCompareFire u s
  | .compareTargetWrite r u v => Sys2Proof.Machine.execCompareTargetWrite r u v s
  | .compareArm r u arm => Sys2Proof.Machine.execCompareArm r u arm s
  | .ppsOutput => Sys2Proof.Machine.execPpsOutput s
  | .calendarAutoWrite => Sys2Proof.Machine.execCalendarAutoWrite s
  | .calendarHold r hold => Sys2Proof.Machine.execCalendarHold r hold s
  | .calendarModeChange r => Sys2Proof.Machine.execCalendarModeChange r s
  | .oscillatorStopped => Sys2Proof.Machine.execOscillatorStopped s
  -- CAN (chapter 16).
  | .canFrameReceived k f arb => Sys2Proof.Machine.execCanFrameReceived k f arb s
  | .canFrameSent k sof tdcv => Sys2Proof.Machine.execCanFrameSent k sof tdcv s
  | .canTxreq r k j => Sys2Proof.Machine.execCanTxreq r k j s
  | .canPeriodicTx k j => Sys2Proof.Machine.execCanPeriodicTx k j s
  | .canBusError k dTec dRec ours => Sys2Proof.Machine.execCanBusError k dTec dRec ours s
  | .canRejoin k => Sys2Proof.Machine.execCanRejoin k s
  | .recover r k => Sys2Proof.Machine.execRecover r k s
  | .capreq r k => Sys2Proof.Machine.execCapreq r k s
  | .canCapture => Sys2Proof.Machine.execCanCapture s
  | .canModeWrite r k m => Sys2Proof.Machine.execCanModeWrite r k m s
  | .canDisable r k => Sys2Proof.Machine.execCanDisable r k s
  | .canEnable r k => Sys2Proof.Machine.execCanEnable r k s
  -- Field I/O and loops (chapters 17 and 18).
  | .barrierDownlink kind => Sys2Proof.Machine.execBarrierDownlink kind s
  | .barrierUplink kind term codeA codeB => Sys2Proof.Machine.execBarrierUplink kind term codeA codeB s
  | .inputChange k new t => Sys2Proof.Machine.execInputChange k new t s
  | .sillRefreshLost => Sys2Proof.Machine.execSillRefreshLost s
  | .logicRefreshLost => Sys2Proof.Machine.execLogicRefreshLost s
  | .groupSupplyFault g volt => Sys2Proof.Machine.execGroupSupplyFault g volt s
  | .groupSupplyReturn g volt => Sys2Proof.Machine.execGroupSupplyReturn g volt s
  | .outputFault k kind => Sys2Proof.Machine.execOutputFault k kind s
  | .outputRetry k still => Sys2Proof.Machine.execOutputRetry k still s
  | .complianceLost k => Sys2Proof.Machine.execComplianceLost k s
  | .complianceRestored k => Sys2Proof.Machine.execComplianceRestored k s
  | .calibrationWrite r which k v => Sys2Proof.Machine.execCalibrationWrite r which k v s
  | .loopSample => Sys2Proof.Machine.execLoopSample s
  | .loopDisable r ix => Sys2Proof.Machine.execLoopDisable r ix s
  | .loopEnable r ix => Sys2Proof.Machine.execLoopEnable r ix s
  -- Faults and watchdogs (chapter 19).
  | .faultFiring src task det1 det2 => Sys2Proof.Machine.execFaultFiring src task det1 det2 s
  | .historyWrite => Sys2Proof.Machine.execHistoryWrite s
  | .stormEnd => Sys2Proof.Machine.execStormEnd s
  | .sourceInactive src => Sys2Proof.Machine.execSourceInactive src s
  | .force r src v => Sys2Proof.Machine.execForce r src v s
  | .clr r => Sys2Proof.Machine.execClr r s
  | .nowPlumb r => Sys2Proof.Machine.execNowPlumb r s
  | .armPlumb r => Sys2Proof.Machine.execArmPlumb r s
  | .cancelPlumb r => Sys2Proof.Machine.execCancelPlumb r s
  | .scheduledPlumb => Sys2Proof.Machine.execScheduledPlumb s
  | .wdgWindowOpen w => Sys2Proof.Machine.execWdgWindowOpen w s
  | .wdgExpiry w => Sys2Proof.Machine.execWdgExpiry w s
  | .serviceArm r w => Sys2Proof.Machine.execServiceArm r w s
  | .service r w => Sys2Proof.Machine.execService r w s
  | .disableArm r w => Sys2Proof.Machine.execDisableArm r w s
  | .wdgDisable r w => Sys2Proof.Machine.execWdgDisable r w s
  | .wdgPeriod r w v => Sys2Proof.Machine.execWdgPeriod r w v s
  | .wdgEnable r w => Sys2Proof.Machine.execWdgEnable r w s
  | .wdgLock r w => Sys2Proof.Machine.execWdgLock r w s
  | .wdgFallback w => Sys2Proof.Machine.execWdgFallback w s
  | .wdgTimebaseReturn w => Sys2Proof.Machine.execWdgTimebaseReturn w s
  -- NVS, the Almanac and MGT (chapters 20 and 21).
  | .nvsPsel r n region dir => Sys2Proof.Machine.execNvsPsel r n region dir s
  | .nvsPpwd r n pw => Sys2Proof.Machine.execNvsPpwd r n pw s
  | .nvsPdataRead r n => Sys2Proof.Machine.execNvsPdataRead r n s
  | .nvsPdataWrite r n v => Sys2Proof.Machine.execNvsPdataWrite r n v s
  | .setrd r n => Sys2Proof.Machine.execSetrd r n s
  | .setwr r n => Sys2Proof.Machine.execSetwr r n s
  | .almanacWrite => Sys2Proof.Machine.execAlmanacWrite s
  | .almanacCheckpoint => Sys2Proof.Machine.execAlmanacCheckpoint s
  | .mgtEngineRelease => Sys2Proof.Machine.execMgtEngineRelease s
  | .sensorSample x => Sys2Proof.Machine.execSensorSample x s
  | .bankMeasure c => Sys2Proof.Machine.execBankMeasure c s
  | .mgtLogsel r num => Sys2Proof.Machine.execMgtLogsel r num s
  | .go r => Sys2Proof.Machine.execGo r s
  | .strapRelease => Sys2Proof.Machine.execStrapRelease s
  -- Register accesses (chapter 1).
  | .registerWrite r a v => Sys2Proof.Machine.execRegisterWrite r a v s
  | .rcRegisterRead r a => Sys2Proof.Machine.execRcRegisterRead r a s
  | .rlLowRead r a => Sys2Proof.Machine.execRlLowRead r a s
  -- The rest, in the table's order.
  | .startwaitExpiry => Sys2Proof.Machine.execStartwaitExpiry s
  | .referenceInputLost b => Sys2Proof.Machine.execReferenceInputLost b s
  | .referenceInputReturn => Sys2Proof.Machine.execReferenceInputReturn s
  | .ocxoFault => Sys2Proof.Machine.execOcxoFault s
  | .leapSecond => Sys2Proof.Machine.execLeapSecond s
  | .pdelayReqSend => Sys2Proof.Machine.execPdelayReqSend s
  | .transceiverFault k => Sys2Proof.Machine.execTransceiverFault k s
  | .arpReply ix a => Sys2Proof.Machine.execArpReply ix a s
  | .arpRequestRepeat ix a => Sys2Proof.Machine.execArpRequestRepeat ix a s
  | .arpCacheAging ix => Sys2Proof.Machine.execArpCacheAging ix s
  | .duplicateAddressDetectionDone ix => Sys2Proof.Machine.execDuplicateAddressDetectionDone ix s
  | .framePrepared => Sys2Proof.Machine.execFramePrepared s
  | .restoreFactoryDone => Sys2Proof.Machine.execRestoreFactoryDone s
  | .moduleSeated => Sys2Proof.Machine.execModuleSeated s
  | .stationInputOutOfRange v => Sys2Proof.Machine.execStationInputOutOfRange v s
  | .stationInputInRange v => Sys2Proof.Machine.execStationInputInRange v s

end Sys2Proof.Machine
end

