-- ==== Sys2Proof/WellFormed.lean ====
section
/-! DEFINITION. Which commands are well-formed: their operands lie in the ranges the spec gives their identifiers (Table 1.6) and fields. -/
namespace Sys2Proof

/-- Sessions 1 to 64 (R339) and the engines, the management engine among them, can make register accesses. -/
def Req.wf : Req → Bool
  | .mgt => true
  | .session n => decide (0 < n) && decide (n ≤ 64)
  | .engine e => decide (e ≤ 256)

/-- An instruction runs on an engine E000 to E255, or on the management engine. -/
def Issue.wf (q : Issue) : Bool := decide (q.eng ≤ 256)

/-- A datagram's header: its session number and the flag bytes of R337. -/
def LorHead.wf (h : LorHead) : Bool := decide (h.session < 256) && decide (h.flags < 256)

/-- A frame's header: its port L00 to L31 or P00 to P95, and 48-bit addresses. -/
def NetHead.wf (h : NetHead) : Bool := decide (h.port < 128) && decide (h.dmac < 2 ^ 48) && decide (h.src < 2 ^ 48)

/-- The commands whose operands are in range. -/
def Instr.wf : Instr → Bool
  | .supplyValid _ => true
  | .leanRetry _ => true
  | .configureComplete => true
  | .powerFailWarning cause _ => decide (cause < 4)
  | .seatedLoopBreak => true
  | .drainComplete _ => true
  | .supplyLossNoDrain => true
  | .removalRequest _ => true
  | .removalConfirmTimeout => true
  | .modecmdStop r kind => r.wf && decide (kind < 4)
  | .modecmdRun r kind => r.wf && decide (kind < 4)
  | .modecmdTest r kind => r.wf && decide (kind < 4)
  | .modecmdDrain r kind => r.wf && decide (kind < 4)
  | .runStart _ => true
  | .holdQuietExpiry => true
  | .ownerQuietExpiry n => decide (n < 8)
  | .ownerStop n => decide (n < 8)
  | .ownerStart n _ => decide (n < 8)
  | .scnLoad h _ bytes _ => h.wf && decide (bytes.length ≤ 1408)
  | .loadTimeout n => decide (n < 9)
  | .scnCommit h => h.wf
  | .planeStreamDone => true
  | .planeSwap => true
  | .updateFail => true
  | .scnConfirm h => h.wf
  | .scnRollback h => h.wf
  | .updateWindowExpiry => true
  | .rollbackSwap _ => true
  | .nop q => q.wf
  | .dup q => q.wf
  | .drop q => q.wf
  | .swap q => q.wf
  | .over q => q.wf
  | .rot q => q.wf
  | .nip q => q.wf
  | .pick q => q.wf
  | .and_ q => q.wf
  | .or_ q => q.wf
  | .xor q => q.wf
  | .not_ q => q.wf
  | .andn q => q.wf
  | .orn q => q.wf
  | .mux q => q.wf
  | .lshu q => q.wf
  | .lshd q => q.wf
  | .lrot q => q.wf
  | .bcast q => q.wf
  | .any q => q.wf
  | .all q => q.wf
  | .popc q => q.wf
  | .lmask q => q.wf
  | .rise q => q.wf
  | .fall q => q.wf
  | .ton q => q.wf
  | .tof q => q.wf
  | .tp q => q.wf
  | .trst q => q.wf
  | .add q => q.wf
  | .sub q => q.wf
  | .neg q => q.wf
  | .inc q => q.wf
  | .dec q => q.wf
  | .mul q => q.wf
  | .mulh q => q.wf
  | .mulhu q => q.wf
  | .div q => q.wf
  | .divu q => q.wf
  | .rem q => q.wf
  | .remu q => q.wf
  | .shl q => q.wf
  | .shr q => q.wf
  | .sar q => q.wf
  | .min q => q.wf
  | .max q => q.wf
  | .minu q => q.wf
  | .maxu q => q.wf
  | .abs q => q.wf
  | .addsat q => q.wf
  | .subsat q => q.wf
  | .fadd q _ => q.wf
  | .fsub q _ => q.wf
  | .fmul q _ => q.wf
  | .fdiv q _ => q.wf
  | .fsqrt q _ => q.wf
  | .fma q _ => q.wf
  | .fneg q _ => q.wf
  | .fabs q _ => q.wf
  | .fmin q _ => q.wf
  | .fmax q _ => q.wf
  | .eq q => q.wf
  | .ne q => q.wf
  | .lt q => q.wf
  | .le q => q.wf
  | .gt q => q.wf
  | .ge q => q.wf
  | .ltu q => q.wf
  | .leu q => q.wf
  | .gtu q => q.wf
  | .geu q => q.wf
  | .req q => q.wf
  | .feq q _ => q.wf
  | .flt q _ => q.wf
  | .fle q _ => q.wf
  | .fun q _ => q.wf
  | .sx q form => q.wf && decide (form < 3)
  | .zx q form => q.wf && decide (form < 3)
  | .i2s q => q.wf
  | .i2d q => q.wf
  | .u2s q => q.wf
  | .u2d q => q.wf
  | .s2i q => q.wf
  | .d2i q => q.wf
  | .s2d q => q.wf
  | .d2s q => q.wf
  | .wext q => q.wf
  | .wins q => q.wf
  | .yield q => q.wf
  | .wait q => q.wf
  | .signal q => q.wf
  | .end_ q => q.wf
  | .ret q => q.wf
  | .trap q => q.wf
  | .enq q => q.wf
  | .enq2 q => q.wf
  | .deq q => q.wf
  | .deq2 q => q.wf
  | .rcnt q => q.wf
  | .din q => q.wf
  | .dout q => q.wf
  | .now q => q.wf
  | .nowe q => q.wf
  | .elapsed q => q.wf
  | .elapsedh q => q.wf
  | .br q off => q.wf && decide (off < 1024)
  | .bz q off => q.wf && decide (off < 1024)
  | .bnz q off => q.wf && decide (off < 1024)
  | .call q off => q.wf && decide (off < 1024)
  | .lit q imm => q.wf && decide (imm < 2048)
  | .ext q imm => q.wf && decide (imm < 2048)
  | .ldb q sp md => q.wf && decide (sp < 16) && decide (md < 16)
  | .stb q sp md => q.wf && decide (sp < 16) && decide (md < 16)
  | .ldr q sp md => q.wf && decide (sp < 16) && decide (md < 16)
  | .str q sp md => q.wf && decide (sp < 16) && decide (md < 16)
  | .strm q sp md => q.wf && decide (sp < 16) && decide (md < 16)
  | .ldw q sp md => q.wf && decide (sp < 16) && decide (md < 16)
  | .stw q sp md => q.wf && decide (sp < 16) && decide (md < 16)
  | .ldl q sp md => q.wf && decide (sp < 16) && decide (md < 16)
  | .stl q sp md => q.wf && decide (sp < 16) && decide (md < 16)
  | .lr q sp md => q.wf && decide (sp < 16) && decide (md < 16)
  | .sc q sp md => q.wf && decide (sp < 16) && decide (md < 16)
  | .tset q sp md => q.wf && decide (sp < 16) && decide (md < 16)
  | .ldc q sp md => q.wf && decide (sp < 16) && decide (md < 16)
  | .storeLineWrite e => decide (e < 256)
  | .reservationExpiry e => decide (e ≤ 256)
  | .paceReport m ps => decide (m < 64) && decide (ps < 4096)
  | .bentSelfTest r e => r.wf && decide (e < 256)
  | .selfTestDone m _ => decide (m < 64)
  | .bentGateOff m => decide (m < 64)
  | .bentWakeComplete m => decide (m < 64)
  | .cyclicRelease => true
  | .eventRelease => true
  | .pendingRelease => true
  | .preemption e => decide (e < 256)
  | .budgetExceeded k => decide (k < 512)
  | .deadlineMiss k => decide (k < 512)
  | .mutualWaitDetected n => decide (n < 8)
  | .waitEvent k => decide (k < 512)
  | .waitDeadline k => decide (k < 512)
  | .releaseHoldEnd => true
  | .commit n => decide (n < 8)
  | .stagedStoreResume e => decide (e < 256)
  | .poolStallLimit e => decide (e < 256)
  | .sysRowUpdate n row => decide (n < 8) && decide (row < 2)
  | .ringEnable r q => r.wf && decide (q < 4096)
  | .ringEnableDone q => decide (q < 4096)
  | .ringDisable r q => r.wf && decide (q < 4096)
  | .ringDisableDone q => decide (q < 4096)
  | .hwRingEntry q bytes => decide (q < 4096) && decide (bytes.length ≤ 64)
  | .hwRingTake q => decide (q < 4096)
  | .splLoad h _ bytes => h.wf && decide (bytes.length ≤ 1408)
  | .splApply h _ => h.wf
  | .spliceApplyInstant n => decide (n < 8)
  | .spliceApplyTimeout n => decide (n < 8)
  | .splConfirm h _ => h.wf
  | .splRollback h _ => h.wf
  | .spliceWindowExpiry n => decide (n < 8)
  | .spliceRollbackInstant n => decide (n < 8)
  | .spliceForcedRollback n => decide (n < 8)
  | .hello _ => true
  | .helloSend => true
  | .keyconf _ => true
  | .heartbeatSend => true
  | .heartbeat _ mode _ _ _ _ _ => decide (mode < 12)
  | .partnerLost => true
  | .takeoverComplete => true
  | .holdTakeover => true
  | .digest _ _ => true
  | .digestMissing => true
  | .role _ _ _ _ => true
  | .leave _ _ => true
  | .stopcmd _ _ => true
  | .seqmap _ _ => true
  | .splice _ _ _ _ _ => true
  | .event _ _ _ => true
  | .rows _ _ => true
  | .ringe _ q _ _ _ => decide (q < 4096)
  | .xfer _ _ _ _ _ => true
  | .pkg _ n _ _ => decide (n < 8)
  | .xferCut => true
  | .xferShadowEntry => true
  | .xferTimeout => true
  | .switch r => r.wf
  | .clrsusp r => r.wf
  | .switchoverT => true
  | .switchoverDriversOff => true
  | .switchoverComplete => true
  | .autoSwitchover => true
  | .claimCycle _ _ => true
  | .inputDisagreement k => decide (k < 64)
  | .pairLinkDown k => decide (k < 4)
  | .pageInDone n _ _ => decide (n < 8)
  | .pageOutDone n _ => decide (n < 8)
  | .erase r n => r.wf && decide (n < 8)
  | .eraseComplete n => decide (n < 8)
  | .stagingFlush _ _ _ => true
  | .packageFailed spare _ => decide (spare ≤ 1000)
  | .rebuildDone => true
  | .archiveWindowEnd => true
  | .archiveDisable r => r.wf
  | .archiveEnable r => r.wf
  | .gooseFrame h _ => h.wf
  | .gooseTalExpiry k => decide (k < 4096)
  | .gooseRetransmit p => decide (p < 1024)
  | .svFrame h _ => h.wf
  | .svMissExpiry v => decide (v < 1024)
  | .supervisionFrame h => h.wf
  | .supervisionSend => true
  | .dupEntryAging => true
  | .udpDatagram i _ _ => decide (i < 128)
  | .udpSend n e => decide (n < 8) && decide (e < 16)
  | .arpRequest i _ _ => decide (i < 128)
  | .icmpEcho i _ _ _ _ => decide (i < 128)
  | .ndp i _ _ => decide (i < 128)
  | .neighbourTimeout i _ _ => decide (i < 128)
  | .portDisable r i => r.wf && decide (i < 128)
  | .portEnable r i => r.wf && decide (i < 128)
  | .linkDown i => decide (i < 128)
  | .linkUp i => decide (i < 128)
  | .open_ h n _ => h.wf && decide (n < 256)
  | .halfOpenTimeout k => decide (0 < k) && decide (k ≤ 64)
  | .sessionTimeout k => decide (0 < k) && decide (k ≤ 64)
  | .heldRequestTimeout k => decide (0 < k) && decide (k ≤ 64)
  | .status h => h.wf
  | .close h => h.wf
  | .imgRead h space _ _ => h.wf && decide (space < 16)
  | .imgWrite h entries => h.wf && decide (entries.length < 22)
  | .imgForce h _ => h.wf
  | .regRead h addrs => h.wf && addrs.all (fun a => decide (a < 2 ^ 32))
  | .regWrite h entries => h.wf && entries.all (fun x => decide (x.1 < 2 ^ 32))
  | .nvsRead h region _ _ _ => h.wf && decide (region < 256)
  | .nvsWrite h region _ _ _ _ => h.wf && decide (region < 256)
  | .almRead h _ _ => h.wf
  | .almFreeze h op => h.wf && decide (op < 256)
  | .arcRead h _ _ _ _ _ => h.wf
  | .arcTrig h _ _ _ => h.wf
  | .modeSet h scope _ _ _ => h.wf && decide (scope < 256)
  | .plumb h _ => h.wf
  | .ptpSync i _ kind _ _ _ _ _ => decide (i < 128) && decide (kind < 3)
  | .ptpAnnounce i _ _ _ _ _ => decide (i < 128)
  | .pdelayReq i _ _ => decide (i < 128)
  | .pdelayResp i _ _ _ _ _ => decide (i < 128)
  | .syncSend i _ => decide (i < 128)
  | .announceTimeout i => decide (i < 128)
  | .holdoverDegrade => true
  | .ppsEdge inp _ => decide (inp < 2)
  | .irigFrame _ _ _ _ _ _ _ _ _ _ => true
  | .sourceQualified k => decide (1 ≤ k) && decide (k ≤ 4)
  | .timeStep => true
  | .compareFire u => decide (u < 64)
  | .compareTargetWrite r u _ => r.wf && decide (u < 64)
  | .compareArm r u _ => r.wf && decide (u < 64)
  | .ppsOutput => true
  | .calendarAutoWrite => true
  | .calendarHold r _ => r.wf
  | .calendarModeChange r => r.wf
  | .oscillatorStopped => true
  | .canFrameReceived k f _ => decide (k < 32) && decide (f.dlc < 16)
  | .canFrameSent k _ _ => decide (k < 32)
  | .canTxreq r k j => r.wf && decide (k < 32) && decide (j < 128)
  | .canPeriodicTx k j => decide (k < 32) && decide (j < 128)
  | .canBusError k _ _ _ => decide (k < 32)
  | .canRejoin k => decide (k < 32)
  | .recover r k => r.wf && decide (k < 32)
  | .capreq r k => r.wf && decide (k < 32)
  | .canCapture => true
  | .canModeWrite r k m => r.wf && decide (k < 32) && decide (m < 4)
  | .canDisable r k => r.wf && decide (k < 32)
  | .canEnable r k => r.wf && decide (k < 32)
  | .barrierDownlink kind => decide (kind < 3)
  | .barrierUplink _ _ _ _ => true
  | .inputChange k _ _ => decide (k < 64)
  | .sillRefreshLost => true
  | .logicRefreshLost => true
  | .groupSupplyFault g _ => decide (g < 4)
  | .groupSupplyReturn g _ => decide (g < 4)
  | .outputFault k _ => decide (k < 64)
  | .outputRetry k _ => decide (k < 64)
  | .complianceLost k => decide (k < 16)
  | .complianceRestored k => decide (k < 16)
  | .calibrationWrite r which _ _ => r.wf && decide (which < 3)
  | .loopSample => true
  | .loopDisable r i => r.wf && decide (i < 256)
  | .loopEnable r i => r.wf && decide (i < 256)
  | .faultFiring src _ _ _ => decide (src < 2048)
  | .historyWrite => true
  | .stormEnd => true
  | .sourceInactive src => decide (src < 2048)
  | .force r src _ => r.wf && decide (src < 2048)
  | .clr r => r.wf
  | .nowPlumb r => r.wf
  | .armPlumb r => r.wf
  | .cancelPlumb r => r.wf
  | .scheduledPlumb => true
  | .wdgWindowOpen w => decide (w < 9)
  | .wdgExpiry w => decide (w < 9)
  | .serviceArm r w => r.wf && decide (w < 9)
  | .service r w => r.wf && decide (w < 9)
  | .disableArm r w => r.wf && decide (w < 9)
  | .wdgDisable r w => r.wf && decide (w < 9)
  | .wdgPeriod r w _ => r.wf && decide (w < 9)
  | .wdgEnable r w => r.wf && decide (w < 9)
  | .wdgLock r w => r.wf && decide (w < 9)
  | .wdgFallback w => decide (w < 9)
  | .wdgTimebaseReturn w => decide (w < 9)
  | .nvsPsel r n region dir => r.wf && decide (n < 8) && decide (region < 64) && decide (dir < 2)
  | .nvsPpwd r n pw => r.wf && decide (n < 8) && decide (pw < 2 ^ 64)
  | .nvsPdataRead r n => r.wf && decide (n < 8)
  | .nvsPdataWrite r n _ => r.wf && decide (n < 8)
  | .setrd r n => r.wf && decide (n < 8)
  | .setwr r n => r.wf && decide (n < 8)
  | .almanacWrite => true
  | .almanacCheckpoint => true
  | .mgtEngineRelease => true
  | .sensorSample _ => true
  | .bankMeasure c => decide (c < 4096)
  | .mgtLogsel r _ => r.wf
  | .go r => r.wf
  | .strapRelease => true
  | .registerWrite r a v => r.wf && decide (a < 2 ^ 32) && decide (v < 2 ^ 32)
  | .rcRegisterRead r a => r.wf && decide (a < 2 ^ 32)
  | .rlLowRead r a => r.wf && decide (a < 2 ^ 32)
  | .startwaitExpiry => true
  | .referenceInputLost b => decide (b < 8)
  | .referenceInputReturn => true
  | .ocxoFault => true
  | .leapSecond => true
  | .pdelayReqSend => true
  | .transceiverFault k => decide (k < 32)
  | .arpReply i _ => decide (i < 128)
  | .arpRequestRepeat i _ => decide (i < 128)
  | .arpCacheAging i => decide (i < 128)
  | .duplicateAddressDetectionDone i => decide (i < 128)
  | .framePrepared => true
  | .restoreFactoryDone => true
  | .moduleSeated => true
  | .stationInputOutOfRange _ => true
  | .stationInputInRange _ => true

end Sys2Proof
end

