-- ==== Sys2Proof/Safety.lean ====
section
/-! DEFINITION. What claims say of a run: that a command completes and with what, that a step keeps a property, that nothing is left to follow from a
command, that an engine is free to run an instruction and what one has done, that a register access is performed, and the canonical form of the module's maps. -/
namespace Sys2Proof.Machine

/-- The command completes: it has a next state. -/
def completes (c : Instr) (s : State) : Prop := ∃ t, exec c s = .next t

/-- Every step that has a next state keeps a property. -/
def stepKeeps (P : State → Prop) : Prop := ∀ s t, step s = .next t → P s → P t

/-- The outcome of a command given in `s` whose own effect leaves `t`: what follows from it at once is carried out, and the queue stands as it was. -/
def done (s t : State) : Host.Outcome State Fault Refusal := .next { t.settle with pending := s.pending }

namespace State

/-- Every waiting command is well-formed. -/
def queueWf (s : State) : Bool := s.pending.all (·.wf)

/-- The registers are in canonical form: addresses strictly rising, no entry equal to its reset value, and every value of 32 bits. -/
def regsWf (s : State) : Bool := s.regs.wf regReset && s.regs.all (fun p => decide (p.2 < 2 ^ 32))

/-- The memories are in canonical form: addresses strictly rising, and no entry equal to what an unlisted one reads as (the rows of the data image, whose
unlisted ones read as the configuration and the last start say, need only rise): SEM rows and image rows (chapter 6), settings bytes (chapter 19), program
lines (chapter 4), the management engine's DATA (R480), page tables, frames and their lines (chapter 11), acknowledged RETAIN lines (chapter 12). -/
def memoryWf (s : State) : Bool :=
  s.img.sem.wf (fun _ => 0) && s.img.rows.sortedFrom 0 && s.nvs.mem.wf (fun _ => 0) && s.prog.wf (fun _ => guardLine) &&
  s.mgt.engSram.wf (fun _ => 0) && s.mmu.tbl.wf (fun _ => 0) && s.mmu.frames.wf (fun _ => {}) &&
  s.mmu.frames.all (fun p => p.2.lines.wf (fun _ => { fresh := p.2.prepared })) && s.sto.ack.retain.wf (fun _ => {})

/-- Nothing is left to follow from the last command: FLT has taken every firing, no owner drains, no handing over waits, no rollback is forced, no digest
waits to be compared, no request is held. -/
def calm (s : State) : Bool :=
  s.raised.isEmpty && ownerIdx.all (fun n => !(s.owner n).draining && !(s.splice n).forcing) && !s.ms.stopLeave && !s.mgt.upd.forced &&
  s.red.digs.isEmpty && s.lor.all (fun e => e.2.held.isEmpty)

/-! ### An engine and its instruction -/

/-- Is the program line at a program counter one that fetch takes as it stands (Table 5.1 stage 1): in range, sound, holding code? -/
def codeAt (s : State) (e pc : Nat) : Bool :=
  let (v, at_) := s.progLine e (pc / 9)
  decide (pc / 9 < s.progLen e) && bits v 126 2 == 0 && (match at_ with | some a => !s.progBad.contains a && !s.progWeak.contains a | none => true)

/-- The engine runs a context in the self-timed regime and starts its next instruction at once: not stalled, on a sound line, its return stack within its
32 entries. It may stand in a delay slot. -/
def runs (s : State) (e : Nat) : Bool :=
  s.canIssue e && !s.leanRegime e && s.codeAt e (s.eng e).ctx.pc && decide ((s.eng e).ctx.rstack.length ≤ 32)

/-- The state in which the instruction does its work: its instant has come. -/
def issued (s : State) (q : Issue) : State := { s.advance q.at_ with free := s.free + 1 }

/-- The entries of the operand stack an instruction finds, TOS first. -/
def stk (s : State) (e : Nat) : List Row := (s.eng e).ctx.stack

/-- The store-buffer drain before an instruction that needs one (R101): a store that its line refuses, or none, and the state after it. -/
def afterDrain (s : State) (q : Issue) : Option SbLine × State := if q.eng = 256 then (none, s.issued q) else (s.issued q).drain q.eng

/-- The ps that an instruction's waits add (R83), those of earlier issues included (R274). -/
def waitOf (s : State) (q : Issue) (worst : Nat) : Nat := min q.wait worst + (s.eng q.eng).waited * 1000

/-- A reservation some handshakes later (R102). -/
def agedResv (r : Option Resv) (hs : Nat) : Option Resv :=
  match r with
  | some v => if 256 ≤ v.age + hs then none else some { v with age := v.age + hs }
  | none => none

/-- The program counter after an instruction that is not a flow instruction: the next word, or from a delay slot where its branch decided (R106). -/
def nextPc (c : Ctx) : Nat := match c.flow with | some f => f.next | none => c.pc + 1

/-- An instruction has run: `nin` entries have given way to `outs`, the program counter stands at the next word, and `hs` handshakes are counted. -/
def ran (s : State) (e nin : Nat) (outs : List Row) (hs : Nat) : State :=
  let x := s.eng e
  let c := x.ctx
  (s.setEng e { x with ctx := { c with stack := outs ++ c.stack.drop nin, stale := [], late := [], pc := nextPc c, flow := none },
                       resv := agedResv x.resv hs, waited := 0 }).addHs e hs

/-- A flow instruction has run (R106): its delay slot is next, and then `target` if `taken`, else the word after the slot; `rs` is the return stack. -/
def flowed (s : State) (e nin hs target : Nat) (taken : Bool) (rs : List Nat) : State :=
  let x := s.eng e
  let c := x.ctx
  (s.setEng e { x with ctx := { c with stack := c.stack.drop nin, stale := [], late := [], rstack := rs, pc := c.pc + 1,
                                       flow := some { target := target, next := if taken then target else c.pc + 2 } },
                       resv := agedResv x.resv hs, waited := 0 }).addHs e hs

/-- The handshakes of an instruction with a base cost whose waits come to some ps (R83). -/
def costOf (s : State) (q : Issue) (base worst : Nat) : Nat := s.hsCost q.eng base (s.waitOf q worst)

/-! ### A register access -/

/-- The registers whose write starts something of its own (the register tables of the chapters), by the address of their first instance. -/
def actingRegs : List Nat :=
  [Reg.MGT_MODECMD, Reg.MGT_FACTCMD, Reg.MGT_LOGSEL, Reg.RED_CMD, Reg.FLT_FECLR, Reg.FLT_PLUMBCTL, Reg.FLT_SFORCE 0, Reg.WDG_CTL 0, Reg.WDG_KEY 0,
   Reg.WDG_PERIOD 0, Reg.NVS_PSEL 0, Reg.NVS_PDATA 0, Reg.NVS_PCMD 0, Reg.ENG_STEST 0, Reg.MMU_OCMD 0, Reg.STO_ACTL, Reg.RING_CTL 0, Reg.LOP_CTL 0,
   Reg.NET_PCTL 0, Reg.CAN_CTL 0, Reg.OBJTXREQ 0 0, Reg.OBJDATA 0 0 0, Reg.FIO_DTHR 0, Reg.FIO_ATRIMG 0, Reg.FIO_ATRIMO 0, Reg.TIM_UTCOFF,
   Reg.TIM_CUCTL 0, Reg.TIM_CALCTL, Reg.TIM_CALDATE, Reg.TIM_CALTIME]

/-- A live requester's write reaches this register instance, which is defined and needs no wake: rows 1 to 7 of Table 1.8 let it pass. -/
def writes (s : State) (r : Req) (a base i : Nat) : Prop :=
  s.reqLive r = true ∧ ∃ h, s.busCheck r a true = .ok h ∧ h.desc.base = base ∧ h.i = i ∧ h.shadow = false ∧ h.desc.pair = .one ∧
    s.itemDefined a h = true ∧ ¬(blockOf a = 0 ∧ (s.bent (h.i / 4)).awake = false)

end State

/-! ### What a Guaris instruction does -/

/-- An instruction that finds the entries `ins` (TOS first) on an engine that runs them completes with entries `outs` for which `P` holds, at `base`
handshakes, and does nothing else. -/
def Takes (mk : Issue → Instr) (ins : List Row) (nout base : Nat) (P : List Row → Prop) : Prop :=
  ∀ (q : Issue) (s : State) (rest : List Row), s.runs q.eng = true → s.stk q.eng = ins ++ rest → rest.length + nout ≤ 16 →
    ∃ outs, P outs ∧ outs.length = nout ∧
      exec (mk q) s = done s ((s.issued q).ran q.eng ins.length outs (s.costOf q base 0))

/-- The one entry an instruction leaves, lane by lane (R123, R124). -/
def Lanes (f : Nat → Bool) (outs : List Row) : Prop := ∃ r : Row, outs = [r] ∧ ∀ i < 256, r.getLsbD i = f i

/-- The one scalar an instruction leaves: an unsigned value in bits [63:0], bits [255:64] 0 (R89). -/
def Scalar (v : Nat) (outs : List Row) : Prop := v < 2 ^ 64 ∧ outs = [BitVec.ofNat 256 v]

/-- The one scalar an instruction leaves, as the two's complement form of an integer, wrapped to 64 bits (R129). -/
def Wrapped (v : Int) (outs : List Row) : Prop := Scalar (v % 2 ^ 64).toNat outs

/-- The signed value of a scalar (bits [63:0]). -/
def sval (r : Row) : Int := if 2 ^ 63 ≤ scalar r then (scalar r : Int) - 2 ^ 64 else scalar r

/-- An instruction that finds `ins` takes the exception `code` instead (R113), with no address, some handshakes after it was issued. -/
def Traps (mk : Issue → Instr) (word : Nat) (ins : List Row) (code : Nat) : Prop :=
  ∀ (q : Issue) (s : State) (rest : List Row), s.runs q.eng = true → s.stk q.eng = ins ++ rest → rest.length + 1 ≤ 16 →
    ∃ hs, exec (mk q) s = done s ((s.issued q).takeExc q.eng hs ((s.issued q).excHere q.eng { word := word } code 0 0))

/-! ### What a memory instruction does -/

/-- Space and modifier are legal, and Table 4.5 gives the engine the operation on the space. -/
def usable (e : Nat) (o : MemOp) (sp md : Nat) : Bool := decide (sp < 8) && md % 4 == 0 && !spaceDenied e o sp

/-- FENCE (Table 4.7): the buffer drains after the instruction's own access. -/
def State.fenced (s : State) (e md : Nat) : Option SbLine × State := if fences md && e != 256 then s.drain e else (none, s)

/-- The wait FENCE may add, in ps (R142). -/
def fenceWait (md : Nat) : Nat := if fences md then 12800000 else 0

/-- A load from an image space (R99): the value, and below it the kept address; 4 handshakes and the image's wait. -/
def LoadsRow (mk : Issue → Nat → Nat → Instr) (o : MemOp) (val : Row → Nat → Row) : Prop :=
  ∀ (q : Issue) (s v w : State) (sp md row b : Nat) (a r : Row) (rest : List Row), s.runs q.eng = true → usable q.eng o sp md = true →
    s.stk q.eng = a :: rest → rest.length + 1 + b2n (keeps md) ≤ 16 → sp < 5 → (s.issued q).elem q.eng o sp (scalar a) = .row row b →
    (s.issued q).imageRead q.eng sp row = (r, v) → v.fenced q.eng md = (none, w) →
    exec (mk q sp md) s = done s (w.ran q.eng 1 (val r b :: kept o sp md a) (w.hsCost q.eng 4 (s.waitOf q (400000 + fenceWait md))))

/-- A load from a data space (R100, R142): 3 handshakes, or 2 where the store buffer held every byte. -/
def LoadsBytes (mk : Issue → Nat → Nat → Instr) (o : MemOp) (val : List Byte → Nat → Row) : Prop :=
  ∀ (q : Issue) (s v w : State) (sp md off b : Nat) (a : Row) (bs : List Byte) (buf : Bool) (rest : List Row), s.runs q.eng = true →
    usable q.eng o sp md = true → s.stk q.eng = a :: rest → rest.length + 1 + b2n (keeps md) ≤ 16 → 5 ≤ sp →
    (s.issued q).elem q.eng o sp (scalar a) = .byte off b → (s.issued q).loadBytes q.eng sp off ((o.size + 7) / 8) = (.ok bs buf, v) →
    v.fenced q.eng md = (none, w) →
    exec (mk q sp md) s = done s (w.ran q.eng 1 (val bs b :: kept o sp md a)
      (w.hsCost q.eng (if buf then 2 else 3) (s.waitOf q (4000000 + fenceWait md))))

/-- A store to OUT or MRK (R154) stages value and lane mask for the release; one to SEM (R144) acts at once. `ops` are the entries below the address. -/
def StoresRow (mk : Issue → Nat → Nat → Instr) (o : MemOp) (nops : Nat) (vm : List Row → Nat → Row × Row) : Prop :=
  ∀ (q : Issue) (s v w : State) (sp md row b : Nat) (a : Row) (ops rest : List Row), s.runs q.eng = true → usable q.eng o sp md = true →
    s.stk q.eng = a :: ops ++ rest → ops.length = nops → rest.length ≤ 15 → sp < 5 → (s.issued q).elem q.eng o sp (scalar a) = .row row b →
    ((sp = 4 ∧ v = (s.issued q).semWrite (s.engOwner q.eng) row (vm ops b).1 (vm ops b).2) ∨
     (sp ≠ 4 ∧ ∃ k, (s.eng q.eng).task = some k ∧ (s.issued q).poolFull k row = false ∧
        v = (s.issued q).stageBits k row (vm ops b).1 (vm ops b).2)) →
    v.fenced q.eng md = (none, w) →
    exec (mk q sp md) s = done s (w.ran q.eng (1 + nops) (kept o sp md a)
      (w.hsCost q.eng (if sp = 4 then 4 else 3) (s.waitOf q (400000 + fenceWait md))))

/-- A store to a data space (R100): the bytes under their mask go to the store buffer, for 1 handshake. `vm` gives the value and the mask as numbers. -/
def StoresBytes (mk : Issue → Nat → Nat → Instr) (o : MemOp) (nops : Nat) (vm : List Row → Nat → Nat × Nat) : Prop :=
  ∀ (q : Issue) (s v w : State) (sp md off b : Nat) (a : Row) (ops rest : List Row) (bs : List Byte) (buf : Bool), s.runs q.eng = true →
    usable q.eng o sp md = true → s.stk q.eng = a :: ops ++ rest → ops.length = nops → rest.length ≤ 15 → 5 ≤ sp →
    (s.issued q).elem q.eng o sp (scalar a) = .byte off b →
    (s.issued q).storeBytes q.eng sp off (leBytes ((o.size + 7) / 8) (vm ops b).1) (vm ops b).2 (s.eng q.eng).ctx.pc (o.word sp md) = (.ok bs buf, none, v) →
    v.fenced q.eng md = (none, w) →
    exec (mk q sp md) s = done s (w.ran q.eng (1 + nops) (kept o sp md a) (w.hsCost q.eng 1 (s.waitOf q (4800000 + fenceWait md))))

/-! ### What a lane timer does -/

/-- The lanes of a timer block from its lines 0 and 1 and the stamp lines read (Table 5.8). -/
def lanesOf (l0 l1 : Nat) (stamps : List (Nat × Nat)) : List Lane := (List.range 256).map (laneOf l0 l1 stamps)

/-- The stamp lines a timer instruction reads (R128 step 2): those of lanes that run or start. -/
def stampLines (kind : TimerKind) (now : Nat) (x : Row) (l0 l1 : Nat) : List Nat :=
  ((List.range 32).filter fun j => (List.range 8).any fun t =>
    (laneOf l0 l1 [] (8 * j + t)).run || laneStarts kind now (bits l0 0 64) (x.getLsbD (8 * j + t)) (laneOf l0 l1 [] (8 * j + t))).map (2 + ·)

/-- The lanes after a timer instruction (R127). -/
def lanesAfter (kind : TimerKind) (now pt : Nat) (x : Row) (old : List Lane) : List Lane :=
  old.zipIdx.map fun p => laneStep kind now pt (x.getLsbD p.2) p.1

/-- A row of one bit per lane. -/
def rowOfLanes (l : List Lane) (f : Lane → Bool) : Row := rowOf fun i => match l[i]? with | some x => f x | none => false

/-- The lines a timer instruction writes (R128 step 3): lines 0 and 1, and the stamp lines of the lanes that start, with their new START. -/
def timerLines (kind : TimerKind) (now : Nat) (x : Row) (l0 l1 : Nat) (stamps : List (Nat × Nat)) : List (Nat × Nat) :=
  let pt := bits l0 0 64
  let old := lanesOf l0 l1 stamps
  let new := lanesAfter kind now pt x old
  let started := (old.zipIdx.filter fun p => laneStarts kind now pt (x.getLsbD p.2) p.1).map (·.2)
  (0, putBits l0 256 256 (rowOfLanes new (·.prev)).toNat) ::
  (1, (rowOfLanes new (·.q)).toNat + (rowOfLanes new (·.run)).toNat * 2 ^ 256) ::
  (stamps.filter fun p => started.any fun i => 2 + i / 8 == p.1).map fun p =>
    (p.1, started.foldl (fun v i => if 2 + i / 8 = p.1 then putBits v (64 * (i % 8)) 64 now else v) p.2)

/-- A timer instruction whose reads and writes succeed (R127, R128): the new Q row, for 6 handshakes and the block's wait. -/
def TimesLanes (mk : Issue → Instr) (kind : TimerKind) : Prop :=
  ∀ (q : Issue) (s s1 s2 s3 s4 : State) (a x : Row) (rest : List Row) (off l0 l1 : Nat) (stamps : List (Nat × Nat)), s.runs q.eng = true →
    s.stk q.eng = a :: x :: rest → rest.length ≤ 14 → (s.issued q).edgeElem q.eng (scalar a) 2176 64 = .ok off →
    let sp := if bit (scalar a) 63 then 6 else 5
    let now := form64 (s2.engEpoch q.eng)
    (s.issued q).blockOvl q.eng sp off = (none, s1) → s1.blockRead q.eng sp off [0, 1] = (.inr [(0, l0), (1, l1)], s2) →
    s2.blockRead q.eng sp off (stampLines kind now x l0 l1) = (.inr stamps, s3) →
    s3.blockWrite q.eng sp off (timerLines kind now x l0 l1 stamps) = (none, s4) →
    exec (mk q) s = done s (s4.ran q.eng 2 [rowOfLanes (lanesAfter kind now (bits l0 0 64) x (lanesOf l0 l1 stamps)) (·.q)]
      (s4.hsCost q.eng 6 (s.waitOf q 20240000)))

/-- An edge instruction whose read and write succeed (R125): the row `f` of the input and the element, which then holds the input. -/
def TakesEdge (mk : Issue → Instr) (word : Nat) (f : Bool → Bool → Bool) : Prop :=
  ∀ (q : Issue) (s v w : State) (a x : Row) (rest : List Row) (off : Nat) (bs bs' : List Byte) (buf buf' : Bool), s.runs q.eng = true →
    s.stk q.eng = a :: x :: rest → rest.length ≤ 14 → (s.issued q).edgeElem q.eng (scalar a) 32 32 = .ok off →
    let sp := if bit (scalar a) 63 then 6 else 5
    (s.issued q).loadBytes q.eng sp off 32 = (.ok bs buf, v) →
    v.storeBytes q.eng sp off (bytesOfRow x) (2 ^ 256 - 1) (v.eng q.eng).ctx.pc word = (.ok bs' buf', none, w) →
    ∃ r : Row, (∀ i < 256, r.getLsbD i = f (x.getLsbD i) ((rowOfBytes bs).getLsbD i)) ∧
      exec (mk q) s = done s (w.ran q.eng 2 [r] (w.hsCost q.eng (if buf then 3 else 4) (s.waitOf q 5600000)))

/-! ### A Lorat request -/

/-- A request of an open session that is in order (R342): served mode and port, well-formed, its tag verified, its SEQ the next. -/
def State.inOrder (s : State) (h : LorHead) : Prop :=
  s.lorServed = true ∧ s.ms.mode ≠ .handover ∧ lorPort h.port = true ∧ 1 ≤ h.session ∧ h.session ≤ 64 ∧ (s.sess h.session).isOpen = true ∧
    (s.sess h.session).half = false ∧ (s.sess h.session).waiting = none ∧ h.fmt = true ∧ h.tag = true ∧ h.seq = (s.sess h.session).h + 1

/-- The session as the command finds it, some 2^-16 ns after the request's receive stamp: last heard then, its H the request's SEQ, the request counted. -/
def State.serving (s : State) (h : LorHead) (d : Nat) : State :=
  let k := h.session
  let u := s.advance h.stamp
  let v := { (u.setSess k { s.sess k with lastAt := u.mono }) with free := s.free + 1 }
  let w := v.advance (v.now + d)
  (w.setSess k { w.sess k with h := h.seq }).bump (Reg.NET_LSREQ k) 1

/-- A row of the table is a Lorat request (R342, R343): one in order executes within 100 µs and its answer is stored and sent, or waited for. -/
def Serves (mk : LorHead → Instr) (c : LorCmd) : Prop :=
  ∀ (s : State) (h : LorHead), s.inOrder h → ∃ d ≤ us 100,
    let v := s.serving h d
    let a := v.lorDo h.session (s.sess h.session).owner h.seq h.flags h.stamp c
    exec (mk h) s = done s (a.2.lorFinish h.session h.seq c a.1)

end Sys2Proof.Machine
end

