-- ==== Sys2Proof/Certificates/Slice0/Obligations.lean ====
section
/-! DEFINITION. What the provers are asked to settle: statements of the spec's rules about the module's commands and of properties every step keeps. -/
open Sys2Proof Sys2Proof.Machine Sys2Proof.Machine.State

/-- For every command c and state s: the step of s with c at the front of its queue is exec c on s with the queue's rest. (The queue is the model's own
frame for the block's commands: log entry 6.) -/
def Obligations.StepRunsFrontCommand : Prop :=
  ∀ (c : Instr) (s : State), step { s with pending := c :: s.pending } = exec c s

/-- For every command c and state s there is a next state, and every next state of exec c s has the queue s had. (The model's commands never fault and are
never refused.) -/
def Obligations.CommandLeavesQueue : Prop :=
  ∀ (c : Instr) (s : State), completes c s ∧ ∀ t, exec c s = .next t → t.pending = s.pending

/-- If the effect of a command leaves a calm state (no firing waits for FLT, no owner drains, no rollback is forced, no digest waits, no Lorat request is
held), the command's next state is that state with the queue as it was; on an empty queue the block idles (the model's choice, log entry 6). -/
def Obligations.CalmEffectStands : Prop :=
  (∀ s t : State, t.calm = true → done s t = .next { t with pending := s.pending }) ∧
  (∀ s : State, s.pending = [] → step s = .next s)

/-- NOP, DUP, DROP, SWAP, OVER, ROT, NIP and PICK turn the entries Table 5.4 names (TOS first in the lists) into those it states, whole and unaltered, for
1 hs each, and change nothing else but the program counter and the handshakes counted; PICK with an index above 14 or not less than the depth left
takes STKUNF. -/
def Obligations.StackInstructionsMoveEntries : Prop :=
  Takes .nop [] 0 1 (· = []) ∧
  (∀ x, Takes .dup [x] 2 1 (· = [x, x])) ∧
  (∀ x, Takes .drop [x] 0 1 (· = [])) ∧
  (∀ x y, Takes .swap [y, x] 2 1 (· = [x, y])) ∧
  (∀ x y, Takes .over [y, x] 3 1 (· = [x, y, x])) ∧
  (∀ x y z, Takes .rot [z, y, x] 3 1 (· = [x, z, y])) ∧
  (∀ x y, Takes .nip [y, x] 1 1 (· = [y])) ∧
  (∀ (q : Issue) (s : State) (n : Row) (rest : List Row) (x : Row), s.runs q.eng = true → s.stk q.eng = n :: rest → rest.length ≤ 15 →
    scalar n ≤ 14 → rest[scalar n]? = some x → exec (.pick q) s = done s ((s.issued q).ran q.eng 1 [x] (s.costOf q 1 0))) ∧
  (∀ (q : Issue) (s : State) (n : Row) (rest : List Row), s.runs q.eng = true → s.stk q.eng = n :: rest → rest.length ≤ 15 →
    (14 < scalar n ∨ rest.length ≤ scalar n) →
    exec (.pick q) s = done s ((s.issued q).takeExc q.eng 1 ((s.issued q).excHere q.eng { word := 0x0007 } 0x02 0 0)))

/-- AND, OR, XOR, NOT, ANDN, ORN and MUX leave one row whose lane i is the function of the inputs' lanes i that Table 5.5 states, for every i from 0 to
255 (bits [255:64] are not cleared), for 1 hs each. -/
def Obligations.RowLogicActsOnEveryLane : Prop :=
  (∀ a b, Takes .and_ [b, a] 1 1 (Lanes fun i => a.getLsbD i && b.getLsbD i)) ∧
  (∀ a b, Takes .or_ [b, a] 1 1 (Lanes fun i => a.getLsbD i || b.getLsbD i)) ∧
  (∀ a b, Takes .xor [b, a] 1 1 (Lanes fun i => a.getLsbD i != b.getLsbD i)) ∧
  (∀ a, Takes .not_ [a] 1 1 (Lanes fun i => !a.getLsbD i)) ∧
  (∀ a b, Takes .andn [b, a] 1 1 (Lanes fun i => a.getLsbD i && !b.getLsbD i)) ∧
  (∀ a b, Takes .orn [b, a] 1 1 (Lanes fun i => a.getLsbD i || !b.getLsbD i)) ∧
  (∀ a b m, Takes .mux [m, b, a] 1 1 (Lanes fun i => if m.getLsbD i then b.getLsbD i else a.getLsbD i))

/-- LSHU, LSHD, LROT, BCAST, ANY, ALL, POPC and LMASK leave the row or scalar Table 5.6 states for every lane, the count or index taken unsigned from bits
[63:0], all lanes 0 (LMASK: 1) from 256 on, at the costs of the table. -/
def Obligations.LaneInstructionsMoveLanes : Prop :=
  (∀ a n, Takes .lshu [n, a] 1 1 (Lanes fun i => decide (scalar n ≤ i) && a.getLsbD (i - scalar n))) ∧
  (∀ a n, Takes .lshd [n, a] 1 1 (Lanes fun i => decide (i + scalar n ≤ 255) && a.getLsbD (i + scalar n))) ∧
  (∀ a n, Takes .lrot [n, a] 1 1 (Lanes fun i => a.getLsbD ((i + 256 - scalar n % 256) % 256))) ∧
  (∀ a n, Takes .bcast [n, a] 1 1 (Lanes fun _ => decide (scalar n < 256) && a.getLsbD (scalar n))) ∧
  (∀ a, Takes .any [a] 1 1 (Scalar (if (List.range 256).any (fun i => a.getLsbD i) then 1 else 0))) ∧
  (∀ a, Takes .all [a] 1 1 (Scalar (if (List.range 256).all (fun i => a.getLsbD i) then 1 else 0))) ∧
  (∀ a, Takes .popc [a] 1 2 (Scalar ((List.range 256).countP fun i => a.getLsbD i))) ∧
  (∀ n, Takes .lmask [n] 1 1 (Lanes fun i => decide (i < scalar n)))

/-- ADD, SUB, NEG, INC, DEC and MUL leave the two's complement form of the exact result modulo 2^64; MULH and MULHU leave the high 64 bits of the signed
and the unsigned product; bits [255:64] are 0; costs as in Table 5.11. -/
def Obligations.IntegerArithmeticWraps : Prop :=
  (∀ a b, Takes .add [b, a] 1 1 (Wrapped (sval a + sval b))) ∧
  (∀ a b, Takes .sub [b, a] 1 1 (Wrapped (sval a - sval b))) ∧
  (∀ a, Takes .neg [a] 1 1 (Wrapped (-sval a))) ∧
  (∀ a, Takes .inc [a] 1 1 (Wrapped (sval a + 1))) ∧
  (∀ a, Takes .dec [a] 1 1 (Wrapped (sval a - 1))) ∧
  (∀ a b, Takes .mul [b, a] 1 3 (Scalar (scalar a * scalar b % 2 ^ 64))) ∧
  (∀ a b, Takes .mulh [b, a] 1 4 (Wrapped (sval a * sval b / 2 ^ 64))) ∧
  (∀ a b, Takes .mulhu [b, a] 1 4 (Scalar (scalar a * scalar b / 2 ^ 64)))

/-- DIV, DIVU, REM and REMU with a divisor other than 0 leave the quotient truncated toward zero or the remainder with the dividend's sign (the minimum
over -1 gives the minimum and remainder 0), for 36 hs; with a divisor of 0 each takes the ARITH exception instead. -/
def Obligations.DivisionTruncatesOrTraps : Prop :=
  (∀ a b, scalar b ≠ 0 → Takes .div [b, a] 1 36 (Wrapped ((sval a).tdiv (sval b)))) ∧
  (∀ a b, scalar b ≠ 0 → Takes .divu [b, a] 1 36 (Scalar (scalar a / scalar b))) ∧
  (∀ a b, scalar b ≠ 0 → Takes .rem [b, a] 1 36 (Wrapped ((sval a).tmod (sval b)))) ∧
  (∀ a b, scalar b ≠ 0 → Takes .remu [b, a] 1 36 (Scalar (scalar a % scalar b))) ∧
  (∀ a b, scalar b = 0 → Traps .div 0x0408 [b, a] 0x0C ∧ Traps .divu 0x0409 [b, a] 0x0C ∧ Traps .rem 0x040A [b, a] 0x0C ∧
    Traps .remu 0x040B [b, a] 0x0C)

/-- SHL, SHR and SAR shift by the count modulo 64; MIN, MAX, MINU and MAXU leave the smaller or larger operand in the signed or unsigned order; ABS leaves
the absolute value (of the minimum, the minimum); ADDSAT and SUBSAT leave the exact sum or difference held within -2^63 and 2^63 - 1; each costs 1 hs. -/
def Obligations.ShiftsAndBoundsOfIntegers : Prop :=
  (∀ a b, Takes .shl [b, a] 1 1 (Scalar (scalar a * 2 ^ (scalar b % 64) % 2 ^ 64))) ∧
  (∀ a b, Takes .shr [b, a] 1 1 (Scalar (scalar a / 2 ^ (scalar b % 64)))) ∧
  (∀ a b, Takes .sar [b, a] 1 1 (Wrapped (sval a / 2 ^ (scalar b % 64)))) ∧
  (∀ a b, Takes .min [b, a] 1 1 (Wrapped (min (sval a) (sval b)))) ∧
  (∀ a b, Takes .max [b, a] 1 1 (Wrapped (max (sval a) (sval b)))) ∧
  (∀ a b, Takes .minu [b, a] 1 1 (Scalar (min (scalar a) (scalar b)))) ∧
  (∀ a b, Takes .maxu [b, a] 1 1 (Scalar (max (scalar a) (scalar b)))) ∧
  (∀ a, Takes .abs [a] 1 1 (Wrapped (sval a).natAbs)) ∧
  (∀ a b, Takes .addsat [b, a] 1 1 (Wrapped (max (-2 ^ 63) (min (2 ^ 63 - 1) (sval a + sval b))))) ∧
  (∀ a b, Takes .subsat [b, a] 1 1 (Wrapped (max (-2 ^ 63) (min (2 ^ 63 - 1) (sval a - sval b)))))

/-- FADD, FSUB, FMUL, FDIV, FSQRT, FMA, FMIN, FMAX, FNEG and FABS, in binary32 and binary64, leave the result of their format's operation on the operands'
low 32 or 64 bits, every other bit 0, at the costs of Table 5.12; none of them traps. -/
def Obligations.RealInstructionsRoundOnce : Prop :=
  ∀ dbl : Bool,
  (∀ a b, Takes (.fadd · dbl) [b, a] 1 (if dbl then 4 else 3) (· = [ofReal ((fmtOf dbl).add (realOf dbl a) (realOf dbl b))])) ∧
  (∀ a b, Takes (.fsub · dbl) [b, a] 1 (if dbl then 4 else 3) (· = [ofReal ((fmtOf dbl).sub (realOf dbl a) (realOf dbl b))])) ∧
  (∀ a b, Takes (.fmul · dbl) [b, a] 1 (if dbl then 5 else 3) (· = [ofReal ((fmtOf dbl).mul (realOf dbl a) (realOf dbl b))])) ∧
  (∀ a b, Takes (.fdiv · dbl) [b, a] 1 (if dbl then 18 else 10) (· = [ofReal ((fmtOf dbl).div (realOf dbl a) (realOf dbl b))])) ∧
  (∀ a, Takes (.fsqrt · dbl) [a] 1 (if dbl then 22 else 12) (· = [ofReal ((fmtOf dbl).sqrt (realOf dbl a))])) ∧
  (∀ a b c, Takes (.fma · dbl) [c, b, a] 1 (if dbl then 6 else 4) (· = [ofReal ((fmtOf dbl).fma (realOf dbl a) (realOf dbl b) (realOf dbl c))])) ∧
  (∀ a b, Takes (.fmin · dbl) [b, a] 1 1 (· = [ofReal ((fmtOf dbl).min (realOf dbl a) (realOf dbl b))])) ∧
  (∀ a b, Takes (.fmax · dbl) [b, a] 1 1 (· = [ofReal ((fmtOf dbl).max (realOf dbl a) (realOf dbl b))])) ∧
  (∀ a, Takes (.fneg · dbl) [a] 1 1 (Lanes fun i =>
    decide (i < (if dbl then 64 else 32)) && (a.getLsbD i != decide (i = if dbl then 63 else 31)))) ∧
  (∀ a, Takes (.fabs · dbl) [a] 1 1 (Lanes fun i => decide (i < (if dbl then 63 else 31)) && a.getLsbD i))

/-- In both formats, every one of FADD, FSUB, FMUL, FDIV, FSQRT and FMA gives the canonical quiet NaN of the format (0x7FC00000, 0x7FF8000000000000) when
an operand is a NaN, and so do FMIN and FMAX when both are; with exactly one NaN they give the other operand; FMIN of -0 and +0 is -0 and FMAX is +0,
in either order. -/
def Obligations.NaNsAreCanonicalAndZerosOrdered : Prop :=
  f32.nan = 0x7FC00000 ∧ f64.nan = 0x7FF8000000000000 ∧ ∀ f ∈ [f32, f64],
  (∀ a b c, a < 2 ^ f.width → b < 2 ^ f.width →
    ((f.isNan a = true ∨ f.isNan b = true) → f.add a b = f.nan ∧ f.sub a b = f.nan ∧ f.mul a b = f.nan ∧ f.div a b = f.nan ∧ f.fma a b c = f.nan) ∧
    (f.isNan a = true → f.sqrt a = f.nan) ∧ (f.isNan c = true → f.fma a b c = f.nan) ∧
    (f.isNan a = true → f.isNan b = true → f.min a b = f.nan ∧ f.max a b = f.nan) ∧
    (f.isNan a = true → f.isNan b = false → f.min a b = b ∧ f.max a b = b ∧ f.min b a = b ∧ f.max b a = b)) ∧
  f.min (f.zero true) (f.zero false) = f.zero true ∧ f.min (f.zero false) (f.zero true) = f.zero true ∧
  f.max (f.zero true) (f.zero false) = f.zero false ∧ f.max (f.zero false) (f.zero true) = f.zero false

/-- EQ to GEU compare the signed or unsigned values of bits [63:0], REQ all 256 bits; each leaves the scalar 1 when its relation holds and 0 otherwise,
for 1 hs. FEQ, FLT, FLE and FUN compare the reals for 2 hs: with a NaN operand FEQ, FLT and FLE leave 0 and FUN leaves 1; without one, they leave the
relation of the values, and -0 equals +0. -/
def Obligations.ComparesPushTheirRelation : Prop :=
  let holds (p : Prop) [Decidable p] : List Row → Prop := Scalar (if p then 1 else 0)
  (∀ a b, Takes .eq [b, a] 1 1 (holds (scalar a = scalar b))) ∧ (∀ a b, Takes .ne [b, a] 1 1 (holds (scalar a ≠ scalar b))) ∧
  (∀ a b, Takes .lt [b, a] 1 1 (holds (sval a < sval b))) ∧ (∀ a b, Takes .le [b, a] 1 1 (holds (sval a ≤ sval b))) ∧
  (∀ a b, Takes .gt [b, a] 1 1 (holds (sval a > sval b))) ∧ (∀ a b, Takes .ge [b, a] 1 1 (holds (sval a ≥ sval b))) ∧
  (∀ a b, Takes .ltu [b, a] 1 1 (holds (scalar a < scalar b))) ∧ (∀ a b, Takes .leu [b, a] 1 1 (holds (scalar a ≤ scalar b))) ∧
  (∀ a b, Takes .gtu [b, a] 1 1 (holds (scalar a > scalar b))) ∧ (∀ a b, Takes .geu [b, a] 1 1 (holds (scalar a ≥ scalar b))) ∧
  (∀ a b : Row, Takes .req [b, a] 1 1 (holds (a = b))) ∧
  ∀ dbl : Bool,
    let f := fmtOf dbl
    let nan (a : Row) : Prop := f.decode (realOf dbl a) = .nan
    (∀ a b, nan a ∨ nan b → Takes (.feq · dbl) [b, a] 1 2 (Scalar 0) ∧ Takes (.flt · dbl) [b, a] 1 2 (Scalar 0) ∧
      Takes (.fle · dbl) [b, a] 1 2 (Scalar 0) ∧ Takes (.fun · dbl) [b, a] 1 2 (Scalar 1)) ∧
    (∀ a b, ¬nan a → ¬nan b →
      let order := (f.decode (realOf dbl a)).cmp (f.decode (realOf dbl b))
      Takes (.feq · dbl) [b, a] 1 2 (holds (order = 0)) ∧ Takes (.flt · dbl) [b, a] 1 2 (holds (order < 0)) ∧
      Takes (.fle · dbl) [b, a] 1 2 (holds (order ≤ 0)) ∧ Takes (.fun · dbl) [b, a] 1 2 (Scalar 0)) ∧
    (f.decode (f.zero true)).cmp (f.decode (f.zero false)) = 0

/-- SX and ZX extend bits [7:0], [15:0] or [31:0]; I2S, I2D, U2S and U2D leave the integer rounded to the format; S2I and D2I leave the real truncated and
saturated, 0 for a NaN; S2D and D2S convert between the formats; WEXT leaves word k of a row and WINS replaces it and keeps every other bit, k modulo
4; costs as in Table 5.14. -/
def Obligations.ConversionsFollowTheirFormat : Prop :=
  (∀ form < 3, ∀ a, let n := 8 * 2 ^ form
    Takes (.sx · form) [a] 1 1 (Lanes fun i => decide (i < 64) && a.getLsbD (min i (n - 1))) ∧
    Takes (.zx · form) [a] 1 1 (Lanes fun i => decide (i < n) && a.getLsbD i)) ∧
  (∀ a, Takes .i2s [a] 1 3 (Scalar (f32.roundInt (sval a) 0 false))) ∧ (∀ a, Takes .i2d [a] 1 3 (Scalar (f64.roundInt (sval a) 0 false))) ∧
  (∀ a, Takes .u2s [a] 1 3 (Scalar (f32.roundInt (scalar a) 0 false))) ∧ (∀ a, Takes .u2d [a] 1 3 (Scalar (f64.roundInt (scalar a) 0 false))) ∧
  (∀ a, Takes .s2i [a] 1 3 (Wrapped (f32.toInt (realOf false a)))) ∧ (∀ a, Takes .d2i [a] 1 3 (Wrapped (f64.toInt (realOf true a)))) ∧
  f32.toInt f32.nan = 0 ∧ f64.toInt f64.nan = 0 ∧
  (∀ a, Takes .s2d [a] 1 2 (· = [ofReal (convert f32 f64 (realOf false a))])) ∧
  (∀ a, Takes .d2s [a] 1 2 (· = [ofReal (convert f64 f32 (realOf true a))])) ∧
  (∀ r k, Takes .wext [k, r] 1 1 (Lanes fun i => decide (i < 64) && r.getLsbD (64 * (scalar k % 4) + i))) ∧
  (∀ r w k, Takes .wins [k, w, r] 1 1 (Lanes fun i =>
    if i / 64 = scalar k % 4 then w.getLsbD (i % 64) else r.getLsbD i))

/-- LIT pushes its 11 bits sign-extended to 64 bits; EXT replaces TOS by TOS shifted left by 11 with its 11 bits below, the bits beyond bit 63 lost; bits
[255:64] are 0 and each costs 1 hs. EXT on an empty stack takes STKUNF. -/
def Obligations.LiteralsExtendTheTop : Prop :=
  (∀ imm < 2048, Takes (.lit · imm) [] 1 1 (Wrapped (if imm < 1024 then (imm : Int) else (imm : Int) - 2048))) ∧
  (∀ imm < 2048, ∀ a, Takes (.ext · imm) [a] 1 1 (Scalar ((scalar a * 2 ^ 11 % 2 ^ 64) ||| imm))) ∧
  (∀ imm < 2048, ∀ (q : Issue) (s : State), s.runs q.eng = true → s.stk q.eng = [] →
    exec (.ext q imm) s = done s ((s.advance q.at_).takeExc q.eng 1 ((s.advance q.at_).excHere q.eng { word := 0x3800 + imm } 0x02 0 0)))

/-- With its target in range, each of BR, BZ, BNZ, CALL and RET completes with the word at W + 1 next and, after that one word, its target or (a
conditional branch not taken) W + 2. BZ and BNZ pop TOS either way; CALL pushes the return point W + 2; RET pops the return point it continues at. The
word after it, if it is no flow instruction, then leads to where the flow instruction decided. -/
def Obligations.FlowTakesItsDelaySlot : Prop :=
  (∀ (q : Issue) (s : State) (off : Nat), s.runs q.eng = true → (s.eng q.eng).ctx.flow = none → (s.stk q.eng).length ≤ 16 →
    let pc := (s.eng q.eng).ctx.pc
    let rs := (s.eng q.eng).ctx.rstack
    let t : Int := pc + 1 + signed 10 off
    let u := s.issued q
    let cost := s.costOf q 1 0
    9 ≤ t → t < (s.progLen q.eng * 9 : Nat) →
      exec (.br q off) s = done s (u.flowed q.eng 0 cost t.toNat true rs) ∧
      (∀ w rest, s.stk q.eng = w :: rest → exec (.bz q off) s = done s (u.flowed q.eng 1 cost t.toNat (decide (scalar w = 0)) rs) ∧
        exec (.bnz q off) s = done s (u.flowed q.eng 1 cost t.toNat (decide (scalar w ≠ 0)) rs)) ∧
      (rs.length ≤ 31 → exec (.call q off) s = done s (u.flowed q.eng 0 cost t.toNat true ((pc + 2) :: rs)))) ∧
  (∀ (q : Issue) (s : State) (r : Nat) (rs : List Nat), s.runs q.eng = true → (s.eng q.eng).ctx.flow = none → (s.stk q.eng).length ≤ 16 →
    (s.eng q.eng).ctx.rstack = r :: rs → exec (.ret q) s = done s ((s.issued q).flowed q.eng 0 (s.costOf q 1 0) r true rs)) ∧
  (∀ (s : State) (e nin hs t : Nat) (taken : Bool) (rs : List Nat) (m n : Nat) (o : List Row),
    ((s.flowed e nin hs t taken rs).eng e).ctx.pc = (s.eng e).ctx.pc + 1 ∧
    (((s.flowed e nin hs t taken rs).ran e m o n).eng e).ctx.pc = (if taken then t else (s.eng e).ctx.pc + 2))

/-- BR, BZ, BNZ and CALL whose target lies at or below line 0 or at or beyond the end of the range take PROGRANGE with the target's linear index, and CALL
pushes nothing. In a delay slot, every flow instruction and every task and event instruction takes ILLSLOT before it executes. -/
def Obligations.FlowOutsideProgramTraps : Prop :=
  (∀ (q : Issue) (s : State) (off : Nat) (mk : Issue → Nat → Instr) (word : Nat), s.runs q.eng = true → (s.eng q.eng).ctx.flow = none →
    1 ≤ (s.stk q.eng).length → (s.stk q.eng).length ≤ 16 → (s.eng q.eng).ctx.rstack.length ≤ 31 →
    let t : Int := (s.eng q.eng).ctx.pc + 1 + signed 10 off
    t < 9 ∨ (s.progLen q.eng * 9 : Nat) ≤ t →
    ((mk, word) = (.br, 0x2000 + off % 1024) ∨ (mk, word) = (.bz, 0x2400 + off % 1024) ∨ (mk, word) = (.bnz, 0x2800 + off % 1024) ∨
      (mk, word) = (.call, 0x2C00 + off % 1024)) →
    ∃ hs, exec (mk q off) s = done s ((s.issued q).takeExc q.eng hs ((s.issued q).excHere q.eng { word := word } 0x08 0 (unsigned 64 t)))) ∧
  (∀ (q : Issue) (s : State) (off : Nat) (c : Instr) (word : Nat), s.runs q.eng = true → (s.eng q.eng).ctx.flow ≠ none → q.eng ≠ 256 →
    (c, word) ∈ [(.br q off, 0x2000 + off % 1024), (.bz q off, 0x2400 + off % 1024), (.bnz q off, 0x2800 + off % 1024), (.call q off, 0x2C00 + off % 1024),
      (.ret q, 0x0804), (.yield q, 0x0800), (.wait q, 0x0801), (.signal q, 0x0802), (.end_ q, 0x0803), (.trap q, 0x0805)] →
    exec c s = done s ((s.advance q.at_).takeExc q.eng 1 ((s.advance q.at_).excHere q.eng { word := word } 0x06 0 0)))

/-- TRAP takes the TRAP exception with w[63:0] as its address. END drains the store buffer and ends the release: with staged rows they go to commit as the
owner's next commit, stamped with the read epoch; with none the release has ended; the owner's ready tasks are dispatched. The management engine's END
ends its release. YIELD hands the engine to the task it is promised to, else to the first ready task of equal or higher priority, for 20 handshakes
more, else it goes on. -/
def Obligations.TaskInstructionsEndAndHandOver : Prop :=
  (∀ (q : Issue) (s : State) (w : Row) (rest : List Row), s.runs q.eng = true → (s.eng q.eng).ctx.flow = none → s.stk q.eng = w :: rest → rest.length ≤ 16 →
    ∃ hs, exec (.trap q) s = done s ((s.issued q).takeExc q.eng hs ((s.issued q).excHere q.eng { word := 0x0805 } 0x14 0 (scalar w)))) ∧
  (∀ (q : Issue) (s u : State) (k : Nat), s.runs q.eng = true → (s.eng q.eng).ctx.flow = none → (s.stk q.eng).length ≤ 16 → q.eng ≠ 256 →
    s.afterDrain q = (none, u) → (u.eng q.eng).task = some k →
    let r := u.ran q.eng 0 [] (u.hsCost q.eng 2 (s.waitOf q 12800000))
    let n := (r.taskCfg k).owner
    ((r.task k).staged = [] → exec (.end_ q) s = done s (((r.endRelease k).pendAfter k).dispatch n)) ∧
    ((r.task k).staged ≠ [] →
      let c : Commit := { owner := n, task := k, epoch := (r.task k).relAt, rows := (r.task k).staged, endAt := r.now, eng := q.eng }
      exec (.end_ q) s = done s ((({ r with img := { r.img with commits := r.img.commits ++ [c] } } : State).endRelease k).dispatch n)) ∧
    ((r.eng q.eng).preempt = none → r.yieldTo (r.engOwner q.eng) k = none → exec (.yield q) s = done s r) ∧
    (∀ j, (r.eng q.eng).preempt = some j ∨ ((r.eng q.eng).preempt = none ∧ r.yieldTo (r.engOwner q.eng) k = some j) →
      exec (.yield q) s = done s ((((r.bump64 (Reg.ENG_HSCNT q.eng) 20).saveCtx q.eng k .ready).startOn q.eng j).dispatch (r.engOwner q.eng)))) ∧
  (∀ (q : Issue) (s : State), s.runs 256 = true → q.eng = 256 → (s.eng 256).ctx.flow = none → (s.stk 256).length ≤ 16 →
    exec (.end_ q) s = done s ((s.issued q).ran 256 0 [] (s.costOf q 2 12800000)).mgtEnd)

/-- SIGNAL n (n up to 255) with no task of the owner waiting on token n leaves the token set; otherwise it ends their waits and the token stays clear;
above 255 it takes ARITH. WAIT on an event that holds gives status 0 at once and clears a token it waited for; else, with TMO and the deadline
reached, status 1; else the task waits with its context saved, 20 handshakes more are counted and the owner's next task is dispatched. -/
def Obligations.SignalsAndWaits : Prop :=
  (∀ (q : Issue) (s u : State) (d : Row) (rest : List Row), s.runs q.eng = true → (s.eng q.eng).ctx.flow = none → q.eng ≠ 256 →
    s.stk q.eng = d :: rest → rest.length ≤ 16 → s.afterDrain q = (none, u) →
    let n := u.engOwner q.eng
    let waiting (k : Nat) : Bool := let x := u.task k
      x.st == .waiting && x.wstat == none && (match x.wait with | some w => w.kind == 1 && w.id == scalar d | none => false)
    let fin (v : State) : Host.Outcome State Fault Refusal := done s (v.ran q.eng 1 [] (v.hsCost q.eng 3 (s.waitOf q 12800000)))
    (scalar d ≤ 255 → (u.tasksOf n).any waiting = false →
      let o := u.owner n
      exec (.signal q) s = fin (u.setOwner n { o with
        tokens := o.tokens.filter (· < scalar d) ++ [scalar d] ++ o.tokens.filter (scalar d < ·) })) ∧
    (scalar d ≤ 255 → (u.tasksOf n).any waiting = true →
      exec (.signal q) s = fin (u.wakeWhere n fun w => w.kind == 1 && w.id == scalar d)) ∧
    (255 < scalar d → ∃ hs, exec (.signal q) s = done s (u.takeExc q.eng hs (u.excHere q.eng { word := 0x0802 } 0x0C 0 0)))) ∧
  (∀ (q : Issue) (s u : State) (d t : Row) (rest : List Row), s.runs q.eng = true → (s.eng q.eng).ctx.flow = none → q.eng ≠ 256 →
    s.stk q.eng = d :: t :: rest → rest.length ≤ 14 → s.afterDrain q = (none, u) → u.waitCheck q.eng (scalar d) = none →
    let n := u.engOwner q.eng
    let kind := bits (scalar d) 60 4
    let w : WaitDesc := { kind := kind, tmo := bit (scalar d) 59 && kind != 2, id := bits (scalar d) 0 29, deadline := bits (scalar t) 0 40 }
    let fin (v : State) (nin : Nat) (outs : List Row) : State := v.ran q.eng nin outs (v.hsCost q.eng 4 (s.waitOf q 14400000))
    (kind = 2 → u.deadlinePassed w.deadline = true → exec (.wait q) s = done s (fin u 2 [ofScalar 0])) ∧
    (kind ≠ 2 → u.waitHolds n w = true → exec (.wait q) s = done s (fin (if kind = 1 then u.takeToken n w.id else u) 2 [ofScalar 0])) ∧
    (kind ≠ 2 → u.waitHolds n w = false → w.tmo = true → u.deadlinePassed w.deadline = true → exec (.wait q) s = done s (fin u 2 [ofScalar 1])) ∧
    (∀ k, (u.eng q.eng).task = some k → (if kind = 2 then u.deadlinePassed w.deadline else u.waitHolds n w || (w.tmo && u.deadlinePassed w.deadline)) = false →
      let v := ((fin u 2 [d, t]).bump64 (Reg.ENG_HSCNT q.eng) 20).saveCtx q.eng k .waiting
      exec (.wait q) s = done s ((v.setTask k { v.task k with wait := some w, wstat := none }).dispatch (v.taskCfg k).owner)))

/-- On a ring of its owner: with status 0, ENQ and ENQ2 write the entry at the producer index (bytes beyond the value 0) and then advance it, DEQ and DEQ2
read the entry at the consumer index and then advance that; status 3 where the side belongs to hardware, else 2 where the ring is undefined or not
open, else 1 where it is full or empty: nothing is transferred and a DEQ pushes zeros. RCNT pushes the number of entries present, 0 for an undefined
ring. ENQ2 and DEQ2 need 64-byte entries. -/
def Obligations.RingInstructionsTransfer : Prop :=
  ∀ (q : Issue) (s u : State) (a : Row) (rest : List Row), s.runs q.eng = true → q.eng ≠ 256 → s.afterDrain q = (none, u) →
  let e := q.eng
  let r := scalar a
  let c := u.ringCfg r
  r < 4096 → u.ringOwner r = some (u.engOwner e) →
  let fin (v : State) (nin : Nat) (outs : List Row) (base worst : Nat) : Host.Outcome State Fault Refusal :=
    done s (v.ran e nin outs (v.hsCost e base (s.waitOf q worst)))
  let st (enq : Bool) : Nat := if c.defined = true ∧ (if enq then c.prod ≠ 0 else c.cons ≠ 0) then 3
    else if c.defined = false ∨ u.ringOpen r = false then 2
    else if (if enq then u.ringCount r = ringLen c else u.ringCount r = 0) then 1 else 0
  (s.stk e = a :: rest → rest.length ≤ 15 →
    exec (.rcnt q) s = fin u 1 [ofScalar (if c.defined then u.ringCount r else 0)] 4 14400000) ∧
  (∀ v, s.stk e = a :: v :: rest → rest.length ≤ 15 →
    (st true ≠ 0 → exec (.enq q) s = fin (if st true = 1 then u.bump (Reg.RING_FULLCNT r) 1 else u) 2 [ofScalar (st true)] 6 19200000) ∧
    (∀ x y z, st true = 0 → u.engXlat e (u.ringSlot r (u.ringP r)) = (x, y) → (x = .zero ∨ ∃ f b, x = .frame f b) →
      y.hwWrite (y.engOwner e) (u.ringSlot r (u.ringP r)) ((bytesOfRow v ++ List.replicate 32 0).take (ringEsize c)) = (true, z) →
      exec (.enq q) s = fin ((z.loseResv (z.engOwner e) (u.ringSlot r (u.ringP r))).ringAdvance r) 2 [ofScalar 0] 6 19200000)) ∧
  (∀ v0 v1, s.stk e = a :: v0 :: v1 :: rest → rest.length ≤ 15 → c.esize = 2 →
    (st true ≠ 0 → exec (.enq2 q) s = fin (if st true = 1 then u.bump (Reg.RING_FULLCNT r) 1 else u) 3 [ofScalar (st true)] 6 19200000) ∧
    (∀ x y z, st true = 0 → u.engXlat e (u.ringSlot r (u.ringP r)) = (x, y) → (x = .zero ∨ ∃ f b, x = .frame f b) →
      y.hwWrite (y.engOwner e) (u.ringSlot r (u.ringP r)) ((bytesOfRow v0 ++ bytesOfRow v1).take (ringEsize c)) = (true, z) →
      exec (.enq2 q) s = fin ((z.loseResv (z.engOwner e) (u.ringSlot r (u.ringP r))).ringAdvance r) 3 [ofScalar 0] 6 19200000)) ∧
  (s.stk e = a :: rest → rest.length ≤ 13 →
    (st false ≠ 0 → exec (.deq q) s = fin u 1 [ofScalar (st false), 0] 6 18400000 ∧
      (c.esize = 2 → exec (.deq2 q) s = fin u 1 [ofScalar (st false), 0, 0] 6 18400000)) ∧
    (∀ x y z bs, st false = 0 → u.engXlat e (u.ringSlot r (u.ringC r)) = (x, y) → (x = .zero ∨ ∃ f b, x = .frame f b) →
      y.hwRead (y.engOwner e) (u.ringSlot r (u.ringC r)) (ringEsize c) = (some bs, z) →
      exec (.deq q) s = fin (z.ringConsume r) 1 [ofScalar 0, rowOfBytes (bs.take 32)] 6 18400000 ∧
      (c.esize = 2 → exec (.deq2 q) s = fin (z.ringConsume r) 1 [ofScalar 0, rowOfBytes (bs.take 32), rowOfBytes ((bs.drop 32).take 32)] 6 18400000)))

/-- NOW pushes station time and NOWE the release's read epoch in the 64-bit nanosecond form; ELAPSED pushes NOW - NOWE modulo 2^64; ELAPSEDH the
handshakes counted for the release up to the end of the instruction before it; each costs 2 hs. -/
def Obligations.TimeInstructionsReadTheClock : Prop :=
  ∀ (q : Issue) (s : State), s.runs q.eng = true → (s.stk q.eng).length ≤ 15 →
  let u := s.issued q
  let epoch := if q.eng = 256 then u.mgt.engAt else match (u.eng q.eng).task with | some k => (u.task k).relAt | none => u.now
  let hs := if q.eng = 256 then u.mgt.engHs else match (u.eng q.eng).task with | some k => (u.task k).hs | none => 0
  let ns (t : Nat) : Nat := t / 65536 % 2 ^ 64
  let pushes (v : Nat) : Host.Outcome State Fault Refusal := done s (u.ran q.eng 0 [BitVec.ofNat 256 (v % 2 ^ 64)] (s.costOf q 2 0))
  exec (.now q) s = pushes (ns u.now) ∧ exec (.nowe q) s = pushes (ns epoch) ∧
  exec (.elapsed q) s = pushes (((ns u.now : Int) - ns epoch) % 2 ^ 64).toNat ∧ exec (.elapsedh q) s = pushes hs

/-- After the store buffer has drained, DIN at an address of 32 bits pushes the register's value as the read of R26 gives it, zero-extended; DOUT writes
bits [31:0] of w, the write acting as the instruction completes; an address with a bit above 31 is refused as unmapped, and every refusal raises
DEVACC with its kind. The latches are those of the task's context. -/
def Obligations.DeviceInstructionsReachRegisters : Prop :=
  ∀ (q : Issue) (s u : State) (a : Row), s.runs q.eng = true → s.afterDrain q = (none, u) →
  (∀ (t : State) (v : Nat) (rest : List Row), s.stk q.eng = a :: rest → rest.length ≤ 15 → scalar a < 2 ^ 32 → u.busRead (.engine q.eng) (scalar a) = (.ok v, t) →
    exec (.din q) s = done s (t.ran q.eng 1 [ofScalar v] (t.hsCost q.eng 3 (s.waitOf q 28800000)))) ∧
  (∀ (h : RegHit) (w : Row) (rest : List Row), s.stk q.eng = a :: w :: rest → rest.length ≤ 16 → scalar a < 2 ^ 32 → u.busCheck (.engine q.eng) (scalar a) true = .ok h →
    exec (.dout q) s = done s ((u.ran q.eng 2 [] (u.hsCost q.eng 3 (s.waitOf q 28800000))).busSet (.engine q.eng) (scalar a) (scalar w % 2 ^ 32))) ∧
  (∀ (t : State) (kind : Nat) (rest : List Row), s.stk q.eng = a :: rest → rest.length ≤ 15 →
    (2 ^ 32 ≤ scalar a ∧ kind = 3 ∧ t = u) ∨ (scalar a < 2 ^ 32 ∧ u.busRead (.engine q.eng) (scalar a) = (.refused kind, t)) →
    ∃ hs, exec (.din q) s = done s (t.takeExc q.eng hs (t.excHere q.eng { word := 0x0A00 } 0x0D kind (scalar a)))) ∧
  (∀ (t : State) (kind : Nat) (w : Row) (rest : List Row), s.stk q.eng = a :: w :: rest → rest.length ≤ 16 →
    (2 ^ 32 ≤ scalar a ∧ kind = 3 ∧ t = u) ∨ (scalar a < 2 ^ 32 ∧ u.busWrite (.engine q.eng) (scalar a) (scalar w % 2 ^ 32) = (.refused kind, t)) →
    ∃ hs, exec (.dout q) s = done s (t.takeExc q.eng hs (t.excHere q.eng { word := 0x0A01 } 0x0D kind (scalar a)))) ∧
  ∀ l, (u.setReqLat (.engine q.eng) l).reqLat (.engine q.eng) = l ∧ ((u.setReqLat (.engine q.eng) l).eng q.eng).ctx.lat = l

/-- A load whose address is in range and aligned pushes the bit (as 0 or 1), row, 32-bit or 64-bit value the image or the data space gives it, with the
kept address below it under KEEP and the drain of FENCE after it; LDC pushes the element's initial value. Costs as in Table 5.21. -/
def Obligations.LoadsPushTheElement : Prop :=
  LoadsRow .ldb .ldb (fun r b => if r.getLsbD b then 1 else 0) ∧ LoadsRow .ldr .ldr (fun r _ => r) ∧
  LoadsBytes .ldb .ldb (fun bs b => if (leNat bs).testBit b then 1 else 0) ∧ LoadsBytes .ldr .ldr (fun bs _ => BitVec.ofNat 256 (leNat bs)) ∧
  LoadsBytes .ldw .ldw (fun bs _ => BitVec.ofNat 256 (leNat bs)) ∧ LoadsBytes .ldl .ldl (fun bs _ => BitVec.ofNat 256 (leNat bs)) ∧
  ∀ (q : Issue) (s v w : State) (sp md off : Nat) (a : Row) (bs : List Byte) (buf : Bool) (rest : List Row), s.runs q.eng = true →
    usable q.eng .ldc sp md = true → s.stk q.eng = a :: rest → rest.length + 1 + b2n (keeps md) ≤ 16 →
    ((∃ row b, sp < 5 ∧ (s.issued q).elem q.eng .ldc sp (scalar a) = .row row b ∧ off = scalar a / 256 * 32) ∨
      ∃ b, (s.issued q).elem q.eng .ldc sp (scalar a) = .byte off b) →
    (s.issued q).loadInit q.eng sp off = (.ok bs buf, v) → v.fenced q.eng md = (none, w) →
    exec (.ldc q sp md) s = done s (w.ran q.eng 1 (BitVec.ofNat 256 (leNat bs) :: kept .ldc sp md a) (w.hsCost q.eng 3 (s.waitOf q (4000000 + fenceWait md))))

/-- A store whose address is in range and aligned stages the stored lanes of an OUT or MRK row for its release, writes SEM at once, or puts the stored
bytes of DATA or RETAIN into the store buffer: the bit w[0], all 256 lanes, the lanes the mask selects, w[31:0] or w[63:0]; then FENCE drains, and
KEEP leaves the advanced address. Costs as in Table 5.21. -/
def Obligations.StoresReachTheirSpace : Prop :=
  let bitRow (b : Nat) : Row := BitVec.ofNat 256 (2 ^ b)
  StoresRow .stb .stb 1 (fun ops b => (if (inp ops 0).getLsbD 0 then bitRow b else 0, bitRow b)) ∧
  StoresRow .str .str 1 (fun ops _ => (inp ops 0, BitVec.allOnes 256)) ∧
  StoresRow .strm .strm 2 (fun ops _ => (inp ops 0, inp ops 1)) ∧
  StoresBytes .stb .stb 1 (fun ops b => (if (inp ops 0).getLsbD 0 then 2 ^ b else 0, 2 ^ b)) ∧
  StoresBytes .str .str 1 (fun ops _ => ((inp ops 0).toNat, 2 ^ 256 - 1)) ∧
  StoresBytes .strm .strm 2 (fun ops _ => ((inp ops 0).toNat, (inp ops 1).toNat)) ∧
  StoresBytes .stw .stw 1 (fun ops _ => ((inp ops 0).toNat % 2 ^ 32, 2 ^ 32 - 1)) ∧
  StoresBytes .stl .stl 1 (fun ops _ => ((inp ops 0).toNat % 2 ^ 64, 2 ^ 64 - 1))

/-- After the drain: LR loads 64 bits and holds the reservation on the address's line, of age 0; SC with the reservation of its owner on that line stores
the 64 bits and leaves status 0, else it stores nothing and leaves status 1, and the reservation is cleared in either case; TSET sets its SEM bit and
pushes the bit's previous value. -/
def Obligations.ReservedAndIndivisibleAccesses : Prop :=
  (∀ (q : Issue) (s u v w : State) (sp md off b : Nat) (a : Row) (bs : List Byte) (buf : Bool) (rest : List Row), s.runs q.eng = true →
    usable q.eng .lr sp md = true → s.stk q.eng = a :: rest → rest.length + 1 + b2n (keeps md) ≤ 16 → 5 ≤ sp → s.afterDrain q = (none, u) →
    u.elem q.eng .lr sp (scalar a) = .byte off b → u.loadBytes q.eng sp off 8 = (.ok bs buf, v) → v.fenced q.eng md = (none, w) →
    let t := w.ran q.eng 1 (BitVec.ofNat 256 (leNat bs) :: kept .lr sp md a) (w.hsCost q.eng (if buf then 2 else 3) (s.waitOf q (16800000 + fenceWait md)))
    exec (.lr q sp md) s = done s (t.setEng q.eng { t.eng q.eng with
      resv := some { owner := w.engOwner q.eng, line := w.resvLine q.eng sp (scalar a), age := 0 } })) ∧
  (∀ (q : Issue) (s u : State) (sp md off b : Nat) (a x : Row) (rest : List Row), s.runs q.eng = true → usable q.eng .sc sp md = true →
    s.stk q.eng = a :: x :: rest → rest.length ≤ 14 → 5 ≤ sp → s.afterDrain q = (none, u) → u.elem q.eng .sc sp (scalar a) = .byte off b →
    let held : Prop := ∃ r, (u.eng q.eng).resv = some r ∧ r.owner = u.engOwner q.eng ∧ r.line = u.resvLine q.eng sp off
    let fin (w : State) (base st : Nat) : Host.Outcome State Fault Refusal :=
      done s (w.ran q.eng 2 (ofScalar st :: kept .sc sp md a) (w.hsCost q.eng base (s.waitOf q (17600000 + fenceWait md))))
    (∀ v w, held → u.scWrite q.eng sp off (scalar x) = (none, v) →
      (v.setEng q.eng { v.eng q.eng with resv := none }).fenced q.eng md = (none, w) → exec (.sc q sp md) s = fin w 3 0) ∧
    (∀ w, ¬held → (u.setEng q.eng { u.eng q.eng with resv := none }).fenced q.eng md = (none, w) → exec (.sc q sp md) s = fin w 2 1)) ∧
  (∀ (q : Issue) (s u w : State) (md row b : Nat) (a : Row) (rest : List Row), s.runs q.eng = true → usable q.eng .tset 4 md = true →
    s.stk q.eng = a :: rest → rest.length + 1 + b2n (keeps md) ≤ 16 → s.afterDrain q = (none, u) → u.elem q.eng .tset 4 (scalar a) = .row row b → b < 256 →
    (u.semWrite (u.engOwner q.eng) row (BitVec.ofNat 256 (2 ^ b)) (BitVec.ofNat 256 (2 ^ b))).fenced q.eng md = (none, w) →
    exec (.tset q 4 md) s = done s (w.ran q.eng 1 ((if (u.img.sem.get 0 row).getLsbD b then 1 else 0) :: kept .tset 4 md a)
      (w.hsCost q.eng 6 (s.waitOf q (13200000 + fenceWait md)))))

/-- RISE and FALL leave, for every lane, r1 and not e or e and not r1, and the element then holds r1. The Q row a timer instruction pushes has in lane i
the Q of that lane after its step. TRST reads line 0 of its block and clears PREV, Q and RUN in lines 0 and 1. -/
def Obligations.EdgesAndTimersWorkPerLane : Prop :=
  TakesEdge .rise 0x0300 (fun x e => x && !e) ∧ TakesEdge .fall 0x0301 (fun x e => e && !x) ∧
  (∀ (kind : TimerKind) (now pt : Nat) (x : Row) (l0 l1 : Nat) (stamps : List (Nat × Nat)), ∀ i < 256,
    (rowOfLanes (lanesAfter kind now pt x (lanesOf l0 l1 stamps)) (·.q)).getLsbD i = (laneStep kind now pt (x.getLsbD i) (laneOf l0 l1 stamps i)).q) ∧
  ∀ (q : Issue) (s s1 s2 s3 : State) (a : Row) (rest : List Row) (off l0 : Nat), s.runs q.eng = true → s.stk q.eng = a :: rest → rest.length ≤ 16 →
    (s.issued q).edgeElem q.eng (scalar a) 2176 64 = .ok off →
    let sp := if bit (scalar a) 63 then 6 else 5
    (s.issued q).blockOvl q.eng sp off = (none, s1) → s1.blockRead q.eng sp off [0] = (.inr [(0, l0)], s2) →
    s2.blockWrite q.eng sp off [(0, l0 % 2 ^ 256), (1, 0)] = (none, s3) →
    exec (.trst q) s = done s (s3.ran q.eng 1 [] (s3.hsCost q.eng 4 (s.waitOf q 17640000)))

/-- With elapsed the signed 64-bit difference of now and the lane's START (0 if negative): TON with the input 0 clears RUN and Q, on a rising input sets
START to now, RUN unless the preset is 0, and Q if it is, and while running sets Q once the preset has elapsed; TOF is the same for a falling input
with Q kept until then; TP runs one pulse of the preset per rising input; PREV then holds the input. TON, TOF and TP push the Q row of the lanes so
stepped, after reading and writing the lines of the block that this takes (R128). Now is the task's read epoch, its form (seconds times 10^9 plus
nanoseconds) modulo 2^64. -/
def Obligations.LaneTimerProgram : Prop :=
  TimesLanes .ton .ton ∧ TimesLanes .tof .tof ∧ TimesLanes .tp .tp ∧ (∀ t : Nat, form64 t = t / 65536 % 2 ^ 64) ∧
  (∀ (s : State) (e k : Nat), e ≠ 256 → (s.eng e).task = some k → s.engEpoch e = (s.task k).relAt) ∧
  ∀ (now pt : Nat) (x : Bool) (l : Lane), now < 2 ^ 64 → l.start < 2 ^ 64 → pt < 2 ^ 64 →
  let diff : Int := (now : Int) - l.start
  let wrapped : Int := if diff < -2 ^ 63 then diff + 2 ^ 64 else if 2 ^ 63 ≤ diff then diff - 2 ^ 64 else diff
  let due : Prop := (pt : Int) ≤ max 0 wrapped
  let ton := laneStep .ton now pt x l
  let tof := laneStep .tof now pt x l
  let tp := laneStep .tp now pt x l
  let ended : Prop := l.run = true ∧ due
  ton.prev = x ∧ tof.prev = x ∧ tp.prev = x ∧
  (x = false → ton.run = false ∧ ton.q = false ∧ ton.start = l.start) ∧
  (x = true → l.prev = false → ton.start = now ∧ (ton.run = true ↔ pt ≠ 0) ∧ (ton.q = true ↔ pt = 0)) ∧
  (x = true → l.prev = true → ended → ton.run = false ∧ ton.q = true ∧ ton.start = l.start) ∧
  (x = true → l.prev = true → ¬ended → ton.run = l.run ∧ ton.q = l.q ∧ ton.start = l.start) ∧
  (x = true → tof.run = false ∧ tof.q = true ∧ tof.start = l.start) ∧
  (x = false → l.prev = true → tof.start = now ∧ (tof.run = true ↔ pt ≠ 0) ∧ (tof.q = true ↔ pt ≠ 0)) ∧
  (x = false → l.prev = false → ended → tof.run = false ∧ tof.q = false ∧ tof.start = l.start) ∧
  (x = false → l.prev = false → ¬ended → tof.run = l.run ∧ tof.q = l.q ∧ tof.start = l.start) ∧
  ((l.run = false ∨ due) → x = true → l.prev = false → pt ≠ 0 → tp.start = now ∧ tp.run = true ∧ tp.q = true) ∧
  (¬((l.run = false ∨ due) ∧ x = true ∧ l.prev = false ∧ pt ≠ 0) →
    tp.start = l.start ∧ (ended → tp.run = false ∧ tp.q = false) ∧ (¬ended → tp.run = l.run ∧ tp.q = l.q))

/-- For every load and store instruction that Table 4.5 allows: an image row at or beyond the owner's range or a data address whose element does not lie
in its space takes ADDRRANGE, else a misaligned element takes ALIGN, with the address in the record; the rest of the state is as at the issue (after
the drain LR, SC and TSET begin with) but for the exception. -/
def Obligations.AddressChecksTrap : Prop :=
  (∀ (s : State) (e : Nat) (o : MemOp) (sp a : Nat),
    (sp < 5 → s.elem e o sp a = match s.absRow (s.engOwner e) sp a with
      | none => .exc 0x09
      | some row => if o.size = 256 ∧ a % 256 ≠ 0 then .exc 0x0A else .row row (a % 256)) ∧
    (5 ≤ sp → o.size = 1 → s.elem e o sp a = if a < 2 ^ 51 ∧ a < 8 * s.engSpaceSize e sp then .byte (a / 8) (a % 8) else .exc 0x09) ∧
    (5 ≤ sp → o.size ≠ 1 → s.elem e o sp a = if a < 2 ^ 48 ∧ a + o.size / 8 ≤ s.engSpaceSize e sp then
      (if a % (o.size / 8) = 0 then .byte a 0 else .exc 0x0A) else .exc 0x09)) ∧
  ∀ (q : Issue) (s u : State) (mk : Issue → Nat → Nat → Instr) (o : MemOp) (sp md c : Nat) (a : Row) (ops rest : List Row), s.runs q.eng = true →
    usable q.eng o sp md = true → s.stk q.eng = a :: ops ++ rest → rest.length + 1 + b2n (keeps md) ≤ 16 →
    u.elem q.eng o sp (scalar a) = .exc c →
    (((mk, o) ∈ [(Instr.ldb, MemOp.ldb), (.ldr, .ldr), (.ldw, .ldw), (.ldl, .ldl), (.ldc, .ldc)] ∧ ops = [] ∧ u = s.issued q) ∨
      ((mk, o) ∈ [(Instr.stb, MemOp.stb), (.str, .str), (.stw, .stw), (.stl, .stl)] ∧ ops.length = 1 ∧ u = s.issued q) ∨
      (mk = .strm ∧ o = .strm ∧ ops.length = 2 ∧ u = s.issued q) ∨
      ((mk, o) ∈ [(Instr.lr, MemOp.lr), (.tset, .tset)] ∧ ops = [] ∧ s.afterDrain q = (none, u)) ∨
      (mk = .sc ∧ o = .sc ∧ ops.length = 1 ∧ s.afterDrain q = (none, u))) →
    ∃ hs, exec (mk q sp md) s = done s (u.takeExc q.eng hs (u.excHere q.eng { word := o.word sp md, space := sp } c 0 (scalar a)))

/-- A write or a read that a row of Table 1.8 refuses answers its requester with the refusal's kind; nothing else changes, but that a denied access counts
in its owner's security counter. The rows are checked in order: not ready in Backup, Recall, Lean and Recovery and for a write in Drain, then
alignment, then unmapped. -/
def Obligations.RefusedAccessTouchesNothing : Prop :=
  (∀ (s : State) (r : Req) (a v k : Nat), s.reqLive r = true → s.busCheck r a true = .error k →
    exec (.registerWrite r a v) s = done s ((if k = 4 then s.secEvent (s.reqOwner r) else s).emit (.reg a 0 k))) ∧
  (∀ (s : State) (r : Req) (a k : Nat), s.reqLive r = true → s.busCheck r a false = .error k →
    exec (.rcRegisterRead r a) s = done s ((if k = 4 then s.secEvent (s.reqOwner r) else s).emit (.reg a 0 k)) ∧
    exec (.rlLowRead r a) s = done s ((if k = 4 then s.secEvent (s.reqOwner r) else s).emit (.reg a 0 k))) ∧
  ∀ (s : State) (r : Req) (a : Nat) (w : Bool),
    (s.ms.mode ∈ [.backup, .recall, .lean, .recovery] ∨ (s.ms.mode = .drain ∧ w = true) → s.busCheck r a w = .error 1) ∧
    (s.ms.mode ∉ [.backup, .recall, .lean, .recovery, .drain] → a % 4 ≠ 0 → s.busCheck r a w = .error 2) ∧
    (s.ms.mode ∉ [.backup, .recall, .lean, .recovery, .drain] → a % 4 = 0 → (0x7000000 ≤ a ∨ busFind a = none) → s.busCheck r a w = .error 3) ∧
    (∀ h, s.ms.mode ∉ [.backup, .recall, .lean, .recovery, .drain] → a % 4 = 0 → a < 0x7000000 → busFind a = some h →
      (s.blockPerm (s.reqOwner r) (blockOf a) = false ∨ s.instDenied (s.reqOwner r) a h w = true) → s.busCheck r a w = .error 4) ∧
    (∀ n : Nat, 0 < n → s.blockPerm n 10 = false ∧ s.blockPerm n 15 = false) ∧ (∀ b, s.blockPerm 0 b = true)

/-- A write performed on a register whose write starts nothing: each bit i of its access type RW takes bit i of the value, each W1C bit written 1 clears,
every other bit keeps its value (a reserved bit its 0), every other register keeps its value, and the requester is answered. -/
def Obligations.WriteFollowsAccessTypes : Prop :=
  ∀ (s : State) (r : Req) (a v : Nat) (h : RegHit), s.reqLive r = true → s.busCheck r a true = .ok h → h.shadow = false → s.itemDefined a h = true →
  h.desc.pair = .one → h.desc.base ∉ actingRegs → ¬(blockOf a = 0 ∧ (s.bent (h.i / 4)).awake = false) → s.rd a < 2 ^ 32 →
  ∃ x, exec (.registerWrite r a v) s = done s ((s.wr a x).emit (.reg a 0 0)) ∧ (s.wr a x).rd a = x ∧ x < 2 ^ 32 ∧
    (∀ b, b ≠ a → (s.wr a x).rd b = s.rd b) ∧
    ∀ i < 32, x.testBit i = if h.desc.rw.testBit i = true ∧ ¬(v.testBit i = true ∧ h.desc.w1c.testBit i = true) then v.testBit i
      else if h.desc.w1c.testBit i = true ∧ v.testBit i = true then false else (s.rd a).testBit i

/-- A read performed on a register whose read starts nothing answers the register's value and clears its RC bits for every requester, and changes no other
register. A read of the low word of a 64-bit quantity answers the low word and replaces the requester's latch by the quantity's current high word; a
read of the high word by that requester then answers the latched value, and of another quantity the current high word. -/
def Obligations.ReadClearsAndLatches : Prop :=
  (∀ (s : State) (r : Req) (a : Nat) (h : RegHit), s.reqLive r = true → s.busCheck r a false = .ok h → ¬(blockOf a = 0 ∧ (s.bent (h.i / 4)).awake = false) →
    s.foreignWord (s.reqOwner r) a h = false → h.desc.base ≠ Reg.NVS_PDATA 0 → h.desc.base ≠ Reg.ENG_PACEMAX 0 → h.desc.pair = .one →
    exec (.rcRegisterRead r a) s = done s ((if h.shadow = true ∨ h.desc.rc = 0 then s else s.wr a (s.rd a &&& (0xFFFFFFFF ^^^ h.desc.rc))).emit
      (.reg a (s.regValue a h) 0))) ∧
  (∀ (s : State) (r : Req) (a : Nat) (h h2 : RegHit), s.reqLive r = true → s.busCheck r a false = .ok h → busFind (a + 4) = some h2 →
    ¬(blockOf a = 0 ∧ (s.bent (h.i / 4)).awake = false) → s.foreignWord (s.reqOwner r) a h = false → h.desc.pair = .lo → h.desc.base ≠ Reg.NVS_PDATA 0 →
    exec (.rlLowRead r a) s = done s ((s.setReqLat r { s.reqLat r with hi := some (a, s.regValue (a + 4) h2) }).emit (.reg a (s.regValue a h) 0))) ∧
  ∀ (s : State) (r : Req) (a : Nat) (h : RegHit), h.desc.pair = .hi → h.desc.base ≠ Reg.NVS_PDATA 0 →
    (∀ b x, (s.reqLat r).hi = some (b, x) → s.readNow r a h = (if b + 4 = a then x else s.regValue a h, s)) ∧
    ((s.reqLat r).hi = none → s.readNow r a h = (s.regValue a h, s))

/-- A write of the low word of a 64-bit RW quantity changes no register: the value waits in the requester's write latch, in place of any other. The write
of the high word of the same quantity then stores both halves at once and empties the latch; without a held low word it stores the high word and keeps
the low word. COMPARE_TARGET_WRITE so sets the whole target of its unit. -/
def Obligations.WideWriteAppliesBothHalves : Prop :=
  (∀ (s : State) (r : Req) (a v : Nat) (h : RegHit), s.reqLive r = true → s.busCheck r a true = .ok h → h.shadow = false → s.itemDefined a h = true →
    ¬(blockOf a = 0 ∧ (s.bent (h.i / 4)).awake = false) → h.desc.pair = .lo → h.desc.rw = 0xFFFFFFFF →
    let t := s.setReqLat r { s.reqLat r with lo := some (a, v % 2 ^ 32) }
    exec (.registerWrite r a v) s = done s (t.emit (.reg a 0 0)) ∧ t.regs = s.regs) ∧
  (∀ (s : State) (r : Req) (a v : Nat) (h : RegHit), s.reqLive r = true → s.busCheck r (a + 4) true = .ok h → h.shadow = false →
    s.itemDefined (a + 4) h = true → ¬(blockOf (a + 4) = 0 ∧ (s.bent (h.i / 4)).awake = false) → h.desc.pair = .hi → h.desc.rw = 0xFFFFFFFF →
    h.desc.base ≠ Reg.TIM_CALSEC_H → h.desc.base ≠ Reg.NVS_PPWD_H 0 → v < 2 ^ 32 →
    (∀ x, (s.reqLat r).lo = some (a, x) → exec (.registerWrite r (a + 4) v) s =
      done s (((s.setReqLat r { s.reqLat r with lo := none }).wr64 a (x + v * 2 ^ 32)).emit (.reg (a + 4) 0 0))) ∧
    ((∀ x, (s.reqLat r).lo ≠ some (a, x)) → exec (.registerWrite r (a + 4) v) s = done s ((s.wr64 a (s.rd a + v * 2 ^ 32)).emit (.reg (a + 4) 0 0)))) ∧
  (∀ (s : State) (a v : Nat), v < 2 ^ 64 → (s.wr64 a v).rd64 a = v) ∧
  ∀ (s : State) (u v : Nat) (h h2 : RegHit), u < 64 → v < 2 ^ 64 → s.busCheck .mgt (Reg.TIM_CUTGT u) true = .ok h →
    s.busCheck .mgt (Reg.TIM_CUTGT_H u) true = .ok h2 →
    exec (.compareTargetWrite .mgt u v) s = done s ((s.setReqLat .mgt { s.reqLat .mgt with lo := none }).wr64 (Reg.TIM_CUTGT u) v)

/-- The window opens when the elapsed part reaches half of the period (the fraction of every delivered module). While the watchdog counts: with the window
open, 0x5A3C arms service and 0x96E1 with LOCK 0 arms disable; 0xC3A5 after an armed service counts it and starts a full period with the window
closed; 0x691E after an armed disable sets EN to 0; every other key, and any key while the window is closed, is a violation. The service key is void
in the instant of an expiry that met an armed service key: it counts in neither counter. The sequence is the watchdog's, whoever writes the keys, each
key acting on the state the keys before it left. -/
def Obligations.WatchdogKeysServeOrViolate : Prop :=
  ∀ (s : State) (r : Req) (w : Nat), s.writes r (Reg.WDG_KEY w) (Reg.WDG_KEY 0) w → (s.wd w).counting = true →
  let x := s.wd w
  let open_ : Prop := us x.period ≤ 2 * (s.mono - x.since)
  let void : Prop := x.lost = some s.mono
  let s1 := s.setWd w { x with winOpen := true }
  (open_ → x.armed = 0 → exec (.serviceArm r w) s = done s ((s1.setWd w { s1.wd w with armed := 1 }).wdgRegs w)) ∧
  (open_ → x.armed = 0 → x.lock = false → exec (.disableArm r w) s = done s ((s1.setWd w { s1.wd w with armed := 2 }).wdgRegs w)) ∧
  (open_ → x.armed = 1 → ¬void →
    let s2 := (s1.bump (Reg.WDG_SRVCNT w) 1).setWd w { s1.wd w with period := x.next }
    let s3 := s2.wr (Reg.WDG_PERIOD w) x.next
    exec (.service r w) s = done s ((s3.setWd w { s3.wd w with since := s.mono, left := 0, winOpen := false, armed := 0 }).wdgRegs w)) ∧
  (open_ → x.armed = 2 → exec (.wdgDisable r w) s =
    done s (((s1.setWd w { s1.wd w with en := false, counting := false, winOpen := false, armed := 0 }).setBit (Reg.WDG_CTL w) 0 false).wdgRegs w)) ∧
  (¬open_ → let v := done s (s.wdgViolation w)
    exec (.serviceArm r w) s = v ∧ (¬void → exec (.service r w) s = v) ∧ exec (.disableArm r w) s = v ∧ exec (.wdgDisable r w) s = v) ∧
  (open_ → let v := done s (s1.wdgViolation w)
    (x.armed ≠ 1 → x.armed ≠ 2 → (¬void → exec (.service r w) s = v) ∧ exec (.wdgDisable r w) s = v ∧ (x.lock = true → exec (.disableArm r w) s = v)) ∧
    (x.armed = 1 → exec (.serviceArm r w) s = v ∧ exec (.disableArm r w) s = v ∧ exec (.wdgDisable r w) s = v) ∧
    (x.armed = 2 → exec (.serviceArm r w) s = v ∧ (¬void → exec (.service r w) s = v) ∧ exec (.disableArm r w) s = v)) ∧
  (void → exec (.service r w) s = done s (s.setWd w { x with lost := none })) ∧
  (x.winOpen = false → exec (.wdgWindowOpen w) s =
    done s (((s.advanceMono (x.since + us x.period / 2)).setWd w { x with winOpen := true }).wdgRegs w))

/-- A write of WDG_PERIOD with the window open and a value from 100 to 60 000 000 µs sets the period of the next service; any other sets PERREJ. EN = 1
enables a disabled watchdog; LOCK = 1 locks it. An expiry and a violation count, set their flag, fire the watchdog's source with cause 1 or 2 and
start a full period; on the time base the expiry comes exactly one period after its start, on the fall-back oscillator within 10 % and 10 µs of that
(for a period R456 allows). Missing ticks set FALLBACK and its event and fire F1546 + w; good ticks clear FALLBACK. -/
def Obligations.WatchdogSettingsAndExpiry : Prop :=
  (∀ (s : State) (r : Req) (w v : Nat), s.writes r (Reg.WDG_PERIOD w) (Reg.WDG_PERIOD 0) w → v < 2 ^ 26 →
    let x := s.wd w
    (x.counting = true → us x.period ≤ 2 * (s.mono - x.since) → 100 ≤ v → v ≤ 60000000 →
      exec (.wdgPeriod r w v) s = done s ((s.setWd w { x with next := v }).wr (Reg.WDG_PERIOD w) v)) ∧
    ((x.counting = false ∨ 2 * (s.mono - x.since) < us x.period ∨ v < 100 ∨ 60000000 < v) →
      exec (.wdgPeriod r w v) s = done s (s.setBit (Reg.WDG_STAT w) 18 true))) ∧
  (∀ (s : State) (r : Req) (w : Nat), s.writes r (Reg.WDG_CTL w) (Reg.WDG_CTL 0) w →
    exec (.wdgLock r w) s = done s ((s.setWd w { s.wd w with lock := true }).setBit (Reg.WDG_CTL w) 1 true) ∧
    ((s.wd w).en = true → exec (.wdgEnable r w) s = done s s) ∧
    ((s.wd w).en = false →
      exec (.wdgEnable r w) s = done s ((s.setWd w { s.wd w with en := true, paused := false }).setBit (Reg.WDG_CTL w) 0 true).wdgModes)) ∧
  (∀ (s : State) (w : Nat), let x := s.wd w
    let restart (s : State) : State := (s.setWd w { s.wd w with since := s.mono, left := 0, winOpen := false, armed := 0 }).wdgRegs w
    let key (s : State) : State := s.setWd w { s.wd w with lost := if x.armed = 1 then some s.mono else none }
    let src := if w = 0 then 1536 else 1536 + w
    (x.counting = true → x.fallback = false →
      let t := s.advanceMono (x.since + us x.period)
      exec (.wdgExpiry w) s = done s (restart ((key ((t.bump (Reg.WDG_EXPCNT w) 1).setBit (Reg.WDG_STAT w) 16 true)).raise src 0xFFFF 1))) ∧
    s.wdgViolation w = restart (((s.bump (Reg.WDG_VIOCNT w) 1).setBit (Reg.WDG_STAT w) 17 true).raise src 0xFFFF 2) ∧
    (x.fallback = false → exec (.wdgFallback w) s =
      done s ((((s.setWd w { x with fallback := true }).setBit (Reg.WDG_STAT w) 4 true).setBit (Reg.WDG_STAT w) 19 true).raise (1546 + w) 0xFFFF w)) ∧
    (x.fallback = true → exec (.wdgTimebaseReturn w) s = done s ((s.setWd w { x with fallback := false }).setBit (Reg.WDG_STAT w) 4 false)) ∧
    (x.counting = true → x.fallback = true → 100 ≤ x.period → ∃ d, us x.period ≤ d + (us x.period / 10 + us 10) ∧
      d ≤ us x.period + (us x.period / 10 + us 10) ∧
      let t := ({ s with free := s.free + 1 } : State).advanceMono (x.since + d)
      exec (.wdgExpiry w) s = done s (restart ((key ((t.bump (Reg.WDG_EXPCNT w) 1).setBit (Reg.WDG_STAT w) 16 true)).raise src 0xFFFF 1))))

/-- A firing of an assigned source in a calm device, with no reaction, no fault trigger and room in the intake, is counted in FLT_SCNT and marked FIRED
and active, captured as first error if it is the first of class error or fatal, and its entry waits in the intake; the history queue takes the oldest
entry 100 ns later, into slot h mod 64; a storm ends 10 ms after the last loss; a source is inactive once ACTAGE has passed without a firing. -/
def Obligations.FiringsAreCountedAndLogged : Prop :=
  (∀ (s : State) (src task d1 d2 : Nat), s.calm = true → srcAssigned src = true → (s.srcCfg src).react = 0 → s.ms.mode ≠ .hold →
    s.cfg.trigs = [] → s.flt.intake.length < 16 →
    let f : Firing := { src := src, at_ := s.now, task := task, det1 := d1, det2 := d2 }
    let t := s.countFiring f
    let h := t.histEntry f s.flt.lostBefore false
    exec (.faultFiring src task d1 d2) s = .next ((t.firstError h).setFlt { (t.firstError h).flt with
      intake := s.flt.intake ++ [h], lostBefore := false }) ∧
    t.rd (Reg.FLT_SCNT src) = min (s.rd (Reg.FLT_SCNT src) + 1) 0xFFFFFFFF ∧ (t.rd (Reg.FLT_SSTAT src)).testBit 16 = true ∧
    (t.rd (Reg.FLT_SSTAT src)).testBit 0 = true ∧
    ((s.flt.first.isSome = true ∨ (s.srcCfg src).cls < 3) → t.firstError h = t) ∧
    (s.flt.first = none → 3 ≤ (s.srcCfg src).cls → (t.firstError h).flt.first = some h)) ∧
  (∀ (s : State) (h : HistEnt) (rest : List HistEnt), s.flt.intake = h :: rest → s.cfg.hring.find? h.owner = none →
    let t := s.advance (s.now + nsec 100)
    let slot := s.rd64 Reg.FLT_HCOUNT % 64
    let u := t.setFlt { t.flt with intake := rest, hist := t.flt.hist.insert slot h }
    exec (.historyWrite) s = done s ((forEach (histWords h).zipIdx (fun s w => s.wr (Reg.FLT_HIST slot w.2) w.1) u).bump64 Reg.FLT_HCOUNT 1)) ∧
  (∀ s : State, s.flt.storm = true → let t := s.advanceMono (s.flt.lastLoss + msec 10)
    exec .stormEnd s = done s ((t.setFlt { t.flt with storm := false }).setBit Reg.FLT_STAT 2 false)) ∧
  (∀ (s : State) (f at_ cls : Nat), s.flt.lastFire.find? f = some (at_, cls) → let t := s.advanceMono (at_ + s.actAge)
    exec (.sourceInactive f) s = done s ((t.setFlt { t.flt with lastFire := t.flt.lastFire.erase f }).setBit (Reg.FLT_SSTAT f) 0 (s.flt.force.contains f)))

/-- In Test, a write of FORCE = 1 over 0 to an assigned source fires it once, forced; any other FORCE write in Test sets the bit; outside Test, or to an
unassigned source, it is ignored and sets FORCEREJ. CLR empties the first-error register and clears FEVALID. NOW copies every counter into its shadow
within 1 µs; ARM arms the target that is set; CANCEL drops it; the scheduled plumb copies at its target and is then no longer armed. After a plumb the
shadow of a stored counter reads that counter's value, and a register that is neither a shadow nor PLUMBCNT or PLUMBAT keeps its value. -/
def Obligations.ForcesAndPlumbs : Prop :=
  (∀ (s : State) (r : Req) (f : Nat) (v : Bool), s.writes r (Reg.FLT_SFORCE f) (Reg.FLT_SFORCE 0) f →
    ((s.ms.mode ≠ .test ∨ srcAssigned f = false) → exec (.force r f v) s = done s (s.setBit Reg.FLT_STAT 17 true)) ∧
    (s.ms.mode = .test → srcAssigned f = true →
      let rest := s.flt.force.filter (· != f)
      let t := (s.setFlt { s.flt with force := if v then f :: rest else rest }).setBit (Reg.FLT_SFORCE f) 0 v
      exec (.force r f v) s = done s (if v = true ∧ f ∉ s.flt.force then { t with raised := t.raised ++ [{ src := f, at_ := t.now, forced := true }] }
        else t.setBit (Reg.FLT_SSTAT f) 0 (t.srcActive f)))) ∧
  (∀ (s : State) (r : Req), s.writes r Reg.FLT_FECLR Reg.FLT_FECLR 0 →
    exec (.clr r) s = done s ((forEach (List.range 8) (fun s k => s.wr (Reg.FLT_FE k) 0) (s.setFlt { s.flt with first := none })).setBit Reg.FLT_STAT 1 false)) ∧
  (∀ (s : State) (r : Req), s.writes r Reg.FLT_PLUMBCTL Reg.FLT_PLUMBCTL 0 →
    (∃ d, d ≤ us 1 ∧ exec (.nowPlumb r) s = done s ((({ s with free := s.free + 1 } : State).advance (s.now + d)).plumb)) ∧
    exec (.armPlumb r) s = done s ((s.setFlt { s.flt with plumb := some (s.rd64 Reg.FLT_PLUMBTGT) }).setBit Reg.FLT_STAT 4 true) ∧
    exec (.cancelPlumb r) s = done s ((s.setFlt { s.flt with plumb := none }).setBit Reg.FLT_STAT 4 false)) ∧
  (∀ (s : State) (t : Nat), s.flt.plumb = some t →
    let u := (s.advance (s.targetInstant t).1).plumb
    exec .scheduledPlumb s = done s ((u.setFlt { u.flt with plumb := none }).setBit Reg.FLT_STAT 4 false)) ∧
  (∀ (s : State) (a b v : Nat), s.regsWf = true → s.regs.find? a = some v → isShadow a = false → shadowOf a = some b → regReset b = 0 →
    (∀ p ∈ s.regs, p.1 ≠ a → shadowOf p.1 ≠ some b) → b ∉ [Reg.FLT_PLUMBCNT, Reg.FLT_PLUMBAT, Reg.FLT_PLUMBAT + 4] → s.plumb.rd b = v) ∧
  ∀ (s : State) (c : Nat), isShadow c = false → (∀ p ∈ s.regs, shadowOf p.1 ≠ some c) → c ∉ [Reg.FLT_PLUMBCNT, Reg.FLT_PLUMBAT, Reg.FLT_PLUMBAT + 4] →
    s.plumb.rd c = s.rd c

/-- MGT_MODECMD with TARGET Stop, Run, Test or Drain, where the write is performed: Stop is acted on in Run, Shadow, Test and Hold, and in Stop abandons a
pending start; Run with KIND 1 or 2 in Stop with no start pending and no suspect mark makes a start pending; Test needs KIND 0, Stop, no pending
start, and an unpaired module or a partner in Stop; Drain needs KIND 0 and a mode from Configure to Handover. Anything else sets CMDREJ and leaves the
mode. -/
def Obligations.ModeCommandsFollowTable22 : Prop :=
  ∀ (s : State) (r : Req) (kind i : Nat), s.writes r Reg.MGT_MODECMD Reg.MGT_MODECMD i →
  let m := s.ms.mode
  let k := kind % 4
  let pend := s.ms.startPend.isSome
  let rejected (c : Instr) : Prop := exec c s = done s s.cmdRej
  (k = 0 → m ∈ [.run, .shadow, .test, .hold] → exec (.modecmdStop r kind) s = done s (s.deviceStop 0)) ∧
  (k = 0 → m = .stop → pend = true → exec (.modecmdStop r kind) s = done s s.dropStart ∧ s.dropStart.ms = { s.ms with startPend := none }) ∧
  ((k ≠ 0 ∨ m ∉ [.run, .shadow, .test, .hold, .stop] ∨ (m = .stop ∧ pend = false)) → rejected (.modecmdStop r kind)) ∧
  (k ∈ [1, 2] → m = .stop → pend = false → s.isSuspect = false → exec (.modecmdRun r kind) s = done s (s.startDevice (k == 2) false) ∧
    (s.startDevice (k == 2) false).ms = { s.ms with startPend := some (k == 2), startFrom := s.now, fromPolicy := false }) ∧
  ((k ∉ [1, 2] ∨ m ≠ .stop ∨ pend = true ∨ s.isSuspect = true) → rejected (.modecmdRun r kind)) ∧
  (k = 0 → m = .stop → pend = false → (s.ms.paired = false ∨ s.red.pMode = 5) →
    exec (.modecmdTest r kind) s = done s (s.enterMode .test 0).testPubs.resumeAll) ∧
  ((k ≠ 0 ∨ m ≠ .stop ∨ pend = true ∨ (s.ms.paired = true ∧ s.red.pMode ≠ 5)) → rejected (.modecmdTest r kind)) ∧
  (k = 0 → m ∈ [.configure, .stop, .run, .shadow, .test, .hold, .handover] → exec (.modecmdDrain r kind) s =
    done s (if s.ms.active = true ∧ s.partnerGood = true ∧ (m = .run ∨ s.red.sw ≠ 0) then s.modeDrain else (s.xferFail 7).enterDrain 3)) ∧
  ((k ≠ 0 ∨ m ∈ [.backup, .lean, .recall, .recovery, .drain]) → rejected (.modecmdDrain r kind)) ∧
  s.cmdRej.ms = s.ms ∧ (s.cmdRej.rd Reg.MGT_MODE).testBit 17 = true

/-- A pending start of the device completes within 20 ms (warm) or 200 ms (cold) of its command: in Run, or by joining the active partner. A stop of a
Running or Held owner ends its tasks and leaves it Stopped. An owner's pending start completes within the same bounds. At the end of the quiet period
an exit is counted: within the allowance the module returns to the mode it was held from, else it goes to Stop, sets HOLDLIMIT and fires F1409; a Held
owner likewise begins a warm start, which is then pending, or stops with F1424 + n. -/
def Obligations.StartsHoldsAndOwners : Prop :=
  (∀ (s : State) (t : Nat) (cold : Bool), s.ms.mode = .stop → s.ms.startPend = some cold →
    let u := s.advance (min t (s.ms.startFrom + msec (if cold then 200 else 20)))
    (s.hasRedn = false ∨ (s.ms.paired = true ∧ s.partnerActive = false ∧ s.red.pMode ≠ 5) → exec (.runStart t) s = done s (u.runStart cold)) ∧
    (s.hasRedn = true → s.partnerActive = true → exec (.runStart t) s = done s u.joinPair ∧ u.joinPair.ms.startPend = none)) ∧
  (∀ (s : State) (n : Nat), (s.owner n).st = .running ∨ (s.owner n).st = .held →
    let t := s.splDiscard n
    exec (.ownerStop n) s = done s (((t.setOwnerSt n .stopped).setOwner n { t.owner n with st := .stopped, startPend := none }).beginDrain n)) ∧
  (∀ (s : State) (n t : Nat) (cold : Bool), (s.owner n).startPend = some cold →
    let u := s.advance (min t ((s.owner n).startFrom + msec (if cold then 200 else 20)))
    exec (.ownerStart n t) s = done s (u.ownerStartNow n cold) ∧
    (u.startable n = true → (u.owner n).st = .stopped ∨ (u.owner n).st = .held →
      let v := u.ownerPrepare n cold
      let w := (v.setOwner n { v.owner n with startPend := none }).setOwnerSt n .running
      u.ownerStartNow n cold = w.ownerRun n)) ∧
  (∀ s : State, s.ms.mode = .hold →
    let u := s.advanceMono (s.flt.quietFrom + s.holdQ)
    let exits := u.mono :: s.flt.exits.filter (fun e => decide (u.mono < e + s.holdWin))
    let v := u.setFlt { u.flt with exits := exits }
    (exits.length ≤ s.cfg.mode.holdalw → exec .holdQuietExpiry s = done s (v.bump Reg.FLT_RECOVCNT 1).holdReturn) ∧
    (s.cfg.mode.holdalw < exits.length → exec .holdQuietExpiry s =
      let w := v.deviceStop 0
      done s ((((w.setMs { w.ms with heldFrom := none }).setBit Reg.MGT_MODE 16 true).setBit Reg.FLT_STAT 19 true).raise 1409))) ∧
  (∀ s : State, s.ms.heldFrom ∈ [some .run, some .shadow, some .test] → s.partnerActive = false →
    let to_ := s.ms.heldFrom.getD .run
    s.holdReturn = (let t := s.enterMode to_ 0; (t.setMs { t.ms with heldFrom := none }).resumeAll)) ∧
  (∀ (s : State) (n : Nat), (s.owner n).st = .held → (s.owner n).startPend = none →
    let q := s.cfg.mode.oquiet.get (0, 0) n
    let u := s.advanceMono (s.flt.oquietFrom.get 0 n + msec (if q.1 = 0 then 1000 else q.1))
    let exits := u.mono :: (s.flt.oexits.get [] n).filter (fun e => decide (u.mono < e + s.holdWin))
    let v := (u.setFlt { u.flt with oexits := u.flt.oexits.insert n exits, oquietFrom := u.flt.oquietFrom.erase n }).bump (Reg.FLT_ORECOV n) 1
    exec (.ownerQuietExpiry n) s = done s (if exits.length ≤ q.2 then (if v.startable n = true then
      v.setOwner n { v.owner n with startPend := some false, startFrom := v.now } else v) else (v.ownerStop n).raise (1424 + n))) ∧
  (∀ (s : State) (t : Nat), s.red.startAt = some t → s.ms.startPend.isSome = true → s.ms.paired = false →
    exec .startwaitExpiry s = done s ((s.advanceMono t).setRed { s.red with startAt := none }))

/-- With the input in range, the module seated, the bus at 44 V or more and the bank at 47 V or more, supply valid in Backup records the cause of Lean,
enters Lean and runs Table 2.3; a restart through Lean runs it at once. A domain out of limits or a failed store self-test leaves leanFailed set in
Lean; the retry 10 s later runs it once more. With the strap asserted Lean ends in Recovery; with a slot verified it passes Recall into Configure;
Configure then ends in Stop if the planes load. The station input's window and hysteresis follow Table 22.1. -/
def Obligations.SupplyEntersLean : Prop :=
  (∀ (s : State) (p : PowerUp), s.pw.inputOk = true → s.pw.seated = true → 44000 ≤ p.busMv → 47000 ≤ p.bankMv →
    let u := s.advanceMono p.at_
    (s.ms.mode = .lean → s.ms.begun = false → s.ms.cause ≠ 0 → exec (.supplyValid p) s = done s ((u.supplySeen p).leanRun p)) ∧
    (s.ms.mode = .backup →
      let v := u.calFound p.cal
      let w := ((v.setMs { v.ms with mode := .backup }).almPowerUp p.almBad).enterMode .lean v.leanCause
      exec (.supplyValid p) s = done s (((w.setMs { w.ms with cause := v.leanCause, drainCause := 0 }).supplySeen p).leanRun p))) ∧
  (∀ (s : State) (p : PowerUp), s.ms.mode = .lean → s.ms.leanFailed = true → s.ms.leanRetried = false →
    let u := s.advanceMono (s.ms.leanAt + 10 * secU)
    exec (.leanRetry p) s = done s ((u.setMs { u.ms with leanFailed := false, leanRetried := true }).leanRun p)) ∧
  (∀ (s : State) (p : PowerUp), p.storeOk = false → (s.leanRun p).ms.leanFailed = true ∧ (s.leanRun p).ms.mode = s.ms.mode) ∧
  (∀ s : State, s.ms.mode = .configure → let u := s.leanStep 1950
    (u.slotPlane u.store.cur = none → exec .configureComplete s = done s u.configured) ∧
    (∀ b, u.slotPlane u.store.cur = some b → u.ms.slotPrev = true → (u.slotFailed u.store.cur b).ms = u.ms → exec .configureComplete s =
      done s ((u.slotFailed u.store.cur b).enterRecovery (if b.code = 0x41 then .planeLoadBent else .planeLoad)))) ∧
  (∀ s : State, exec .moduleSeated s = done s { s with pw := { s.pw with seated := true } }) ∧
  (∀ (s : State) (v : Nat), let lo := if s.pw.variantL then 320 else 800
    let hi := if s.pw.variantL then 820 else 3200
    let hy := if s.pw.variantL then 15 else 30
    (s.pw.inputOk = true → (v < lo ∨ hi < v) → exec (.stationInputOutOfRange v) s =
      done s { s with pw := { s.pw with inputV := v, inputOk := false, outSince := some s.mono } }) ∧
    (s.pw.inputOk = false → lo + hy ≤ v → v + hy ≤ hi → exec (.stationInputInRange v) s =
      done s { s with pw := { s.pw with inputV := v, inputOk := true, outSince := none } })) ∧
  (∀ s : State, s.ms.mode = .recovery → s.ms.recov = some .strap → (s.slotCheck s.store.recCur = none ∨ s.slotCheck (1 - s.store.recCur) = none) →
    let u := ({ s with pw := { s.pw with strap := false } } : State).setBit Reg.MGT_STAT 3 false
    exec .strapRelease s = done s (((u.lorEndAll (fun _ _ => true)).almEvent 0x0111 15 0xFF 1).restartLean 6 true))

/-- The warning comes 10 ms after the input left its window, or when the bus falls below 44 V, or when the seated contacts break: in Lean, Recall and
Recovery the module is in Backup with nothing saved; in Drain and Backup nothing happens; from every other mode Drain is entered with cause 1. A
removal request held 100 ms drains with cause 2, after a hand-over where an active member in Run has a good standby; one held 3 s after a Drain with
the supply present restarts through Lean. A missing confirmation 150 ms after the press drains anyway. A complete Drain ends in Backup without supply,
else stays with the safe LED lit, but for a supply that has returned. -/
def Obligations.SupplyLossDrains : Prop :=
  (∀ s : State, let out := s.powerWarning
    (s.ms.mode ∈ [.lean, .recall, .recovery] → out = s.powerOff) ∧ (s.ms.mode ∈ [.drain, .backup] → out = s) ∧
    (s.ms.mode ∉ [.lean, .recall, .recovery, .drain, .backup] → out = (s.xferFail 7).enterDrain 1)) ∧
  (∀ s : State, s.powerOff.ms.mode = .backup ∧ s.powerOff.ms.prev = s.ms.mode ∧ s.powerOff.pending = s.pending ∧ s.powerOff.engines = [] ∧
    s.powerOff.tasks = [] ∧ s.powerOff.sto.ack.retain = s.sto.flash.retain) ∧
  (∀ (s : State) (t mv : Nat), s.pw.outSince = some t → exec (.powerFailWarning 0 mv) s = done s (s.advanceMono (t + msec 10)).powerWarning) ∧
  (∀ (s : State) (c mv : Nat), c ≠ 0 → mv < 44000 → exec (.powerFailWarning c mv) s =
    done s ({ s with pw := { s.pw with busMv := mv } } : State).powerWarning) ∧
  (∀ s : State, ¬(s.ms.mode = .drain ∧ s.ms.drainOver = true) → exec .seatedLoopBreak s =
    done s ({ s with pw := { s.pw with seated := false } } : State).powerWarning) ∧
  (∀ s : State, s.ms.mode ∈ [.lean, .recall, .recovery] ∨ (s.ms.mode = .drain ∧ s.ms.drainOver = true) → exec .supplyLossNoDrain s =
    done s ({ s with pw := { s.pw with inputOk := false, busMv := 0, bankMv := 0 } } : State).powerOff) ∧
  (∀ (s : State) (ok : Bool), s.ms.mode = .drain → s.ms.drainOver = false →
    let u := forEach ([64, 65, 69, 70, 71, 72, 79] : List Nat) (fun s d => s.setBit (Reg.MGT_PDSTAT d) 0 false) (s.drainSave ok)
    (s.pw.inputOk = false → exec (.drainComplete ok) s = done s u.powerOff) ∧
    (s.pw.inputOk = true → exec (.drainComplete ok) s =
      done s (u.setMs { u.ms with drainOver := true, safeLed := u.ms.drainCause != 1 }))) ∧
  (∀ (s : State) (held : Nat), 100 ≤ held →
    (s.ms.mode = .configure → exec (.removalRequest held) s = done s (s.enterDrain 2)) ∧
    (s.ms.mode ∈ [.lean, .recall, .recovery] → exec (.removalRequest held) s = done s (s.setMs { s.ms with safeLed := true })) ∧
    (s.ms.mode = .drain → s.ms.drainOver = true → 3000 ≤ held → s.pw.inputOk = true → exec (.removalRequest held) s = done s (s.restartLean 5 false)) ∧
    (s.ms.mode ∈ [.stop, .run, .shadow, .test, .hold, .handover] → (s.ms.active = false ∨ s.partnerGood = false) →
      exec (.removalRequest held) s = done s ((s.xferFail 7).enterDrain 2)) ∧
    (s.ms.mode = .run → s.ms.active = true → s.partnerGood = true → s.red.sw = 0 → exec (.removalRequest held) s =
      done s (((s.setMs { s.ms with removeWait := true, removeAt := s.mono }).setRed { s.red with removal := true }).switchRequest 5 0))) ∧
  (∀ s : State, s.red.removal = true → s.ms.mode ≠ .drain → let u := s.advanceMono (s.ms.removeAt + msec 150)
    exec .removalConfirmTimeout s = done s ((u.setMs { u.ms with noConfirm := true }).enterDrain (if s.ms.removeWait then 2 else 3)))

/-- After a commit the planes stream within 2 s and the search for a quiet point begins (STATE 2); a hash failure, or no quiet point within 10 s of L,
fails the update with code 7 or 2. A swap at a quiet point makes the loaded planes current and opens the confirm window of UCONFWIN seconds (600 for
0), with STATE 3 and the record 0x0100. At its end unconfirmed a rollback begins with code 4 and F1927; ROLLBACK_SWAP swaps back at a quiet point, or
after 10 s asks for a forced one (FORCED). A scantling load or an owner's splice load with no chunk for 10 s is abandoned. -/
def Obligations.UpdatesSwapConfirmAndRollBack : Prop :=
  (∀ s : State, s.mgt.upd.state = 1 → s.curSlot.bad = 0 →
    ∃ d ≤ 2 * secU, let u := ({ s with free := s.free + 1 } : State).advanceMono (s.mgt.upd.lAt + d)
      let v := u.setStore { u.store with idle := some u.curSlot.scn }
      exec .planeStreamDone s = done s ((v.setMgt { v.mgt with upd := { v.mgt.upd with lAt := v.mono } }).setUpdState 2)) ∧
  (∀ s : State, (s.mgt.upd.state = 1 → exec .updateFail s = done s (s.updFail 7)) ∧
    (s.mgt.upd.state = 2 → exec .updateFail s = done s ((s.advanceMono (s.mgt.upd.lAt + 10 * secU)).updFail 2))) ∧
  (∀ (s : State) (x : Scn), s.store.idle = some x → s.mgt.upd.state = 2 → s.swapMode = true → s.quiet = true → s.mono ≤ s.mgt.upd.lAt + 10 * secU →
    let u := s.swapNow (fun t => ((t.swapTo x t.curSlot s.mgt.upd.inStop).nvsPark (1 - s.store.cur) x.hdr.setfmt).nvsDropPw)
    let v := u.setStore { u.store with idle := none, prevPlane := some s.cfg }
    let w := (v.setMgt { v.mgt with upd := { v.mgt.upd with winEnd := s.mono + (if x.mode.uconfwin = 0 then 600 else x.mode.uconfwin) * secU } }).setUpdState 3
    exec .planeSwap s = done s (w.almEvent 0x0100 15 w.store.cur x.hdr.buildid)) ∧
  (∀ s : State, (s.swapMode = true ↔ s.ms.mode ∈ [.stop, .run, .shadow, .test])) ∧
  (∀ s : State, s.mgt.upd.state = 3 → exec .updateWindowExpiry s = done s (((s.advanceMono s.mgt.upd.winEnd).rollbackBegin 4).raise 1927)) ∧
  (∀ s : State, s.mgt.upd.state = 4 → s.mgt.upd.forced = false →
    (s.quiet = true → s.swapMode = true → s.mono ≤ s.mgt.upd.rbFrom + 10 * secU →
      exec (.rollbackSwap false) s = done s (s.rollbackNow s.mgt.upd.rbCode)) ∧
    (let u := s.advanceMono (s.mgt.upd.rbFrom + 10 * secU);
      exec (.rollbackSwap true) s = done s ((u.setMgt { u.mgt with upd := { u.mgt.upd with forced := true } }).setBit Reg.MGT_UPDSTAT 17 true))) ∧
  (∀ (s : State) (n : Nat) (l : Load), 8 ≤ n → s.store.load = some l → l.verified = false →
    let u := s.advanceMono (l.lastAt + 10 * secU)
    exec (.loadTimeout n) s = done s (u.setStore { u.store with load := none })) ∧
  ∀ (s : State) (n : Nat), n < 8 → exec (.loadTimeout n) s = done s (s.splLoadTimeout n)

/-- The next boundary instant is reached and every task whose boundary it is is judged at it: no release (counted in SEQ_TNOREL) if its owner is not
releasable or drains, releases are held, or a forced rollback targets it; an overrun if its previous release has not ended or its pool is under
self-test; else a release with that read epoch. Its next boundary follows and its owners dispatch. The earliest event instant does the same for event
tasks, where a latched release coalesces and one before the separation is latched; a latched release falls due. A release is counted, its epoch
recorded, and its context is the task's entry with empty stacks. An overrun counts and fires F0128 + n beyond the allowance. When station time reaches
the latest epoch again the hold ends. -/
def Obligations.ReleasesAreJudged : Prop :=
  (∀ (s : State) (t : Nat), leastOf (s.tasks.filterMap (fun p => p.2.nextB)) = some t →
    let ks := (s.tasks.filter (fun p => p.2.nextB == some t)).map (·.1)
    exec .cyclicRelease s = done s ((forEach ks (fun s k =>
      let u := s.boundary k t
      u.setTask k { u.task k with nextB := some (u.nextBoundary k t) }) (s.advance t)).dispatchFor ks)) ∧
  (∀ (s : State) (t : Nat), leastOf (s.tasks.flatMap (fun p => p.2.events)) = some t →
    let ks := (s.tasks.filter (fun p => p.2.events.contains t)).map (·.1)
    exec .eventRelease s = done s ((forEach ks (fun s k => forEach ((s.task k).events.filter (fun u => u == t)) (fun s _ => s.eventAt k t)
      (s.setTask k { s.task k with events := (s.task k).events.filter (fun u => u != t) })) (s.advance t)).dispatchFor ks)) ∧
  (∀ (s : State) (t : Nat), leastOf (s.tasks.filterMap (fun p => if p.2.pendJudged then none else p.2.pend)) = some t →
    let ks := (s.tasks.filter (fun p => p.2.pend == some t && !p.2.pendJudged)).map (·.1)
    exec .pendingRelease s = done s ((forEach ks (fun s k => s.pendDue k) (s.advance t)).dispatchFor ks)) ∧
  (∀ s : State, s.relHold = true →
    let u := ({ s.advance s.epochMax with relHold := false } : State).setBit Reg.SEQ_STAT 1 false
    let ks := (s.tasks.filter (fun p => p.2.pend.isSome)).map (·.1)
    exec .releaseHoldEnd s = done s ((forEach ks (fun s k =>
      let due := max s.now (if (s.task k).everRel then (s.task k).relAt + s.sepOf k else 0)
      let v := s.setTask k { s.task k with pend := some due }
      if due ≤ v.now then v.pendDue k else v) u).dispatchFor ks)) ∧
  (∀ (s : State) (k t : Nat), let c := s.taskCfg k
    let x := s.task k
    let none_ : Prop := s.releasable c.owner = false ∨ (s.owner c.owner).draining = true ∨ s.splForced k = true
    let blocked : Prop := x.st ≠ .idle ∨ s.poolTested c.owner = true
    let due := if x.everRel then max t (x.relAt + us c.period) else t
    (none_ ∨ s.relHeld = true → s.boundary k t = s.bump (Reg.SEQ_TNOREL k) 1) ∧
    (¬none_ → s.relHeld = false → blocked → s.boundary k t = s.overrun k) ∧
    (¬none_ → s.relHeld = false → ¬blocked → s.boundary k t = s.release k t) ∧
    (none_ → s.eventAt k t = s.bump (Reg.SEQ_TNOREL k) 1) ∧
    (¬none_ → x.pend ≠ none → s.eventAt k t = s.bump (Reg.SEQ_TCOALESCE k) 1) ∧
    (¬none_ → x.pend = none → (s.relHeld = true ∨ t < due) → s.eventAt k t = s.setTask k { x with pend := some due }) ∧
    (¬none_ → x.pend = none → s.relHeld = false → due ≤ t → blocked →
      s.eventAt k t = (s.setTask k { x with pend := some due, pendJudged := true }).overrun k) ∧
    (¬none_ → x.pend = none → s.relHeld = false → due ≤ t → ¬blocked → s.eventAt k t = s.release k t)) ∧
  ∀ (s : State) (k t : Nat), let r := s.release k t
    (r.task k).st = .ready ∧ (r.task k).relAt = t ∧ (r.task k).ctx.pc = 9 * (s.taskCfg k).entry ∧ (r.task k).ctx.stack = [] ∧
    (r.task k).ctx.rstack = [] ∧ (r.task k).staged = [] ∧ (r.task k).consec = 0 ∧ (∀ j, j ≠ k → r.task j = s.task j) ∧ r.epochMax = max s.epochMax t ∧
    (let o := s.overrun k; (o.task k).consec = (s.task k).consec + 1 ∧
      o.raised = if (s.taskCfg k).allow < (s.task k).consec + 1 then
        s.raised ++ [{ src := 128 + (s.taskCfg k).owner, at_ := s.now, task := k, det1 := (s.task k).consec + 1 }] else s.raised)

/-- A preemption at an instruction boundary outside a delay slot drains the store buffer, saves the context, counts and starts the promised task. A
release over its budget, and one not ended at its release instant plus its deadline, is flagged and counted once and fires F0136 + n or F0144 + n. A
detected mutual wait counts, sets MWNEW and fires F0152 + n with one of the waiting tasks; unless the owner has BREAK off, every wait ends with status
2. A wait whose event occurred ends with its status, one whose deadline passes with 1 (0 for a deadline wait): the status replaces deadline and
descriptor on the stack and the task is ready. -/
def Obligations.ReleaseFaultsAndWaits : Prop :=
  (∀ (s u : State) (e k j : Nat), (s.eng e).task = some k → (s.eng e).preempt = some j → (s.eng e).running = true → (s.eng e).stall = .none →
    (s.eng e).ctx.flow = none → s.drain e = (none, u) →
    let v := (u.bump (Reg.SEQ_TPREEMPT k) 1).saveCtx e k .preempted
    exec (.preemption e) s = done s ((v.startOn e j).dispatch (v.taskCfg j).owner)) ∧
  (∀ (s : State) (k : Nat), (s.task k).st ≠ .idle → (s.taskCfg k).budget ≠ 0 → (s.taskCfg k).budget < (s.task k).hs → (s.task k).budFired = false →
    exec (.budgetExceeded k) s = done s ((((s.setTask k { s.task k with budFired := true }).bump (Reg.SEQ_TBUDCNT k) 1).setBit (Reg.SEQ_TFLAG k) 1
      true).raise (136 + (s.taskCfg k).owner) k)) ∧
  (∀ (s : State) (k : Nat), (s.task k).st ≠ .idle → (s.task k).dlFired = false →
    let u := s.advance ((s.task k).relAt + us (s.taskCfg k).deadline)
    exec (.deadlineMiss k) s = done s ((((u.setTask k { s.task k with dlFired := true }).bump (Reg.SEQ_TDLCNT k) 1).setBit (Reg.SEQ_TFLAG k) 2
      true).raise (144 + (s.taskCfg k).owner) k)) ∧
  (∀ (s : State) (n : Nat), s.mutualWait n = true →
    let ws := (s.tasksOf n).filter (fun k => (s.task k).st == .waiting)
    ∃ k ∈ ws, let u := ((({ s with free := s.free + 1 } : State).bump (Reg.SEQ_OMWCNT n) 1).setBit (Reg.SEQ_OSTAT n) 31 true).raise (152 + n) k
      exec (.mutualWaitDetected n) s = done s (if n ∈ s.cfg.nobreak then u
        else (forEach ws (fun s k => (s.setBit (Reg.SEQ_TFLAG k) 3 true).finishWait k 2) u).dispatch n)) ∧
  (∀ (s : State) (k v : Nat), (s.task k).st = .waiting → (s.task k).wstat = some v →
    exec (.waitEvent k) s = done s ((s.finishWait k v).dispatch (s.taskCfg k).owner)) ∧
  (∀ (s : State) (k : Nat) (w : WaitDesc), (s.task k).st = .waiting → (s.task k).wstat = none → (s.task k).wait = some w → (w.kind = 2 ∨ w.tmo = true) →
    let u := s.advance (s.deadlineInstant w.deadline)
    exec (.waitDeadline k) s = done s ((u.finishWait k (if w.kind = 2 then 0 else 1)).dispatch (s.taskCfg k).owner)) ∧
  ∀ (s : State) (k v : Nat), v < 3 → let t := (s.finishWait k v).task k
    t.st = .ready ∧ t.wait = none ∧ t.ctx.stack = BitVec.ofNat 256 v :: (s.task k).ctx.stack.drop 2 ∧ t.ctx.pc = (s.task k).ctx.pc ∧
    ∀ j, j ≠ k → (s.finishWait k v).task j = s.task j

/-- A waking bent is awake within 10 µs with its promised tasks started; an idle bent that is neither keep-warm nor promised is gated off once its hold
time has passed: its registers take their reset values and its engines their reset state. A self-test write by O0 in Test on a usable bent asks for a
test in all four engines; a test ends within 200 µs with 4 (pass) or 8 (fail) in ENG_STEST, a failed bent unusable. A pace report is shown by the four
engines and fires F(m) above 2500 ps. The oldest store-buffer line leaves and is written; a refused one takes its store's exception. A lost
reservation is gone. The management engine's program is released at the next boundary, or counts an overrun. -/
def Obligations.BentsWakeGateAndTest : Prop :=
  (∀ (s : State) (m : Nat), (s.bent m).waking = true → (s.bent m).awake = false → (s.bent m).unusable = false → (s.bentCfg m).assigned = true →
    ∃ d ≤ us 10, let u := ({ s with free := s.free + 1 } : State).advance (s.now + d)
      let v := (u.setBent m { s.bent m with awake := true, waking := false, idleSince := u.now }).bump (Reg.MGT_PDONCNT m) 1
      let w := forEach (bentEngines m) (fun s e => match (s.eng e).task with | some k => s.startOn e k | none => s) v
      exec (.bentWakeComplete m) s = done s (w.dispatch (w.bentCfg m).owner)) ∧
  (∀ (s : State) (m : Nat), m < 64 → (s.bentCfg m).assigned = true → (s.bentCfg m).keepWarm = false → (s.bent m).awake = true → (s.bent m).testReq = false →
    s.busyEngines m = 0 → let u := s.advance ((s.bent m).idleSince + us (s.bentCfg m).idleUs)
    exec (.bentGateOff m) s = done s (u.gateBent m) ∧ ((u.gateBent m).bent m).awake = false ∧
    (∀ e ∈ bentEngines m, (u.gateBent m).eng e = {}) ∧
    ∀ a, (0x2000000 + 4 * m * 0x1000 ≤ a → a < 0x2000000 + (4 * m + 4) * 0x1000 → (u.gateBent m).rd a = regReset a) ∧
      ((a < 0x2000000 + 4 * m * 0x1000 ∨ 0x2000000 + (4 * m + 4) * 0x1000 ≤ a) → (u.gateBent m).rd a = s.rd a)) ∧
  (∀ (s : State) (r : Req) (e i : Nat), s.writes r (Reg.ENG_STEST e) (Reg.ENG_STEST 0) i → s.reqOwner r = 0 → s.ms.mode = .test →
    (s.bent (i / 4)).unusable = false → exec (.bentSelfTest r e) s = done s (forEach (bentEngines (i / 4)) (fun s e => s.setBit (Reg.ENG_STEST e) 1 true)
      (s.setBent (i / 4) { s.bent (i / 4) with testReq := true }))) ∧
  (∀ (s : State) (m : Nat) (pass : Bool), (s.bent m).testReq = true → s.busyEngines m = 0 →
    ∃ d ≤ us 200, let u := ({ s with free := s.free + 1 } : State).advance (s.now + d)
      let v := u.setBent m { s.bent m with testReq := false, idleSince := u.now }
      let w := forEach (bentEngines m) (fun s e => s.wr (Reg.ENG_STEST e) (if pass then 4 else 8)) (if pass then v else v.bentFailed m)
      let n := (w.bentCfg m).owner
      exec (.selfTestDone m pass) s = done s (if (w.bentCfg m).assigned then (forEach (w.tasksOf n) (fun s k => s.pendAfter k) w).dispatch n else w)) ∧
  (∀ (s : State) (m ps : Nat), (s.bent m).awake = true → let v := ps % 4096
    let u := forEach (bentEngines m) (fun s e => (s.wr (Reg.ENG_PACE e) v).maxReg (Reg.ENG_PACEMAX e) v) s
    exec (.paceReport m ps) s = done s (if 2500 < v then u.raise m else u) ∧ ∀ e ∈ bentEngines m, u.rd (Reg.ENG_PACE e) = v) ∧
  (∀ (s u : State) (e : Nat), (s.lineOut e = (none, u) → exec (.storeLineWrite e) s = done s u) ∧
    (∀ l, s.lineOut e = (some l, u) → exec (.storeLineWrite e) s = done s (u.takeExc e 1 (excOlder l)))) ∧
  (∀ (s : State) (e : Nat), exec (.reservationExpiry e) s = done s (s.setEng e { s.eng e with resv := none })) ∧
  ∀ (s : State) (p : Mgtp), s.cfg.mgtp = some p → s.mgt.engInstalled = true → s.ms.mode ∈ [.stop, .run, .shadow, .test, .hold] →
    let per := us (max 1 p.period)
    let t := if s.now % per = 0 ∧ s.mgt.engLast ≠ s.now then s.now else nextMultiple per s.now
    let u := (s.advance t).setMgt { s.mgt with engLast := t }
    (s.mgt.engRunning = true → exec .mgtEngineRelease s = done s (u.bump Reg.MGT_ENGOVR 1)) ∧
    (s.mgt.engRunning = false → exec .mgtEngineRelease s = done s ((({ u with mgt := { u.mgt with engRunning := true, engAt := t, engHs := 0 } } : State).setEng
      256 { running := true, ctx := { pc := linear 1 0 } }).setBit Reg.MGT_ENGSTAT 1 true))

/-- The first commit of an owner leaves the queue after an open time of at least 47.5 + 2.5 N ns and at most 800 k ns more (R171) after its END or the
commit before it, and its rows are installed at one instant later than the owner's last commit; what no release reads retires, a pending release due
is made, and the owner dispatches. Installing masked bits over the current version gives a version whose stamp is never earlier than the current
one's; where neither contents nor stamp change nothing is installed. A store that waits for a pool row stages its bits once there is one, its wait in
its cost; past the stall limit it is flagged and F0256 + n fires once. SYS row 0 follows the state at once, row 1 at most once per 100 µs. -/
def Obligations.CommitsAndPoolStalls : Prop :=
  (∀ (s : State) (n : Nat) (c : Commit) (pre post : List Commit), s.img.commits = pre ++ c :: post → c.owner = n → (∀ d ∈ pre, d.owner ≠ n) →
    let k := (c.rows.map (fun r => (c.rows.filter (fun q => q.1 % 256 == r.1 % 256)).length)).foldl max 0
    let first := max c.endAt (s.img.lastCommit.get 0 n) + 3112960 + 163840 * c.rows.length
    ∃ d ≤ 52428800 * k, let at_ : State := ({ s with free := s.free + 1 } : State).advance (first + d)
      let u := ({ at_ with img := { at_.img with commits := pre ++ post } } : State).commitRows n 0 c.task c.epoch c.task c.rows
      exec (.commit n) s = done s ((((u.retire n).poolRegs n).pendAfter c.task).dispatch n)) ∧
  (∀ (s : State) (n kind num epoch task : Nat) (rows : SMap (Row × Row)),
    s.img.lastCommit.get 0 n < (s.commitRows n kind num epoch task rows).img.lastCommit.get 0 n) ∧
  (∀ (s : State) (n space row stamp writer : Nat) (val mask : Row) (staged : Bool), (s.img.forces.get (0, 0) row).2 = 0 →
    let h := (s.rowHist row).cur
    let new := mergeRow h.bits val mask
    let t := (s.install n space row val mask stamp writer staged).2
    (new = h.bits → stamp ≤ h.stamp → t = s) ∧
    ((s.rowFlags n space (row - (s.range n space).base)).1 = false → (s.cfg.trigs.get [] n) = [] → (new ≠ h.bits ∨ h.stamp < stamp) →
      (t.rowHist row).cur = { bits := new, stamp := max stamp h.stamp, inst := s.now, writer := writer } ∧
      (∀ j, j ≠ row → t.rowHist j = s.rowHist j) ∧ (s.install n space row val mask stamp writer staged).1 = h.bits ^^^ new)) ∧
  (∀ (s : State) (e k row cost : Nat) (val mask : Row) (stack : List Row) (b : Bool), (s.eng e).stall = .pool row val mask stack cost b →
    (s.eng e).task = some k →
    (s.poolFull k row = false → exec (.stagedStoreResume e) s = done s (((s.setEng e { s.eng e with stall := .none }).stageBits k row val mask).complete e
      { word := 0, nin := (s.eng e).ctx.stack.length } { outs := stack, base := cost } ((s.now - (s.eng e).since) * 1000 / 65536))) ∧
    (b = false → let n := (s.taskCfg k).owner
      let u := s.advance ((s.eng e).since + us (s.imgf n).stallUs)
      exec (.poolStallLimit e) s = done s (((u.setEng e { s.eng e with stall := .pool row val mask stack cost true }).setBit (Reg.IMG_OSTAT n) 12
        true).raise (256 + n) k))) ∧
  ∀ (s : State) (n : Nat), exec (.sysRowUpdate n 0) s = done s (s.sysWrite n 0 (s.sysRow0 n)) ∧
    (2 ≤ (s.range n 3).len → let u := s.advance ((s.rowHist ((s.range n 3).base + 1)).cur.inst + us 100)
      exec (.sysRowUpdate n 1) s = done s (u.sysWrite n 1 (u.sysRow1 n)))

/-- A CTL write of 1 begins enabling a defined ring whose owner has started and that is disabled; its end zeroes the region, clears the indices and opens
the ring. A write of 0 begins draining an enabled ring; its end discards and counts the entries present. A hardware entry of an open, not full ring is
written at PIDX, which advances, is counted, and raises the doorbell as its mode says; one that finds it full or not open is dropped and counted. A
hardware consumer of kind NET or CAN takes the entry at CIDX. -/
def Obligations.RingsEnableDisableAndCarry : Prop :=
  (∀ (s : State) (r : Req) (q : Nat), s.writes r (Reg.RING_CTL q) (Reg.RING_CTL 0) q →
    (s.ringStarted q = true → (s.ringCfg q).defined = true → s.ringDraining q = false → s.ringEnabling q = false → s.ringEnabled q = false →
      exec (.ringEnable r q) s = done s ((s.setBit (Reg.RING_STAT q) 2 true).setBit (Reg.RING_CTL q) 0 true)) ∧
    (s.ringDraining q = false → s.ringEnabling q = false → s.ringEnabled q = true →
      exec (.ringDisable r q) s = done s ((s.setBit (Reg.RING_STAT q) 1 true).setBit (Reg.RING_CTL q) 0 false)) ∧
    (s.ringDraining q = false → s.ringEnabling q = true → exec (.ringDisable r q) s = done s (s.setBit (Reg.RING_CTL q) 0 false))) ∧
  (∀ (s : State) (q n : Nat), s.ringOwner q = some n → s.ringEnabling q = true →
    let u := ((s.ringZero n (s.ringCfg q)).ringSet q 0 0).setBit (Reg.RING_STAT q) 2 false
    exec (.ringEnableDone q) s = done s (if u.fld (Reg.RING_CTL q) 0 1 = 1 then (u.setBit (Reg.RING_STAT q) 0 true).ringWake q
      else u.setBit (Reg.RING_STAT q) 0 false)) ∧
  (∀ (s : State) (q : Nat), s.ringDraining q = true →
    let u := (s.bump (Reg.RING_DISCARD q) (s.ringCount q))
    let t := ((u.ringSet q (u.ringP q) (u.ringP q)).setBit (Reg.RING_STAT q) 1 false).setBit (Reg.RING_STAT q) 0 false
    exec (.ringDisableDone q) s = done s t) ∧
  (∀ (s v : State) (q n : Nat) (bytes : List Byte), (s.ringCfg q).defined = true → (s.ringCfg q).prod ≠ 0 → s.ringOwner q = some n →
    (s.isStandby = true → (s.ringCfg q).prod ∉ [2, 3, 4]) →
    let entry := (bytes ++ List.replicate (ringEsize (s.ringCfg q)) 0).take (ringEsize (s.ringCfg q))
    (s.ringOpen q = false ∨ s.ringFull q = true → exec (.hwRingEntry q bytes) s = done s (s.ringDrop q)) ∧
    (s.ringOpen q = true → s.ringFull q = false → s.hwWrite n (s.ringSlot q (s.ringP q)) entry = (true, v) →
      (v.ringAdvance q).forwards = false → exec (.hwRingEntry q bytes) s = done s (v.ringAdvance q)) ∧
    (s.ringOpen q = true → s.ringFull q = false → s.hwWrite n (s.ringSlot q (s.ringP q)) entry = (false, v) →
      exec (.hwRingEntry q bytes) s = done s ((v.ringDrop q).setBit (Reg.RING_STAT q) 9 true))) ∧
  (∀ (s : State) (q : Nat), (s.ringConsume q).ringC q = (s.ringC q + 1) % 2 ^ 32 ∧ (s.ringConsume q).ringP q = s.ringP q % 2 ^ 32) ∧
  (∀ (s : State) (q k : Nat) (c : EpRec), (s.ringCfg q).cons = 2 → s.cfg.eps.search (fun _ c => c.tx == some q) = some (k, c) →
    exec (.hwRingTake q) s = done s (s.udpTake (k / 16) (k % 16))) ∧
  ∀ (s : State) (q : Nat), (s.ringCfg q).cons = 3 → exec (.hwRingTake q) s = done s (forEach ((s.cfg.can.map (·.1)).filter
    (fun k => bit (s.rd (Reg.CAN_RING k)) 28 && bits (s.rd (Reg.CAN_RING k)) 16 12 == q)) (fun s k => s.canTake k) s)

/-- At the instant of the cycle tried, an armed splice counts the cycle and, where the cycle is usable, applies: target values and sizes take effect, the
copies run, the state is applied; else it waits for the next. Ten seconds without a usable cycle refuse it with code 0x20 and leave it loaded. At the
window's end a rollback is sought with cause 2; at a usable instant it is carried out; ten seconds without one force it: releases of its targets stop
until it is done. A load with no chunk for 10 s is dropped. -/
def Obligations.SplicesApplyConfirmAndRollBack : Prop :=
  (∀ (s : State) (n e a : Nat), s.splSt n = 3 → s.splTarget n = some (e, a) → let u := (s.advance a).splTry n
    exec (.spliceApplyInstant n) s = done s (if u.splUsable n a then (u.splDo n).splReport n e true else u.splReport n e false)) ∧
  (∀ (s : State) (n : Nat), s.splSt n = 3 →
    let u := ((s.advanceMono ((s.splice n).cmdMono + 10 * secU)).splRefuse n 0x20).setSplSt n 2
    exec (.spliceApplyTimeout n) s = done s (u.setSplice n { s.splice n with nomE := none, mine := none, his := none }) ∧
    (u.setSplice n { s.splice n with nomE := none, mine := none, his := none }).splSt n = 2) ∧
  (∀ (s : State) (n : Nat), s.splSt n = 4 →
    let u := s.advanceMono (s.splice n).winEnd
    exec (.spliceWindowExpiry n) s = done s ((u.splSeek n 2).splArm n) ∧ (u.splSeek n 2).splSt n = 5 ∧ ((u.splSeek n 2).splice n).cause = 2) ∧
  (∀ (s : State) (n e a : Nat), s.splSt n = 5 → (s.splice n).forcing = false → s.splTarget n = some (e, a) →
    let u := (s.advance a).splTry n
    let v := (u.splBack n (u.splice n).cause).setSplice n { nomE := (u.splice n).nomE, his := (u.splice n).his }
    let w := v.splReport n e true
    exec (.spliceRollbackInstant n) s = done s (if u.splUsable n a = false then u.splReport n e false
      else if (w.splice n).nomE.isSome = true ∧ w.ms.active = true then w else w.setSplice n {})) ∧
  (∀ (s : State) (n : Nat), s.splSt n = 5 → (s.splice n).forcing = false →
    let u := s.advanceMono ((s.splice n).cmdMono + 10 * secU)
    exec (.spliceForcedRollback n) s = done s (u.setSplice n { s.splice n with forcing := true, nomE := none })) ∧
  (∀ (s : State) (n : Nat), n < 8 → s.splSt n = 1 →
    exec (.loadTimeout n) s = done s ((s.advanceMono ((s.splice n).lastAt + 10 * secU)).splDrop n)) ∧
  (∀ (s : State) (n : Nat), ((s.splDrop n).splice n) = {} ∧ (s.splDrop n).splSt n = 0 ∧
    ∀ m, m ≠ n → (s.splDrop n).splice m = s.splice m) ∧
  ∀ (s : State) (n : Nat), s.splPaired = false → s.splArm n = s

/-- A member that can pair sends a HELLO with a fresh nonce each ms. A received HELLO with another pair identity, an equal base claim or another pair
digest is refused with code 9, 8 or 1; one that passes is kept and answered once with KEYCONF. A KEYCONF whose tag is the one computed forms the pair,
another is refused with code 2; a refusal sets CFGMIS, the code, and fires F1284. A paired member sends a heartbeat at each 50 µs boundary. A pair
message from no partner does nothing; one with a failed tag or an old number is discarded and counted. -/
def Obligations.PairFormsOnItsChecks : Prop :=
  (∀ s : State, s.canPair = true ↔ s.hasRedn = true ∧ s.fld Reg.RED_STAT 0 1 = 1 ∧ s.ms.paired = false ∧ s.pairLinkDown = false ∧
    s.ms.mode ≠ .drain ∧ s.ms.mode ≠ .configure) ∧
  (∀ s : State, s.canPair = true → let u := s.advance (nextMultiple (msec 1) s.now)
    let v := { u with red := { u.red with nonce := Config.trng s.free }, free := s.free + 1 }
    exec .helloSend s = done s (v.emit (.pair 0x01 (helloFields v.myHello)))) ∧
  (∀ (s : State) (h : Hello), s.canPair = true → let pid := s.myHello.pairid
    (h.pairid ≠ pid → exec (.hello h) s = done s (s.pairRefuse 9)) ∧
    (h.pairid = pid → h.base = s.baseClaim → exec (.hello h) s = done s (s.pairRefuse 8)) ∧
    (h.pairid = pid → h.base ≠ s.baseClaim → h.digest ≠ s.cfg.pairDig → exec (.hello h) s = done s (s.pairRefuse 1)) ∧
    (h.pairid = pid → h.base ≠ s.baseClaim → h.digest = s.cfg.pairDig →
      let u := s.setRed { s.red with hello := some h, confSent := true }
      exec (.hello h) s = done s (if s.red.confSent then u else u.emit (.pair 0x02 [u.confTag u.myHello h])))) ∧
  (∀ (s : State) (tag : Nat) (h : Hello), s.canPair = true → s.red.hello = some h →
    (tag = s.confTag h s.myHello → exec (.keyconf tag) s = done s (s.pairForm h)) ∧
    (tag ≠ s.confTag h s.myHello → exec (.keyconf tag) s = done s (s.pairRefuse 2))) ∧
  (∀ (s : State) (h : Hello), (s.ms.active = false ∨ h.role ≠ 1) → (s.pairForm h).ms = { s.ms with paired := true } ∧ (s.pairForm h).red.pMode = h.mode ∧
    (s.pairForm h).red.pRole = h.role ∧ (s.pairForm h).red.rxSeq = []) ∧
  (∀ (s : State) (c : Nat), (s.pairRefuse c).ms = s.ms ∧ (s.pairRefuse c).red.hello = none ∧
    (s.pairRefuse c).raised = s.raised ++ [{ src := 1284, at_ := s.now, det1 := c }]) ∧
  (∀ s : State, s.ms.paired = true → let u := s.advance (nextMultiple (us 50) s.now)
    exec .heartbeatSend s = done s (u.emit (.pair 0x03 [u.ms.mode.code, if u.ms.active then 1 else if u.isStandby then 2 else 0, u.flevel, u.claimNow,
      b2n u.isSuspect, form64 u.epochMax, u.rd Reg.RED_DIGTX]))) ∧
  (∀ (s : State) (h : PairHead) (mode role fl sus ep : Nat) (off : Int), s.ms.paired = true → h.tag = true → s.red.rxSeq.get 0 (pairGroup h) ≤ h.seq →
    let u := s.setRed { s.red with rxSeq := s.red.rxSeq.set 0 (pairGroup h) (h.seq + 1) }
    exec (.heartbeat h mode role fl sus ep off) s = done s (u.heartbeatRx mode role fl sus ep off)) ∧
  ∀ (s : State) (h : PairHead) (c : Instr), (∃ mode role fl sus ep off, c = .heartbeat h mode role fl sus ep off) ∨ (∃ l, c = .digest h l) ∨
      (∃ op ca t, c = .role h op ca t) ∨ (∃ ca, c = .leave h ca) ∨ (∃ ca, c = .stopcmd h ca) ∨ (∃ l, c = .seqmap h l) ∨ (∃ k t, c = .event h k t) ∨
      (∃ l, c = .rows h l) →
    (s.ms.paired = false → exec c s = done s s) ∧
    (s.ms.paired = true → (h.tag = false ∨ h.seq < s.red.rxSeq.get 0 (pairGroup h)) → exec c s = done s (s.bump Reg.RED_LINKERR 1))

/-- Missed heartbeats for HBMISS periods undo the pair and fire F1280; where the lost partner was active, a standby in Shadow that is not suspect takes
over if SP6 showed no claim, else stops suspect. A takeover ends within 100 µs of its detection, a switch-over within T + 210 µs: F1281, the record
0x0020, the counters. At T the active member passes to Shadow and the standby to Run; at T + 200 µs the former active's drivers go off. SWITCH on an
active, paired member in Run asks for one; CLRSUSP in Stop clears the suspect mark. A fourth lost claim in Run stops the member suspect. LEAVE and
ROLE act on the pair as Table 10.3 says. -/
def Obligations.PairRolesChangeHands : Prop :=
  (∀ s : State, s.ms.paired = true →
    let miss := match s.cfg.redn with | some r => if r.hbmiss = 0 then 3 else r.hbmiss | none => 3
    let u := (s.advanceMono (s.red.hbAt + us (50 * miss))).bump Reg.RED_HBLOST miss
    let v := u.xferFail 7
    (¬(s.red.pRole = 1 ∧ u.mayTakeOver = true) → exec .partnerLost s = done s (v.redUnpair.raise 1280)) ∧
    (s.red.pRole = 1 → u.mayTakeOver = true → v.sp6Clear = true → exec .partnerLost s = done s (v.redUnpair.takeover 1)) ∧
    (s.red.pRole = 1 → u.mayTakeOver = true → v.sp6Clear = false → exec .partnerLost s = done s ((v.redUnpair.suspectStop 3).raise 1280))) ∧
  (∀ s : State, s.red.sw = 4 → ∃ d < us 100, let u := { s with free := s.free + 1 }
    exec .takeoverComplete s = done s (u.advance (max s.now (s.red.swT + d))).switchDone) ∧
  (∀ s : State, s.red.sw = 3 → s.ms.active = true → ∃ d < us 10, let u := { s with free := s.free + 1 }
    exec .switchoverComplete s = done s (u.advance (max s.now (s.red.swT + us 200 + d))).switchDone) ∧
  (∀ (s : State) (t : Nat) (r : Redn), s.red.holdSince = some t → s.cfg.redn = some r → s.mayTakeOver = true → s.partnerActive = true →
    let u := s.advanceMono (t + msec r.holdtko)
    exec .holdTakeover s = done s ((u.setRed { u.red with pRole := 0 }).takeover 4)) ∧
  (∀ s : State, s.red.sw = 2 → let u := s.advance s.red.swT
    (s.ms.active = true → s.ms.mode = .run →
      let v := (u.setActive false).setFio { (u.setActive false).fio with keepUntil := some (s.red.swT + us 200) }
      let w := (v.openUntil 2000).2.throughHandover (v.openUntil 2000).1 .shadow (fun s => s)
      exec .switchoverT s = done s (w.setRed { w.red with sw := 3, pRole := 1, pMode := 6, own := [], digs := [], runs := [] }).handoverEnd) ∧
    (s.ms.mode = .shadow →
      let v := u.setActive true
      let w := (v.openUntil 2000).2.throughHandover (v.openUntil 2000).1 .run (fun s => s.becomeActive)
      exec .switchoverT s = done s ((w.setRed { w.red with sw := 3, pRole := 2, pMode := 7, digs := [], runs := [] }).srcInvalid 4).handoverEnd)) ∧
  (∀ (s : State) (t : Nat) (to_ : Mode) (f : State → State), (s.throughHandover t to_ f).ms.mode = to_ ∧ (s.throughHandover t to_ f).ms.prev = .handover) ∧
  (∀ (s : State) (t : Nat), s.fio.keepUntil = some t → let u := s.advance t
    exec .switchoverDriversOff s = done s (u.setFio { u.fio with keepUntil := none }).drivenRegs) ∧
  (∀ (s : State) (r : Req) (i : Nat), s.writes r Reg.RED_CMD Reg.RED_CMD i → s.hasRedn = true →
    (s.ms.paired = true → s.ms.active = true → s.fld Reg.RED_STAT 5 1 = 0 → s.ms.mode = .run → exec (.switch r) s = done s (s.switchRequest 5 (msec 1))) ∧
    (s.ms.paired = false ∨ s.ms.active = false ∨ s.ms.mode ≠ .run ∨ s.fld Reg.RED_STAT 5 1 = 1 → exec (.switch r) s = done s (s.redFlag 22 true)) ∧
    (s.ms.mode = .stop → exec (.clrsusp r) s = done s ((s.setBit Reg.RED_STAT 3 false).setFld Reg.RED_STAT 8 3 0).drivenRegs) ∧
    (s.ms.mode ≠ .stop → exec (.clrsusp r) s = done s s)) ∧
  (∀ (s : State) (r : Redn), s.cfg.redn = some r → r.auto = true → s.ms.active = true → s.ms.paired = true →
    let u := if s.red.lastAuto = 0 then s else s.advanceMono (s.red.lastAuto + 3600 * secU)
    let v := u.setRed { u.red with lastAuto := u.mono }
    exec .autoSwitchover s = done s (if v.partnerGood then (v.switchCmd 5).2 else v)) ∧
  (∀ (s : State) (other : Nat) (bad : Bool), let u := s.claimCycle other bad
    exec (.claimCycle other bad) s = done s (if 4 ≤ u.fio.losses ∧ u.ms.mode = .run then
      (((u.setFio { u.fio with losses := 0 }).redFlag 18 true).suspectStop 4).raise 1287 else u)) ∧
  (∀ (s : State) (k : Nat), k < 4 → exec (.pairLinkDown k) s = done s ((s.linkDown (124 + k)).pairLinkLost k)) ∧
  (∀ (s : State) (k : Nat) (d : DRec), s.cfg.dch.find? k = some d → s.isStandby = true → d.out = false →
    (s.curField (s.dOwner k) 0 d.addr 1 = 1 ↔ bit s.fio.filt k = false) →
    exec (.inputDisagreement k) s = done s (((s.advance (s.now + msec 2)).bump Reg.RED_INCMP 1).raise 1290 0xFFFF k)) ∧
  ∀ (s : State) (h : PairHead), s.ms.paired = true → h.tag = true → s.red.rxSeq.get 0 (pairGroup h) ≤ h.seq →
    let u := s.setRed { s.red with rxSeq := s.red.rxSeq.set 0 (pairGroup h) (h.seq + 1) }
    (∀ op cause t, exec (.role h op cause t) s = done s (u.roleRx op cause t)) ∧
    (∀ cause, s.red.pRole = 1 → exec (.leave h cause) s = done s (u.activeLeft 2 (cause == 4))) ∧
    (∀ cause, s.red.pRole ≠ 1 → exec (.leave h cause) s = done s ((u.xferFail 7).redUnpair.raise 1280)) ∧
    (∀ cause, s.ms.active = false → exec (.stopcmd h cause) s = done s (u.suspectStop cause))

/-- A standby installs forwarded rows with the active's stamps, ring entries at their index, event instants plus the guard, and counter jumps; it takes
package chunks and splice messages. Both members keep the partner's digests while they compare; one unmatched for 2 ms counts missing and mismatched.
A joiner installs transfer items, a kind 6 message counts a pass, a kind 7 message installs the queued rows and sets Q. The active cuts at a 25 µs
window; 25 µs after Q the joiner enters Shadow; a step that exceeds its limit fails the transfer with its code. -/
def Obligations.PairMessagesCarryState : Prop :=
  (∀ (s : State) (h : PairHead), s.ms.paired = true → h.tag = true → s.red.rxSeq.get 0 (pairGroup h) ≤ h.seq →
    let u := s.setRed { s.red with rxSeq := s.red.rxSeq.set 0 (pairGroup h) (h.seq + 1) }
    (∀ l, s.comparing = true → exec (.digest h l) s = done s (u.setRed { u.red with digs := u.red.digs ++ l.map (fun d =>
      { owner := d.1, kind := d.2.1, num := d.2.2.1, epoch := d.2.2.2.1, dig := d.2.2.2.2, at_ := s.mono, mine := false }) })) ∧
    (∀ l, s.isStandby = true → s.ms.mode = .shadow → ∃ lat ≤ 6000, exec (.rows h l) s =
      done s (forEach l (fun s r => s.installFwd r.1 r.2.2.2.1 r.2.2.2.2 r.2.2.1 r.2.1) (({ u with free := s.free + 1 } : State).maxReg Reg.RED_FWDLAT lat))) ∧
    (∀ l, s.isStandby = true → s.ms.mode = .handover → exec (.rows h l) s = done s (u.setRed { u.red with
      rowQ := u.red.rowQ ++ l.map (fun r => (r.1, r.2.2.2.1, r.2.2.2.2, r.2.2.1, r.2.1)) })) ∧
    (∀ q esize pidx bytes, exec (.ringe h q esize pidx bytes) s = done s (u.ringeRx q esize pidx bytes)) ∧
    (∀ k t n, s.canOwner k = some n → s.isStandby = true → exec (.event h k t) s = done s (u.postBound 4 k (t * 65536 + us (s.imgf n).guardUs))) ∧
    (∀ l, exec (.seqmap h l) s = done s (u.seqmapRx l)) ∧
    (∀ op code n e, exec (.splice h op code n e) s = done s (u.spliceRx op code n e)) ∧
    (∀ n off bytes, exec (.pkg h n off bytes) s = done s (u.splPkgRx n off bytes)) ∧
    (∀ kind n count items, exec (.xfer h kind n count items) s = done s (u.xferRx kind n count items))) ∧
  (∀ (s : State) (n off : Nat) (bytes : List Byte), n < 8 → s.isStandby = true →
    (off = 0 → s.splSt n < 2 → s.splPkgRx n off bytes = (s.setSplice n { buf := bytes, session := 8, lastAt := s.mono }).setSplSt n 1) ∧
    (off ≠ 0 → off = (s.splice n).buf.length →
      s.splPkgRx n off bytes = (s.setSplice n { buf := (s.splice n).buf ++ bytes, session := 8, lastAt := s.mono }).setSplSt n 1)) ∧
  (∀ (s : State) (row stamp writer n : Nat) (mask val : Row), s.rowPlace row = some (n, 0) → s.installFwd row mask val stamp writer =
    (((s.healWords row mask).install n 0 row val mask stamp writer false).2).bump64 Reg.RED_FWDCNT 1) ∧
  (∀ (s : State) (d : Dig) (rest : List Dig), s.red.digs.filter (·.mine) = d :: rest → let u := s.advanceMono (d.at_ + msec 2)
    let v := u.setRed { u.red with digs := s.red.digs.filter (fun x => !sameCommit x d && (x.mine || decide (u.mono < x.at_ + msec 2))) }
    exec .digestMissing s = done s (if s.compared d then (v.bump Reg.RED_DIGMISSING 1).mismatch d else v)) ∧
  (∀ s : State, s.ms.active = true → s.ms.mode = .run → s.fld Reg.RED_STAT 4 1 = 1 → s.cutWindow = true → s.ms.paired = true →
    let u := s.emit (.pair 0x12 [7, form64 s.now])
    exec .xferCut s = done s ((u.setRed { u.red with xferQ := some s.now }).setFld Reg.RED_XFER 0 3 4)) ∧
  (∀ (s : State) (q : Nat), s.red.xferQ = some q → s.red.joiner = true → s.ms.mode = .handover → exec .xferShadowEntry s = done s s.xferShadow ∧
    (s.ms.resetDue = false → s.xferShadow.ms.mode = .shadow ∧ s.xferShadow.red.joiner = false ∧ q + us 25 ≤ s.xferShadow.now)) ∧
  ∀ s : State, s.red.joiner = true → let p := s.fld Reg.RED_XFER 0 3
    (p = 1 → let u := s.advanceMono (s.red.xferAt + 10 * secU)
      exec .xferTimeout s = done s (u.xferFail (if s.partnerActive = true ∧ s.red.pMode = 6 then 4 else 3))) ∧
    (p = 2 → exec .xferTimeout s = done s ((s.advanceMono (s.red.xferAt + 60 * secU)).xferFail 6)) ∧
    (p = 3 → exec .xferTimeout s = done s ((s.advanceMono (s.red.xferAt + 10 * secU)).xferFail 5))

/-- A page-in under way takes a prepared frame, installs the page's sectors, resolves the entry and is counted; engines that waited for it re-issue. A
page-out records the page, frees the frame and is counted. An erasure begins for O0 on a Stopped owner, and its end erases the owner's data and draws
new keys. A flush moves the oldest writes, critical share first, from staging to flash; what is acknowledged stays so. A failed package fires F0513,
and F0514 below 2 % spare. Archive capture ends and begins with EN. -/
def Obligations.PagingErasureAndStorage : Prop :=
  (∀ (s : State) (n page t : Nat), (n, page, true) ∈ s.mmu.transit → let u := (s.advance t).pageInDone n page
    exec (.pageInDone n page t) s = done s (if (n, page, true) ∈ u.mmu.transit then u else u.wakeStalled (fun st => st == .page n page))) ∧
  (∀ (s u v : State) (n page key e : Nat) (bp : BackPage), (n, page, false) ∈ s.mmu.transit → walk s.mmu n (page * 65536) = .page key e →
    s.recordPage n (frameNo (eFrame e)) page = (bp, u) → u.stage 1 65536 (.back n page bp) = v →
    let w := ({ v with mmu := { v.mmu with transit := v.mmu.transit.filter (fun t => !(t == (n, page, false))) } } : State).setEntry key
      (mkPage 2 false false false (eWp e) (eSpace e) true 0)
    let x := w.freeFrame (frameNo (eFrame e))
    exec (.pageOutDone n page) s = done s ((x.wr (Reg.MMU_RESIDENT n) (x.resident n - 1)).bump64 (Reg.MMU_PAGEOUT n) 1)) ∧
  (∀ (s : State) (r : Req) (n : Nat), s.writes r (Reg.MMU_OCMD n) (Reg.MMU_OCMD 0) n → s.reqOwner r = 0 → s.ownerDef n = true → (s.owner n).st = .stopped →
    exec (.erase r n) s = done s (({ s with mmu := { s.mmu with keys := s.mmu.keys.insert n { (s.mmu.keys.get {} n) with erasing := true } } } : State).setBit
      (Reg.MMU_OSTAT n) 2 true)) ∧
  (∀ (s : State) (n : Nat), (s.mmu.keys.get {} n).erasing = true → exec (.eraseComplete n) s = done s ((s.eraseOwner n).setBit (Reg.MMU_OSTAT n) 2 false)) ∧
  (∀ (s : State) (k avg most : Nat), let u := s.flushSome k
    let v := if u.shareUsed 2 = 0 then u.setBit Reg.STO_STAT 3 false else u
    let was := v.fld Reg.STO_WEAR 16 16
    let top := min 65535 (max was most)
    let w := v.wr Reg.STO_WEAR (min 65535 (max (v.fld Reg.STO_WEAR 0 16) avg) + top * 65536)
    exec (.stagingFlush k avg most) s = done s (if was < 2400 ∧ 2400 ≤ top then w.raise 515 else w) ∧ w.sto.ack = s.sto.ack) ∧
  (∀ (s : State) (sh : Nat) (x : Staged) (pre post : List Staged), s.sto.staging = pre ++ x :: post → x.share = sh → (∀ y ∈ pre, y.share ≠ sh) →
    (s.flushOne sh).sto.staging = pre ++ post ∧ (s.flushOne sh).sto.flash = s.sto.flash.apply x.w ∧ (s.flushOne sh).sto.ack = s.sto.ack) ∧
  (∀ (s : State) (spare : Nat) (lost : List Nat), let sto := s.sto
    let bad := if 0 < sto.rebuilding then lost ++ sto.unreadable else sto.unreadable
    let u := (({ s with sto := { sto with rebuilding := sto.rebuilding + 1, unreadable := bad } } : State).setBit Reg.STO_STAT 5 true).wr
      Reg.STO_SPARE (min 1000 spare)
    exec (.packageFailed spare lost) s = done s (if spare < 20 ∧ u.fld Reg.STO_STAT 4 1 = 0 then ((u.raise 513).setBit Reg.STO_STAT 4 true).raise 514
      else u.raise 513)) ∧
  (∀ s : State, exec .rebuildDone s = done s (({ s with sto := { s.sto with rebuilding := 0 } } : State).setBit Reg.STO_STAT 5 false)) ∧
  (∀ (s : State) (w : ArcWin), s.sto.wins = [w] → s.ns ≤ w.hi → exec .archiveWindowEnd s = done s (s.advance ((w.hi + 1) * 65536)).winRegs) ∧
  (∀ (s : State) (r : Req) (i : Nat), s.writes r Reg.STO_ACTL Reg.STO_ACTL i →
    (s.fld Reg.STO_ACTL 0 1 = 1 → exec (.archiveDisable r) s = done s (s.wr Reg.STO_ACTL 0).arcStop ∧ exec (.archiveEnable r) s = done s s) ∧
    (s.fld Reg.STO_ACTL 0 1 = 0 → exec (.archiveDisable r) s = done s s ∧
      (let u := (s.wr Reg.STO_ACTL 1).setBit Reg.STO_STAT 2 true
       exec (.archiveEnable r) s = done s { u with sto := { u.sto with gapNext := s.cfg.streams.map (·.1) } }))) ∧
  ∀ s : State, s.prepareOne.mmu.prep ≠ [] → exec .framePrepared s = done s (s.prepareOne.wakeStalled (fun st => st == .frame))

/-- A frame on an enabled port with its link up is counted at its stamp; a bad FCS or length, and a VID the port does not take, end it; a duplicate by
R310 on a redundant port is counted and discarded. A GOOSE or SV frame that passes goes to every subscription or stream it matches, else it is
filtered. The end of a time to live, and MISS sample intervals without a sample, clear the validity bit, count, and fire F0648 + n or F0656 + n. A
publication whose interval has passed sends its next frame with sqNum + 1, which wraps to 1. Supervision frames are counted, and sent on every paired
port that publishes; duplicate entries leave 400 ms after their last frame. -/
def Obligations.FramesReachTheirSubscribers : Prop :=
  (∀ (s : State) (h : NetHead), h.port < 128 → s.netUp = true → s.portEnabled h.port = true → s.portLink h.port = true → h.overload = false →
    let u := ((s.advance h.stamp).bump64 (Reg.NET_PRXFRM h.port) 1).bump64 (Reg.NET_PRXBYTE h.port) h.len
    (h.fcs = false ∨ h.len < 64 ∨ 1528 < h.len → s.netRx h = (false, u.bump (Reg.NET_PFCS h.port) 1)) ∧
    (h.fcs = true → 64 ≤ h.len → h.len ≤ 1528 → s.frameVid h = none → s.netRx h = (false, u.bump (Reg.NET_PFILT h.port) 1)) ∧
    (h.fcs = true → 64 ≤ h.len → h.len ≤ 1528 → s.frameVid h ≠ none → (h.red = none ∨ s.portRed h.port = 0 ∨ 5 ≤ s.portRed h.port) →
      s.netRx h = (true, u))) ∧
  (∀ (s u : State) (h : NetHead) (p : GoosePdu), (s.netRx h = (false, u) → exec (.gooseFrame h p) s = done s u) ∧
    (s.netRx h = (true, u) → let hits := u.cfg.subs.filter (fun q => u.gsMatch h p q.2)
      exec (.gooseFrame h p) s = done s (if hits = [] then u.bump (Reg.NET_PFILT h.port) 1 else forEach hits (fun s q => s.gooseFor h p q.1 q.2) (u.bump64 (Reg.NET_PGOOSE h.port) 1)))) ∧
  (∀ (s u : State) (h : NetHead) (p : SvPdu), (s.netRx h = (false, u) → exec (.svFrame h p) s = done s u) ∧
    (s.netRx h = (true, u) → let hits := u.cfg.streams.filter (fun q => portMatch q.2.port q.2.paired h.port && q.2.dmac == h.dmac &&
        q.2.appid == p.appid && (q.2.vid == 0xFFF || u.frameVid h == some q.2.vid) && q.2.svidcrc == p.svidcrc)
      exec (.svFrame h p) s = done s (if hits = [] then u.bump (Reg.NET_PFILT h.port) 1 else forEach hits (fun s q => s.svFor h p q.1 q.2) (u.bump64 (Reg.NET_PSV h.port) 1)))) ∧
  (∀ (s u : State) (h : NetHead), (s.netRx h = (true, u) → exec (.supervisionFrame h) s = done s (u.bump (Reg.NET_PSUP h.port) 1)) ∧
    (s.netRx h = (false, u) → exec (.supervisionFrame h) s = done s u)) ∧
  (∀ (s : State) (k t : Nat) (c : SubRec), (s.gsSub k).tal = some t → s.cfg.subs.find? k = some c → s.fld (Reg.NET_GSSTAT k) 1 1 = 1 →
    let u := (s.advance t).setGs k { s.gsSub k with seen := false, tal := none }
    let v := (u.setBit (Reg.NET_GSSTAT k) 1 false).setFld (Reg.NET_GSSTAT k) 8 4 1
    let w := (v.setBit (Reg.NET_GSSTAT k) 16 true).bump (Reg.NET_GSINV k) 1
    exec (.gooseTalExpiry k) s = done s ((w.sourceWrite c.owner (w.fieldRows c.owner [(c.valid, 1, 0)]) t 0).raise (648 + c.owner) 0xFFFF k)) ∧
  (∀ (s : State) (v : Nat) (c : StreamRec), s.cfg.streams.find? v = some c → (s.strm v).seen = true → s.fld (Reg.NET_SVSTAT v) 1 1 = 1 →
    let t := (s.strm v).last + (if c.miss = 0 then 4 else c.miss) * 1000000000 * 65536 / svRate c.rate
    exec (.svMissExpiry v) s = done s ((s.advance t).svInvalid v 1 t)) ∧
  (∀ (s : State) (p : Nat) (c : PubRec), s.cfg.pubs.find? p = some c → s.ms.mode ∈ [.stop, .run, .shadow, .test, .hold, .handover] →
    s.pubForm p = 0 → s.rd (Reg.NET_GPST p) ≠ 0 →
    let x := s.pubSt p
    let u := s.advanceMono (x.lastAt + msec (pubInterval c x.k))
    let sq := s.rd (Reg.NET_GPSQ p)
    exec (.gooseRetransmit p) s = done s ((u.wr (Reg.NET_GPSQ p) (if sq = 0xFFFFFFFF then 1 else sq + 1)).pubSend p c (pubInterval c (x.k + 1)) (x.k + 1)
      x.data)) ∧
  (∀ s : State, s.isStandby = true ∨ s.netUp = false → exec .supervisionSend s = done s s) ∧
  (∀ s : State, s.isStandby = false → s.netUp = true →
    let pairs := ((s.cfg.pubs.filter (fun q => q.2.paired && decide (1 ≤ s.portRed q.2.port))).map (fun q => q.2.port / 2 * 2)).eraseDups
    exec .supervisionSend s = done s (forEach pairs (fun s i => forEach ([i, i + 1].filter (fun j => s.portEnabled j && s.portLink j)) (fun s j =>
      (s.bump64 (Reg.NET_PTXFRM j) 1).emit (.frame j 2 [i])) s) s)) ∧
  ∀ (s : State) (k : Nat) (w : DupWin), s.net.dup = [(k, w)] → ∃ t, exec .dupEntryAging s = done s t ∧ t.net.dup = [] ∧ w.at_ + msec 400 ≤ t.mono

/-- On a port where IP runs: an ARP request for an address of the port is answered; an echo request to one is answered at most 100 times a second, another
ICMP type is dropped; a solicitation for one is answered; a reply resolves its neighbour and sends a held datagram; a claim of a module address is a
conflict with F0645. An unresolved neighbour repeats its request every 333 ms up to three times and is dropped after 1 s; an ARP entry leaves after
300 s; address detection ends after 1 s. A datagram for an endpoint's ring is stored with its entry and counted, or dropped. EN 0 discards held frames
and takes the link down, EN 1 restarts the port; a lost link is counted and fires F0640. -/
def Obligations.NetworkStackAnswers : Prop :=
  (∀ (s : State) (i target sender : Nat), s.ipPort i = true → let u := s.ipRx i 64
    exec (.arpRequest i target sender) s = done s (if target ∈ u.portAddrs i false then u.ipSend i 3 [2, target, sender] else u)) ∧
  (∀ (s : State) (i dst remote : Nat) (v6 echo : Bool), s.ipPort i = true → let u := s.ipRx i 64
    let recent := (u.net.icmp.get [] i).filter (fun t => decide (u.mono < t + secU))
    (echo = false ∨ dst ∉ u.portAddrs i v6 → exec (.icmpEcho i v6 echo dst remote) s = done s (u.ipDrop i)) ∧
    (echo = true → dst ∈ u.portAddrs i v6 → exec (.icmpEcho i v6 echo dst remote) s = done s (if 100 ≤ recent.length then u
      else (u.setNet { u.net with icmp := u.net.icmp.set [] i (u.mono :: recent) }).ipSend i 4 [b2n v6, dst, remote]))) ∧
  (∀ (s : State) (i kind target : Nat), s.ipPort i = true → s.net.dad.find? i = none → let u := s.ipRx i 64
    (2 ≤ kind → exec (.ndp i kind target) s = done s (u.ipDrop i)) ∧
    (kind = 0 → exec (.ndp i kind target) s = done s (if target ∈ u.portAddrs i true then u.ipSend i 5 [1, target] else u)) ∧
    (kind = 1 → exec (.ndp i kind target) s = done s (s.nbrReply i true target))) ∧
  (∀ (s : State) (i a : Nat), s.ipPort i = true → let u := s.ipRx i 64
    (a ∈ u.portAddrs i false → (i, a) ∉ s.net.conflicts → exec (.arpReply i a) s =
      done s ((u.setNet { u.net with conflicts := (i, a) :: u.net.conflicts }).raise 645 0xFFFF i)) ∧
    (∀ x, a ∉ u.portAddrs i false → u.nbr i false a = some x →
      let v := u.setNbr { port := i, v6 := false, addr := a, resolved := true, tries := 0, at_ := u.mono, held := none }
      exec (.arpReply i a) s = done s (match x.held with
        | some (n, e, f) => (v.ipSend i 6 f).bump (Reg.NET_UEPTX n e) 1
        | none => v))) ∧
  (∀ (s : State) (i a : Nat) (x : Nbr), s.nbr i false a = some x → x.resolved = false → x.tries < 3 →
    let u := s.advanceMono (x.at_ + x.tries * msec 333)
    exec (.arpRequestRepeat i a) s = done s ((u.setNbr { x with tries := x.tries + 1 }).ipSend i 3 [1, a])) ∧
  (∀ (s : State) (i a : Nat) (v6 : Bool) (x : Nbr), s.nbr i v6 a = some x → x.resolved = false →
    let u := s.advanceMono (x.at_ + secU)
    let v := u.setNet { u.net with nbrs := u.net.nbrs.erase x }
    exec (.neighbourTimeout i v6 a) s = done s (match x.held with
      | some (n, e, _) => (v.bump (Reg.NET_UEPDROP n e) 1).raise (664 + n) 0xFFFF e
      | none => v)) ∧
  (∀ (s : State) (i : Nat) (x : Nbr), (s.net.nbrs.filter (fun x => x.port == i && x.resolved && !x.v6)).getLast? = some x →
    let u := s.advanceMono (x.at_ + 300 * secU)
    exec (.arpCacheAging i) s = done s (u.setNet { u.net with nbrs := u.net.nbrs.filter (fun y => !(y.port == i && y.resolved && !y.v6 &&
      decide (y.at_ + 300 * secU ≤ u.mono))) })) ∧
  (∀ (s : State) (i t : Nat), s.net.dad.find? i = some t → let u := s.advanceMono (t + secU)
    exec (.duplicateAddressDetectionDone i) s = done s (u.setNet { u.net with dad := s.net.dad.erase i })) ∧
  (∀ (s v w : State) (i n e q stamp : Nat) (d : Udp) (c : EpRec), s.ipPort i = true → let u := (s.ipRx i (d.data.length + 46)).advance stamp
    d.plain = true → d.sumOk = true → d.laddr ∈ u.portAddrs i d.v6 → u.udpEp i d = some (n, e, c) → c.rx = some q → u.isStandby = false →
    d.data.length ≤ 1452 →
    ((u.ringOpen q = false ∨ u.ringFull q = true) → exec (.udpDatagram i d stamp) s = done s ((u.ringDrop q).udpDrop n e)) ∧
    (u.ringOpen q = true → u.ringFull q = false →
      u.hwWriteBytes n ((u.cnst n).dataBase + c.rxbuf + u.ringP q % ringLen (u.ringCfg q) * 2048) d.data = (true, v) →
      v.hwEnq q (udpEntry (form64 stamp) d.data.length d.rport i e d.raddr d.laddr d.v6) = (true, w) →
      exec (.udpDatagram i d stamp) s = done s (w.bump (Reg.NET_UEPRX n e) 1))) ∧
  (∀ (s u : State) (n e q : Nat) (c : EpRec), s.cfg.eps.find? (n * 16 + e) = some c → c.tx = some q →
    (s.hwTake q = (none, u) → exec (.udpSend n e) s = done s u) ∧
    (∀ b, s.hwTake q = (some b, u) → u.isStandby = true → exec (.udpSend n e) s = done s (u.bump Reg.RED_CONSDISC 1)) ∧
    (∀ b, s.hwTake q = (some b, u) → u.isStandby = false → field b 12 1 < 96 →
      exec (.udpSend n e) s = done s ((u.bump (Reg.NET_UEPDROP n e) 1).raise (664 + n) 0xFFFF e))) ∧
  (∀ (s : State) (r : Req) (i : Nat), s.writes r (Reg.NET_PCTL i) (Reg.NET_PCTL 0) i → i < 124 →
    (s.portEnabled i = true → exec (.portDisable r i) s = done s (s.portDisable i) ∧ (s.portDisable i).portEnabled i = false ∧
      (s.portDisable i).portLink i = false) ∧
    (s.portEnabled i = false → (s.portRec i).mode ≠ 0 →
      exec (.portEnable r i) s = done s ((s.setBit (Reg.NET_PCTL i) 0 true).setBit (Reg.NET_PSTAT i) 2 true))) ∧
  ∀ (s : State) (i : Nat), i < 124 → s.portEnabled i = true →
    (s.portLink i = true → let u := (((s.setBit (Reg.NET_PSTAT i) 0 false).setBit (Reg.NET_PSTAT i) 16 true).bump (Reg.NET_PLINKDN i) 1).raise 640 0xFFFF i
      exec (.linkDown i) s = done s (if 1 ≤ s.portRed i ∧ s.portRed i ≤ 4 ∧ u.portEnabled (twin i) = true ∧ u.portLink (twin i) = true then u.raise 641 0xFFFF i
        else u)) ∧
    (i < 96 → s.netUp = true → s.portLink i = false →
      exec (.linkUp i) s = done s ((s.setBit (Reg.NET_PSTAT i) 0 true).setBit (Reg.NET_PSTAT i) 16 true))

/-- OPEN with its conditions met takes the lowest free session number, half open, and answers; each failed condition answers REJECT with its number. In a
mode that serves sessions, on a serving port, a well-formed request of a live session whose tag verifies and whose SEQ is the next executes within 100
µs: H becomes its SEQ, the request is counted, the command does its work and the answer is stored and sent, or waits. A SEQ already executed is
answered again from store; one outside the window, and a failed tag, is counted as bad. A half-open session ends after 2 s, an open one after 60 s, a
held request after 500 ms. -/
def Obligations.LoratSessionsServeInOrder : Prop :=
  (∀ (s : State) (h : LorHead) (n serial : Nat), s.lorServed = true → lorPort h.port = true → h.fmt = true → h.session = 0 → let u := s.advance h.stamp
    (8 ≤ n ∨ u.ownerDef n = false → exec (.open_ h n serial) s = done s (u.openReject n 1)) ∧
    (n < 8 → u.ownerDef n = true → u.curSlot.scn.auth.find? n ≠ some serial → exec (.open_ h n serial) s = done s (u.openReject n 2)) ∧
    (n < 8 → u.ownerDef n = true → u.curSlot.scn.auth.find? n = some serial → u.freeSession = none → exec (.open_ h n serial) s = done s (u.openReject n 3)) ∧
    (∀ k, n < 8 → u.ownerDef n = true → u.curSlot.scn.auth.find? n = some serial → u.freeSession = some k →
      (u.lor.filter (fun e => e.2.owner == n && decide (e.1 ≤ 64))).length < 16 →
      let v := forEach ([Reg.NET_LSREQ k, Reg.NET_LSRETRY k, Reg.NET_LSBAD k] : List Nat) (fun s a => s.clr a) u
      exec (.open_ h n serial) s = done s ((v.setSess k { half := true, owner := n, v6 := h.v6, port := h.port, lastAt := v.mono }).emit (.open_ k n)))) ∧
  (∀ (s : State) (k : Nat), (s.sess k).half = true → exec (.halfOpenTimeout k) s = done s ((s.advanceMono ((s.sess k).lastAt + 2 * secU)).lorEnd k)) ∧
  (∀ (s : State) (k : Nat), (s.sess k).isOpen = true → 1 ≤ k → k ≤ 64 →
    exec (.sessionTimeout k) s = done s ((s.advanceMono ((s.sess k).lastAt + 60 * secU)).lorEnd k)) ∧
  (∀ (s : State) (k : Nat), (s.lorEnd k).sess k = {} ∧ ∀ j, j ≠ k → (s.lorEnd k).sess j = s.sess j) ∧
  (∀ (s : State) (k : Nat) (y : HeldReq), (s.sess k).held = [y] → y.seq ≠ (s.sess k).h + 1 →
    ∃ t, exec (.heldRequestTimeout k) s = done s t ∧ (t.sess k).held = [] ∧ y.at_ + msec 500 ≤ t.mono) ∧
  Serves (fun h => .status h) .status ∧ Serves (fun h => .close h) .close ∧ (∀ a b c, Serves (fun h => .imgRead h a b c) (.imgRead a b c)) ∧
  (∀ l, Serves (fun h => .imgWrite h l) (.imgWrite l)) ∧ (∀ l, Serves (fun h => .imgForce h l) (.imgForce l)) ∧
  (∀ l, Serves (fun h => .regRead h l) (.regRead l)) ∧ (∀ l, Serves (fun h => .regWrite h l) (.regWrite l)) ∧
  (∀ a b c d, Serves (fun h => .nvsRead h a b c d) (.nvsRead a b c d)) ∧ (∀ a b c d l, Serves (fun h => .nvsWrite h a b c d l) (.nvsWrite a b c d l)) ∧
  (∀ a b, Serves (fun h => .almRead h a b) (.almRead a b)) ∧ (∀ a, Serves (fun h => .almFreeze h a) (.almFreeze a)) ∧
  (∀ a b c d e, Serves (fun h => .arcRead h a b c d e) (.arcRead a b c d e)) ∧ (∀ a b c, Serves (fun h => .arcTrig h a b c) (.arcTrig a b c)) ∧
  (∀ a l, Serves (fun h => .splLoad h a l) (.splLoad a l)) ∧ (∀ a, Serves (fun h => .splApply h a) (.splApply a)) ∧
  (∀ a, Serves (fun h => .splConfirm h a) (.splConfirm a)) ∧ (∀ a, Serves (fun h => .splRollback h a) (.splRollback a)) ∧
  (∀ a l b, Serves (fun h => .scnLoad h a l b) (.scnLoad a l b)) ∧ Serves (fun h => .scnCommit h) .scnCommit ∧
  Serves (fun h => .scnConfirm h) .scnConfirm ∧ Serves (fun h => .scnRollback h) .scnRollback ∧
  (∀ a b c d, Serves (fun h => .modeSet h a b c d) (.modeSet a b c d)) ∧ (∀ a, Serves (fun h => .plumb h a) (.plumb a)) ∧
  ∀ (s : State) (h : LorHead), s.lorServed = true → lorPort h.port = true → 1 ≤ h.session → h.session ≤ 64 → s.sessLive h.session = true →
    let u := s.advance h.stamp
    let k := h.session
    (h.fmt = false → exec (.status h) s = done s (u.bump (Reg.NET_LSBAD k) 1)) ∧
    (h.fmt = true → h.tag = false → exec (.status h) s = done s ((u.bump (Reg.NET_LSBAD k) 1).secEvent (s.sess k).owner)) ∧
    (h.fmt = true → h.tag = true → (s.sess k).isOpen = true → (s.sess k).half = false → let v := u.setSess k { s.sess k with lastAt := u.mono }
      (h.seq = 0 ∨ (s.sess k).h + 16 < h.seq ∨ h.seq + 16 ≤ (s.sess k).h → exec (.status h) s = done s (v.bump (Reg.NET_LSBAD k) 1)) ∧
      (∀ r, 0 < h.seq → h.seq ≤ (s.sess k).h → (s.sess k).h < h.seq + 16 → (s.sess k).stored.find? h.seq = some r →
        exec (.status h) s = done s ((v.emit (.lorat k h.seq r.cmd r.status r.detail r.body)).bump (Reg.NET_LSRETRY k) 1)))

/-- A command that is O0's alone, or of a block the owner has no permission for, is refused with DENIED from another owner; FLAGS other than 0 are
BADPARAM (SCN_LOAD takes 1). STATUS and CLOSE answer at once; IMG_READ gives the current rows; IMG_WRITE is a source write with the receive stamp;
IMG_FORCE acts in Test alone; register and NVS accesses follow the checks of their blocks; ALM_FREEZE freezes for its session; ARC_TRIG triggers;
MODE_SET and the splice and scantling commands follow their chapters; PLUMB copies now or arms a target. -/
def Obligations.LoratCommandsAct : Prop :=
  ∀ (s : State) (k n seq flags stamp : Nat),
  let do_ (c : LorCmd) := s.lorDo k n seq flags stamp c
  (∀ c, s.lorDenied n c = true → do_ c = (lorNo 4 0, s)) ∧
  (n ≠ 0 → (∀ a b, s.lorDenied n (.almRead a b) = true) ∧ (∀ a, s.lorDenied n (.almFreeze a) = true) ∧ (∀ a l b, s.lorDenied n (.scnLoad a l b) = true) ∧
    s.lorDenied n .scnCommit = true ∧ s.lorDenied n .scnConfirm = true ∧ s.lorDenied n .scnRollback = true ∧ (∀ t, s.lorDenied n (.plumb t) = true)) ∧
  (∀ c, s.lorDenied 0 c = false) ∧
  (flags = 0 → do_ .status = (lorOk (s.lorStatus k n), s) ∧ do_ .close = (lorOk [], s) ∧
    (∀ sp rows first, s.blockPerm n 2 = true → sp ≤ 4 → 1 ≤ rows → rows ≤ 40 → first + rows ≤ (s.range n sp).len → s.img.badWords = [] → s.img.weakWords = [] →
      do_ (.imgRead sp rows first) = (lorOk (leBytes 8 (form64 s.now) ++ (List.range rows).flatMap (fun i =>
        bytesOfRow (if sp = 4 then s.img.sem.get 0 ((s.range n sp).base + first + i) else s.curBits ((s.range n sp).base + first + i)))), s)) ∧
    (∀ es, s.blockPerm n 2 = true → s.ms.mode ∈ [.stop, .run, .test, .hold] → (s.ms.paired = false ∨ s.ms.active = true) → es ≠ [] → es.length ≤ 16 →
      (∀ e ∈ es, e.1 < (s.range n 0).len) → do_ (.imgWrite es) = (lorOk (leBytes 8 (form64 s.now) ++ leBytes 8 (form64 stamp)),
        s.sourceWrite n ((mergeEntries (s.range n 0).base es).map (fun e => (e.1, e.2.1, e.2.2))) stamp 0)) ∧
    (∀ es, s.blockPerm n 2 = true → s.ms.mode ≠ .test → do_ (.imgForce es) = (lorNo 8 s.ms.mode.code, s)) ∧
    (∀ a v t, s.busRead (.session k) a = (.ok v, t) → do_ (.regRead [a]) = (lorOk (leBytes 4 v ++ leBytes 4 0), t)) ∧
    (∀ a v c t, s.busWrite (.session k) a v = (.refused c, t) → do_ (.regWrite [(a, v)]) = (lorOk (leBytes 1 c ++ leBytes 3 0), t)) ∧
    (∀ a v x t, s.busWrite (.session k) a v = (.ok x, t) → do_ (.regWrite [(a, v)]) = (lorOk (leBytes 4 0), t)) ∧
    (∀ r len off pw t, s.blockPerm n 13 = true → s.lorNvsCheck n r off len pw false = (none, t) →
      do_ (.nvsRead r len off pw) = (lorOk (t.nvsRead r off len).1, (t.nvsRead r off len).2.2)) ∧
    (∀ r len off pw bs t, s.blockPerm n 13 = true → bs.length = len → s.lorNvsCheck n r off len pw true = (none, t) →
      do_ (.nvsWrite r len off pw bs) = (lorOk [], t.nvsWrite r off bs)) ∧
    (n = 0 → (∀ first, do_ (.almRead 0 first) = (badParam 0, s)) ∧
      (s.alm.frozenBy = none → do_ (.almFreeze 1) = (lorOk (leBytes 4 1), s.almFreeze k)) ∧
      (s.alm.frozenBy = some k → (do_ (.almFreeze 2)).2 = s.almRelease) ∧
      do_ (.plumb 0) = (lorOk (leBytes 8 (s.plumbNow.rd64 Reg.FLT_PLUMBAT)), s.plumbNow) ∧
      (∀ t, t ≠ 0 → do_ (.plumb t) = (lorOk (leBytes 8 t), (s.setFlt { s.flt with plumb := some t }).setBit Reg.FLT_STAT 4 true)) ∧
      do_ .scnCommit = scnAnswer s.scnCommit ∧ do_ .scnConfirm = scnAnswer s.scnConfirm ∧ do_ .scnRollback = scnAnswer s.scnRollback) ∧
    (∀ sub most lo hi cur, s.blockPerm n 4 = true → s.arcOwner sub = none → do_ (.arcRead sub most lo hi cur) = (badParam 0, s)) ∧
    (∀ t p q, s.blockPerm n 4 = true → s.fld Reg.STO_ACTL 0 1 = 1 → p ≤ 10000 → q ≤ 60000 → t ≠ 0 → (do_ (.arcTrig t p q)).2 = s.trigger n t p q) ∧
    (∀ own, own < 8 → s.ownerDef own = true → do_ (.splApply own) = splAnswer own (s.splApply own (n == own)) ∧
      do_ (.splConfirm own) = splAnswer own (s.splConfirm own (n == own)) ∧ do_ (.splRollback own) = splAnswer own (s.splRollback own (n == own || n == 0))) ∧
    (∀ off bs, 1 ≤ bs.length → bs.length ≤ 1280 → (do_ (.splLoad off bs)).2 = (s.splChunk n k seq off bs).2) ∧
    (∀ own target kind, modeKindOk target kind = true → do_ (.modeSet 0 own target kind) =
      if n = 0 ∧ s.modeSetOk target = true then (s.modePerform target kind).modeDone else (lorNo 0x0C s.ms.mode.code, s)) ∧
    (∀ own, own < 8 → s.ownerDef own = true → (n = 0 ∨ n = own) → (s.owner own).st = .running → do_ (.modeSet 1 own 5 0) = (s.ownerStop own).modeDone) ∧
    (∀ own kind, own < 8 → s.ownerDef own = true → (n = 0 ∨ n = own) → (s.owner own).st = .stopped → s.startable own = true → (s.owner own).startPend = none →
      kind ∈ [1, 2] → do_ (.modeSet 1 own 6 kind) = (s.setOwner own { s.owner own with startPend := some (kind == 2), startFrom := s.now }).modeDone)) ∧
  (flags ≤ 1 → n = 0 → ∀ off bs bad, 1 ≤ bs.length → bs.length ≤ 1280 →
    (do_ (.scnLoad off bs bad)).2 = (s.scnChunk k off bs (bit flags 0) bad).2)

/-- A PTP message on a port that runs PTP is counted, and in error if its domain is not the module's. A Sync of the slave port's master, or a Follow_Up
whose Sync is held, is a sample of source 1; an Announce runs the best master algorithm; Pdelay_Req is answered, Pdelay_Resp sets the link delay; the
end of an announce receipt timeout removes the port's master. A qualified source is taken up, or refused with F0772 beyond 60 s at steps 0 to 5. In
holdover the quality step rises at each threshold. A step is applied at its second. PPS edges and IRIG-B frames validate their inputs. An armed
compare unit fires at its target and reloads or disarms. The calendar holds, changes representation and is written under AUTO; a leap second changes
only the UTC offset. While OCXO time passes to an instant, station time gains as much times 1 + f, f being TIM_FREQ within 1000 ppm, less or more what
a slew removes at its rate until its offset is gone. -/
def Obligations.StationTimeIsKept : Prop :=
  (∀ (s : State) (i dom kind src seq o c rx : Nat), s.ptpPort i = true →
    (dom ≠ s.cfg.port.domain → exec (.ptpSync i dom kind src seq o c rx) s = done s ((s.bump (Reg.TIM_PPRX i) 1).bump (Reg.TIM_PPERR i) 1)) ∧
    (dom = s.cfg.port.domain → let u := (s.bump (Reg.TIM_PPRX i) 1).advance rx
      (u.fld (Reg.TIM_PPSTAT i) 0 4 ≠ 9 ∨ s.isStandby = true → exec (.ptpSync i dom kind src seq o c rx) s = done s u) ∧
      ∀ a, u.fld (Reg.TIM_PPSTAT i) 0 4 = 9 → u.tim.anns.find? i = some a → a.src = src → u.isStandby = false →
        let key := i * 65536 + seq % 65536
        (kind = 0 → exec (.ptpSync i dom kind src seq o c rx) s = done s (u.srcSample 1 (u.ptpOffset i rx o c))) ∧
        (kind = 1 → exec (.ptpSync i dom kind src seq o c rx) s = done s { u with tim := { u.tim with syncs := u.tim.syncs.insert key rx } }) ∧
        ∀ r, kind = 2 → u.tim.syncs.find? key = some r →
          let v : State := { u with tim := { u.tim with syncs := u.tim.syncs.erase key } }
          exec (.ptpSync i dom kind src seq o c rx) s = done s (v.srcSample 1 (v.ptpOffset i r o c)))) ∧
  (∀ (s : State) (i dom : Nat) (a : Ann) (off : Int) (ok : Bool) (leap : Nat), s.ptpPort i = true → dom = s.cfg.port.domain →
    let u := s.bump (Reg.TIM_PPRX i) 1
    (a.gm = Config.clockId ∨ 255 ≤ a.steps → exec (.ptpAnnounce i dom a off ok leap) s = done s u) ∧
    (a.gm ≠ Config.clockId → a.steps < 255 → u.tim.anns.find? i = none →
      let v := ({ u with tim := { u.tim with anns := u.tim.anns.insert i { a with steps := a.steps + 1 } } } : State).bmca
      v.fld (Reg.TIM_PPSTAT i) 0 4 ≠ 9 → exec (.ptpAnnounce i dom a off ok leap) s = done s v)) ∧
  (∀ (s : State) (i dom seq : Nat), s.ptpPort i = true → dom = s.cfg.port.domain →
    exec (.pdelayReq i dom seq) s = done s ((s.bump (Reg.TIM_PPRX i) 1).ptpSend i [3, seq])) ∧
  (∀ (s : State) (i dom t1 t2 t3 t4 : Nat), s.ptpPort i = true → dom = s.cfg.port.domain →
    exec (.pdelayResp i dom t1 t2 t3 t4) s = done s ((s.bump (Reg.TIM_PPRX i) 1).wr (Reg.TIM_PPDELAY i) ((((t4 : Int) - t1) - ((t3 : Int) - t2)) / 2).toNat)) ∧
  (∀ s : State, exec .pdelayReqSend s = done s (if s.isStandby then s else forEach ((List.range 124).filter s.ptpPort) (fun s i => s.ptpSend i [2]) s)) ∧
  (∀ (s : State) (i kind : Nat), s.ptpPort i = true → s.isStandby = false →
    (s.fld (Reg.TIM_PPSTAT i) 0 4 = 6 → exec (.syncSend i kind) s = done s (s.ptpSend i [kind, s.clockClass, form64 s.now])) ∧
    (s.fld (Reg.TIM_PPSTAT i) 0 4 ≠ 6 → exec (.syncSend i kind) s = done s s)) ∧
  (∀ (s : State) (i : Nat), s.ptpPort i = true → (s.tim.anns.find? i).isSome = true →
    let u := ({ s with tim := { s.tim with anns := s.tim.anns.erase i } } : State).bmca
    (s.fld (Reg.TIM_PPSTAT i) 0 4 = 9 → exec (.announceTimeout i) s = done s ((u.setBit Reg.TIM_UTCOFF 20 false).srcInvalid 1)) ∧
    (s.fld (Reg.TIM_PPSTAT i) 0 4 ≠ 9 → exec (.announceTimeout i) s = done s u)) ∧
  (∀ (s : State) (h : Nat), s.timHold = true →
    ([60, 600, 3600, 21600, 86400] : List Nat).find? (fun h => decide (s.holds < h)) = some h → let u := s.advance (s.tim.lostAt + h * secU)
    exec .holdoverDegrade s = done s (u.setStep (max u.qStep (max u.tim.entryStep (holdStep u.holds))))) ∧
  (∀ (s : State) (k t : Nat), (s.src k).since = some t → (s.src k).qual = false → let u := s.advance (t + s.fld Reg.TIM_SRCCFG 16 6 * secU)
    (60 * secU < (s.src k).meas.natAbs → u.qStep ≤ 5 →
      exec (.sourceQualified k) s = done s ((u.setSrc k { s.src k with since := none, qual := false }).raise 772)) ∧
    ((s.src k).meas.natAbs ≤ 60 * secU ∨ 6 ≤ u.qStep → exec (.sourceQualified k) s = done s ((u.setSrc k { s.src k with qual := true }).reselect))) ∧
  (∀ (s : State) (t : Nat) (x : Int), s.tim.stepDue = some (t, x) → exec .timeStep s = done s ((s.advance t).applyStep x)) ∧
  (∀ s : State, s.tim.stepDue = none → exec .timeStep s = done s s) ∧
  (∀ (s : State) (inp t : Nat), let u := s.advance t
    let v : State := { u with tim := { u.tim with edges := u.tim.edges.insert inp u.now } }
    (u.tim.edges.find? inp = none → exec (.ppsEdge inp t) s = done s (if v.inValid inp then v.inputLost inp else v)) ∧
    ∀ e, u.tim.edges.find? inp = some e → secU ≤ u.now - e + us 100 → u.now - e ≤ secU + us 100 → let w := v.setBit Reg.TIM_INSTAT inp true
      (w.tim.irig = none → exec (.ppsEdge inp t) s = done s w) ∧
      ∀ m sec, w.tim.irig = some (m, sec) → ¬(inp = 1 ∧ w.inValid 0 = true) → w.isStandby = false →
        exec (.ppsEdge inp t) s = done s (w.srcSample 2 ((u.now : Int) - ((sec + (u.now - m + secU / 2) / secU) * secU : Nat)))) ∧
  (∀ (s : State) (t year doy hour min_ sec x : Nat) (hasYear am : Bool), let u := s.advance t
    exec (.irigFrame t false hasYear year doy hour min_ sec x am) s =
      done s (({ u with tim := { u.tim with irigBad := u.mono + 2 * secU } } : State).inputLost 2) ∧
    (u.tim.irigBad ≤ u.mono → let v := ((u.setBit Reg.TIM_INSTAT 2 true).setFld Reg.TIM_INSTAT 4 3 x).setBit Reg.TIM_INSTAT 7 am
      v.fld Reg.TIM_UTCOFF 16 1 = 0 → exec (.irigFrame t true hasYear year doy hour min_ sec x am) s = done s v)) ∧
  (∀ (s : State) (u : Nat), (s.cuArmed u = false → exec (.compareFire u) s = done s s) ∧
    (s.cuArmed u = true → let tgt := s.rd64 (Reg.TIM_CUTGT u)
      let v := s.advance (s.targetInstant tgt).1
      exec (.compareFire u) s = done s (v.cuFire u (s.targetInstant tgt).1 false
        (if v.cuReload u = 0 then none else some ((tgt + v.cuReload u * 1000) % 2 ^ 64))))) ∧
  (∀ (s : State) (r : Req) (u : Nat) (arm : Bool), s.writes r (Reg.TIM_CUCTL u) (Reg.TIM_CUCTL 0) u →
    exec (.compareArm r u arm) s = done s (s.setArm u arm) ∧ (s.setArm u arm).cuArmed u = arm) ∧
  (∀ s : State, s.tim.outOn = false → exec .ppsOutput s = done s s) ∧
  (∀ s : State, s.tim.outOn = true → let v := s.advance (((nextSec ((s.now : Int) + s.tim.outOff).toNat : Nat) : Int) - s.tim.outOff).toNat
    v.fld Reg.TIM_CFG 31 1 = 1 → v.ms.mode = .stop → msec 1 < v.tim.outOff.natAbs →
    exec .ppsOutput s = done s (({ v with tim := { v.tim with outOff := 0 } } : State).wr Reg.TIM_OUTOFF 0)) ∧
  (∀ s : State, s.calAuto = true → s.qStep ≤ 4 → let u := (s.advance (nextSec s.now)).wr Reg.TIM_CALOFF ((s.advance (nextSec s.now)).fld Reg.TIM_UTCOFF 0 16)
    let secs : Int := (u.now / secU : Nat)
    exec .calendarAutoWrite s = done s ((u.setCal ((if u.calMode then secs - u.calOff else secs).toNat * 32768)).setBit Reg.TIM_CALSTAT 0 false)) ∧
  (∀ (s : State) (r : Req) (hold : Bool), s.writes r Reg.TIM_CALCTL Reg.TIM_CALCTL 0 →
    let v := putBits s.calCtl 2 1 (b2n hold)
    exec (.calendarHold r hold) s = done s (s.calCtlWrite v) ∧ (s.calCtlWrite v).calHold = hold ∧ (s.calCtlWrite v).calMode = s.calMode ∧
      (s.calCtlWrite v).calAuto = s.calAuto) ∧
  (∀ (s : State) (r : Req), s.writes r Reg.TIM_CALCTL Reg.TIM_CALCTL 0 →
    let v := putBits s.calCtl 0 1 (b2n (!s.calMode))
    exec (.calendarModeChange r) s = done s (s.calCtlWrite v) ∧ (s.calCtlWrite v).calMode = !s.calMode ∧ (s.calCtlWrite v).calHold = s.calHold ∧
      (s.calCtlWrite v).calAuto = s.calAuto) ∧
  (∀ s : State, exec .oscillatorStopped s = done s s.oscStopped ∧ s.oscStopped.fld Reg.TIM_CALSTAT 0 1 = 1) ∧
  (∀ (s : State) (b : Nat), b = 3 ∨ b = 2 → let u := s.setBit Reg.TIM_INSTAT b false
    let v := if s.inValid b && u.inUsed b then u.raise 775 else u
    exec (.referenceInputLost b) s = done s (if b = 2 then ((({ v with tim := { v.tim with irig := none } } : State).srcInvalid 3)).srcInvalid 2 else v)) ∧
  (∀ s : State, exec .referenceInputReturn s = done s (s.setBit Reg.TIM_INSTAT 3 true)) ∧
  (∀ s : State, exec .ocxoFault s = done s ((s.setBit Reg.TIM_STAT 19 true).raise 773)) ∧
  (∀ s : State, let off : Int := signed 16 (s.rd Reg.TIM_UTCOFF)
    let utc := ((s.now / secU : Nat) - off : Int).toNat
    let midnight := (((utc / 86400 + 1) * 86400 : Nat) + off : Int).toNat
    (s.fld Reg.TIM_UTCOFF 18 2 = 1 → exec .leapSecond s = done s (((s.advance (midnight * secU)).setFld Reg.TIM_UTCOFF 0 16 (unsigned 16 (off + 1))).setFld
      Reg.TIM_UTCOFF 18 2 0)) ∧
    (s.fld Reg.TIM_UTCOFF 18 2 = 2 → exec .leapSecond s = done s (((s.advance ((midnight - 1) * secU)).setFld Reg.TIM_UTCOFF 0 16 (unsigned 16 (off - 1))).setFld
      Reg.TIM_UTCOFF 18 2 0)) ∧
    (s.fld Reg.TIM_UTCOFF 18 2 = 0 → exec .leapSecond s = done s s)) ∧
  ∀ (s : State) (t : Nat), s.mono ≤ t → let u := s.advanceMono t
    let f : Int := max (-1000000) (min 1000000 (signed 32 (s.rd Reg.TIM_FREQ)))
    let base := (t - s.mono) * (1000000000 + f).toNat / 1000000000
    let gone := min s.slewLeft ((t - s.mono) * s.fld Reg.TIM_CFG 21 10 / 1000000)
    u.mono = t ∧ (s.tim.slew = none → u.now = s.now + base) ∧
    ∀ (t0 : Nat) (x : Int), s.tim.slew = some (t0, x) →
      s.slewLeft = x.natAbs - (s.mono - t0) * s.fld Reg.TIM_CFG 21 10 / 1000000 ∧
      (0 < x → u.now + gone = s.now + base) ∧ (x ≤ 0 → u.now = s.now + base + gone)

/-- On an enabled controller a data frame is counted as unmatched where no object matches, and otherwise delivered to the lowest object that does: stored,
and as the object says acted on at high priority, installed and put on the ring. A remote frame is counted. The frame on the bus completes with its
count, stamp and OBJSTAT. An error moves the counters by what it is given; at 256 the controller is off the bus with F0896 + k. It rejoins with
AUTOREC or after RECOVER. TXREQ stages OBJDATA on a mode 0 object; TXPER stages the rows. Writes of CAN_CTL set the mode, capture, disable (dropping
what is staged) and enable; a transceiver fault fires F0992 + k. -/
def Obligations.CanSendsReceivesAndRecovers : Prop :=
  (∀ (s : State) (k : Nat) (f : CanFrame) (arb : Bool), s.canOwner k = none ∨ s.canEnabled k = false → exec (.canFrameReceived k f arb) s = done s s) ∧
  (∀ (s : State) (k : Nat) (f : CanFrame) (arb : Bool), (s.canOwner k).isSome = true → s.canEnabled k = true → (s.canCtl k).bus = none →
    let u := (s.canRecOk k).canErrState k
    (f.rtr = true → exec (.canFrameReceived k f arb) s = done s ((u.bump (Reg.CAN_REMOTE k) 1).canAfter k)) ∧
    (f.rtr = false → (u.canObjs k).find? (fun j => u.canMatch k j f) = none →
      exec (.canFrameReceived k f arb) s = done s ((u.bump (Reg.CAN_RXNOMATCH k) 1).canAfter k)) ∧
    ∀ j lost v, f.rtr = false → (u.canObjs k).find? (fun j => u.canMatch k j f) = some j →
      let stamp := u.sofStamp k f.sof
      (u.bump64 (Reg.CAN_RXCNT k) 1).canStore k (Reg.OBJCFG k j) f stamp = (lost, v) →
      let c := v.objCfg k j
      let w := if bit c 5 then v.canHp k j f stamp else v
      let x := if bit c 6 then w.canInstall k j f stamp else w
      exec (.canFrameReceived k f arb) s = done s ((if bit c 7 && !x.isStandby then x.canRing k j f stamp lost else x).canAfter k)) ∧
  (∀ (s : State) (k sof tdcv : Nat), (s.canCtl k).bus = none → exec (.canFrameSent k sof tdcv) s = done s s) ∧
  (∀ (s : State) (k sof tdcv j dlc : Nat) (data : List Byte), (s.canCtl k).bus = some j → s.fld (Reg.CAN_CFG k) 3 1 = 0 →
    (s.canTx k j).cur = some (dlc, data) →
    let u := ((s.emit (.can k j data)).bump64 (Reg.CAN_TXCNT k) 1).bump (Reg.OBJCNT k j) 1
    let c := s.objCfg k j
    let st := putBits (putBits (putBits (putBits (u.rd (Reg.OBJSTAT k j)) 8 4 dlc) 13 1 (bits c 3 1)) 14 1 (bits c 4 1)) 18 1 1
    let v := (u.wr (Reg.OBJSTAT k j) st).wr (Reg.OBJSOF k j) sof
    let w := v.wr64 (Reg.OBJTIME k j) (u.sofStamp k sof)
    exec (.canFrameSent k sof tdcv) s =
      done s ((((w.setCanCtl k { w.canCtl k with tec := (w.canCtl k).tec - 1 }).canRelease k j).canErrState k).canAfter k)) ∧
  (∀ (s : State) (k dTec dRec : Nat) (ours : Bool), (s.canOwner k).isSome = true → s.canEnabled k = true → (s.canCtl k).bus = none →
    let u := s.bump (Reg.CAN_ERRFRM k) 1
    let v := u.setCanCtl k { u.canCtl k with tec := (u.canCtl k).tec + dTec, recv := min 255 ((u.canCtl k).recv + dRec) }
    exec (.canBusError k dTec dRec ours) s = done s ((v.canErrState k).canAfter k)) ∧
  (∀ (s : State) (k : Nat), s.fld (Reg.CAN_STAT k) 4 2 ≠ 2 → (s.canCtl k).bus = none → 255 < (s.canCtl k).tec →
    let u := (s.setFld (Reg.CAN_ERR k) 0 16 (255 + min (s.canCtl k).recv 255 * 256)).setFld (Reg.CAN_STAT k) 4 2 2
    s.canErrState k = (((u.bump (Reg.CAN_BUSOFF k) 1).setBit (Reg.CAN_STAT k) 16 true).raise (896 + k) 0xFFFF k).canIdle k) ∧
  (∀ (s : State) (k : Nat), (s.canOff k = false → exec (.canRejoin k) s = done s s) ∧
    (s.canOff k = true → (s.fld (Reg.CAN_CFG k) 1 1 = 1 ∨ (s.canCtl k).recovering = true) →
      let u := s.setCanCtl k { s.canCtl k with tec := 0, recv := 0, recovering := false }
      exec (.canRejoin k) s = done s (((u.setFld (Reg.CAN_STAT k) 4 2 0).setFld (Reg.CAN_ERR k) 0 16 0).canIdle k))) ∧
  (∀ (s : State) (r : Req) (k j : Nat), s.writes r (Reg.OBJTXREQ k j) (Reg.OBJTXREQ 0 0) k → k < 32 → j < 128 →
    exec (.canTxreq r k j) s = done s (s.canTxReq k j)) ∧
  (∀ (s : State) (k j : Nat), bit (s.objCfg k j) 0 = true → bit (s.objCfg k j) 1 = true → let dlc := bits (s.objCfg k j) 12 4
    (bits (s.objCfg k j) 10 2 = 0 → s.canTxReq k j = s.canStage k j dlc (((List.range 16).flatMap (fun w => leBytes 4 (s.rd (Reg.OBJDATA k j w)))).take
      (dlcLen (bit (s.objCfg k j) 3) dlc))) ∧
    (bits (s.objCfg k j) 10 2 = 2 → s.canEnabled k = true → exec (.canPeriodicTx k j) s =
      done s ((s.advanceMono ((s.canTx k j).lastAt + msec (bits (s.objCfg k j) 16 16))).canStageRows k j))) ∧
  (∀ (s : State) (r : Req) (k : Nat), s.writes r (Reg.CAN_CTL k) (Reg.CAN_CTL 0) k →
    (s.canCtlNow k = 1 ∨ s.canCtlNow k = 3 → exec (.recover r k) s = done s ((s.canMode k (s.canCtlNow k / 2)).canRecover k)) ∧
    (s.canCtlNow k < 4 → exec (.capreq r k) s = done s ((s.canCapture k).canMode k (s.canCtlNow k / 2))) ∧
    (s.canCtlNow k < 4 → ∀ m, m < 2 → exec (.canModeWrite r k m) s = done s (s.canMode k m)) ∧
    (s.canCtlNow k = 1 ∨ s.canCtlNow k = 3 → exec (.canDisable r k) s = done s ((s.canMode k (s.canCtlNow k / 2)).canDisable k)) ∧
    (s.canCtlNow k = 0 ∨ s.canCtlNow k = 2 → exec (.canEnable r k) s = done s ((s.canMode k (s.canCtlNow k / 2)).canEnable k))) ∧
  (∀ (s : State) (k : Nat), (s.canCapture k).rd (Reg.CAN_CAPCNT k) = s.canCount ∧ (s.canCapture k).rd64 (Reg.CAN_CAPTIME k) = form64 s.now) ∧
  (∀ (s : State) (k : Nat), (s.canDisable k).canEnabled k = true → (s.canDisable k).canDraining k = true) ∧
  (∀ s : State, exec .canCapture s = done s (forEach (List.range 32) (fun s k => s.canCapture k) (s.advance (nextMultiple (msec 1) s.now)))) ∧
  ∀ (s : State) (k : Nat), (s.canOwner k).isSome = true → exec (.transceiverFault k) s = done s ((s.setBit (Reg.CAN_STAT k) 20 true).raise (992 + k) 0xFFFF k)

/-- A downlink frame leaves at the next multiple of 8 µs with the next sequence number; one that arrives resets the sill's miss count, another is counted
missed. An uplink frame that arrives carries the changes queued, at most eight, and one that does not is missed. A change of an input in a supplied
group is queued with its stamp, or lost when 64 wait. Lost refreshes, supplies out of and back in range, output faults and retries, and compliance
lost and restored have the effects of Table 17.13. Calibration is O0's in Stop and Test, within its bounds. A loop's sample commits the pending output
and computes, or is missed; LOP_CTL enables and disables it. -/
def Obligations.FieldIoAndLoopsAct : Prop :=
  (∀ (s : State) (kind : Nat), s.fioOn = false → exec (.barrierDownlink kind) s = done s s) ∧
  (∀ (s : State) (kind : Nat), s.fioOn = true → ∃ t, exec (.barrierDownlink kind) s = done s t ∧ t.now = nextMultiple (us 8) s.now ∧
    t.fio.seq = (s.fio.seq + 1) % 256 ∧ t.fio.cfgIdx = (s.fio.cfgIdx + 1) % 64 ∧
    (kind = 0 → t.fio.downMiss = 0 ∧ t.fio.sillSeen = true ∧ t.fio.sillLost = false ∧ t.fio.lastDown = t.now ∧ t.fio.sp5 = true) ∧
    (kind ≠ 0 → t.fio.downMiss = s.fio.downMiss + 1)) ∧
  (∀ (s : State) (kind term codeA codeB : Nat), (s.fioOn = false ∨ s.fio.inRange = 0 → exec (.barrierUplink kind term codeA codeB) s = done s s) ∧
    (s.fioOn = true → s.fio.inRange ≠ 0 →
      let latch := max s.now (nextMultiple (us 8) (s.now + us 4) - us 4)
      let ready := (s.fio.queue.filter (fun c => decide (c.stamp ≤ latch))).take 8
      ∃ t, exec (.barrierUplink kind term codeA codeB) s = done s t ∧ t.fio.queue = s.fio.queue.filter (fun c => !ready.contains c) ∧
        t.fio.pair = (s.fio.pair + 1) % 8 ∧
        (kind = 0 → t.fio.upMiss = 0 ∧ t.fio.upSeen = true ∧ t.fio.complUp = s.fio.compl) ∧
        (kind ≠ 0 → t.fio.upMiss = s.fio.upMiss + 1 ∧ t.fio.resync = true))) ∧
  (∀ (s : State) (k t : Nat) (new : Bool), s.cfg.dch.find? k = none → exec (.inputChange k new t) s = done s s) ∧
  (∀ (s : State) (k t : Nat) (new : Bool) (d : DRec), s.cfg.dch.find? k = some d →
    ((d.out = true ∨ s.groupOk (dGroup k) = false ∨ bit s.fio.filt k = new) → exec (.inputChange k new t) s = done s s) ∧
    (d.out = false → s.groupOk (dGroup k) = true → bit s.fio.filt k ≠ new → s.fio.sillSeen = true → s.fio.downMiss < 3 → s.fio.sillLost = false →
      let u := s.advance t
      let f := { s.fio with filt := putBits s.fio.filt k 1 (b2n new) }
      let c : FioChg := { ch := k, st := new, stamp := (u.now + us 1 - 1) / us 1 * us 1, lost := s.fio.lostNext, notInStep := false }
      (s.fio.queue.length < 64 → exec (.inputChange k new t) s =
        done s (u.setFio { f with queue := s.fio.queue ++ [c], lostNext := false })) ∧
      (64 ≤ s.fio.queue.length → exec (.inputChange k new t) s =
        done s ((((u.setFio { f with lostNext := true }).bump Reg.FIO_EVTLOST 1).setBit Reg.FIO_STAT 18 true).raise 1113 0xFFFF k)))) ∧
  (∀ s : State, (s.fio.sillSeen = false ∨ s.fio.sillLost = true → exec .sillRefreshLost s = done s s) ∧
    (s.fio.sillSeen = true → s.fio.sillLost = false → (s.fioOn = false ∨ 3 ≤ s.fio.downMiss) →
      let u := s.advance (s.fio.lastDown + us 24)
      exec .sillRefreshLost s =
        done s (u.setFio { s.fio with sillLost := true, sillClaim := 0, sp5 := false, downMiss := max 3 s.fio.downMiss }).linkReg.drivenRegs)) ∧
  (∀ s : State, s.fioOn = false ∨ s.fio.upSeen = false → exec .logicRefreshLost s = done s s) ∧
  (∀ s : State, s.fioOn = true → s.fio.upSeen = true → ∃ t, exec .logicRefreshLost s = done s t ∧
    ∀ g < 4, (3 ≤ s.fio.upMiss ∨ bit s.fio.reporting g = false) → t.fld Reg.FIO_STAT (2 + g) 1 = 1) ∧
  (∀ (s : State) (g volt : Nat), g < 4 → let u := s.wr (Reg.FIO_GVOLT g) (volt % 1024)
    (s.groupOk g = false → exec (.groupSupplyFault g volt) s = done s u) ∧
    (s.groupOk g = true →
      let f := { s.fio with inRange := putBits s.fio.inRange g 1 0, reporting := putBits s.fio.reporting g 1 0 }
      let v := forEach [4 * g, 4 * g + 1, 4 * g + 2, 4 * g + 3] (fun s k => s.complLost k) ((u.setFio f).raise (1028 + g) 0xFFFF g)
      exec (.groupSupplyFault g volt) s = done s (if f.inRange = 0 then v.sillOff else v).linkReg.drivenRegs) ∧
    (s.groupOk g = true → exec (.groupSupplyReturn g volt) s = done s u) ∧
    (s.groupOk g = false →
      let f := { s.fio with inRange := putBits s.fio.inRange g 1 1, reporting := putBits s.fio.reporting g 1 1 }
      exec (.groupSupplyReturn g volt) s =
        done s (u.setFio { f with filt := putBits s.fio.filt (16 * g) 16 0, fresh := g :: s.fio.fresh.filter (· != g) }).drivenRegs)) ∧
  (∀ (s : State) (k kind : Nat) (d : DRec), s.cfg.dch.find? k = some d →
    (d.out = false ∨ s.fld (Reg.FIO_DSTAT k) 2 1 = 0 → exec (.outputFault k kind) s = done s s) ∧
    (d.out = true → s.fld (Reg.FIO_DSTAT k) 2 1 = 1 →
      (kind = 0 → let u := (s.setBit (Reg.FIO_DSTAT k) 3 true).setBit (Reg.FIO_DSTAT k) 17 true
        exec (.outputFault k kind) s = done s ((u.setFio { u.fio with limitAt := u.fio.limitAt.insert k (u.mono + msec 10) }).raise (1048 + k) 0xFFFF k)) ∧
      (kind ≠ 0 → exec (.outputFault k kind) s = done s ((s.setBit (Reg.FIO_DSTAT k) 18 true).raise (1048 + k) 0xFFFF k)))) ∧
  (∀ (s : State) (k t : Nat), s.fio.limitAt.find? k = some t → let u := s.advanceMono t
    exec (.outputRetry k true) s = done s (u.setFio { u.fio with limitAt := u.fio.limitAt.insert k (u.mono + msec 10) }) ∧
    exec (.outputRetry k false) s = done s ((u.setFio { u.fio with limitAt := u.fio.limitAt.erase k }).setBit (Reg.FIO_DSTAT k) 3 false)) ∧
  (∀ (s : State) (k : Nat), (s.rd (Reg.FIO_ASET k) < 2000 ∨ s.fio.driven = false → exec (.complianceLost k) s = done s s) ∧
    (2000 ≤ s.rd (Reg.FIO_ASET k) → s.fio.driven = true → (s.cfg.ach.find? k).isSome = true → bit s.fio.compl k = false →
      let u := s.setFio { s.fio with compl := putBits s.fio.compl k 1 1 }
      exec (.complianceLost k) s = done s ((((u.setBit (Reg.FIO_ASTAT k) 0 true).setBit (Reg.FIO_ASTAT k) 16 true).bump (Reg.FIO_ACOMPL k) 1).raise
        (1032 + k) 0xFFFF k)) ∧
    (bit s.fio.compl k = true → s.groupOk (aGroup k) = true → exec (.complianceRestored k) s =
      done s ((s.setFio { s.fio with compl := putBits s.fio.compl k 1 0 }).setBit (Reg.FIO_ASTAT k) 0 false))) ∧
  (∀ (s : State) (r : Req) (k v : Nat),
    (s.writes r (Reg.FIO_DTHR k) (Reg.FIO_DTHR 0) k → exec (.calibrationWrite r 0 k v) s = done s (s.dthrWrite k (v % 2 ^ 32) (s.reqOwner r == 0))) ∧
    (s.writes r (Reg.FIO_ATRIMG k) (Reg.FIO_ATRIMG 0) k → exec (.calibrationWrite r 1 k v) s = done s (s.trimWrite k (v % 2 ^ 32) true (s.reqOwner r == 0))) ∧
    (s.writes r (Reg.FIO_ATRIMO k) (Reg.FIO_ATRIMO 0) k → exec (.calibrationWrite r 2 k v) s = done s (s.trimWrite k (v % 2 ^ 32) false (s.reqOwner r == 0))) ∧
    (∀ gain o0, o0 = false ∨ (s.ms.mode ≠ .stop ∧ s.ms.mode ≠ .test) → s.dthrWrite k v o0 = s.setBit Reg.FIO_STAT 19 true ∧
      s.trimWrite k v gain o0 = s.setBit Reg.FIO_STAT 19 true) ∧
    (∀ gain, 3000 < (signed 16 v).natAbs → s.trimWrite k v gain true = s.setBit Reg.FIO_STAT 19 true)) ∧
  (∀ s : State, s.loopsTimed = [] → exec .loopSample s = done s s) ∧
  (∀ (s : State) (i t : Nat), s.loopsTimed = [(i, t)] → let v := s.advance t
    let u := v.setLoop i { v.loop i with next := some (v.loopNext i t) }
    (u.loopRuns i = false → u.fld (Reg.LOP_STAT i) 8 2 = 1 → exec .loopSample s = done s (u.bump (Reg.LOP_MISSED i) 1)) ∧
    (u.fld (Reg.LOP_STAT i) 8 2 = 0 → u.loopRuns i = false → exec .loopSample s = done s u) ∧
    (u.loopRuns i = true → let w := u.loopOut i
      w.loopRuns i = true →
      (w.fld (Reg.LOP_STAT i) 8 2 = 1 → exec .loopSample s = done s (w.loopCompute i t)) ∧
      (2 ≤ w.fld (Reg.LOP_STAT i) 8 2 → exec .loopSample s = done s (w.setFld (Reg.LOP_STAT i) 8 2 0)))) ∧
  (∀ (s : State) (i t : Nat), (s.loop i).weak = false → (s.loop i).bad = false → let u := s.wr64 (Reg.LOP_LASTK i) (form64 t)
    f32.isNan ((u.loopWord (s.loopCfg i).owner (Reg.LOP_PVADDR i) t).getD 0) = true →
    s.loopCompute i t = ((u.setBit (Reg.LOP_STAT i) 20 true).raise (1176 + (s.loopCfg i).owner) 0xFFFF i).loopStatus i t (s.loopCfg i) true false 0) ∧
  ∀ (s : State) (r : Req) (i : Nat), s.writes r (Reg.LOP_CTL i) (Reg.LOP_CTL 0) i →
    (s.loopDef i = true → let u := (s.setBit (Reg.LOP_CTL i) 0 true).setFld (Reg.LOP_STAT i) 8 2 1
      exec (.loopEnable r i) s = done s (u.setLoop i { u.loop i with init := true, pend := none })) ∧
    let u := s.setBit (Reg.LOP_CTL i) 0 false
    ((u.fld (Reg.LOP_STAT i) 8 1 = 0 → exec (.loopDisable r i) s = done s u) ∧
      (u.fld (Reg.LOP_STAT i) 8 1 = 1 → (s.loop i).pend.isSome = true → exec (.loopDisable r i) s = done s (u.setBit (Reg.LOP_STAT i) 9 true)) ∧
      (u.fld (Reg.LOP_STAT i) 8 1 = 1 → (s.loop i).pend = none → exec (.loopDisable r i) s = done s (u.setFld (Reg.LOP_STAT i) 8 2 0)))

/-- Selecting a region locks the port, and unlocks it at once where the direction has no password. A password that opens the direction unlocks the port
and clears the failures; the eighth wrong one in a row locks the region out with F1667. Data goes through an unlocked port at its offset, which
advances by 4; SETRD and SETWR set the passwords through a port unlocked for writing. ALM writes the oldest waiting record as the next, unless frozen,
and checkpoints its counts every 3600 s of operation. A sample sets the sensor registers; a temperature over its warning fires once. MGT_LOGSEL gives
an entry's words or SELBAD. GO starts a restore-factory only in Stop, with the region's write password; its end erases the user calibration. -/
def Obligations.NvsAlmanacAndManagementAct : Prop :=
  (∀ (s : State) (r : Req) (n region dir : Nat), n < 8 → s.writes r (Reg.NVS_PSEL n) (Reg.NVS_PSEL 0) n → region < 64 → dir < 2 →
    ∃ t, exec (.nvsPsel r n region dir) s = done s t ∧ t.portRegion n = region ∧ t.portDir n = (dir == 1) ∧
      t.portUnlocked n = (s.portReach n region && !s.nvs.locked.contains region && (if dir = 1 then s.pwWrite region else s.pwRead region) == 0)) ∧
  (∀ (s : State) (n pw : Nat) (h h2 : RegHit), pw < 2 ^ 64 → s.busCheck .mgt (Reg.NVS_PPWD n) true = .ok h → s.busCheck .mgt (Reg.NVS_PPWD_H n) true = .ok h2 →
    h.desc.base = Reg.NVS_PPWD 0 → h2.desc.base = Reg.NVS_PPWD_H 0 → h.shadow = false → h2.shadow = false → h2.i = n → h.desc.pair = .lo → h2.desc.pair = .hi →
    h.desc.rw ||| h.desc.wo = 0xFFFFFFFF → h2.desc.rw ||| h2.desc.wo = 0xFFFFFFFF → s.itemDefined (Reg.NVS_PPWD n) h = true →
    s.itemDefined (Reg.NVS_PPWD_H n) h2 = true → blockOf (Reg.NVS_PPWD n) ≠ 0 → blockOf (Reg.NVS_PPWD_H n) ≠ 0 →
    exec (.nvsPpwd .mgt n pw) s = done s (((s.setReqLat .mgt { s.reqLat .mgt with lo := none }).wr64 (Reg.NVS_PPWD n) pw).portPassword n pw)) ∧
  (∀ (s : State) (n pw : Nat), n < 8 → let r := s.portRegion n
    (s.portReach n r = false ∨ s.portUnlocked n = true ∨ s.nvs.locked.contains r = true → s.portPassword n pw = s.portBad n) ∧
    (s.portReach n r = true → s.portUnlocked n = false → s.nvs.locked.contains r = false →
      (s.pwOpens r (s.portDir n) pw = true → (s.portPassword n pw).portUnlocked n = true ∧ (s.portPassword n pw).nvs.fails = s.nvs.fails.erase r) ∧
      (s.pwOpens r (s.portDir n) pw = false → (s.portPassword n pw).portUnlocked n = false ∧
        (s.portPassword n pw).nvs.fails = s.nvs.fails.set 0 r (s.nvs.fails.get 0 r + 1) ∧
        (7 ≤ s.nvs.fails.get 0 r ↔ (s.portPassword n pw).nvs.locked.contains r = true)))) ∧
  (∀ (s : State) (r : Req) (n : Nat) (h : RegHit), s.reqLive r = true → s.busCheck r (Reg.NVS_PDATA n) false = .ok h → h.desc.base = Reg.NVS_PDATA 0 → h.i = n →
    h.desc.scope = .own → blockOf (Reg.NVS_PDATA n) ≠ 0 →
    exec (.nvsPdataRead r n) s = done s ((s.portRead n).2.emit (.reg (Reg.NVS_PDATA n) (s.portRead n).1 0))) ∧
  (∀ (s : State) (n : Nat), (s.portOk n false = false → s.portRead n = (0, s.portBad n)) ∧
    (s.portOk n false = true →
      let as := s.nvsAddrs (s.portRegion n) (s.rd (Reg.NVS_POFF n)) 4
      (∀ w ∈ nvsWords as, w ∉ s.nvs.badWords ∧ w ∉ s.nvs.weakWords) → s.portRead n = (leNat (as.map (fun a => s.nvs.mem.get 0 a)), s.portStep n))) ∧
  (∀ (s : State) (r : Req) (n v : Nat), s.writes r (Reg.NVS_PDATA n) (Reg.NVS_PDATA 0) n →
    (s.portOk n true = false → exec (.nvsPdataWrite r n v) s = done s (s.portBad n)) ∧
    (s.portOk n true = true → exec (.nvsPdataWrite r n v) s =
      done s ((s.nvsWrite (s.portRegion n) (s.rd (Reg.NVS_POFF n)) (leBytes 4 (v % 2 ^ 32))).portStep n))) ∧
  (∀ (s : State) (r : Req) (n : Nat), s.writes r (Reg.NVS_PCMD n) (Reg.NVS_PCMD 0) n → let g := s.portRegion n
    (s.portCmdOk n = false → exec (.setrd r n) s = done s (s.portBad n) ∧ exec (.setwr r n) s = done s (s.portBad n)) ∧
    (s.portCmdOk n = true →
      exec (.setrd r n) s = done s ((s.setNvs { s.nvs with pwRd := s.nvs.pwRd.set 0 g (s.portNew n) }).nvsRegs g) ∧
      exec (.setwr r n) s = done s ((s.setNvs { s.nvs with pwWr := s.nvs.pwWr.set 0 g (s.portNew n) }).nvsRegs g))) ∧
  (∀ s : State, s.alm.fifo = [] ∨ s.alm.writing = false ∨ s.alm.frozenBy.isSome = true → exec .almanacWrite s = done s s) ∧
  (∀ (s : State) (x : AlmRec) (rest : List AlmRec), s.alm.fifo = x :: rest → s.alm.writing = true → s.alm.frozenBy = none → s.almHeld < 16777216 →
    let n := s.rd Reg.ALM_NEXT
    let u := (s.stage 1 32 (.alm n { x with qual := putBits x.qual 4 1 (b2n s.alm.lostBefore) })).setAlm
      { s.alm with fifo := rest, lostBefore := false, wrapped := s.alm.wrapped || decide (n + 1 = almMod) }
    exec .almanacWrite s = done s ((u.wr Reg.ALM_NEXT ((n + 1) % almMod)).wr Reg.ALM_FIFO rest.length)) ∧
  (∀ s : State, (s.alm.writing = false → exec .almanacCheckpoint s = done s s) ∧
    (s.alm.writing = true → ∃ t, exec .almanacCheckpoint s = done s t ∧ t.alm.ckptB = s.alm.ckptA ∧ t.alm.lastCkpt = t.mono ∧
      s.alm.lastCkpt + 3600 * 1000000000 * 65536 ≤ t.mono ∧
      t.alm.ckptA = some { secs := t.opSecs, cycles := s.rd Reg.ALM_CYCLES, wrapped := s.alm.wrapped })) ∧
  (∀ (s : State) (x : Sensors), (s.ms.mode = .backup → exec (.sensorSample x) s = done s s) ∧
    (s.ms.mode ≠ .backup → ∃ t, exec (.sensorSample x) s = done s t ∧ (x.volts = [] → s.mgt.sampled + msec 1 ≤ t.mono ∧ t.mgt.sampled = t.mono) ∧
      t.rd Reg.MGT_VIN = x.vin % 4096 ∧ t.rd Reg.MGT_IIN = x.iin % 65536 ∧ t.rd Reg.MGT_PIN = x.pin % 8192 ∧ t.rd Reg.MGT_V48 = x.v48 % 8192 ∧
      t.pw.inputV = x.vin)) ∧
  (∀ (s : State) (t : Nat) (v : Int), 16 ≤ t → (tempLimits t).1 < v → v ≤ (tempLimits t).2.1 → (tempLimits t).2.1 - (tempLimits t).2.2 < v →
    let u := s.wr (Reg.MGT_TEMP t) (unsigned 16 v)
    (t ∉ s.mgt.warn → s.tempSample t v = (u.setMgt { s.mgt with warn := t :: s.mgt.warn }).crossing (some t) 1922) ∧
    (t ∈ s.mgt.warn → s.tempSample t v = u)) ∧
  (∀ (s : State) (c : Nat), (s.ms.mode = .backup ∨ s.ms.begun = false → exec (.bankMeasure c) s = done s s) ∧
    (s.ms.mode ≠ .backup → s.ms.begun = true → exec (.bankMeasure c) s = done s ((s.advanceMono (s.mgt.lastBank + 86400 * secU)).bankMeasured c))) ∧
  (∀ (s : State) (r : Req) (num : Nat), s.writes r Reg.MGT_LOGSEL Reg.MGT_LOGSEL 0 → num < 2 ^ 32 → ∃ t, exec (.mgtLogsel r num) s = done s t ∧
    t.rd Reg.MGT_LOGSEL = num ∧
    (∀ e, s.sto.ack.mlog.find? (num % 4096) = some e → e.num = num → t.fld Reg.MGT_LOGSTAT 0 1 = 0 ∧
      ∀ w < 8, t.rd (Reg.MGT_LOGDATA w) = field (mgtBytesOf e) (4 * w) 4) ∧
    ((∀ e, s.sto.ack.mlog.find? (num % 4096) = some e → e.num ≠ num) → t.fld Reg.MGT_LOGSTAT 0 1 = 1 ∧ ∀ w < 8, t.rd (Reg.MGT_LOGDATA w) = 0)) ∧
  (∀ (s : State) (r : Req), s.writes r Reg.MGT_FACTCMD Reg.MGT_FACTCMD 0 → let g := s.cfg.mode.factreg
    (s.fld Reg.MGT_FACTSTAT 0 1 = 1 → exec (.go r) s = done s s) ∧
    (s.fld Reg.MGT_FACTSTAT 0 1 = 0 → s.ms.mode ≠ .stop → exec (.go r) s = done s (s.factOutcome 2)) ∧
    (s.fld Reg.MGT_FACTSTAT 0 1 = 0 → s.ms.mode = .stop →
      (g = 255 ∨ (s.region g).defined = false ∨ (s.region g).owner ≠ 0 → exec (.go r) s = done s (s.factOutcome 3)) ∧
      (g ≠ 255 → (s.region g).defined = true → (s.region g).owner = 0 →
        (s.nvs.locked.contains g = true → exec (.go r) s = done s (s.factOutcome 5)) ∧
        (s.nvs.locked.contains g = false → s.pwOpens g true (s.rd64 Reg.MGT_FACTPWD) = true → exec (.go r) s =
          done s (((s.setNvs { s.nvs with fails := s.nvs.fails.erase g }).nvsRegs g).setBit Reg.MGT_FACTSTAT 0 true)) ∧
        (s.nvs.locked.contains g = false → s.pwOpens g true (s.rd64 Reg.MGT_FACTPWD) = false → exec (.go r) s = done s ((s.pwWrong g).factOutcome 4))))) ∧
  ∀ s : State, (s.fld Reg.MGT_FACTSTAT 0 1 = 0 → exec .restoreFactoryDone s = done s s) ∧
    (s.fld Reg.MGT_FACTSTAT 0 1 = 1 → ∃ t, exec .restoreFactoryDone s = done s t ∧ s.now ≤ t.now ∧ t.now ≤ s.now + msec 1 ∧
      t.nvs.sys = { s.nvs.sys with dthr := [], trimG := [], trimO := [], ocxo := 0 } ∧ t.fld Reg.MGT_FACTSTAT 0 1 = 0 ∧ t.fld Reg.MGT_FACTSTAT 8 8 = 1)

/-- Right after reset the module is in Lean, no owner but O0 exists, O0 is Stopped, every register stands at its reset value, no row, line, frame or
record is held and every memory is in canonical form, no source has fired and no command waits; time, skew and the numbering of open values stand at 0
(the model's choice, log entries 5, 7 and 8). -/
def Obligations.ResetLeavesLean : Prop :=
  State.reset.ms.mode = .lean ∧ State.reset.regs = [] ∧ (∀ a, State.reset.rd a = regReset a) ∧ (State.reset.owner 0).st = .stopped ∧
  State.reset.pending = [] ∧ State.reset.raised = [] ∧ State.reset.img.rows = [] ∧ State.reset.mmu.frames = [] ∧ State.reset.mmu.tbl = [] ∧
  State.reset.sto.ack = {} ∧ State.reset.alm.fifo = [] ∧ State.reset.now = 0 ∧ State.reset.skew = 0 ∧ State.reset.free = 0 ∧
  State.reset.regsWf = true ∧ State.reset.memoryWf = true ∧ State.reset.queueWf = true ∧ step State.reset = .next State.reset

/-- In whatever state the module is: if its stored registers are in canonical form (addresses strictly rising, no entry equal to its reset value, every
value of 32 bits), every step leaves them so; and if every waiting command is well-formed, every step leaves only well-formed commands waiting. -/
def Obligations.StepsKeepRegistersAndQueueInForm : Prop :=
  stepKeeps (fun s => s.regsWf = true) ∧ stepKeeps (fun s => s.queueWf = true)
end

