-- ==== Sys2Proof/Laws/Map.lean ====
section
/-! SUPPORT. The sparse maps: what a key reads as after an operation, and that every operation keeps the canonical form. -/
namespace Sys2Proof

theorem find_insert_same {α : Type} (m : SMap α) (k : Nat) (v : α) : SMap.find? (m.insert k v) k = some v := by
  induction m with
  | nil => simp [SMap.insert, SMap.find?]
  | cons p rest ih =>
    obtain ⟨j, w⟩ := p
    unfold SMap.insert
    split
    · simp [SMap.find?]
    · split
      · simp [SMap.find?]
      · rename_i h1 h2
        simp [SMap.find?, Ne.symm h2, ih]

theorem find_insert_other {α : Type} (m : SMap α) {k j : Nat} (v : α) (h : j ≠ k) : SMap.find? (m.insert k v) j = SMap.find? m j := by
  induction m with
  | nil => simp [SMap.insert, SMap.find?, Ne.symm h]
  | cons p rest ih =>
    obtain ⟨i, w⟩ := p
    unfold SMap.insert
    split
    · simp [SMap.find?, Ne.symm h]
    · split
      · rename_i h2; subst h2; simp [SMap.find?, Ne.symm h]
      · simp only [SMap.find?, ih]

theorem find_erase_same {α : Type} (m : SMap α) (k : Nat) : SMap.find? (m.erase k) k = none := by
  induction m with
  | nil => rfl
  | cons p rest ih =>
    obtain ⟨i, w⟩ := p
    unfold SMap.erase at ih ⊢
    by_cases h : i = k
    · subst h; simpa using ih
    · simp [h, SMap.find?, ih]

theorem find_erase_other {α : Type} (m : SMap α) {k j : Nat} (h : j ≠ k) : SMap.find? (m.erase k) j = SMap.find? m j := by
  induction m with
  | nil => rfl
  | cons p rest ih =>
    obtain ⟨i, w⟩ := p
    unfold SMap.erase at ih ⊢
    by_cases h2 : i = k
    · subst h2; simp only [bne_self_eq_false, Bool.false_eq_true, not_false_eq_true, List.filter_cons_of_neg, SMap.find?, Ne.symm h, if_false]; exact ih
    · simp [h2, SMap.find?, ih]

/-- A key that is written reads as the value written. -/
@[simp] theorem get_set_same {α : Type} [DecidableEq α] (d : α) (m : SMap α) (k : Nat) (v : α) : (m.set d k v).get d k = v := by
  unfold SMap.set SMap.get
  split
  · rename_i h; rw [find_erase_same, h]; rfl
  · rw [find_insert_same]; rfl

/-- Every other key reads as before. -/
theorem get_set_other {α : Type} [DecidableEq α] (d : α) (m : SMap α) {k j : Nat} (v : α) (h : j ≠ k) : (m.set d k v).get d j = m.get d j := by
  unfold SMap.set SMap.get
  split
  · rw [find_erase_other _ h]
  · rw [find_insert_other _ _ h]

theorem sortedFrom_mono {α : Type} {m : SMap α} {a b : Nat} (h : a ≤ b) (hm : SMap.sortedFrom b m = true) : SMap.sortedFrom a m = true := by
  cases m with
  | nil => rfl
  | cons p rest =>
    simp only [SMap.sortedFrom, Bool.and_eq_true, decide_eq_true_eq] at hm ⊢
    exact ⟨by omega, hm.2⟩

theorem sortedFrom_insert {α : Type} {m : SMap α} {lo k : Nat} {v : α} (hk : lo ≤ k) (h : SMap.sortedFrom lo m = true) :
    SMap.sortedFrom lo (m.insert k v) = true := by
  induction m generalizing lo with
  | nil => simp [SMap.insert, SMap.sortedFrom, hk]
  | cons p rest ih =>
    obtain ⟨i, w⟩ := p
    simp only [SMap.sortedFrom, Bool.and_eq_true, decide_eq_true_eq] at h
    unfold SMap.insert
    split
    · rename_i h1
      simp only [SMap.sortedFrom, Bool.and_eq_true, decide_eq_true_eq]
      exact ⟨hk, by omega, h.2⟩
    · split
      · rename_i h1 h2; subst h2
        simp only [SMap.sortedFrom, Bool.and_eq_true, decide_eq_true_eq]
        exact ⟨hk, h.2⟩
      · simp only [SMap.sortedFrom, Bool.and_eq_true, decide_eq_true_eq]
        exact ⟨h.1, ih (by omega) h.2⟩

theorem sortedFrom_filter {α : Type} {m : SMap α} {lo : Nat} (p : Nat × α → Bool) (h : SMap.sortedFrom lo m = true) :
    SMap.sortedFrom lo (m.filter p) = true := by
  induction m generalizing lo with
  | nil => rfl
  | cons e rest ih =>
    obtain ⟨i, w⟩ := e
    simp only [SMap.sortedFrom, Bool.and_eq_true, decide_eq_true_eq] at h
    rw [List.filter_cons]
    split
    · simp only [SMap.sortedFrom, Bool.and_eq_true, decide_eq_true_eq]
      exact ⟨h.1, ih h.2⟩
    · exact sortedFrom_mono (by omega) (ih h.2)

theorem mem_insert {α : Type} {m : SMap α} {k : Nat} {v : α} {e : Nat × α} (h : e ∈ m.insert k v) : e = (k, v) ∨ e ∈ m := by
  induction m with
  | nil => simpa [SMap.insert] using h
  | cons p rest ih =>
    obtain ⟨i, w⟩ := p
    unfold SMap.insert at h
    split at h
    · simpa using h
    · split at h
      · rcases List.mem_cons.1 h with h | h
        · exact .inl h
        · exact .inr (List.mem_cons_of_mem _ h)
      · rcases List.mem_cons.1 h with h | h
        · exact .inr (h ▸ List.mem_cons_self)
        · rcases ih h with h | h
          · exact .inl h
          · exact .inr (List.mem_cons_of_mem _ h)

/-- Writing a key keeps the canonical form. -/
theorem wf_set {α : Type} [DecidableEq α] {d : Nat → α} {m : SMap α} {k : Nat} {v : α} (h : m.wf d = true) : (SMap.set (d k) m k v).wf d = true := by
  simp only [SMap.wf, Bool.and_eq_true, List.all_eq_true, Bool.not_eq_true', decide_eq_false_iff_not] at h ⊢
  unfold SMap.set
  split
  · exact ⟨sortedFrom_filter _ h.1, fun e he => h.2 e (List.mem_of_mem_filter he)⟩
  · rename_i hv
    refine ⟨sortedFrom_insert (Nat.zero_le _) h.1, fun e he => ?_⟩
    rcases mem_insert he with he | he
    · subst he; exact hv
    · exact h.2 e he

/-- Keeping some of the entries keeps the canonical form. -/
theorem wf_filter {α : Type} [DecidableEq α] {d : Nat → α} {m : SMap α} (p : Nat × α → Bool) (h : m.wf d = true) : SMap.wf d (m.filter p) = true := by
  simp only [SMap.wf, Bool.and_eq_true, List.all_eq_true] at h ⊢
  exact ⟨sortedFrom_filter _ h.1, fun e he => h.2 e (List.mem_of_mem_filter he)⟩

end Sys2Proof
end

