-- ==== Sys2Proof/Laws/State.lean ====
section
/-! SUPPORT. What the named updates leave alone, one field at a time: true by rfl, so that no proof unfolds a record update. -/
namespace Sys2Proof.Machine.State

/-! ### wr -/
@[simp] theorem wr_pending (s : State) (a v : Nat) : (s.wr a v).pending = s.pending := rfl
@[simp] theorem wr_now (s : State) (a v : Nat) : (s.wr a v).now = s.now := rfl
@[simp] theorem wr_skew (s : State) (a v : Nat) : (s.wr a v).skew = s.skew := rfl
@[simp] theorem wr_free (s : State) (a v : Nat) : (s.wr a v).free = s.free := rfl
@[simp] theorem wr_raised (s : State) (a v : Nat) : (s.wr a v).raised = s.raised := rfl
@[simp] theorem wr_out (s : State) (a v : Nat) : (s.wr a v).out = s.out := rfl
@[simp] theorem wr_ms (s : State) (a v : Nat) : (s.wr a v).ms = s.ms := rfl
@[simp] theorem wr_pw (s : State) (a v : Nat) : (s.wr a v).pw = s.pw := rfl
@[simp] theorem wr_cfg (s : State) (a v : Nat) : (s.wr a v).cfg = s.cfg := rfl
@[simp] theorem wr_owners (s : State) (a v : Nat) : (s.wr a v).owners = s.owners := rfl
@[simp] theorem wr_engines (s : State) (a v : Nat) : (s.wr a v).engines = s.engines := rfl
@[simp] theorem wr_bents (s : State) (a v : Nat) : (s.wr a v).bents = s.bents := rfl
@[simp] theorem wr_tasks (s : State) (a v : Nat) : (s.wr a v).tasks = s.tasks := rfl
@[simp] theorem wr_prog (s : State) (a v : Nat) : (s.wr a v).prog = s.prog := rfl
@[simp] theorem wr_progBad (s : State) (a v : Nat) : (s.wr a v).progBad = s.progBad := rfl
@[simp] theorem wr_progWeak (s : State) (a v : Nat) : (s.wr a v).progWeak = s.progWeak := rfl
@[simp] theorem wr_relHold (s : State) (a v : Nat) : (s.wr a v).relHold = s.relHold := rfl
@[simp] theorem wr_epochMax (s : State) (a v : Nat) : (s.wr a v).epochMax = s.epochMax := rfl
@[simp] theorem wr_img (s : State) (a v : Nat) : (s.wr a v).img = s.img := rfl
@[simp] theorem wr_mmu (s : State) (a v : Nat) : (s.wr a v).mmu = s.mmu := rfl
@[simp] theorem wr_sto (s : State) (a v : Nat) : (s.wr a v).sto = s.sto := rfl
@[simp] theorem wr_flt (s : State) (a v : Nat) : (s.wr a v).flt = s.flt := rfl
@[simp] theorem wr_wdg (s : State) (a v : Nat) : (s.wr a v).wdg = s.wdg := rfl
@[simp] theorem wr_nvs (s : State) (a v : Nat) : (s.wr a v).nvs = s.nvs := rfl
@[simp] theorem wr_alm (s : State) (a v : Nat) : (s.wr a v).alm = s.alm := rfl
@[simp] theorem wr_mgt (s : State) (a v : Nat) : (s.wr a v).mgt = s.mgt := rfl
@[simp] theorem wr_fio (s : State) (a v : Nat) : (s.wr a v).fio = s.fio := rfl
@[simp] theorem wr_loops (s : State) (a v : Nat) : (s.wr a v).loops = s.loops := rfl
@[simp] theorem wr_net (s : State) (a v : Nat) : (s.wr a v).net = s.net := rfl
@[simp] theorem wr_red (s : State) (a v : Nat) : (s.wr a v).red = s.red := rfl
@[simp] theorem wr_tim (s : State) (a v : Nat) : (s.wr a v).tim = s.tim := rfl
@[simp] theorem wr_can (s : State) (a v : Nat) : (s.wr a v).can = s.can := rfl
@[simp] theorem wr_store (s : State) (a v : Nat) : (s.wr a v).store = s.store := rfl
@[simp] theorem wr_spl (s : State) (a v : Nat) : (s.wr a v).spl = s.spl := rfl
@[simp] theorem wr_lor (s : State) (a v : Nat) : (s.wr a v).lor = s.lor := rfl

/-! ### advance -/
@[simp] theorem advance_pending (s : State) (t : Nat) : (s.advance t).pending = s.pending := rfl
@[simp] theorem advance_skew (s : State) (t : Nat) : (s.advance t).skew = s.skew + s.drift (t - s.now) := rfl
@[simp] theorem advance_free (s : State) (t : Nat) : (s.advance t).free = s.free := rfl
@[simp] theorem advance_regs (s : State) (t : Nat) : (s.advance t).regs = s.regs := rfl
@[simp] theorem advance_raised (s : State) (t : Nat) : (s.advance t).raised = s.raised := rfl
@[simp] theorem advance_out (s : State) (t : Nat) : (s.advance t).out = s.out := rfl
@[simp] theorem advance_ms (s : State) (t : Nat) : (s.advance t).ms = s.ms := rfl
@[simp] theorem advance_pw (s : State) (t : Nat) : (s.advance t).pw = s.pw := rfl
@[simp] theorem advance_cfg (s : State) (t : Nat) : (s.advance t).cfg = s.cfg := rfl
@[simp] theorem advance_owners (s : State) (t : Nat) : (s.advance t).owners = s.owners := rfl
@[simp] theorem advance_engines (s : State) (t : Nat) : (s.advance t).engines = s.engines := rfl
@[simp] theorem advance_bents (s : State) (t : Nat) : (s.advance t).bents = s.bents := rfl
@[simp] theorem advance_tasks (s : State) (t : Nat) : (s.advance t).tasks = s.tasks := rfl
@[simp] theorem advance_prog (s : State) (t : Nat) : (s.advance t).prog = s.prog := rfl
@[simp] theorem advance_progBad (s : State) (t : Nat) : (s.advance t).progBad = s.progBad := rfl
@[simp] theorem advance_progWeak (s : State) (t : Nat) : (s.advance t).progWeak = s.progWeak := rfl
@[simp] theorem advance_relHold (s : State) (t : Nat) : (s.advance t).relHold = s.relHold := rfl
@[simp] theorem advance_epochMax (s : State) (t : Nat) : (s.advance t).epochMax = s.epochMax := rfl
@[simp] theorem advance_img (s : State) (t : Nat) : (s.advance t).img = s.img := rfl
@[simp] theorem advance_mmu (s : State) (t : Nat) : (s.advance t).mmu = s.mmu := rfl
@[simp] theorem advance_sto (s : State) (t : Nat) : (s.advance t).sto = s.sto := rfl
@[simp] theorem advance_flt (s : State) (t : Nat) : (s.advance t).flt = s.flt := rfl
@[simp] theorem advance_wdg (s : State) (t : Nat) : (s.advance t).wdg = s.wdg := rfl
@[simp] theorem advance_nvs (s : State) (t : Nat) : (s.advance t).nvs = s.nvs := rfl
@[simp] theorem advance_alm (s : State) (t : Nat) : (s.advance t).alm = s.alm := rfl
@[simp] theorem advance_mgt (s : State) (t : Nat) : (s.advance t).mgt = s.mgt := rfl
@[simp] theorem advance_fio (s : State) (t : Nat) : (s.advance t).fio = s.fio := rfl
@[simp] theorem advance_loops (s : State) (t : Nat) : (s.advance t).loops = s.loops := rfl
@[simp] theorem advance_net (s : State) (t : Nat) : (s.advance t).net = s.net := rfl
@[simp] theorem advance_red (s : State) (t : Nat) : (s.advance t).red = s.red := rfl
@[simp] theorem advance_tim (s : State) (t : Nat) : (s.advance t).tim = s.tim := rfl
@[simp] theorem advance_can (s : State) (t : Nat) : (s.advance t).can = s.can := rfl
@[simp] theorem advance_store (s : State) (t : Nat) : (s.advance t).store = s.store := rfl
@[simp] theorem advance_spl (s : State) (t : Nat) : (s.advance t).spl = s.spl := rfl
@[simp] theorem advance_lor (s : State) (t : Nat) : (s.advance t).lor = s.lor := rfl

/-! ### wr64 -/
@[simp] theorem wr64_pending (s : State) (a v : Nat) : (s.wr64 a v).pending = s.pending := (wr_pending _ _ _).trans (wr_pending _ _ _)
@[simp] theorem wr64_now (s : State) (a v : Nat) : (s.wr64 a v).now = s.now := (wr_now _ _ _).trans (wr_now _ _ _)
@[simp] theorem wr64_skew (s : State) (a v : Nat) : (s.wr64 a v).skew = s.skew := (wr_skew _ _ _).trans (wr_skew _ _ _)
@[simp] theorem wr64_free (s : State) (a v : Nat) : (s.wr64 a v).free = s.free := (wr_free _ _ _).trans (wr_free _ _ _)
@[simp] theorem wr64_raised (s : State) (a v : Nat) : (s.wr64 a v).raised = s.raised := (wr_raised _ _ _).trans (wr_raised _ _ _)
@[simp] theorem wr64_out (s : State) (a v : Nat) : (s.wr64 a v).out = s.out := (wr_out _ _ _).trans (wr_out _ _ _)
@[simp] theorem wr64_ms (s : State) (a v : Nat) : (s.wr64 a v).ms = s.ms := (wr_ms _ _ _).trans (wr_ms _ _ _)
@[simp] theorem wr64_pw (s : State) (a v : Nat) : (s.wr64 a v).pw = s.pw := (wr_pw _ _ _).trans (wr_pw _ _ _)
@[simp] theorem wr64_cfg (s : State) (a v : Nat) : (s.wr64 a v).cfg = s.cfg := (wr_cfg _ _ _).trans (wr_cfg _ _ _)
@[simp] theorem wr64_owners (s : State) (a v : Nat) : (s.wr64 a v).owners = s.owners := (wr_owners _ _ _).trans (wr_owners _ _ _)
@[simp] theorem wr64_engines (s : State) (a v : Nat) : (s.wr64 a v).engines = s.engines := (wr_engines _ _ _).trans (wr_engines _ _ _)
@[simp] theorem wr64_bents (s : State) (a v : Nat) : (s.wr64 a v).bents = s.bents := (wr_bents _ _ _).trans (wr_bents _ _ _)
@[simp] theorem wr64_tasks (s : State) (a v : Nat) : (s.wr64 a v).tasks = s.tasks := (wr_tasks _ _ _).trans (wr_tasks _ _ _)
@[simp] theorem wr64_prog (s : State) (a v : Nat) : (s.wr64 a v).prog = s.prog := (wr_prog _ _ _).trans (wr_prog _ _ _)
@[simp] theorem wr64_progBad (s : State) (a v : Nat) : (s.wr64 a v).progBad = s.progBad := (wr_progBad _ _ _).trans (wr_progBad _ _ _)
@[simp] theorem wr64_progWeak (s : State) (a v : Nat) : (s.wr64 a v).progWeak = s.progWeak := (wr_progWeak _ _ _).trans (wr_progWeak _ _ _)
@[simp] theorem wr64_relHold (s : State) (a v : Nat) : (s.wr64 a v).relHold = s.relHold := (wr_relHold _ _ _).trans (wr_relHold _ _ _)
@[simp] theorem wr64_epochMax (s : State) (a v : Nat) : (s.wr64 a v).epochMax = s.epochMax := (wr_epochMax _ _ _).trans (wr_epochMax _ _ _)
@[simp] theorem wr64_img (s : State) (a v : Nat) : (s.wr64 a v).img = s.img := (wr_img _ _ _).trans (wr_img _ _ _)
@[simp] theorem wr64_mmu (s : State) (a v : Nat) : (s.wr64 a v).mmu = s.mmu := (wr_mmu _ _ _).trans (wr_mmu _ _ _)
@[simp] theorem wr64_sto (s : State) (a v : Nat) : (s.wr64 a v).sto = s.sto := (wr_sto _ _ _).trans (wr_sto _ _ _)
@[simp] theorem wr64_flt (s : State) (a v : Nat) : (s.wr64 a v).flt = s.flt := (wr_flt _ _ _).trans (wr_flt _ _ _)
@[simp] theorem wr64_wdg (s : State) (a v : Nat) : (s.wr64 a v).wdg = s.wdg := (wr_wdg _ _ _).trans (wr_wdg _ _ _)
@[simp] theorem wr64_nvs (s : State) (a v : Nat) : (s.wr64 a v).nvs = s.nvs := (wr_nvs _ _ _).trans (wr_nvs _ _ _)
@[simp] theorem wr64_alm (s : State) (a v : Nat) : (s.wr64 a v).alm = s.alm := (wr_alm _ _ _).trans (wr_alm _ _ _)
@[simp] theorem wr64_mgt (s : State) (a v : Nat) : (s.wr64 a v).mgt = s.mgt := (wr_mgt _ _ _).trans (wr_mgt _ _ _)
@[simp] theorem wr64_fio (s : State) (a v : Nat) : (s.wr64 a v).fio = s.fio := (wr_fio _ _ _).trans (wr_fio _ _ _)
@[simp] theorem wr64_loops (s : State) (a v : Nat) : (s.wr64 a v).loops = s.loops := (wr_loops _ _ _).trans (wr_loops _ _ _)
@[simp] theorem wr64_net (s : State) (a v : Nat) : (s.wr64 a v).net = s.net := (wr_net _ _ _).trans (wr_net _ _ _)
@[simp] theorem wr64_red (s : State) (a v : Nat) : (s.wr64 a v).red = s.red := (wr_red _ _ _).trans (wr_red _ _ _)
@[simp] theorem wr64_tim (s : State) (a v : Nat) : (s.wr64 a v).tim = s.tim := (wr_tim _ _ _).trans (wr_tim _ _ _)
@[simp] theorem wr64_can (s : State) (a v : Nat) : (s.wr64 a v).can = s.can := (wr_can _ _ _).trans (wr_can _ _ _)
@[simp] theorem wr64_store (s : State) (a v : Nat) : (s.wr64 a v).store = s.store := (wr_store _ _ _).trans (wr_store _ _ _)
@[simp] theorem wr64_spl (s : State) (a v : Nat) : (s.wr64 a v).spl = s.spl := (wr_spl _ _ _).trans (wr_spl _ _ _)
@[simp] theorem wr64_lor (s : State) (a v : Nat) : (s.wr64 a v).lor = s.lor := (wr_lor _ _ _).trans (wr_lor _ _ _)

/-! ### setFld -/
@[simp] theorem setFld_pending (s : State) (a lo len v : Nat) : (s.setFld a lo len v).pending = s.pending := wr_pending _ _ _
@[simp] theorem setFld_now (s : State) (a lo len v : Nat) : (s.setFld a lo len v).now = s.now := wr_now _ _ _
@[simp] theorem setFld_skew (s : State) (a lo len v : Nat) : (s.setFld a lo len v).skew = s.skew := wr_skew _ _ _
@[simp] theorem setFld_free (s : State) (a lo len v : Nat) : (s.setFld a lo len v).free = s.free := wr_free _ _ _
@[simp] theorem setFld_raised (s : State) (a lo len v : Nat) : (s.setFld a lo len v).raised = s.raised := wr_raised _ _ _
@[simp] theorem setFld_out (s : State) (a lo len v : Nat) : (s.setFld a lo len v).out = s.out := wr_out _ _ _
@[simp] theorem setFld_ms (s : State) (a lo len v : Nat) : (s.setFld a lo len v).ms = s.ms := wr_ms _ _ _
@[simp] theorem setFld_pw (s : State) (a lo len v : Nat) : (s.setFld a lo len v).pw = s.pw := wr_pw _ _ _
@[simp] theorem setFld_cfg (s : State) (a lo len v : Nat) : (s.setFld a lo len v).cfg = s.cfg := wr_cfg _ _ _
@[simp] theorem setFld_owners (s : State) (a lo len v : Nat) : (s.setFld a lo len v).owners = s.owners := wr_owners _ _ _
@[simp] theorem setFld_engines (s : State) (a lo len v : Nat) : (s.setFld a lo len v).engines = s.engines := wr_engines _ _ _
@[simp] theorem setFld_bents (s : State) (a lo len v : Nat) : (s.setFld a lo len v).bents = s.bents := wr_bents _ _ _
@[simp] theorem setFld_tasks (s : State) (a lo len v : Nat) : (s.setFld a lo len v).tasks = s.tasks := wr_tasks _ _ _
@[simp] theorem setFld_prog (s : State) (a lo len v : Nat) : (s.setFld a lo len v).prog = s.prog := wr_prog _ _ _
@[simp] theorem setFld_progBad (s : State) (a lo len v : Nat) : (s.setFld a lo len v).progBad = s.progBad := wr_progBad _ _ _
@[simp] theorem setFld_progWeak (s : State) (a lo len v : Nat) : (s.setFld a lo len v).progWeak = s.progWeak := wr_progWeak _ _ _
@[simp] theorem setFld_relHold (s : State) (a lo len v : Nat) : (s.setFld a lo len v).relHold = s.relHold := wr_relHold _ _ _
@[simp] theorem setFld_epochMax (s : State) (a lo len v : Nat) : (s.setFld a lo len v).epochMax = s.epochMax := wr_epochMax _ _ _
@[simp] theorem setFld_img (s : State) (a lo len v : Nat) : (s.setFld a lo len v).img = s.img := wr_img _ _ _
@[simp] theorem setFld_mmu (s : State) (a lo len v : Nat) : (s.setFld a lo len v).mmu = s.mmu := wr_mmu _ _ _
@[simp] theorem setFld_sto (s : State) (a lo len v : Nat) : (s.setFld a lo len v).sto = s.sto := wr_sto _ _ _
@[simp] theorem setFld_flt (s : State) (a lo len v : Nat) : (s.setFld a lo len v).flt = s.flt := wr_flt _ _ _
@[simp] theorem setFld_wdg (s : State) (a lo len v : Nat) : (s.setFld a lo len v).wdg = s.wdg := wr_wdg _ _ _
@[simp] theorem setFld_nvs (s : State) (a lo len v : Nat) : (s.setFld a lo len v).nvs = s.nvs := wr_nvs _ _ _
@[simp] theorem setFld_alm (s : State) (a lo len v : Nat) : (s.setFld a lo len v).alm = s.alm := wr_alm _ _ _
@[simp] theorem setFld_mgt (s : State) (a lo len v : Nat) : (s.setFld a lo len v).mgt = s.mgt := wr_mgt _ _ _
@[simp] theorem setFld_fio (s : State) (a lo len v : Nat) : (s.setFld a lo len v).fio = s.fio := wr_fio _ _ _
@[simp] theorem setFld_loops (s : State) (a lo len v : Nat) : (s.setFld a lo len v).loops = s.loops := wr_loops _ _ _
@[simp] theorem setFld_net (s : State) (a lo len v : Nat) : (s.setFld a lo len v).net = s.net := wr_net _ _ _
@[simp] theorem setFld_red (s : State) (a lo len v : Nat) : (s.setFld a lo len v).red = s.red := wr_red _ _ _
@[simp] theorem setFld_tim (s : State) (a lo len v : Nat) : (s.setFld a lo len v).tim = s.tim := wr_tim _ _ _
@[simp] theorem setFld_can (s : State) (a lo len v : Nat) : (s.setFld a lo len v).can = s.can := wr_can _ _ _
@[simp] theorem setFld_store (s : State) (a lo len v : Nat) : (s.setFld a lo len v).store = s.store := wr_store _ _ _
@[simp] theorem setFld_spl (s : State) (a lo len v : Nat) : (s.setFld a lo len v).spl = s.spl := wr_spl _ _ _
@[simp] theorem setFld_lor (s : State) (a lo len v : Nat) : (s.setFld a lo len v).lor = s.lor := wr_lor _ _ _

/-! ### setBit -/
@[simp] theorem setBit_pending (s : State) (a i : Nat) (b : Bool) : (s.setBit a i b).pending = s.pending := setFld_pending _ _ _ _ _
@[simp] theorem setBit_now (s : State) (a i : Nat) (b : Bool) : (s.setBit a i b).now = s.now := setFld_now _ _ _ _ _
@[simp] theorem setBit_skew (s : State) (a i : Nat) (b : Bool) : (s.setBit a i b).skew = s.skew := setFld_skew _ _ _ _ _
@[simp] theorem setBit_free (s : State) (a i : Nat) (b : Bool) : (s.setBit a i b).free = s.free := setFld_free _ _ _ _ _
@[simp] theorem setBit_raised (s : State) (a i : Nat) (b : Bool) : (s.setBit a i b).raised = s.raised := setFld_raised _ _ _ _ _
@[simp] theorem setBit_out (s : State) (a i : Nat) (b : Bool) : (s.setBit a i b).out = s.out := setFld_out _ _ _ _ _
@[simp] theorem setBit_ms (s : State) (a i : Nat) (b : Bool) : (s.setBit a i b).ms = s.ms := setFld_ms _ _ _ _ _
@[simp] theorem setBit_pw (s : State) (a i : Nat) (b : Bool) : (s.setBit a i b).pw = s.pw := setFld_pw _ _ _ _ _
@[simp] theorem setBit_cfg (s : State) (a i : Nat) (b : Bool) : (s.setBit a i b).cfg = s.cfg := setFld_cfg _ _ _ _ _
@[simp] theorem setBit_owners (s : State) (a i : Nat) (b : Bool) : (s.setBit a i b).owners = s.owners := setFld_owners _ _ _ _ _
@[simp] theorem setBit_engines (s : State) (a i : Nat) (b : Bool) : (s.setBit a i b).engines = s.engines := setFld_engines _ _ _ _ _
@[simp] theorem setBit_bents (s : State) (a i : Nat) (b : Bool) : (s.setBit a i b).bents = s.bents := setFld_bents _ _ _ _ _
@[simp] theorem setBit_tasks (s : State) (a i : Nat) (b : Bool) : (s.setBit a i b).tasks = s.tasks := setFld_tasks _ _ _ _ _
@[simp] theorem setBit_prog (s : State) (a i : Nat) (b : Bool) : (s.setBit a i b).prog = s.prog := setFld_prog _ _ _ _ _
@[simp] theorem setBit_progBad (s : State) (a i : Nat) (b : Bool) : (s.setBit a i b).progBad = s.progBad := setFld_progBad _ _ _ _ _
@[simp] theorem setBit_progWeak (s : State) (a i : Nat) (b : Bool) : (s.setBit a i b).progWeak = s.progWeak := setFld_progWeak _ _ _ _ _
@[simp] theorem setBit_relHold (s : State) (a i : Nat) (b : Bool) : (s.setBit a i b).relHold = s.relHold := setFld_relHold _ _ _ _ _
@[simp] theorem setBit_epochMax (s : State) (a i : Nat) (b : Bool) : (s.setBit a i b).epochMax = s.epochMax := setFld_epochMax _ _ _ _ _
@[simp] theorem setBit_img (s : State) (a i : Nat) (b : Bool) : (s.setBit a i b).img = s.img := setFld_img _ _ _ _ _
@[simp] theorem setBit_mmu (s : State) (a i : Nat) (b : Bool) : (s.setBit a i b).mmu = s.mmu := setFld_mmu _ _ _ _ _
@[simp] theorem setBit_sto (s : State) (a i : Nat) (b : Bool) : (s.setBit a i b).sto = s.sto := setFld_sto _ _ _ _ _
@[simp] theorem setBit_flt (s : State) (a i : Nat) (b : Bool) : (s.setBit a i b).flt = s.flt := setFld_flt _ _ _ _ _
@[simp] theorem setBit_wdg (s : State) (a i : Nat) (b : Bool) : (s.setBit a i b).wdg = s.wdg := setFld_wdg _ _ _ _ _
@[simp] theorem setBit_nvs (s : State) (a i : Nat) (b : Bool) : (s.setBit a i b).nvs = s.nvs := setFld_nvs _ _ _ _ _
@[simp] theorem setBit_alm (s : State) (a i : Nat) (b : Bool) : (s.setBit a i b).alm = s.alm := setFld_alm _ _ _ _ _
@[simp] theorem setBit_mgt (s : State) (a i : Nat) (b : Bool) : (s.setBit a i b).mgt = s.mgt := setFld_mgt _ _ _ _ _
@[simp] theorem setBit_fio (s : State) (a i : Nat) (b : Bool) : (s.setBit a i b).fio = s.fio := setFld_fio _ _ _ _ _
@[simp] theorem setBit_loops (s : State) (a i : Nat) (b : Bool) : (s.setBit a i b).loops = s.loops := setFld_loops _ _ _ _ _
@[simp] theorem setBit_net (s : State) (a i : Nat) (b : Bool) : (s.setBit a i b).net = s.net := setFld_net _ _ _ _ _
@[simp] theorem setBit_red (s : State) (a i : Nat) (b : Bool) : (s.setBit a i b).red = s.red := setFld_red _ _ _ _ _
@[simp] theorem setBit_tim (s : State) (a i : Nat) (b : Bool) : (s.setBit a i b).tim = s.tim := setFld_tim _ _ _ _ _
@[simp] theorem setBit_can (s : State) (a i : Nat) (b : Bool) : (s.setBit a i b).can = s.can := setFld_can _ _ _ _ _
@[simp] theorem setBit_store (s : State) (a i : Nat) (b : Bool) : (s.setBit a i b).store = s.store := setFld_store _ _ _ _ _
@[simp] theorem setBit_spl (s : State) (a i : Nat) (b : Bool) : (s.setBit a i b).spl = s.spl := setFld_spl _ _ _ _ _
@[simp] theorem setBit_lor (s : State) (a i : Nat) (b : Bool) : (s.setBit a i b).lor = s.lor := setFld_lor _ _ _ _ _

/-! ### bump -/
@[simp] theorem bump_pending (s : State) (a n : Nat) : (s.bump a n).pending = s.pending := wr_pending _ _ _
@[simp] theorem bump_now (s : State) (a n : Nat) : (s.bump a n).now = s.now := wr_now _ _ _
@[simp] theorem bump_skew (s : State) (a n : Nat) : (s.bump a n).skew = s.skew := wr_skew _ _ _
@[simp] theorem bump_free (s : State) (a n : Nat) : (s.bump a n).free = s.free := wr_free _ _ _
@[simp] theorem bump_raised (s : State) (a n : Nat) : (s.bump a n).raised = s.raised := wr_raised _ _ _
@[simp] theorem bump_out (s : State) (a n : Nat) : (s.bump a n).out = s.out := wr_out _ _ _
@[simp] theorem bump_ms (s : State) (a n : Nat) : (s.bump a n).ms = s.ms := wr_ms _ _ _
@[simp] theorem bump_pw (s : State) (a n : Nat) : (s.bump a n).pw = s.pw := wr_pw _ _ _
@[simp] theorem bump_cfg (s : State) (a n : Nat) : (s.bump a n).cfg = s.cfg := wr_cfg _ _ _
@[simp] theorem bump_owners (s : State) (a n : Nat) : (s.bump a n).owners = s.owners := wr_owners _ _ _
@[simp] theorem bump_engines (s : State) (a n : Nat) : (s.bump a n).engines = s.engines := wr_engines _ _ _
@[simp] theorem bump_bents (s : State) (a n : Nat) : (s.bump a n).bents = s.bents := wr_bents _ _ _
@[simp] theorem bump_tasks (s : State) (a n : Nat) : (s.bump a n).tasks = s.tasks := wr_tasks _ _ _
@[simp] theorem bump_prog (s : State) (a n : Nat) : (s.bump a n).prog = s.prog := wr_prog _ _ _
@[simp] theorem bump_progBad (s : State) (a n : Nat) : (s.bump a n).progBad = s.progBad := wr_progBad _ _ _
@[simp] theorem bump_progWeak (s : State) (a n : Nat) : (s.bump a n).progWeak = s.progWeak := wr_progWeak _ _ _
@[simp] theorem bump_relHold (s : State) (a n : Nat) : (s.bump a n).relHold = s.relHold := wr_relHold _ _ _
@[simp] theorem bump_epochMax (s : State) (a n : Nat) : (s.bump a n).epochMax = s.epochMax := wr_epochMax _ _ _
@[simp] theorem bump_img (s : State) (a n : Nat) : (s.bump a n).img = s.img := wr_img _ _ _
@[simp] theorem bump_mmu (s : State) (a n : Nat) : (s.bump a n).mmu = s.mmu := wr_mmu _ _ _
@[simp] theorem bump_sto (s : State) (a n : Nat) : (s.bump a n).sto = s.sto := wr_sto _ _ _
@[simp] theorem bump_flt (s : State) (a n : Nat) : (s.bump a n).flt = s.flt := wr_flt _ _ _
@[simp] theorem bump_wdg (s : State) (a n : Nat) : (s.bump a n).wdg = s.wdg := wr_wdg _ _ _
@[simp] theorem bump_nvs (s : State) (a n : Nat) : (s.bump a n).nvs = s.nvs := wr_nvs _ _ _
@[simp] theorem bump_alm (s : State) (a n : Nat) : (s.bump a n).alm = s.alm := wr_alm _ _ _
@[simp] theorem bump_mgt (s : State) (a n : Nat) : (s.bump a n).mgt = s.mgt := wr_mgt _ _ _
@[simp] theorem bump_fio (s : State) (a n : Nat) : (s.bump a n).fio = s.fio := wr_fio _ _ _
@[simp] theorem bump_loops (s : State) (a n : Nat) : (s.bump a n).loops = s.loops := wr_loops _ _ _
@[simp] theorem bump_net (s : State) (a n : Nat) : (s.bump a n).net = s.net := wr_net _ _ _
@[simp] theorem bump_red (s : State) (a n : Nat) : (s.bump a n).red = s.red := wr_red _ _ _
@[simp] theorem bump_tim (s : State) (a n : Nat) : (s.bump a n).tim = s.tim := wr_tim _ _ _
@[simp] theorem bump_can (s : State) (a n : Nat) : (s.bump a n).can = s.can := wr_can _ _ _
@[simp] theorem bump_store (s : State) (a n : Nat) : (s.bump a n).store = s.store := wr_store _ _ _
@[simp] theorem bump_spl (s : State) (a n : Nat) : (s.bump a n).spl = s.spl := wr_spl _ _ _
@[simp] theorem bump_lor (s : State) (a n : Nat) : (s.bump a n).lor = s.lor := wr_lor _ _ _

/-! ### bump64 -/
@[simp] theorem bump64_pending (s : State) (a n : Nat) : (s.bump64 a n).pending = s.pending := wr64_pending _ _ _
@[simp] theorem bump64_now (s : State) (a n : Nat) : (s.bump64 a n).now = s.now := wr64_now _ _ _
@[simp] theorem bump64_skew (s : State) (a n : Nat) : (s.bump64 a n).skew = s.skew := wr64_skew _ _ _
@[simp] theorem bump64_free (s : State) (a n : Nat) : (s.bump64 a n).free = s.free := wr64_free _ _ _
@[simp] theorem bump64_raised (s : State) (a n : Nat) : (s.bump64 a n).raised = s.raised := wr64_raised _ _ _
@[simp] theorem bump64_out (s : State) (a n : Nat) : (s.bump64 a n).out = s.out := wr64_out _ _ _
@[simp] theorem bump64_ms (s : State) (a n : Nat) : (s.bump64 a n).ms = s.ms := wr64_ms _ _ _
@[simp] theorem bump64_pw (s : State) (a n : Nat) : (s.bump64 a n).pw = s.pw := wr64_pw _ _ _
@[simp] theorem bump64_cfg (s : State) (a n : Nat) : (s.bump64 a n).cfg = s.cfg := wr64_cfg _ _ _
@[simp] theorem bump64_owners (s : State) (a n : Nat) : (s.bump64 a n).owners = s.owners := wr64_owners _ _ _
@[simp] theorem bump64_engines (s : State) (a n : Nat) : (s.bump64 a n).engines = s.engines := wr64_engines _ _ _
@[simp] theorem bump64_bents (s : State) (a n : Nat) : (s.bump64 a n).bents = s.bents := wr64_bents _ _ _
@[simp] theorem bump64_tasks (s : State) (a n : Nat) : (s.bump64 a n).tasks = s.tasks := wr64_tasks _ _ _
@[simp] theorem bump64_prog (s : State) (a n : Nat) : (s.bump64 a n).prog = s.prog := wr64_prog _ _ _
@[simp] theorem bump64_progBad (s : State) (a n : Nat) : (s.bump64 a n).progBad = s.progBad := wr64_progBad _ _ _
@[simp] theorem bump64_progWeak (s : State) (a n : Nat) : (s.bump64 a n).progWeak = s.progWeak := wr64_progWeak _ _ _
@[simp] theorem bump64_relHold (s : State) (a n : Nat) : (s.bump64 a n).relHold = s.relHold := wr64_relHold _ _ _
@[simp] theorem bump64_epochMax (s : State) (a n : Nat) : (s.bump64 a n).epochMax = s.epochMax := wr64_epochMax _ _ _
@[simp] theorem bump64_img (s : State) (a n : Nat) : (s.bump64 a n).img = s.img := wr64_img _ _ _
@[simp] theorem bump64_mmu (s : State) (a n : Nat) : (s.bump64 a n).mmu = s.mmu := wr64_mmu _ _ _
@[simp] theorem bump64_sto (s : State) (a n : Nat) : (s.bump64 a n).sto = s.sto := wr64_sto _ _ _
@[simp] theorem bump64_flt (s : State) (a n : Nat) : (s.bump64 a n).flt = s.flt := wr64_flt _ _ _
@[simp] theorem bump64_wdg (s : State) (a n : Nat) : (s.bump64 a n).wdg = s.wdg := wr64_wdg _ _ _
@[simp] theorem bump64_nvs (s : State) (a n : Nat) : (s.bump64 a n).nvs = s.nvs := wr64_nvs _ _ _
@[simp] theorem bump64_alm (s : State) (a n : Nat) : (s.bump64 a n).alm = s.alm := wr64_alm _ _ _
@[simp] theorem bump64_mgt (s : State) (a n : Nat) : (s.bump64 a n).mgt = s.mgt := wr64_mgt _ _ _
@[simp] theorem bump64_fio (s : State) (a n : Nat) : (s.bump64 a n).fio = s.fio := wr64_fio _ _ _
@[simp] theorem bump64_loops (s : State) (a n : Nat) : (s.bump64 a n).loops = s.loops := wr64_loops _ _ _
@[simp] theorem bump64_net (s : State) (a n : Nat) : (s.bump64 a n).net = s.net := wr64_net _ _ _
@[simp] theorem bump64_red (s : State) (a n : Nat) : (s.bump64 a n).red = s.red := wr64_red _ _ _
@[simp] theorem bump64_tim (s : State) (a n : Nat) : (s.bump64 a n).tim = s.tim := wr64_tim _ _ _
@[simp] theorem bump64_can (s : State) (a n : Nat) : (s.bump64 a n).can = s.can := wr64_can _ _ _
@[simp] theorem bump64_store (s : State) (a n : Nat) : (s.bump64 a n).store = s.store := wr64_store _ _ _
@[simp] theorem bump64_spl (s : State) (a n : Nat) : (s.bump64 a n).spl = s.spl := wr64_spl _ _ _
@[simp] theorem bump64_lor (s : State) (a n : Nat) : (s.bump64 a n).lor = s.lor := wr64_lor _ _ _

/-! ### clr -/
@[simp] theorem clr_pending (s : State) (a : Nat) : (s.clr a).pending = s.pending := wr_pending _ _ _
@[simp] theorem clr_now (s : State) (a : Nat) : (s.clr a).now = s.now := wr_now _ _ _
@[simp] theorem clr_skew (s : State) (a : Nat) : (s.clr a).skew = s.skew := wr_skew _ _ _
@[simp] theorem clr_free (s : State) (a : Nat) : (s.clr a).free = s.free := wr_free _ _ _
@[simp] theorem clr_raised (s : State) (a : Nat) : (s.clr a).raised = s.raised := wr_raised _ _ _
@[simp] theorem clr_out (s : State) (a : Nat) : (s.clr a).out = s.out := wr_out _ _ _
@[simp] theorem clr_ms (s : State) (a : Nat) : (s.clr a).ms = s.ms := wr_ms _ _ _
@[simp] theorem clr_pw (s : State) (a : Nat) : (s.clr a).pw = s.pw := wr_pw _ _ _
@[simp] theorem clr_cfg (s : State) (a : Nat) : (s.clr a).cfg = s.cfg := wr_cfg _ _ _
@[simp] theorem clr_owners (s : State) (a : Nat) : (s.clr a).owners = s.owners := wr_owners _ _ _
@[simp] theorem clr_engines (s : State) (a : Nat) : (s.clr a).engines = s.engines := wr_engines _ _ _
@[simp] theorem clr_bents (s : State) (a : Nat) : (s.clr a).bents = s.bents := wr_bents _ _ _
@[simp] theorem clr_tasks (s : State) (a : Nat) : (s.clr a).tasks = s.tasks := wr_tasks _ _ _
@[simp] theorem clr_prog (s : State) (a : Nat) : (s.clr a).prog = s.prog := wr_prog _ _ _
@[simp] theorem clr_progBad (s : State) (a : Nat) : (s.clr a).progBad = s.progBad := wr_progBad _ _ _
@[simp] theorem clr_progWeak (s : State) (a : Nat) : (s.clr a).progWeak = s.progWeak := wr_progWeak _ _ _
@[simp] theorem clr_relHold (s : State) (a : Nat) : (s.clr a).relHold = s.relHold := wr_relHold _ _ _
@[simp] theorem clr_epochMax (s : State) (a : Nat) : (s.clr a).epochMax = s.epochMax := wr_epochMax _ _ _
@[simp] theorem clr_img (s : State) (a : Nat) : (s.clr a).img = s.img := wr_img _ _ _
@[simp] theorem clr_mmu (s : State) (a : Nat) : (s.clr a).mmu = s.mmu := wr_mmu _ _ _
@[simp] theorem clr_sto (s : State) (a : Nat) : (s.clr a).sto = s.sto := wr_sto _ _ _
@[simp] theorem clr_flt (s : State) (a : Nat) : (s.clr a).flt = s.flt := wr_flt _ _ _
@[simp] theorem clr_wdg (s : State) (a : Nat) : (s.clr a).wdg = s.wdg := wr_wdg _ _ _
@[simp] theorem clr_nvs (s : State) (a : Nat) : (s.clr a).nvs = s.nvs := wr_nvs _ _ _
@[simp] theorem clr_alm (s : State) (a : Nat) : (s.clr a).alm = s.alm := wr_alm _ _ _
@[simp] theorem clr_mgt (s : State) (a : Nat) : (s.clr a).mgt = s.mgt := wr_mgt _ _ _
@[simp] theorem clr_fio (s : State) (a : Nat) : (s.clr a).fio = s.fio := wr_fio _ _ _
@[simp] theorem clr_loops (s : State) (a : Nat) : (s.clr a).loops = s.loops := wr_loops _ _ _
@[simp] theorem clr_net (s : State) (a : Nat) : (s.clr a).net = s.net := wr_net _ _ _
@[simp] theorem clr_red (s : State) (a : Nat) : (s.clr a).red = s.red := wr_red _ _ _
@[simp] theorem clr_tim (s : State) (a : Nat) : (s.clr a).tim = s.tim := wr_tim _ _ _
@[simp] theorem clr_can (s : State) (a : Nat) : (s.clr a).can = s.can := wr_can _ _ _
@[simp] theorem clr_store (s : State) (a : Nat) : (s.clr a).store = s.store := wr_store _ _ _
@[simp] theorem clr_spl (s : State) (a : Nat) : (s.clr a).spl = s.spl := wr_spl _ _ _
@[simp] theorem clr_lor (s : State) (a : Nat) : (s.clr a).lor = s.lor := wr_lor _ _ _

/-! ### maxReg -/
@[simp] theorem maxReg_pending (s : State) (a v : Nat) : (s.maxReg a v).pending = s.pending := wr_pending _ _ _
@[simp] theorem maxReg_now (s : State) (a v : Nat) : (s.maxReg a v).now = s.now := wr_now _ _ _
@[simp] theorem maxReg_skew (s : State) (a v : Nat) : (s.maxReg a v).skew = s.skew := wr_skew _ _ _
@[simp] theorem maxReg_free (s : State) (a v : Nat) : (s.maxReg a v).free = s.free := wr_free _ _ _
@[simp] theorem maxReg_raised (s : State) (a v : Nat) : (s.maxReg a v).raised = s.raised := wr_raised _ _ _
@[simp] theorem maxReg_out (s : State) (a v : Nat) : (s.maxReg a v).out = s.out := wr_out _ _ _
@[simp] theorem maxReg_ms (s : State) (a v : Nat) : (s.maxReg a v).ms = s.ms := wr_ms _ _ _
@[simp] theorem maxReg_pw (s : State) (a v : Nat) : (s.maxReg a v).pw = s.pw := wr_pw _ _ _
@[simp] theorem maxReg_cfg (s : State) (a v : Nat) : (s.maxReg a v).cfg = s.cfg := wr_cfg _ _ _
@[simp] theorem maxReg_owners (s : State) (a v : Nat) : (s.maxReg a v).owners = s.owners := wr_owners _ _ _
@[simp] theorem maxReg_engines (s : State) (a v : Nat) : (s.maxReg a v).engines = s.engines := wr_engines _ _ _
@[simp] theorem maxReg_bents (s : State) (a v : Nat) : (s.maxReg a v).bents = s.bents := wr_bents _ _ _
@[simp] theorem maxReg_tasks (s : State) (a v : Nat) : (s.maxReg a v).tasks = s.tasks := wr_tasks _ _ _
@[simp] theorem maxReg_prog (s : State) (a v : Nat) : (s.maxReg a v).prog = s.prog := wr_prog _ _ _
@[simp] theorem maxReg_progBad (s : State) (a v : Nat) : (s.maxReg a v).progBad = s.progBad := wr_progBad _ _ _
@[simp] theorem maxReg_progWeak (s : State) (a v : Nat) : (s.maxReg a v).progWeak = s.progWeak := wr_progWeak _ _ _
@[simp] theorem maxReg_relHold (s : State) (a v : Nat) : (s.maxReg a v).relHold = s.relHold := wr_relHold _ _ _
@[simp] theorem maxReg_epochMax (s : State) (a v : Nat) : (s.maxReg a v).epochMax = s.epochMax := wr_epochMax _ _ _
@[simp] theorem maxReg_img (s : State) (a v : Nat) : (s.maxReg a v).img = s.img := wr_img _ _ _
@[simp] theorem maxReg_mmu (s : State) (a v : Nat) : (s.maxReg a v).mmu = s.mmu := wr_mmu _ _ _
@[simp] theorem maxReg_sto (s : State) (a v : Nat) : (s.maxReg a v).sto = s.sto := wr_sto _ _ _
@[simp] theorem maxReg_flt (s : State) (a v : Nat) : (s.maxReg a v).flt = s.flt := wr_flt _ _ _
@[simp] theorem maxReg_wdg (s : State) (a v : Nat) : (s.maxReg a v).wdg = s.wdg := wr_wdg _ _ _
@[simp] theorem maxReg_nvs (s : State) (a v : Nat) : (s.maxReg a v).nvs = s.nvs := wr_nvs _ _ _
@[simp] theorem maxReg_alm (s : State) (a v : Nat) : (s.maxReg a v).alm = s.alm := wr_alm _ _ _
@[simp] theorem maxReg_mgt (s : State) (a v : Nat) : (s.maxReg a v).mgt = s.mgt := wr_mgt _ _ _
@[simp] theorem maxReg_fio (s : State) (a v : Nat) : (s.maxReg a v).fio = s.fio := wr_fio _ _ _
@[simp] theorem maxReg_loops (s : State) (a v : Nat) : (s.maxReg a v).loops = s.loops := wr_loops _ _ _
@[simp] theorem maxReg_net (s : State) (a v : Nat) : (s.maxReg a v).net = s.net := wr_net _ _ _
@[simp] theorem maxReg_red (s : State) (a v : Nat) : (s.maxReg a v).red = s.red := wr_red _ _ _
@[simp] theorem maxReg_tim (s : State) (a v : Nat) : (s.maxReg a v).tim = s.tim := wr_tim _ _ _
@[simp] theorem maxReg_can (s : State) (a v : Nat) : (s.maxReg a v).can = s.can := wr_can _ _ _
@[simp] theorem maxReg_store (s : State) (a v : Nat) : (s.maxReg a v).store = s.store := wr_store _ _ _
@[simp] theorem maxReg_spl (s : State) (a v : Nat) : (s.maxReg a v).spl = s.spl := wr_spl _ _ _
@[simp] theorem maxReg_lor (s : State) (a v : Nat) : (s.maxReg a v).lor = s.lor := wr_lor _ _ _

/-! ### advanceMono -/
@[simp] theorem advanceMono_pending (s : State) (t : Nat) : (s.advanceMono t).pending = s.pending := rfl
@[simp] theorem advanceMono_free (s : State) (t : Nat) : (s.advanceMono t).free = s.free := rfl
@[simp] theorem advanceMono_regs (s : State) (t : Nat) : (s.advanceMono t).regs = s.regs := rfl
@[simp] theorem advanceMono_raised (s : State) (t : Nat) : (s.advanceMono t).raised = s.raised := rfl
@[simp] theorem advanceMono_out (s : State) (t : Nat) : (s.advanceMono t).out = s.out := rfl
@[simp] theorem advanceMono_ms (s : State) (t : Nat) : (s.advanceMono t).ms = s.ms := rfl
@[simp] theorem advanceMono_pw (s : State) (t : Nat) : (s.advanceMono t).pw = s.pw := rfl
@[simp] theorem advanceMono_cfg (s : State) (t : Nat) : (s.advanceMono t).cfg = s.cfg := rfl
@[simp] theorem advanceMono_owners (s : State) (t : Nat) : (s.advanceMono t).owners = s.owners := rfl
@[simp] theorem advanceMono_engines (s : State) (t : Nat) : (s.advanceMono t).engines = s.engines := rfl
@[simp] theorem advanceMono_bents (s : State) (t : Nat) : (s.advanceMono t).bents = s.bents := rfl
@[simp] theorem advanceMono_tasks (s : State) (t : Nat) : (s.advanceMono t).tasks = s.tasks := rfl
@[simp] theorem advanceMono_prog (s : State) (t : Nat) : (s.advanceMono t).prog = s.prog := rfl
@[simp] theorem advanceMono_progBad (s : State) (t : Nat) : (s.advanceMono t).progBad = s.progBad := rfl
@[simp] theorem advanceMono_progWeak (s : State) (t : Nat) : (s.advanceMono t).progWeak = s.progWeak := rfl
@[simp] theorem advanceMono_relHold (s : State) (t : Nat) : (s.advanceMono t).relHold = s.relHold := rfl
@[simp] theorem advanceMono_epochMax (s : State) (t : Nat) : (s.advanceMono t).epochMax = s.epochMax := rfl
@[simp] theorem advanceMono_img (s : State) (t : Nat) : (s.advanceMono t).img = s.img := rfl
@[simp] theorem advanceMono_mmu (s : State) (t : Nat) : (s.advanceMono t).mmu = s.mmu := rfl
@[simp] theorem advanceMono_sto (s : State) (t : Nat) : (s.advanceMono t).sto = s.sto := rfl
@[simp] theorem advanceMono_flt (s : State) (t : Nat) : (s.advanceMono t).flt = s.flt := rfl
@[simp] theorem advanceMono_wdg (s : State) (t : Nat) : (s.advanceMono t).wdg = s.wdg := rfl
@[simp] theorem advanceMono_nvs (s : State) (t : Nat) : (s.advanceMono t).nvs = s.nvs := rfl
@[simp] theorem advanceMono_alm (s : State) (t : Nat) : (s.advanceMono t).alm = s.alm := rfl
@[simp] theorem advanceMono_mgt (s : State) (t : Nat) : (s.advanceMono t).mgt = s.mgt := rfl
@[simp] theorem advanceMono_fio (s : State) (t : Nat) : (s.advanceMono t).fio = s.fio := rfl
@[simp] theorem advanceMono_loops (s : State) (t : Nat) : (s.advanceMono t).loops = s.loops := rfl
@[simp] theorem advanceMono_net (s : State) (t : Nat) : (s.advanceMono t).net = s.net := rfl
@[simp] theorem advanceMono_red (s : State) (t : Nat) : (s.advanceMono t).red = s.red := rfl
@[simp] theorem advanceMono_tim (s : State) (t : Nat) : (s.advanceMono t).tim = s.tim := rfl
@[simp] theorem advanceMono_can (s : State) (t : Nat) : (s.advanceMono t).can = s.can := rfl
@[simp] theorem advanceMono_store (s : State) (t : Nat) : (s.advanceMono t).store = s.store := rfl
@[simp] theorem advanceMono_spl (s : State) (t : Nat) : (s.advanceMono t).spl = s.spl := rfl
@[simp] theorem advanceMono_lor (s : State) (t : Nat) : (s.advanceMono t).lor = s.lor := rfl

/-! ### emit -/
@[simp] theorem emit_pending (s : State) (e : Emit) : (s.emit e).pending = s.pending := rfl
@[simp] theorem emit_now (s : State) (e : Emit) : (s.emit e).now = s.now := rfl
@[simp] theorem emit_skew (s : State) (e : Emit) : (s.emit e).skew = s.skew := rfl
@[simp] theorem emit_free (s : State) (e : Emit) : (s.emit e).free = s.free := rfl
@[simp] theorem emit_regs (s : State) (e : Emit) : (s.emit e).regs = s.regs := rfl
@[simp] theorem emit_raised (s : State) (e : Emit) : (s.emit e).raised = s.raised := rfl
@[simp] theorem emit_ms (s : State) (e : Emit) : (s.emit e).ms = s.ms := rfl
@[simp] theorem emit_pw (s : State) (e : Emit) : (s.emit e).pw = s.pw := rfl
@[simp] theorem emit_cfg (s : State) (e : Emit) : (s.emit e).cfg = s.cfg := rfl
@[simp] theorem emit_owners (s : State) (e : Emit) : (s.emit e).owners = s.owners := rfl
@[simp] theorem emit_engines (s : State) (e : Emit) : (s.emit e).engines = s.engines := rfl
@[simp] theorem emit_bents (s : State) (e : Emit) : (s.emit e).bents = s.bents := rfl
@[simp] theorem emit_tasks (s : State) (e : Emit) : (s.emit e).tasks = s.tasks := rfl
@[simp] theorem emit_prog (s : State) (e : Emit) : (s.emit e).prog = s.prog := rfl
@[simp] theorem emit_progBad (s : State) (e : Emit) : (s.emit e).progBad = s.progBad := rfl
@[simp] theorem emit_progWeak (s : State) (e : Emit) : (s.emit e).progWeak = s.progWeak := rfl
@[simp] theorem emit_relHold (s : State) (e : Emit) : (s.emit e).relHold = s.relHold := rfl
@[simp] theorem emit_epochMax (s : State) (e : Emit) : (s.emit e).epochMax = s.epochMax := rfl
@[simp] theorem emit_img (s : State) (e : Emit) : (s.emit e).img = s.img := rfl
@[simp] theorem emit_mmu (s : State) (e : Emit) : (s.emit e).mmu = s.mmu := rfl
@[simp] theorem emit_sto (s : State) (e : Emit) : (s.emit e).sto = s.sto := rfl
@[simp] theorem emit_flt (s : State) (e : Emit) : (s.emit e).flt = s.flt := rfl
@[simp] theorem emit_wdg (s : State) (e : Emit) : (s.emit e).wdg = s.wdg := rfl
@[simp] theorem emit_nvs (s : State) (e : Emit) : (s.emit e).nvs = s.nvs := rfl
@[simp] theorem emit_alm (s : State) (e : Emit) : (s.emit e).alm = s.alm := rfl
@[simp] theorem emit_mgt (s : State) (e : Emit) : (s.emit e).mgt = s.mgt := rfl
@[simp] theorem emit_fio (s : State) (e : Emit) : (s.emit e).fio = s.fio := rfl
@[simp] theorem emit_loops (s : State) (e : Emit) : (s.emit e).loops = s.loops := rfl
@[simp] theorem emit_net (s : State) (e : Emit) : (s.emit e).net = s.net := rfl
@[simp] theorem emit_tim (s : State) (e : Emit) : (s.emit e).tim = s.tim := rfl
@[simp] theorem emit_can (s : State) (e : Emit) : (s.emit e).can = s.can := rfl
@[simp] theorem emit_store (s : State) (e : Emit) : (s.emit e).store = s.store := rfl
@[simp] theorem emit_spl (s : State) (e : Emit) : (s.emit e).spl = s.spl := rfl
@[simp] theorem emit_lor (s : State) (e : Emit) : (s.emit e).lor = s.lor := rfl

/-! ### raise -/
@[simp] theorem raise_pending (s : State) (src task d1 d2 : Nat) : (s.raise src task d1 d2).pending = s.pending := rfl
@[simp] theorem raise_now (s : State) (src task d1 d2 : Nat) : (s.raise src task d1 d2).now = s.now := rfl
@[simp] theorem raise_skew (s : State) (src task d1 d2 : Nat) : (s.raise src task d1 d2).skew = s.skew := rfl
@[simp] theorem raise_free (s : State) (src task d1 d2 : Nat) : (s.raise src task d1 d2).free = s.free := rfl
@[simp] theorem raise_regs (s : State) (src task d1 d2 : Nat) : (s.raise src task d1 d2).regs = s.regs := rfl
@[simp] theorem raise_out (s : State) (src task d1 d2 : Nat) : (s.raise src task d1 d2).out = s.out := rfl
@[simp] theorem raise_ms (s : State) (src task d1 d2 : Nat) : (s.raise src task d1 d2).ms = s.ms := rfl
@[simp] theorem raise_pw (s : State) (src task d1 d2 : Nat) : (s.raise src task d1 d2).pw = s.pw := rfl
@[simp] theorem raise_cfg (s : State) (src task d1 d2 : Nat) : (s.raise src task d1 d2).cfg = s.cfg := rfl
@[simp] theorem raise_owners (s : State) (src task d1 d2 : Nat) : (s.raise src task d1 d2).owners = s.owners := rfl
@[simp] theorem raise_engines (s : State) (src task d1 d2 : Nat) : (s.raise src task d1 d2).engines = s.engines := rfl
@[simp] theorem raise_bents (s : State) (src task d1 d2 : Nat) : (s.raise src task d1 d2).bents = s.bents := rfl
@[simp] theorem raise_tasks (s : State) (src task d1 d2 : Nat) : (s.raise src task d1 d2).tasks = s.tasks := rfl
@[simp] theorem raise_prog (s : State) (src task d1 d2 : Nat) : (s.raise src task d1 d2).prog = s.prog := rfl
@[simp] theorem raise_progBad (s : State) (src task d1 d2 : Nat) : (s.raise src task d1 d2).progBad = s.progBad := rfl
@[simp] theorem raise_progWeak (s : State) (src task d1 d2 : Nat) : (s.raise src task d1 d2).progWeak = s.progWeak := rfl
@[simp] theorem raise_relHold (s : State) (src task d1 d2 : Nat) : (s.raise src task d1 d2).relHold = s.relHold := rfl
@[simp] theorem raise_epochMax (s : State) (src task d1 d2 : Nat) : (s.raise src task d1 d2).epochMax = s.epochMax := rfl
@[simp] theorem raise_img (s : State) (src task d1 d2 : Nat) : (s.raise src task d1 d2).img = s.img := rfl
@[simp] theorem raise_mmu (s : State) (src task d1 d2 : Nat) : (s.raise src task d1 d2).mmu = s.mmu := rfl
@[simp] theorem raise_sto (s : State) (src task d1 d2 : Nat) : (s.raise src task d1 d2).sto = s.sto := rfl
@[simp] theorem raise_flt (s : State) (src task d1 d2 : Nat) : (s.raise src task d1 d2).flt = s.flt := rfl
@[simp] theorem raise_wdg (s : State) (src task d1 d2 : Nat) : (s.raise src task d1 d2).wdg = s.wdg := rfl
@[simp] theorem raise_nvs (s : State) (src task d1 d2 : Nat) : (s.raise src task d1 d2).nvs = s.nvs := rfl
@[simp] theorem raise_alm (s : State) (src task d1 d2 : Nat) : (s.raise src task d1 d2).alm = s.alm := rfl
@[simp] theorem raise_mgt (s : State) (src task d1 d2 : Nat) : (s.raise src task d1 d2).mgt = s.mgt := rfl
@[simp] theorem raise_fio (s : State) (src task d1 d2 : Nat) : (s.raise src task d1 d2).fio = s.fio := rfl
@[simp] theorem raise_loops (s : State) (src task d1 d2 : Nat) : (s.raise src task d1 d2).loops = s.loops := rfl
@[simp] theorem raise_net (s : State) (src task d1 d2 : Nat) : (s.raise src task d1 d2).net = s.net := rfl
@[simp] theorem raise_red (s : State) (src task d1 d2 : Nat) : (s.raise src task d1 d2).red = s.red := rfl
@[simp] theorem raise_tim (s : State) (src task d1 d2 : Nat) : (s.raise src task d1 d2).tim = s.tim := rfl
@[simp] theorem raise_can (s : State) (src task d1 d2 : Nat) : (s.raise src task d1 d2).can = s.can := rfl
@[simp] theorem raise_store (s : State) (src task d1 d2 : Nat) : (s.raise src task d1 d2).store = s.store := rfl
@[simp] theorem raise_spl (s : State) (src task d1 d2 : Nat) : (s.raise src task d1 d2).spl = s.spl := rfl
@[simp] theorem raise_lor (s : State) (src task d1 d2 : Nat) : (s.raise src task d1 d2).lor = s.lor := rfl

/-! ### setOwner -/
@[simp] theorem setOwner_pending (s : State) (n : Nat) (o : Owner) : (s.setOwner n o).pending = s.pending := rfl
@[simp] theorem setOwner_now (s : State) (n : Nat) (o : Owner) : (s.setOwner n o).now = s.now := rfl
@[simp] theorem setOwner_skew (s : State) (n : Nat) (o : Owner) : (s.setOwner n o).skew = s.skew := rfl
@[simp] theorem setOwner_free (s : State) (n : Nat) (o : Owner) : (s.setOwner n o).free = s.free := rfl
@[simp] theorem setOwner_regs (s : State) (n : Nat) (o : Owner) : (s.setOwner n o).regs = s.regs := rfl
@[simp] theorem setOwner_raised (s : State) (n : Nat) (o : Owner) : (s.setOwner n o).raised = s.raised := rfl
@[simp] theorem setOwner_out (s : State) (n : Nat) (o : Owner) : (s.setOwner n o).out = s.out := rfl
@[simp] theorem setOwner_ms (s : State) (n : Nat) (o : Owner) : (s.setOwner n o).ms = s.ms := rfl
@[simp] theorem setOwner_pw (s : State) (n : Nat) (o : Owner) : (s.setOwner n o).pw = s.pw := rfl
@[simp] theorem setOwner_cfg (s : State) (n : Nat) (o : Owner) : (s.setOwner n o).cfg = s.cfg := rfl
@[simp] theorem setOwner_engines (s : State) (n : Nat) (o : Owner) : (s.setOwner n o).engines = s.engines := rfl
@[simp] theorem setOwner_bents (s : State) (n : Nat) (o : Owner) : (s.setOwner n o).bents = s.bents := rfl
@[simp] theorem setOwner_tasks (s : State) (n : Nat) (o : Owner) : (s.setOwner n o).tasks = s.tasks := rfl
@[simp] theorem setOwner_prog (s : State) (n : Nat) (o : Owner) : (s.setOwner n o).prog = s.prog := rfl
@[simp] theorem setOwner_progBad (s : State) (n : Nat) (o : Owner) : (s.setOwner n o).progBad = s.progBad := rfl
@[simp] theorem setOwner_progWeak (s : State) (n : Nat) (o : Owner) : (s.setOwner n o).progWeak = s.progWeak := rfl
@[simp] theorem setOwner_relHold (s : State) (n : Nat) (o : Owner) : (s.setOwner n o).relHold = s.relHold := rfl
@[simp] theorem setOwner_epochMax (s : State) (n : Nat) (o : Owner) : (s.setOwner n o).epochMax = s.epochMax := rfl
@[simp] theorem setOwner_img (s : State) (n : Nat) (o : Owner) : (s.setOwner n o).img = s.img := rfl
@[simp] theorem setOwner_mmu (s : State) (n : Nat) (o : Owner) : (s.setOwner n o).mmu = s.mmu := rfl
@[simp] theorem setOwner_sto (s : State) (n : Nat) (o : Owner) : (s.setOwner n o).sto = s.sto := rfl
@[simp] theorem setOwner_flt (s : State) (n : Nat) (o : Owner) : (s.setOwner n o).flt = s.flt := rfl
@[simp] theorem setOwner_wdg (s : State) (n : Nat) (o : Owner) : (s.setOwner n o).wdg = s.wdg := rfl
@[simp] theorem setOwner_nvs (s : State) (n : Nat) (o : Owner) : (s.setOwner n o).nvs = s.nvs := rfl
@[simp] theorem setOwner_alm (s : State) (n : Nat) (o : Owner) : (s.setOwner n o).alm = s.alm := rfl
@[simp] theorem setOwner_mgt (s : State) (n : Nat) (o : Owner) : (s.setOwner n o).mgt = s.mgt := rfl
@[simp] theorem setOwner_fio (s : State) (n : Nat) (o : Owner) : (s.setOwner n o).fio = s.fio := rfl
@[simp] theorem setOwner_loops (s : State) (n : Nat) (o : Owner) : (s.setOwner n o).loops = s.loops := rfl
@[simp] theorem setOwner_net (s : State) (n : Nat) (o : Owner) : (s.setOwner n o).net = s.net := rfl
@[simp] theorem setOwner_red (s : State) (n : Nat) (o : Owner) : (s.setOwner n o).red = s.red := rfl
@[simp] theorem setOwner_tim (s : State) (n : Nat) (o : Owner) : (s.setOwner n o).tim = s.tim := rfl
@[simp] theorem setOwner_can (s : State) (n : Nat) (o : Owner) : (s.setOwner n o).can = s.can := rfl
@[simp] theorem setOwner_store (s : State) (n : Nat) (o : Owner) : (s.setOwner n o).store = s.store := rfl
@[simp] theorem setOwner_spl (s : State) (n : Nat) (o : Owner) : (s.setOwner n o).spl = s.spl := rfl
@[simp] theorem setOwner_lor (s : State) (n : Nat) (o : Owner) : (s.setOwner n o).lor = s.lor := rfl

/-! ### setEng -/
@[simp] theorem setEng_pending (s : State) (e : Nat) (x : Engine) : (s.setEng e x).pending = s.pending := rfl
@[simp] theorem setEng_now (s : State) (e : Nat) (x : Engine) : (s.setEng e x).now = s.now := rfl
@[simp] theorem setEng_skew (s : State) (e : Nat) (x : Engine) : (s.setEng e x).skew = s.skew := rfl
@[simp] theorem setEng_free (s : State) (e : Nat) (x : Engine) : (s.setEng e x).free = s.free := rfl
@[simp] theorem setEng_regs (s : State) (e : Nat) (x : Engine) : (s.setEng e x).regs = s.regs := rfl
@[simp] theorem setEng_raised (s : State) (e : Nat) (x : Engine) : (s.setEng e x).raised = s.raised := rfl
@[simp] theorem setEng_out (s : State) (e : Nat) (x : Engine) : (s.setEng e x).out = s.out := rfl
@[simp] theorem setEng_ms (s : State) (e : Nat) (x : Engine) : (s.setEng e x).ms = s.ms := rfl
@[simp] theorem setEng_pw (s : State) (e : Nat) (x : Engine) : (s.setEng e x).pw = s.pw := rfl
@[simp] theorem setEng_cfg (s : State) (e : Nat) (x : Engine) : (s.setEng e x).cfg = s.cfg := rfl
@[simp] theorem setEng_owners (s : State) (e : Nat) (x : Engine) : (s.setEng e x).owners = s.owners := rfl
@[simp] theorem setEng_bents (s : State) (e : Nat) (x : Engine) : (s.setEng e x).bents = s.bents := rfl
@[simp] theorem setEng_tasks (s : State) (e : Nat) (x : Engine) : (s.setEng e x).tasks = s.tasks := rfl
@[simp] theorem setEng_prog (s : State) (e : Nat) (x : Engine) : (s.setEng e x).prog = s.prog := rfl
@[simp] theorem setEng_progBad (s : State) (e : Nat) (x : Engine) : (s.setEng e x).progBad = s.progBad := rfl
@[simp] theorem setEng_progWeak (s : State) (e : Nat) (x : Engine) : (s.setEng e x).progWeak = s.progWeak := rfl
@[simp] theorem setEng_relHold (s : State) (e : Nat) (x : Engine) : (s.setEng e x).relHold = s.relHold := rfl
@[simp] theorem setEng_epochMax (s : State) (e : Nat) (x : Engine) : (s.setEng e x).epochMax = s.epochMax := rfl
@[simp] theorem setEng_img (s : State) (e : Nat) (x : Engine) : (s.setEng e x).img = s.img := rfl
@[simp] theorem setEng_mmu (s : State) (e : Nat) (x : Engine) : (s.setEng e x).mmu = s.mmu := rfl
@[simp] theorem setEng_sto (s : State) (e : Nat) (x : Engine) : (s.setEng e x).sto = s.sto := rfl
@[simp] theorem setEng_flt (s : State) (e : Nat) (x : Engine) : (s.setEng e x).flt = s.flt := rfl
@[simp] theorem setEng_wdg (s : State) (e : Nat) (x : Engine) : (s.setEng e x).wdg = s.wdg := rfl
@[simp] theorem setEng_nvs (s : State) (e : Nat) (x : Engine) : (s.setEng e x).nvs = s.nvs := rfl
@[simp] theorem setEng_alm (s : State) (e : Nat) (x : Engine) : (s.setEng e x).alm = s.alm := rfl
@[simp] theorem setEng_mgt (s : State) (e : Nat) (x : Engine) : (s.setEng e x).mgt = s.mgt := rfl
@[simp] theorem setEng_fio (s : State) (e : Nat) (x : Engine) : (s.setEng e x).fio = s.fio := rfl
@[simp] theorem setEng_loops (s : State) (e : Nat) (x : Engine) : (s.setEng e x).loops = s.loops := rfl
@[simp] theorem setEng_net (s : State) (e : Nat) (x : Engine) : (s.setEng e x).net = s.net := rfl
@[simp] theorem setEng_red (s : State) (e : Nat) (x : Engine) : (s.setEng e x).red = s.red := rfl
@[simp] theorem setEng_tim (s : State) (e : Nat) (x : Engine) : (s.setEng e x).tim = s.tim := rfl
@[simp] theorem setEng_can (s : State) (e : Nat) (x : Engine) : (s.setEng e x).can = s.can := rfl
@[simp] theorem setEng_store (s : State) (e : Nat) (x : Engine) : (s.setEng e x).store = s.store := rfl
@[simp] theorem setEng_spl (s : State) (e : Nat) (x : Engine) : (s.setEng e x).spl = s.spl := rfl
@[simp] theorem setEng_lor (s : State) (e : Nat) (x : Engine) : (s.setEng e x).lor = s.lor := rfl

/-! ### setBent -/
@[simp] theorem setBent_pending (s : State) (m : Nat) (x : Bent) : (s.setBent m x).pending = s.pending := rfl
@[simp] theorem setBent_now (s : State) (m : Nat) (x : Bent) : (s.setBent m x).now = s.now := rfl
@[simp] theorem setBent_skew (s : State) (m : Nat) (x : Bent) : (s.setBent m x).skew = s.skew := rfl
@[simp] theorem setBent_free (s : State) (m : Nat) (x : Bent) : (s.setBent m x).free = s.free := rfl
@[simp] theorem setBent_regs (s : State) (m : Nat) (x : Bent) : (s.setBent m x).regs = s.regs := rfl
@[simp] theorem setBent_raised (s : State) (m : Nat) (x : Bent) : (s.setBent m x).raised = s.raised := rfl
@[simp] theorem setBent_out (s : State) (m : Nat) (x : Bent) : (s.setBent m x).out = s.out := rfl
@[simp] theorem setBent_ms (s : State) (m : Nat) (x : Bent) : (s.setBent m x).ms = s.ms := rfl
@[simp] theorem setBent_pw (s : State) (m : Nat) (x : Bent) : (s.setBent m x).pw = s.pw := rfl
@[simp] theorem setBent_cfg (s : State) (m : Nat) (x : Bent) : (s.setBent m x).cfg = s.cfg := rfl
@[simp] theorem setBent_owners (s : State) (m : Nat) (x : Bent) : (s.setBent m x).owners = s.owners := rfl
@[simp] theorem setBent_engines (s : State) (m : Nat) (x : Bent) : (s.setBent m x).engines = s.engines := rfl
@[simp] theorem setBent_tasks (s : State) (m : Nat) (x : Bent) : (s.setBent m x).tasks = s.tasks := rfl
@[simp] theorem setBent_prog (s : State) (m : Nat) (x : Bent) : (s.setBent m x).prog = s.prog := rfl
@[simp] theorem setBent_progBad (s : State) (m : Nat) (x : Bent) : (s.setBent m x).progBad = s.progBad := rfl
@[simp] theorem setBent_progWeak (s : State) (m : Nat) (x : Bent) : (s.setBent m x).progWeak = s.progWeak := rfl
@[simp] theorem setBent_relHold (s : State) (m : Nat) (x : Bent) : (s.setBent m x).relHold = s.relHold := rfl
@[simp] theorem setBent_epochMax (s : State) (m : Nat) (x : Bent) : (s.setBent m x).epochMax = s.epochMax := rfl
@[simp] theorem setBent_img (s : State) (m : Nat) (x : Bent) : (s.setBent m x).img = s.img := rfl
@[simp] theorem setBent_mmu (s : State) (m : Nat) (x : Bent) : (s.setBent m x).mmu = s.mmu := rfl
@[simp] theorem setBent_sto (s : State) (m : Nat) (x : Bent) : (s.setBent m x).sto = s.sto := rfl
@[simp] theorem setBent_flt (s : State) (m : Nat) (x : Bent) : (s.setBent m x).flt = s.flt := rfl
@[simp] theorem setBent_wdg (s : State) (m : Nat) (x : Bent) : (s.setBent m x).wdg = s.wdg := rfl
@[simp] theorem setBent_nvs (s : State) (m : Nat) (x : Bent) : (s.setBent m x).nvs = s.nvs := rfl
@[simp] theorem setBent_alm (s : State) (m : Nat) (x : Bent) : (s.setBent m x).alm = s.alm := rfl
@[simp] theorem setBent_mgt (s : State) (m : Nat) (x : Bent) : (s.setBent m x).mgt = s.mgt := rfl
@[simp] theorem setBent_fio (s : State) (m : Nat) (x : Bent) : (s.setBent m x).fio = s.fio := rfl
@[simp] theorem setBent_loops (s : State) (m : Nat) (x : Bent) : (s.setBent m x).loops = s.loops := rfl
@[simp] theorem setBent_net (s : State) (m : Nat) (x : Bent) : (s.setBent m x).net = s.net := rfl
@[simp] theorem setBent_red (s : State) (m : Nat) (x : Bent) : (s.setBent m x).red = s.red := rfl
@[simp] theorem setBent_tim (s : State) (m : Nat) (x : Bent) : (s.setBent m x).tim = s.tim := rfl
@[simp] theorem setBent_can (s : State) (m : Nat) (x : Bent) : (s.setBent m x).can = s.can := rfl
@[simp] theorem setBent_store (s : State) (m : Nat) (x : Bent) : (s.setBent m x).store = s.store := rfl
@[simp] theorem setBent_spl (s : State) (m : Nat) (x : Bent) : (s.setBent m x).spl = s.spl := rfl
@[simp] theorem setBent_lor (s : State) (m : Nat) (x : Bent) : (s.setBent m x).lor = s.lor := rfl

/-! ### setTask -/
@[simp] theorem setTask_pending (s : State) (k : Nat) (x : Task) : (s.setTask k x).pending = s.pending := rfl
@[simp] theorem setTask_now (s : State) (k : Nat) (x : Task) : (s.setTask k x).now = s.now := rfl
@[simp] theorem setTask_skew (s : State) (k : Nat) (x : Task) : (s.setTask k x).skew = s.skew := rfl
@[simp] theorem setTask_free (s : State) (k : Nat) (x : Task) : (s.setTask k x).free = s.free := rfl
@[simp] theorem setTask_regs (s : State) (k : Nat) (x : Task) : (s.setTask k x).regs = s.regs := rfl
@[simp] theorem setTask_raised (s : State) (k : Nat) (x : Task) : (s.setTask k x).raised = s.raised := rfl
@[simp] theorem setTask_out (s : State) (k : Nat) (x : Task) : (s.setTask k x).out = s.out := rfl
@[simp] theorem setTask_ms (s : State) (k : Nat) (x : Task) : (s.setTask k x).ms = s.ms := rfl
@[simp] theorem setTask_pw (s : State) (k : Nat) (x : Task) : (s.setTask k x).pw = s.pw := rfl
@[simp] theorem setTask_cfg (s : State) (k : Nat) (x : Task) : (s.setTask k x).cfg = s.cfg := rfl
@[simp] theorem setTask_owners (s : State) (k : Nat) (x : Task) : (s.setTask k x).owners = s.owners := rfl
@[simp] theorem setTask_engines (s : State) (k : Nat) (x : Task) : (s.setTask k x).engines = s.engines := rfl
@[simp] theorem setTask_bents (s : State) (k : Nat) (x : Task) : (s.setTask k x).bents = s.bents := rfl
@[simp] theorem setTask_prog (s : State) (k : Nat) (x : Task) : (s.setTask k x).prog = s.prog := rfl
@[simp] theorem setTask_progBad (s : State) (k : Nat) (x : Task) : (s.setTask k x).progBad = s.progBad := rfl
@[simp] theorem setTask_progWeak (s : State) (k : Nat) (x : Task) : (s.setTask k x).progWeak = s.progWeak := rfl
@[simp] theorem setTask_relHold (s : State) (k : Nat) (x : Task) : (s.setTask k x).relHold = s.relHold := rfl
@[simp] theorem setTask_epochMax (s : State) (k : Nat) (x : Task) : (s.setTask k x).epochMax = s.epochMax := rfl
@[simp] theorem setTask_img (s : State) (k : Nat) (x : Task) : (s.setTask k x).img = s.img := rfl
@[simp] theorem setTask_mmu (s : State) (k : Nat) (x : Task) : (s.setTask k x).mmu = s.mmu := rfl
@[simp] theorem setTask_sto (s : State) (k : Nat) (x : Task) : (s.setTask k x).sto = s.sto := rfl
@[simp] theorem setTask_flt (s : State) (k : Nat) (x : Task) : (s.setTask k x).flt = s.flt := rfl
@[simp] theorem setTask_wdg (s : State) (k : Nat) (x : Task) : (s.setTask k x).wdg = s.wdg := rfl
@[simp] theorem setTask_nvs (s : State) (k : Nat) (x : Task) : (s.setTask k x).nvs = s.nvs := rfl
@[simp] theorem setTask_alm (s : State) (k : Nat) (x : Task) : (s.setTask k x).alm = s.alm := rfl
@[simp] theorem setTask_mgt (s : State) (k : Nat) (x : Task) : (s.setTask k x).mgt = s.mgt := rfl
@[simp] theorem setTask_fio (s : State) (k : Nat) (x : Task) : (s.setTask k x).fio = s.fio := rfl
@[simp] theorem setTask_loops (s : State) (k : Nat) (x : Task) : (s.setTask k x).loops = s.loops := rfl
@[simp] theorem setTask_net (s : State) (k : Nat) (x : Task) : (s.setTask k x).net = s.net := rfl
@[simp] theorem setTask_red (s : State) (k : Nat) (x : Task) : (s.setTask k x).red = s.red := rfl
@[simp] theorem setTask_tim (s : State) (k : Nat) (x : Task) : (s.setTask k x).tim = s.tim := rfl
@[simp] theorem setTask_can (s : State) (k : Nat) (x : Task) : (s.setTask k x).can = s.can := rfl
@[simp] theorem setTask_store (s : State) (k : Nat) (x : Task) : (s.setTask k x).store = s.store := rfl
@[simp] theorem setTask_spl (s : State) (k : Nat) (x : Task) : (s.setTask k x).spl = s.spl := rfl
@[simp] theorem setTask_lor (s : State) (k : Nat) (x : Task) : (s.setTask k x).lor = s.lor := rfl

/-! ### fresh -/
@[simp] theorem fresh_pending (s : State) : (s.fresh).2.pending = s.pending := rfl
@[simp] theorem fresh_now (s : State) : (s.fresh).2.now = s.now := rfl
@[simp] theorem fresh_skew (s : State) : (s.fresh).2.skew = s.skew := rfl
@[simp] theorem fresh_regs (s : State) : (s.fresh).2.regs = s.regs := rfl
@[simp] theorem fresh_raised (s : State) : (s.fresh).2.raised = s.raised := rfl
@[simp] theorem fresh_out (s : State) : (s.fresh).2.out = s.out := rfl
@[simp] theorem fresh_ms (s : State) : (s.fresh).2.ms = s.ms := rfl
@[simp] theorem fresh_pw (s : State) : (s.fresh).2.pw = s.pw := rfl
@[simp] theorem fresh_cfg (s : State) : (s.fresh).2.cfg = s.cfg := rfl
@[simp] theorem fresh_owners (s : State) : (s.fresh).2.owners = s.owners := rfl
@[simp] theorem fresh_engines (s : State) : (s.fresh).2.engines = s.engines := rfl
@[simp] theorem fresh_bents (s : State) : (s.fresh).2.bents = s.bents := rfl
@[simp] theorem fresh_tasks (s : State) : (s.fresh).2.tasks = s.tasks := rfl
@[simp] theorem fresh_prog (s : State) : (s.fresh).2.prog = s.prog := rfl
@[simp] theorem fresh_progBad (s : State) : (s.fresh).2.progBad = s.progBad := rfl
@[simp] theorem fresh_progWeak (s : State) : (s.fresh).2.progWeak = s.progWeak := rfl
@[simp] theorem fresh_relHold (s : State) : (s.fresh).2.relHold = s.relHold := rfl
@[simp] theorem fresh_epochMax (s : State) : (s.fresh).2.epochMax = s.epochMax := rfl
@[simp] theorem fresh_img (s : State) : (s.fresh).2.img = s.img := rfl
@[simp] theorem fresh_mmu (s : State) : (s.fresh).2.mmu = s.mmu := rfl
@[simp] theorem fresh_sto (s : State) : (s.fresh).2.sto = s.sto := rfl
@[simp] theorem fresh_flt (s : State) : (s.fresh).2.flt = s.flt := rfl
@[simp] theorem fresh_wdg (s : State) : (s.fresh).2.wdg = s.wdg := rfl
@[simp] theorem fresh_nvs (s : State) : (s.fresh).2.nvs = s.nvs := rfl
@[simp] theorem fresh_alm (s : State) : (s.fresh).2.alm = s.alm := rfl
@[simp] theorem fresh_mgt (s : State) : (s.fresh).2.mgt = s.mgt := rfl
@[simp] theorem fresh_fio (s : State) : (s.fresh).2.fio = s.fio := rfl
@[simp] theorem fresh_loops (s : State) : (s.fresh).2.loops = s.loops := rfl
@[simp] theorem fresh_net (s : State) : (s.fresh).2.net = s.net := rfl
@[simp] theorem fresh_red (s : State) : (s.fresh).2.red = s.red := rfl
@[simp] theorem fresh_tim (s : State) : (s.fresh).2.tim = s.tim := rfl
@[simp] theorem fresh_can (s : State) : (s.fresh).2.can = s.can := rfl
@[simp] theorem fresh_store (s : State) : (s.fresh).2.store = s.store := rfl
@[simp] theorem fresh_spl (s : State) : (s.fresh).2.spl = s.spl := rfl
@[simp] theorem fresh_lor (s : State) : (s.fresh).2.lor = s.lor := rfl
@[simp] theorem freshRow_pending (s : State) : (s.freshRow).2.pending = s.pending := rfl
@[simp] theorem freshRow_now (s : State) : (s.freshRow).2.now = s.now := rfl
@[simp] theorem freshRow_skew (s : State) : (s.freshRow).2.skew = s.skew := rfl
@[simp] theorem freshRow_regs (s : State) : (s.freshRow).2.regs = s.regs := rfl
@[simp] theorem freshRow_raised (s : State) : (s.freshRow).2.raised = s.raised := rfl
@[simp] theorem freshRow_out (s : State) : (s.freshRow).2.out = s.out := rfl
@[simp] theorem freshRow_ms (s : State) : (s.freshRow).2.ms = s.ms := rfl
@[simp] theorem freshRow_pw (s : State) : (s.freshRow).2.pw = s.pw := rfl
@[simp] theorem freshRow_cfg (s : State) : (s.freshRow).2.cfg = s.cfg := rfl
@[simp] theorem freshRow_owners (s : State) : (s.freshRow).2.owners = s.owners := rfl
@[simp] theorem freshRow_engines (s : State) : (s.freshRow).2.engines = s.engines := rfl
@[simp] theorem freshRow_bents (s : State) : (s.freshRow).2.bents = s.bents := rfl
@[simp] theorem freshRow_tasks (s : State) : (s.freshRow).2.tasks = s.tasks := rfl
@[simp] theorem freshRow_prog (s : State) : (s.freshRow).2.prog = s.prog := rfl
@[simp] theorem freshRow_progBad (s : State) : (s.freshRow).2.progBad = s.progBad := rfl
@[simp] theorem freshRow_progWeak (s : State) : (s.freshRow).2.progWeak = s.progWeak := rfl
@[simp] theorem freshRow_relHold (s : State) : (s.freshRow).2.relHold = s.relHold := rfl
@[simp] theorem freshRow_epochMax (s : State) : (s.freshRow).2.epochMax = s.epochMax := rfl
@[simp] theorem freshRow_img (s : State) : (s.freshRow).2.img = s.img := rfl
@[simp] theorem freshRow_mmu (s : State) : (s.freshRow).2.mmu = s.mmu := rfl
@[simp] theorem freshRow_sto (s : State) : (s.freshRow).2.sto = s.sto := rfl
@[simp] theorem freshRow_flt (s : State) : (s.freshRow).2.flt = s.flt := rfl
@[simp] theorem freshRow_wdg (s : State) : (s.freshRow).2.wdg = s.wdg := rfl
@[simp] theorem freshRow_nvs (s : State) : (s.freshRow).2.nvs = s.nvs := rfl
@[simp] theorem freshRow_alm (s : State) : (s.freshRow).2.alm = s.alm := rfl
@[simp] theorem freshRow_mgt (s : State) : (s.freshRow).2.mgt = s.mgt := rfl
@[simp] theorem freshRow_fio (s : State) : (s.freshRow).2.fio = s.fio := rfl
@[simp] theorem freshRow_loops (s : State) : (s.freshRow).2.loops = s.loops := rfl
@[simp] theorem freshRow_net (s : State) : (s.freshRow).2.net = s.net := rfl
@[simp] theorem freshRow_red (s : State) : (s.freshRow).2.red = s.red := rfl
@[simp] theorem freshRow_tim (s : State) : (s.freshRow).2.tim = s.tim := rfl
@[simp] theorem freshRow_can (s : State) : (s.freshRow).2.can = s.can := rfl
@[simp] theorem freshRow_store (s : State) : (s.freshRow).2.store = s.store := rfl
@[simp] theorem freshRow_spl (s : State) : (s.freshRow).2.spl = s.spl := rfl
@[simp] theorem freshRow_lor (s : State) : (s.freshRow).2.lor = s.lor := rfl

@[simp] theorem fresh_free (s : State) : s.fresh.2.free = s.free + 1 := rfl
@[simp] theorem emit_out (s : State) (e : Emit) : (s.emit e).out = e :: s.out := rfl
@[simp] theorem emit_red (s : State) (e : Emit) : (s.emit e).red = pairSent s.red e := rfl
@[simp] theorem advance_now (s : State) (t : Nat) : (s.advance t).now = max s.now t := rfl

end Sys2Proof.Machine.State
end

