-- ==== Sys2Proof/Laws/Settle.lean ====
section
/-! SUPPORT. How a command ends: in a calm state nothing follows; the queue is left as it stood. -/
namespace Sys2Proof.Machine

/-- Doing nothing for each element does nothing. -/
theorem forEach_id {α : Type} (f : State → α → State) (l : List α) (s : State) (h : ∀ x ∈ l, f s x = s) : forEach l f s = s := by
  unfold forEach
  induction l with
  | nil => rfl
  | cons a l ih => rw [List.foldl_cons, h a (by simp), ih (fun x hx => h x (by simp [hx]))]

namespace State

theorem settleDrains_calm {s : State} (h : s.calm = true) : s.settleDrains = s := by
  simp only [calm, Bool.and_eq_true, List.all_eq_true, Bool.not_eq_true'] at h
  unfold settleDrains
  rw [forEach_id]
  · simp [h.1.1.1.2]
  · intro n hn
    have := (h.1.1.1.1.2 n hn).1
    simp [drained, this]

theorem splForcedDue_calm {s : State} (h : s.calm = true) : s.splForcedDue = s := by
  simp only [calm, Bool.and_eq_true, List.all_eq_true, Bool.not_eq_true'] at h
  unfold splForcedDue
  apply forEach_id
  intro n hn
  have := (h.1.1.1.1.2 n hn).2
  simp [this]

theorem takeFirings_calm {s : State} (h : s.raised = []) : s.takeFirings = s := by
  simp [takeFirings, h]

theorem lorPump_calm {s : State} (h : s.lor.all (fun e => e.2.held.isEmpty) = true) : s.lorPump = s := by
  have : ∀ (l : SMap LorSess) (a : Nat), l.all (fun e => e.2.held.isEmpty) = true → l.foldl (fun a e => a + e.2.held.length) a = a := by
    intro l
    induction l with
    | nil => intro a _; rfl
    | cons e l ih =>
      intro a h
      simp only [List.all_cons, Bool.and_eq_true, List.isEmpty_iff] at h
      rw [List.foldl_cons, h.1]
      exact ih a h.2
  rw [lorPump, this s.lor 0 h]
  rfl

theorem settleOnce_calm {s : State} (h : s.calm = true) : s.settleOnce = s := by
  have hd := settleDrains_calm h
  have hs := splForcedDue_calm h
  simp only [calm, Bool.and_eq_true, List.all_eq_true, Bool.not_eq_true', List.isEmpty_iff] at h
  have hr : s.rollbackForced = s := by simp [rollbackForced, h.1.1.2]
  have hc : s.redCompare = s := by simp [redCompare, h.1.2, forEach]
  have hl : s.lorPump = s := lorPump_calm (by simpa using h.2)
  rw [settleOnce, takeFirings_calm h.1.1.1.1.1, hd, hs, hr, hc, hl]

/-- Nothing follows from a calm state. -/
theorem settle_calm {s : State} (h : s.calm = true) : s.settle = s := by
  have hr : s.raised.isEmpty = true := by simp only [calm, Bool.and_eq_true] at h; exact h.1.1.1.1.1
  show s.settleN (s.raised.length + 63 + 1) = s
  simp only [settleN, settleOnce_calm h, hr, if_true]

end State

/-- A command whose effect leaves a calm state ends in it, with the queue as it was. -/
theorem done_calm {s t : State} (h : t.calm = true) : done s t = .next { t with pending := s.pending } := by
  rw [done, State.settle_calm h]

/-- The same where the effect leaves the queue alone. -/
theorem done_calm_eq {s t : State} (h : t.calm = true) (hp : t.pending = s.pending) : done s t = .next t := by
  rw [done_calm h, ← hp]

/-- A command is its effect and what follows from it. -/
theorem act_eq (f : State → State) (s : State) : act f s = done s (f s) := rfl

/-- A command leaves the queue as it was. -/
theorem act_pending {f : State → State} {s t : State} (h : act f s = .next t) : t.pending = s.pending := by
  cases h; rfl

end Sys2Proof.Machine
end

