-- ==== Sys2Proof/Laws/Bus.lean ====
section
/-! SUPPORT. Register accesses: what a performed write does, reading back what was stored. -/
namespace Sys2Proof.Machine
namespace State

/-- A write that is performed does what its hook says. -/
theorem busSet_writes {s : State} {r : Req} {a base i : Nat} (h : s.writes r a base i) :
    ∃ hit : RegHit, hit.desc.base = base ∧ hit.i = i ∧ ∀ v, s.busSet r a v =
      (match s.sysWriteHook (s.reqOwner r == 0) hit (v % 2 ^ 32) with
       | some t => t
       | none => match s.ioWriteHook (s.reqOwner r == 0) hit (v % 2 ^ 32) with
         | some t => t
         | none => s.plainWrite a hit (v % 2 ^ 32)) := by
  obtain ⟨hl, hit, hc, hb, hi, hs, hp, hd, hw⟩ := h
  refine ⟨hit, hb, hi, fun v => ?_⟩
  have e : s.busWake a hit = s := by
    unfold busWake
    rw [if_neg]
    simpa using hw
  rw [busSet, if_pos hl, busWrite, hc]
  simp only [e, writeNow, hs, hd, hp, Bool.not_true, Bool.or_false, Bool.false_eq_true, if_false] <;> rfl

/-- A register reads what the map gives, by default its reset value. -/
theorem rd_eq (s : State) (a : Nat) : s.rd a = s.regs.get (regReset a) a := by
  unfold rd SMap.get
  cases SMap.find? s.regs a <;> rfl

/-- A register reads back what was stored. -/
theorem rd_wr_same (s : State) (a v : Nat) : (s.wr a v).rd a = v % 2 ^ 32 := by
  rw [rd_eq]; exact get_set_same _ _ _ _

/-- Storing a register leaves every other one. -/
theorem rd_wr_other (s : State) {a b : Nat} (v : Nat) (h : b ≠ a) : (s.wr a v).rd b = s.rd b := by
  rw [rd_eq, rd_eq]
  show (SMap.set (regReset a) s.regs a (v % 2 ^ 32)).get (regReset b) b = _
  unfold SMap.set SMap.get
  split
  · rw [find_erase_other _ h]
  · rw [find_insert_other _ _ h]

end State
end Sys2Proof.Machine
end

