-- ==== Sys2Proof/Laws/Exec.lean ====
section
/-! SUPPORT. The dispatch, one command at a time: what exec of a constructor is. -/
namespace Sys2Proof.Machine

theorem exec_supplyValid (p : PowerUp) (s : State) : exec (.supplyValid p) s = execSupplyValid p s := rfl
theorem exec_leanRetry (p : PowerUp) (s : State) : exec (.leanRetry p) s = execLeanRetry p s := rfl
theorem exec_configureComplete (s : State) : exec (.configureComplete) s = execConfigureComplete s := rfl
theorem exec_powerFailWarning (cause : Nat) (busMv : Nat) (s : State) : exec (.powerFailWarning cause busMv) s = execPowerFailWarning cause busMv s := rfl
theorem exec_seatedLoopBreak (s : State) : exec (.seatedLoopBreak) s = execSeatedLoopBreak s := rfl
theorem exec_drainComplete (ok : Bool) (s : State) : exec (.drainComplete ok) s = execDrainComplete ok s := rfl
theorem exec_supplyLossNoDrain (s : State) : exec (.supplyLossNoDrain) s = execSupplyLossNoDrain s := rfl
theorem exec_removalRequest (heldMs : Nat) (s : State) : exec (.removalRequest heldMs) s = execRemovalRequest heldMs s := rfl
theorem exec_removalConfirmTimeout (s : State) : exec (.removalConfirmTimeout) s = execRemovalConfirmTimeout s := rfl
theorem exec_modecmdStop (r : Req) (kind : Nat) (s : State) : exec (.modecmdStop r kind) s = execModecmdStop r kind s := rfl
theorem exec_modecmdRun (r : Req) (kind : Nat) (s : State) : exec (.modecmdRun r kind) s = execModecmdRun r kind s := rfl
theorem exec_modecmdTest (r : Req) (kind : Nat) (s : State) : exec (.modecmdTest r kind) s = execModecmdTest r kind s := rfl
theorem exec_modecmdDrain (r : Req) (kind : Nat) (s : State) : exec (.modecmdDrain r kind) s = execModecmdDrain r kind s := rfl
theorem exec_runStart (t : Nat) (s : State) : exec (.runStart t) s = execRunStart t s := rfl
theorem exec_holdQuietExpiry (s : State) : exec (.holdQuietExpiry) s = execHoldQuietExpiry s := rfl
theorem exec_ownerQuietExpiry (n : Nat) (s : State) : exec (.ownerQuietExpiry n) s = execOwnerQuietExpiry n s := rfl
theorem exec_ownerStop (n : Nat) (s : State) : exec (.ownerStop n) s = execOwnerStop n s := rfl
theorem exec_ownerStart (n : Nat) (t : Nat) (s : State) : exec (.ownerStart n t) s = execOwnerStart n t s := rfl
theorem exec_scnLoad (h : LorHead) (off : Nat) (bytes : List Byte) (bad : Bool) (s : State) : exec (.scnLoad h off bytes bad) s = execScnLoad h off bytes bad s := rfl
theorem exec_loadTimeout (n : Nat) (s : State) : exec (.loadTimeout n) s = execLoadTimeout n s := rfl
theorem exec_scnCommit (h : LorHead) (s : State) : exec (.scnCommit h) s = execScnCommit h s := rfl
theorem exec_planeStreamDone (s : State) : exec (.planeStreamDone) s = execPlaneStreamDone s := rfl
theorem exec_planeSwap (s : State) : exec (.planeSwap) s = execPlaneSwap s := rfl
theorem exec_updateFail (s : State) : exec (.updateFail) s = execUpdateFail s := rfl
theorem exec_scnConfirm (h : LorHead) (s : State) : exec (.scnConfirm h) s = execScnConfirm h s := rfl
theorem exec_scnRollback (h : LorHead) (s : State) : exec (.scnRollback h) s = execScnRollback h s := rfl
theorem exec_updateWindowExpiry (s : State) : exec (.updateWindowExpiry) s = execUpdateWindowExpiry s := rfl
theorem exec_rollbackSwap (force : Bool) (s : State) : exec (.rollbackSwap force) s = execRollbackSwap force s := rfl
theorem exec_nop (q : Issue) (s : State) : exec (.nop q) s = execNop q s := rfl
theorem exec_dup (q : Issue) (s : State) : exec (.dup q) s = execDup q s := rfl
theorem exec_drop (q : Issue) (s : State) : exec (.drop q) s = execDrop q s := rfl
theorem exec_swap (q : Issue) (s : State) : exec (.swap q) s = execSwap q s := rfl
theorem exec_over (q : Issue) (s : State) : exec (.over q) s = execOver q s := rfl
theorem exec_rot (q : Issue) (s : State) : exec (.rot q) s = execRot q s := rfl
theorem exec_nip (q : Issue) (s : State) : exec (.nip q) s = execNip q s := rfl
theorem exec_pick (q : Issue) (s : State) : exec (.pick q) s = execPick q s := rfl
theorem exec_and_ (q : Issue) (s : State) : exec (.and_ q) s = execAnd q s := rfl
theorem exec_or_ (q : Issue) (s : State) : exec (.or_ q) s = execOr q s := rfl
theorem exec_xor (q : Issue) (s : State) : exec (.xor q) s = execXor q s := rfl
theorem exec_not_ (q : Issue) (s : State) : exec (.not_ q) s = execNot q s := rfl
theorem exec_andn (q : Issue) (s : State) : exec (.andn q) s = execAndn q s := rfl
theorem exec_orn (q : Issue) (s : State) : exec (.orn q) s = execOrn q s := rfl
theorem exec_mux (q : Issue) (s : State) : exec (.mux q) s = execMux q s := rfl
theorem exec_lshu (q : Issue) (s : State) : exec (.lshu q) s = execLshu q s := rfl
theorem exec_lshd (q : Issue) (s : State) : exec (.lshd q) s = execLshd q s := rfl
theorem exec_lrot (q : Issue) (s : State) : exec (.lrot q) s = execLrot q s := rfl
theorem exec_bcast (q : Issue) (s : State) : exec (.bcast q) s = execBcast q s := rfl
theorem exec_any (q : Issue) (s : State) : exec (.any q) s = execAny q s := rfl
theorem exec_all (q : Issue) (s : State) : exec (.all q) s = execAll q s := rfl
theorem exec_popc (q : Issue) (s : State) : exec (.popc q) s = execPopc q s := rfl
theorem exec_lmask (q : Issue) (s : State) : exec (.lmask q) s = execLmask q s := rfl
theorem exec_rise (q : Issue) (s : State) : exec (.rise q) s = execRise q s := rfl
theorem exec_fall (q : Issue) (s : State) : exec (.fall q) s = execFall q s := rfl
theorem exec_ton (q : Issue) (s : State) : exec (.ton q) s = execTon q s := rfl
theorem exec_tof (q : Issue) (s : State) : exec (.tof q) s = execTof q s := rfl
theorem exec_tp (q : Issue) (s : State) : exec (.tp q) s = execTp q s := rfl
theorem exec_trst (q : Issue) (s : State) : exec (.trst q) s = execTrst q s := rfl
theorem exec_add (q : Issue) (s : State) : exec (.add q) s = execAdd q s := rfl
theorem exec_sub (q : Issue) (s : State) : exec (.sub q) s = execSub q s := rfl
theorem exec_neg (q : Issue) (s : State) : exec (.neg q) s = execNeg q s := rfl
theorem exec_inc (q : Issue) (s : State) : exec (.inc q) s = execInc q s := rfl
theorem exec_dec (q : Issue) (s : State) : exec (.dec q) s = execDec q s := rfl
theorem exec_mul (q : Issue) (s : State) : exec (.mul q) s = execMul q s := rfl
theorem exec_mulh (q : Issue) (s : State) : exec (.mulh q) s = execMulh q s := rfl
theorem exec_mulhu (q : Issue) (s : State) : exec (.mulhu q) s = execMulhu q s := rfl
theorem exec_div (q : Issue) (s : State) : exec (.div q) s = execDiv q s := rfl
theorem exec_divu (q : Issue) (s : State) : exec (.divu q) s = execDivu q s := rfl
theorem exec_rem (q : Issue) (s : State) : exec (.rem q) s = execRem q s := rfl
theorem exec_remu (q : Issue) (s : State) : exec (.remu q) s = execRemu q s := rfl
theorem exec_shl (q : Issue) (s : State) : exec (.shl q) s = execShl q s := rfl
theorem exec_shr (q : Issue) (s : State) : exec (.shr q) s = execShr q s := rfl
theorem exec_sar (q : Issue) (s : State) : exec (.sar q) s = execSar q s := rfl
theorem exec_min (q : Issue) (s : State) : exec (.min q) s = execMin q s := rfl
theorem exec_max (q : Issue) (s : State) : exec (.max q) s = execMax q s := rfl
theorem exec_minu (q : Issue) (s : State) : exec (.minu q) s = execMinu q s := rfl
theorem exec_maxu (q : Issue) (s : State) : exec (.maxu q) s = execMaxu q s := rfl
theorem exec_abs (q : Issue) (s : State) : exec (.abs q) s = execAbs q s := rfl
theorem exec_addsat (q : Issue) (s : State) : exec (.addsat q) s = execAddsat q s := rfl
theorem exec_subsat (q : Issue) (s : State) : exec (.subsat q) s = execSubsat q s := rfl
theorem exec_fadd (q : Issue) (dbl : Bool) (s : State) : exec (.fadd q dbl) s = execFadd q dbl s := rfl
theorem exec_fsub (q : Issue) (dbl : Bool) (s : State) : exec (.fsub q dbl) s = execFsub q dbl s := rfl
theorem exec_fmul (q : Issue) (dbl : Bool) (s : State) : exec (.fmul q dbl) s = execFmul q dbl s := rfl
theorem exec_fdiv (q : Issue) (dbl : Bool) (s : State) : exec (.fdiv q dbl) s = execFdiv q dbl s := rfl
theorem exec_fsqrt (q : Issue) (dbl : Bool) (s : State) : exec (.fsqrt q dbl) s = execFsqrt q dbl s := rfl
theorem exec_fma (q : Issue) (dbl : Bool) (s : State) : exec (.fma q dbl) s = execFma q dbl s := rfl
theorem exec_fneg (q : Issue) (dbl : Bool) (s : State) : exec (.fneg q dbl) s = execFneg q dbl s := rfl
theorem exec_fabs (q : Issue) (dbl : Bool) (s : State) : exec (.fabs q dbl) s = execFabs q dbl s := rfl
theorem exec_fmin (q : Issue) (dbl : Bool) (s : State) : exec (.fmin q dbl) s = execFmin q dbl s := rfl
theorem exec_fmax (q : Issue) (dbl : Bool) (s : State) : exec (.fmax q dbl) s = execFmax q dbl s := rfl
theorem exec_eq (q : Issue) (s : State) : exec (.eq q) s = execEq q s := rfl
theorem exec_ne (q : Issue) (s : State) : exec (.ne q) s = execNe q s := rfl
theorem exec_lt (q : Issue) (s : State) : exec (.lt q) s = execLt q s := rfl
theorem exec_le (q : Issue) (s : State) : exec (.le q) s = execLe q s := rfl
theorem exec_gt (q : Issue) (s : State) : exec (.gt q) s = execGt q s := rfl
theorem exec_ge (q : Issue) (s : State) : exec (.ge q) s = execGe q s := rfl
theorem exec_ltu (q : Issue) (s : State) : exec (.ltu q) s = execLtu q s := rfl
theorem exec_leu (q : Issue) (s : State) : exec (.leu q) s = execLeu q s := rfl
theorem exec_gtu (q : Issue) (s : State) : exec (.gtu q) s = execGtu q s := rfl
theorem exec_geu (q : Issue) (s : State) : exec (.geu q) s = execGeu q s := rfl
theorem exec_req (q : Issue) (s : State) : exec (.req q) s = execReq q s := rfl
theorem exec_feq (q : Issue) (dbl : Bool) (s : State) : exec (.feq q dbl) s = execFeq q dbl s := rfl
theorem exec_flt (q : Issue) (dbl : Bool) (s : State) : exec (.flt q dbl) s = execFlt q dbl s := rfl
theorem exec_fle (q : Issue) (dbl : Bool) (s : State) : exec (.fle q dbl) s = execFle q dbl s := rfl
theorem exec_fun (q : Issue) (dbl : Bool) (s : State) : exec (.fun q dbl) s = execFun q dbl s := rfl
theorem exec_sx (q : Issue) (form : Nat) (s : State) : exec (.sx q form) s = execSx q form s := rfl
theorem exec_zx (q : Issue) (form : Nat) (s : State) : exec (.zx q form) s = execZx q form s := rfl
theorem exec_i2s (q : Issue) (s : State) : exec (.i2s q) s = execI2s q s := rfl
theorem exec_i2d (q : Issue) (s : State) : exec (.i2d q) s = execI2d q s := rfl
theorem exec_u2s (q : Issue) (s : State) : exec (.u2s q) s = execU2s q s := rfl
theorem exec_u2d (q : Issue) (s : State) : exec (.u2d q) s = execU2d q s := rfl
theorem exec_s2i (q : Issue) (s : State) : exec (.s2i q) s = execS2i q s := rfl
theorem exec_d2i (q : Issue) (s : State) : exec (.d2i q) s = execD2i q s := rfl
theorem exec_s2d (q : Issue) (s : State) : exec (.s2d q) s = execS2d q s := rfl
theorem exec_d2s (q : Issue) (s : State) : exec (.d2s q) s = execD2s q s := rfl
theorem exec_wext (q : Issue) (s : State) : exec (.wext q) s = execWext q s := rfl
theorem exec_wins (q : Issue) (s : State) : exec (.wins q) s = execWins q s := rfl
theorem exec_yield (q : Issue) (s : State) : exec (.yield q) s = execYield q s := rfl
theorem exec_wait (q : Issue) (s : State) : exec (.wait q) s = execWait q s := rfl
theorem exec_signal (q : Issue) (s : State) : exec (.signal q) s = execSignal q s := rfl
theorem exec_end_ (q : Issue) (s : State) : exec (.end_ q) s = execEnd q s := rfl
theorem exec_ret (q : Issue) (s : State) : exec (.ret q) s = execRet q s := rfl
theorem exec_trap (q : Issue) (s : State) : exec (.trap q) s = execTrap q s := rfl
theorem exec_enq (q : Issue) (s : State) : exec (.enq q) s = execEnq q s := rfl
theorem exec_enq2 (q : Issue) (s : State) : exec (.enq2 q) s = execEnq2 q s := rfl
theorem exec_deq (q : Issue) (s : State) : exec (.deq q) s = execDeq q s := rfl
theorem exec_deq2 (q : Issue) (s : State) : exec (.deq2 q) s = execDeq2 q s := rfl
theorem exec_rcnt (q : Issue) (s : State) : exec (.rcnt q) s = execRcnt q s := rfl
theorem exec_din (q : Issue) (s : State) : exec (.din q) s = execDin q s := rfl
theorem exec_dout (q : Issue) (s : State) : exec (.dout q) s = execDout q s := rfl
theorem exec_now (q : Issue) (s : State) : exec (.now q) s = execNow q s := rfl
theorem exec_nowe (q : Issue) (s : State) : exec (.nowe q) s = execNowe q s := rfl
theorem exec_elapsed (q : Issue) (s : State) : exec (.elapsed q) s = execElapsed q s := rfl
theorem exec_elapsedh (q : Issue) (s : State) : exec (.elapsedh q) s = execElapsedh q s := rfl
theorem exec_br (q : Issue) (off : Nat) (s : State) : exec (.br q off) s = execBr q off s := rfl
theorem exec_bz (q : Issue) (off : Nat) (s : State) : exec (.bz q off) s = execBz q off s := rfl
theorem exec_bnz (q : Issue) (off : Nat) (s : State) : exec (.bnz q off) s = execBnz q off s := rfl
theorem exec_call (q : Issue) (off : Nat) (s : State) : exec (.call q off) s = execCall q off s := rfl
theorem exec_lit (q : Issue) (imm : Nat) (s : State) : exec (.lit q imm) s = execLit q imm s := rfl
theorem exec_ext (q : Issue) (imm : Nat) (s : State) : exec (.ext q imm) s = execExt q imm s := rfl
theorem exec_ldb (q : Issue) (sp : Nat) (md : Nat) (s : State) : exec (.ldb q sp md) s = execLdb q sp md s := rfl
theorem exec_stb (q : Issue) (sp : Nat) (md : Nat) (s : State) : exec (.stb q sp md) s = execStb q sp md s := rfl
theorem exec_ldr (q : Issue) (sp : Nat) (md : Nat) (s : State) : exec (.ldr q sp md) s = execLdr q sp md s := rfl
theorem exec_str (q : Issue) (sp : Nat) (md : Nat) (s : State) : exec (.str q sp md) s = execStr q sp md s := rfl
theorem exec_strm (q : Issue) (sp : Nat) (md : Nat) (s : State) : exec (.strm q sp md) s = execStrm q sp md s := rfl
theorem exec_ldw (q : Issue) (sp : Nat) (md : Nat) (s : State) : exec (.ldw q sp md) s = execLdw q sp md s := rfl
theorem exec_stw (q : Issue) (sp : Nat) (md : Nat) (s : State) : exec (.stw q sp md) s = execStw q sp md s := rfl
theorem exec_ldl (q : Issue) (sp : Nat) (md : Nat) (s : State) : exec (.ldl q sp md) s = execLdl q sp md s := rfl
theorem exec_stl (q : Issue) (sp : Nat) (md : Nat) (s : State) : exec (.stl q sp md) s = execStl q sp md s := rfl
theorem exec_lr (q : Issue) (sp : Nat) (md : Nat) (s : State) : exec (.lr q sp md) s = execLr q sp md s := rfl
theorem exec_sc (q : Issue) (sp : Nat) (md : Nat) (s : State) : exec (.sc q sp md) s = execSc q sp md s := rfl
theorem exec_tset (q : Issue) (sp : Nat) (md : Nat) (s : State) : exec (.tset q sp md) s = execTset q sp md s := rfl
theorem exec_ldc (q : Issue) (sp : Nat) (md : Nat) (s : State) : exec (.ldc q sp md) s = execLdc q sp md s := rfl
theorem exec_storeLineWrite (e : Nat) (s : State) : exec (.storeLineWrite e) s = execStoreLineWrite e s := rfl
theorem exec_reservationExpiry (e : Nat) (s : State) : exec (.reservationExpiry e) s = execReservationExpiry e s := rfl
theorem exec_paceReport (m : Nat) (ps : Nat) (s : State) : exec (.paceReport m ps) s = execPaceReport m ps s := rfl
theorem exec_bentSelfTest (r : Req) (e : Nat) (s : State) : exec (.bentSelfTest r e) s = execBentSelfTest r e s := rfl
theorem exec_selfTestDone (m : Nat) (pass : Bool) (s : State) : exec (.selfTestDone m pass) s = execSelfTestDone m pass s := rfl
theorem exec_bentGateOff (m : Nat) (s : State) : exec (.bentGateOff m) s = execBentGateOff m s := rfl
theorem exec_bentWakeComplete (m : Nat) (s : State) : exec (.bentWakeComplete m) s = execBentWakeComplete m s := rfl
theorem exec_cyclicRelease (s : State) : exec (.cyclicRelease) s = execCyclicRelease s := rfl
theorem exec_eventRelease (s : State) : exec (.eventRelease) s = execEventRelease s := rfl
theorem exec_pendingRelease (s : State) : exec (.pendingRelease) s = execPendingRelease s := rfl
theorem exec_preemption (e : Nat) (s : State) : exec (.preemption e) s = execPreemption e s := rfl
theorem exec_budgetExceeded (k : Nat) (s : State) : exec (.budgetExceeded k) s = execBudgetExceeded k s := rfl
theorem exec_deadlineMiss (k : Nat) (s : State) : exec (.deadlineMiss k) s = execDeadlineMiss k s := rfl
theorem exec_mutualWaitDetected (n : Nat) (s : State) : exec (.mutualWaitDetected n) s = execMutualWaitDetected n s := rfl
theorem exec_waitEvent (k : Nat) (s : State) : exec (.waitEvent k) s = execWaitEvent k s := rfl
theorem exec_waitDeadline (k : Nat) (s : State) : exec (.waitDeadline k) s = execWaitDeadline k s := rfl
theorem exec_releaseHoldEnd (s : State) : exec (.releaseHoldEnd) s = execReleaseHoldEnd s := rfl
theorem exec_commit (n : Nat) (s : State) : exec (.commit n) s = execCommit n s := rfl
theorem exec_stagedStoreResume (e : Nat) (s : State) : exec (.stagedStoreResume e) s = execStagedStoreResume e s := rfl
theorem exec_poolStallLimit (e : Nat) (s : State) : exec (.poolStallLimit e) s = execPoolStallLimit e s := rfl
theorem exec_sysRowUpdate (n : Nat) (row : Nat) (s : State) : exec (.sysRowUpdate n row) s = execSysRowUpdate n row s := rfl
theorem exec_ringEnable (r : Req) (q : Nat) (s : State) : exec (.ringEnable r q) s = execRingEnable r q s := rfl
theorem exec_ringEnableDone (q : Nat) (s : State) : exec (.ringEnableDone q) s = execRingEnableDone q s := rfl
theorem exec_ringDisable (r : Req) (q : Nat) (s : State) : exec (.ringDisable r q) s = execRingDisable r q s := rfl
theorem exec_ringDisableDone (q : Nat) (s : State) : exec (.ringDisableDone q) s = execRingDisableDone q s := rfl
theorem exec_hwRingEntry (q : Nat) (bytes : List Byte) (s : State) : exec (.hwRingEntry q bytes) s = execHwRingEntry q bytes s := rfl
theorem exec_hwRingTake (q : Nat) (s : State) : exec (.hwRingTake q) s = execHwRingTake q s := rfl
theorem exec_splLoad (h : LorHead) (off : Nat) (bytes : List Byte) (s : State) : exec (.splLoad h off bytes) s = execSplLoad h off bytes s := rfl
theorem exec_splApply (h : LorHead) (owner : Nat) (s : State) : exec (.splApply h owner) s = execSplApply h owner s := rfl
theorem exec_spliceApplyInstant (n : Nat) (s : State) : exec (.spliceApplyInstant n) s = execSpliceApplyInstant n s := rfl
theorem exec_spliceApplyTimeout (n : Nat) (s : State) : exec (.spliceApplyTimeout n) s = execSpliceApplyTimeout n s := rfl
theorem exec_splConfirm (h : LorHead) (owner : Nat) (s : State) : exec (.splConfirm h owner) s = execSplConfirm h owner s := rfl
theorem exec_splRollback (h : LorHead) (owner : Nat) (s : State) : exec (.splRollback h owner) s = execSplRollback h owner s := rfl
theorem exec_spliceWindowExpiry (n : Nat) (s : State) : exec (.spliceWindowExpiry n) s = execSpliceWindowExpiry n s := rfl
theorem exec_spliceRollbackInstant (n : Nat) (s : State) : exec (.spliceRollbackInstant n) s = execSpliceRollbackInstant n s := rfl
theorem exec_spliceForcedRollback (n : Nat) (s : State) : exec (.spliceForcedRollback n) s = execSpliceForcedRollback n s := rfl
theorem exec_hello (x : Hello) (s : State) : exec (.hello x) s = execHello x s := rfl
theorem exec_helloSend (s : State) : exec (.helloSend) s = execHelloSend s := rfl
theorem exec_keyconf (tag : Nat) (s : State) : exec (.keyconf tag) s = execKeyconf tag s := rfl
theorem exec_heartbeatSend (s : State) : exec (.heartbeatSend) s = execHeartbeatSend s := rfl
theorem exec_heartbeat (h : PairHead) (mode : Nat) (role : Nat) (flevel : Nat) (suspect : Nat) (epoch : Nat) (off : Int) (s : State) : exec (.heartbeat h mode role flevel suspect epoch off) s = execHeartbeat h mode role flevel suspect epoch off s := rfl
theorem exec_partnerLost (s : State) : exec (.partnerLost) s = execPartnerLost s := rfl
theorem exec_takeoverComplete (s : State) : exec (.takeoverComplete) s = execTakeoverComplete s := rfl
theorem exec_holdTakeover (s : State) : exec (.holdTakeover) s = execHoldTakeover s := rfl
theorem exec_digest (h : PairHead) (l : List (Nat × Nat × Nat × Nat × Nat)) (s : State) : exec (.digest h l) s = execDigest h l s := rfl
theorem exec_digestMissing (s : State) : exec (.digestMissing) s = execDigestMissing s := rfl
theorem exec_role (h : PairHead) (op : Nat) (cause : Nat) (t : Nat) (s : State) : exec (.role h op cause t) s = execRole h op cause t s := rfl
theorem exec_leave (h : PairHead) (cause : Nat) (s : State) : exec (.leave h cause) s = execLeave h cause s := rfl
theorem exec_stopcmd (h : PairHead) (cause : Nat) (s : State) : exec (.stopcmd h cause) s = execStopcmd h cause s := rfl
theorem exec_seqmap (h : PairHead) (l : List (Nat × Nat × Nat × Nat × Nat)) (s : State) : exec (.seqmap h l) s = execSeqmap h l s := rfl
theorem exec_splice (h : PairHead) (op : Nat) (code : Nat) (n : Nat) (e : Nat) (s : State) : exec (.splice h op code n e) s = execSplice h op code n e s := rfl
theorem exec_event (h : PairHead) (k : Nat) (t : Nat) (s : State) : exec (.event h k t) s = execEvent h k t s := rfl
theorem exec_rows (h : PairHead) (l : List (Nat × Nat × Nat × Row × Row)) (s : State) : exec (.rows h l) s = execRows h l s := rfl
theorem exec_ringe (h : PairHead) (q : Nat) (esize : Nat) (pidx : Nat) (bytes : List Byte) (s : State) : exec (.ringe h q esize pidx bytes) s = execRinge h q esize pidx bytes s := rfl
theorem exec_xfer (h : PairHead) (kind : Nat) (n : Nat) (count : Nat) (items : List XferItem) (s : State) : exec (.xfer h kind n count items) s = execXfer h kind n count items s := rfl
theorem exec_pkg (h : PairHead) (n : Nat) (off : Nat) (bytes : List Byte) (s : State) : exec (.pkg h n off bytes) s = execPkg h n off bytes s := rfl
theorem exec_xferCut (s : State) : exec (.xferCut) s = execXferCut s := rfl
theorem exec_xferShadowEntry (s : State) : exec (.xferShadowEntry) s = execXferShadowEntry s := rfl
theorem exec_xferTimeout (s : State) : exec (.xferTimeout) s = execXferTimeout s := rfl
theorem exec_switch (r : Req) (s : State) : exec (.switch r) s = execSwitch r s := rfl
theorem exec_clrsusp (r : Req) (s : State) : exec (.clrsusp r) s = execClrsusp r s := rfl
theorem exec_switchoverT (s : State) : exec (.switchoverT) s = execSwitchoverT s := rfl
theorem exec_switchoverDriversOff (s : State) : exec (.switchoverDriversOff) s = execSwitchoverDriversOff s := rfl
theorem exec_switchoverComplete (s : State) : exec (.switchoverComplete) s = execSwitchoverComplete s := rfl
theorem exec_autoSwitchover (s : State) : exec (.autoSwitchover) s = execAutoSwitchover s := rfl
theorem exec_claimCycle (other : Nat) (bad : Bool) (s : State) : exec (.claimCycle other bad) s = execClaimCycle other bad s := rfl
theorem exec_inputDisagreement (k : Nat) (s : State) : exec (.inputDisagreement k) s = execInputDisagreement k s := rfl
theorem exec_pairLinkDown (k : Nat) (s : State) : exec (.pairLinkDown k) s = execPairLinkDown k s := rfl
theorem exec_pageInDone (n : Nat) (page : Nat) (t : Nat) (s : State) : exec (.pageInDone n page t) s = execPageInDone n page t s := rfl
theorem exec_pageOutDone (n : Nat) (page : Nat) (s : State) : exec (.pageOutDone n page) s = execPageOutDone n page s := rfl
theorem exec_erase (r : Req) (n : Nat) (s : State) : exec (.erase r n) s = execErase r n s := rfl
theorem exec_eraseComplete (n : Nat) (s : State) : exec (.eraseComplete n) s = execEraseComplete n s := rfl
theorem exec_stagingFlush (k : Nat) (avg : Nat) (most : Nat) (s : State) : exec (.stagingFlush k avg most) s = execStagingFlush k avg most s := rfl
theorem exec_packageFailed (spare : Nat) (lost : List Nat) (s : State) : exec (.packageFailed spare lost) s = execPackageFailed spare lost s := rfl
theorem exec_rebuildDone (s : State) : exec (.rebuildDone) s = execRebuildDone s := rfl
theorem exec_archiveWindowEnd (s : State) : exec (.archiveWindowEnd) s = execArchiveWindowEnd s := rfl
theorem exec_archiveDisable (r : Req) (s : State) : exec (.archiveDisable r) s = execArchiveDisable r s := rfl
theorem exec_archiveEnable (r : Req) (s : State) : exec (.archiveEnable r) s = execArchiveEnable r s := rfl
theorem exec_gooseFrame (h : NetHead) (p : GoosePdu) (s : State) : exec (.gooseFrame h p) s = execGooseFrame h p s := rfl
theorem exec_gooseTalExpiry (k : Nat) (s : State) : exec (.gooseTalExpiry k) s = execGooseTalExpiry k s := rfl
theorem exec_gooseRetransmit (p : Nat) (s : State) : exec (.gooseRetransmit p) s = execGooseRetransmit p s := rfl
theorem exec_svFrame (h : NetHead) (p : SvPdu) (s : State) : exec (.svFrame h p) s = execSvFrame h p s := rfl
theorem exec_svMissExpiry (v : Nat) (s : State) : exec (.svMissExpiry v) s = execSvMissExpiry v s := rfl
theorem exec_supervisionFrame (h : NetHead) (s : State) : exec (.supervisionFrame h) s = execSupervisionFrame h s := rfl
theorem exec_supervisionSend (s : State) : exec (.supervisionSend) s = execSupervisionSend s := rfl
theorem exec_dupEntryAging (s : State) : exec (.dupEntryAging) s = execDupEntryAging s := rfl
theorem exec_udpDatagram (ix : Nat) (u : Udp) (stamp : Nat) (s : State) : exec (.udpDatagram ix u stamp) s = execUdpDatagram ix u stamp s := rfl
theorem exec_udpSend (n : Nat) (e : Nat) (s : State) : exec (.udpSend n e) s = execUdpSend n e s := rfl
theorem exec_arpRequest (ix : Nat) (target : Nat) (sender : Nat) (s : State) : exec (.arpRequest ix target sender) s = execArpRequest ix target sender s := rfl
theorem exec_icmpEcho (ix : Nat) (v6 : Bool) (echo : Bool) (dst : Nat) (remote : Nat) (s : State) : exec (.icmpEcho ix v6 echo dst remote) s = execIcmpEcho ix v6 echo dst remote s := rfl
theorem exec_ndp (ix : Nat) (kind : Nat) (target : Nat) (s : State) : exec (.ndp ix kind target) s = execNdp ix kind target s := rfl
theorem exec_neighbourTimeout (ix : Nat) (v6 : Bool) (a : Nat) (s : State) : exec (.neighbourTimeout ix v6 a) s = execNeighbourTimeout ix v6 a s := rfl
theorem exec_portDisable (r : Req) (ix : Nat) (s : State) : exec (.portDisable r ix) s = execPortDisable r ix s := rfl
theorem exec_portEnable (r : Req) (ix : Nat) (s : State) : exec (.portEnable r ix) s = execPortEnable r ix s := rfl
theorem exec_linkDown (ix : Nat) (s : State) : exec (.linkDown ix) s = execLinkDown ix s := rfl
theorem exec_linkUp (ix : Nat) (s : State) : exec (.linkUp ix) s = execLinkUp ix s := rfl
theorem exec_open_ (h : LorHead) (n : Nat) (serial : Nat) (s : State) : exec (.open_ h n serial) s = execOpen h n serial s := rfl
theorem exec_halfOpenTimeout (k : Nat) (s : State) : exec (.halfOpenTimeout k) s = execHalfOpenTimeout k s := rfl
theorem exec_sessionTimeout (k : Nat) (s : State) : exec (.sessionTimeout k) s = execSessionTimeout k s := rfl
theorem exec_heldRequestTimeout (k : Nat) (s : State) : exec (.heldRequestTimeout k) s = execHeldRequestTimeout k s := rfl
theorem exec_status (h : LorHead) (s : State) : exec (.status h) s = execStatus h s := rfl
theorem exec_close (h : LorHead) (s : State) : exec (.close h) s = execClose h s := rfl
theorem exec_imgRead (h : LorHead) (space : Nat) (rows : Nat) (first : Nat) (s : State) : exec (.imgRead h space rows first) s = execImgRead h space rows first s := rfl
theorem exec_imgWrite (h : LorHead) (entries : List (Nat × Row × Row)) (s : State) : exec (.imgWrite h entries) s = execImgWrite h entries s := rfl
theorem exec_imgForce (h : LorHead) (entries : List (Nat × Nat × Nat × Row × Row)) (s : State) : exec (.imgForce h entries) s = execImgForce h entries s := rfl
theorem exec_regRead (h : LorHead) (addrs : List Nat) (s : State) : exec (.regRead h addrs) s = execRegRead h addrs s := rfl
theorem exec_regWrite (h : LorHead) (entries : List (Nat × Nat)) (s : State) : exec (.regWrite h entries) s = execRegWrite h entries s := rfl
theorem exec_nvsRead (h : LorHead) (region : Nat) (len : Nat) (off : Nat) (pw : Nat) (s : State) : exec (.nvsRead h region len off pw) s = execNvsRead h region len off pw s := rfl
theorem exec_nvsWrite (h : LorHead) (region : Nat) (len : Nat) (off : Nat) (pw : Nat) (bytes : List Byte) (s : State) : exec (.nvsWrite h region len off pw bytes) s = execNvsWrite h region len off pw bytes s := rfl
theorem exec_almRead (h : LorHead) (count : Nat) (first : Nat) (s : State) : exec (.almRead h count first) s = execAlmRead h count first s := rfl
theorem exec_almFreeze (h : LorHead) (op : Nat) (s : State) : exec (.almFreeze h op) s = execAlmFreeze h op s := rfl
theorem exec_arcRead (h : LorHead) (sub : Nat) (most : Nat) (lo : Nat) (hi : Nat) (cursor : Nat) (s : State) : exec (.arcRead h sub most lo hi cursor) s = execArcRead h sub most lo hi cursor s := rfl
theorem exec_arcTrig (h : LorHead) (t : Nat) (p : Nat) (q : Nat) (s : State) : exec (.arcTrig h t p q) s = execArcTrig h t p q s := rfl
theorem exec_modeSet (h : LorHead) (scope : Nat) (owner : Nat) (target : Nat) (kind : Nat) (s : State) : exec (.modeSet h scope owner target kind) s = execModeSet h scope owner target kind s := rfl
theorem exec_plumb (h : LorHead) (t : Nat) (s : State) : exec (.plumb h t) s = execPlumb h t s := rfl
theorem exec_ptpSync (ix : Nat) (dom : Nat) (kind : Nat) (srcId : Nat) (seq : Nat) (origin : Nat) (corr : Nat) (rx : Nat) (s : State) : exec (.ptpSync ix dom kind srcId seq origin corr rx) s = execPtpSync ix dom kind srcId seq origin corr rx s := rfl
theorem exec_ptpAnnounce (ix : Nat) (dom : Nat) (a : Ann) (utcOff : Int) (utcValid : Bool) (leap : Nat) (s : State) : exec (.ptpAnnounce ix dom a utcOff utcValid leap) s = execPtpAnnounce ix dom a utcOff utcValid leap s := rfl
theorem exec_pdelayReq (ix : Nat) (dom : Nat) (seq : Nat) (s : State) : exec (.pdelayReq ix dom seq) s = execPdelayReq ix dom seq s := rfl
theorem exec_pdelayResp (ix : Nat) (dom : Nat) (t1 : Nat) (t2 : Nat) (t3 : Nat) (t4 : Nat) (s : State) : exec (.pdelayResp ix dom t1 t2 t3 t4) s = execPdelayResp ix dom t1 t2 t3 t4 s := rfl
theorem exec_syncSend (ix : Nat) (kind : Nat) (s : State) : exec (.syncSend ix kind) s = execSyncSend ix kind s := rfl
theorem exec_announceTimeout (ix : Nat) (s : State) : exec (.announceTimeout ix) s = execAnnounceTimeout ix s := rfl
theorem exec_holdoverDegrade (s : State) : exec (.holdoverDegrade) s = execHoldoverDegrade s := rfl
theorem exec_ppsEdge (inp : Nat) (t : Nat) (s : State) : exec (.ppsEdge inp t) s = execPpsEdge inp t s := rfl
theorem exec_irigFrame (t : Nat) (ok : Bool) (hasYear : Bool) (year : Nat) (doy : Nat) (hour : Nat) (min_ : Nat) (sec : Nat) (x : Nat) (am : Bool) (s : State) : exec (.irigFrame t ok hasYear year doy hour min_ sec x am) s = execIrigFrame t ok hasYear year doy hour min_ sec x am s := rfl
theorem exec_sourceQualified (k : Nat) (s : State) : exec (.sourceQualified k) s = execSourceQualified k s := rfl
theorem exec_timeStep (s : State) : exec (.timeStep) s = execTimeStep s := rfl
theorem exec_compareFire (u : Nat) (s : State) : exec (.compareFire u) s = execCompareFire u s := rfl
theorem exec_compareTargetWrite (r : Req) (u : Nat) (v : Nat) (s : State) : exec (.compareTargetWrite r u v) s = execCompareTargetWrite r u v s := rfl
theorem exec_compareArm (r : Req) (u : Nat) (arm : Bool) (s : State) : exec (.compareArm r u arm) s = execCompareArm r u arm s := rfl
theorem exec_ppsOutput (s : State) : exec (.ppsOutput) s = execPpsOutput s := rfl
theorem exec_calendarAutoWrite (s : State) : exec (.calendarAutoWrite) s = execCalendarAutoWrite s := rfl
theorem exec_calendarHold (r : Req) (hold : Bool) (s : State) : exec (.calendarHold r hold) s = execCalendarHold r hold s := rfl
theorem exec_calendarModeChange (r : Req) (s : State) : exec (.calendarModeChange r) s = execCalendarModeChange r s := rfl
theorem exec_oscillatorStopped (s : State) : exec (.oscillatorStopped) s = execOscillatorStopped s := rfl
theorem exec_canFrameReceived (k : Nat) (f : CanFrame) (arb : Bool) (s : State) : exec (.canFrameReceived k f arb) s = execCanFrameReceived k f arb s := rfl
theorem exec_canFrameSent (k : Nat) (sof : Nat) (tdcv : Nat) (s : State) : exec (.canFrameSent k sof tdcv) s = execCanFrameSent k sof tdcv s := rfl
theorem exec_canTxreq (r : Req) (k : Nat) (j : Nat) (s : State) : exec (.canTxreq r k j) s = execCanTxreq r k j s := rfl
theorem exec_canPeriodicTx (k : Nat) (j : Nat) (s : State) : exec (.canPeriodicTx k j) s = execCanPeriodicTx k j s := rfl
theorem exec_canBusError (k : Nat) (dTec : Nat) (dRec : Nat) (ours : Bool) (s : State) : exec (.canBusError k dTec dRec ours) s = execCanBusError k dTec dRec ours s := rfl
theorem exec_canRejoin (k : Nat) (s : State) : exec (.canRejoin k) s = execCanRejoin k s := rfl
theorem exec_recover (r : Req) (k : Nat) (s : State) : exec (.recover r k) s = execRecover r k s := rfl
theorem exec_capreq (r : Req) (k : Nat) (s : State) : exec (.capreq r k) s = execCapreq r k s := rfl
theorem exec_canCapture (s : State) : exec (.canCapture) s = execCanCapture s := rfl
theorem exec_canModeWrite (r : Req) (k : Nat) (m : Nat) (s : State) : exec (.canModeWrite r k m) s = execCanModeWrite r k m s := rfl
theorem exec_canDisable (r : Req) (k : Nat) (s : State) : exec (.canDisable r k) s = execCanDisable r k s := rfl
theorem exec_canEnable (r : Req) (k : Nat) (s : State) : exec (.canEnable r k) s = execCanEnable r k s := rfl
theorem exec_barrierDownlink (kind : Nat) (s : State) : exec (.barrierDownlink kind) s = execBarrierDownlink kind s := rfl
theorem exec_barrierUplink (kind : Nat) (term : Nat) (codeA : Nat) (codeB : Nat) (s : State) : exec (.barrierUplink kind term codeA codeB) s = execBarrierUplink kind term codeA codeB s := rfl
theorem exec_inputChange (k : Nat) (new : Bool) (t : Nat) (s : State) : exec (.inputChange k new t) s = execInputChange k new t s := rfl
theorem exec_sillRefreshLost (s : State) : exec (.sillRefreshLost) s = execSillRefreshLost s := rfl
theorem exec_logicRefreshLost (s : State) : exec (.logicRefreshLost) s = execLogicRefreshLost s := rfl
theorem exec_groupSupplyFault (g : Nat) (volt : Nat) (s : State) : exec (.groupSupplyFault g volt) s = execGroupSupplyFault g volt s := rfl
theorem exec_groupSupplyReturn (g : Nat) (volt : Nat) (s : State) : exec (.groupSupplyReturn g volt) s = execGroupSupplyReturn g volt s := rfl
theorem exec_outputFault (k : Nat) (kind : Nat) (s : State) : exec (.outputFault k kind) s = execOutputFault k kind s := rfl
theorem exec_outputRetry (k : Nat) (still : Bool) (s : State) : exec (.outputRetry k still) s = execOutputRetry k still s := rfl
theorem exec_complianceLost (k : Nat) (s : State) : exec (.complianceLost k) s = execComplianceLost k s := rfl
theorem exec_complianceRestored (k : Nat) (s : State) : exec (.complianceRestored k) s = execComplianceRestored k s := rfl
theorem exec_calibrationWrite (r : Req) (which : Nat) (k : Nat) (v : Nat) (s : State) : exec (.calibrationWrite r which k v) s = execCalibrationWrite r which k v s := rfl
theorem exec_loopSample (s : State) : exec (.loopSample) s = execLoopSample s := rfl
theorem exec_loopDisable (r : Req) (ix : Nat) (s : State) : exec (.loopDisable r ix) s = execLoopDisable r ix s := rfl
theorem exec_loopEnable (r : Req) (ix : Nat) (s : State) : exec (.loopEnable r ix) s = execLoopEnable r ix s := rfl
theorem exec_faultFiring (src : Nat) (task : Nat) (det1 : Nat) (det2 : Nat) (s : State) : exec (.faultFiring src task det1 det2) s = execFaultFiring src task det1 det2 s := rfl
theorem exec_historyWrite (s : State) : exec (.historyWrite) s = execHistoryWrite s := rfl
theorem exec_stormEnd (s : State) : exec (.stormEnd) s = execStormEnd s := rfl
theorem exec_sourceInactive (src : Nat) (s : State) : exec (.sourceInactive src) s = execSourceInactive src s := rfl
theorem exec_force (r : Req) (src : Nat) (v : Bool) (s : State) : exec (.force r src v) s = execForce r src v s := rfl
theorem exec_clr (r : Req) (s : State) : exec (.clr r) s = execClr r s := rfl
theorem exec_nowPlumb (r : Req) (s : State) : exec (.nowPlumb r) s = execNowPlumb r s := rfl
theorem exec_armPlumb (r : Req) (s : State) : exec (.armPlumb r) s = execArmPlumb r s := rfl
theorem exec_cancelPlumb (r : Req) (s : State) : exec (.cancelPlumb r) s = execCancelPlumb r s := rfl
theorem exec_scheduledPlumb (s : State) : exec (.scheduledPlumb) s = execScheduledPlumb s := rfl
theorem exec_wdgWindowOpen (w : Nat) (s : State) : exec (.wdgWindowOpen w) s = execWdgWindowOpen w s := rfl
theorem exec_wdgExpiry (w : Nat) (s : State) : exec (.wdgExpiry w) s = execWdgExpiry w s := rfl
theorem exec_serviceArm (r : Req) (w : Nat) (s : State) : exec (.serviceArm r w) s = execServiceArm r w s := rfl
theorem exec_service (r : Req) (w : Nat) (s : State) : exec (.service r w) s = execService r w s := rfl
theorem exec_disableArm (r : Req) (w : Nat) (s : State) : exec (.disableArm r w) s = execDisableArm r w s := rfl
theorem exec_wdgDisable (r : Req) (w : Nat) (s : State) : exec (.wdgDisable r w) s = execWdgDisable r w s := rfl
theorem exec_wdgPeriod (r : Req) (w : Nat) (v : Nat) (s : State) : exec (.wdgPeriod r w v) s = execWdgPeriod r w v s := rfl
theorem exec_wdgEnable (r : Req) (w : Nat) (s : State) : exec (.wdgEnable r w) s = execWdgEnable r w s := rfl
theorem exec_wdgLock (r : Req) (w : Nat) (s : State) : exec (.wdgLock r w) s = execWdgLock r w s := rfl
theorem exec_wdgFallback (w : Nat) (s : State) : exec (.wdgFallback w) s = execWdgFallback w s := rfl
theorem exec_wdgTimebaseReturn (w : Nat) (s : State) : exec (.wdgTimebaseReturn w) s = execWdgTimebaseReturn w s := rfl
theorem exec_nvsPsel (r : Req) (n : Nat) (region : Nat) (dir : Nat) (s : State) : exec (.nvsPsel r n region dir) s = execNvsPsel r n region dir s := rfl
theorem exec_nvsPpwd (r : Req) (n : Nat) (pw : Nat) (s : State) : exec (.nvsPpwd r n pw) s = execNvsPpwd r n pw s := rfl
theorem exec_nvsPdataRead (r : Req) (n : Nat) (s : State) : exec (.nvsPdataRead r n) s = execNvsPdataRead r n s := rfl
theorem exec_nvsPdataWrite (r : Req) (n : Nat) (v : Nat) (s : State) : exec (.nvsPdataWrite r n v) s = execNvsPdataWrite r n v s := rfl
theorem exec_setrd (r : Req) (n : Nat) (s : State) : exec (.setrd r n) s = execSetrd r n s := rfl
theorem exec_setwr (r : Req) (n : Nat) (s : State) : exec (.setwr r n) s = execSetwr r n s := rfl
theorem exec_almanacWrite (s : State) : exec (.almanacWrite) s = execAlmanacWrite s := rfl
theorem exec_almanacCheckpoint (s : State) : exec (.almanacCheckpoint) s = execAlmanacCheckpoint s := rfl
theorem exec_mgtEngineRelease (s : State) : exec (.mgtEngineRelease) s = execMgtEngineRelease s := rfl
theorem exec_sensorSample (x : Sensors) (s : State) : exec (.sensorSample x) s = execSensorSample x s := rfl
theorem exec_bankMeasure (c : Nat) (s : State) : exec (.bankMeasure c) s = execBankMeasure c s := rfl
theorem exec_mgtLogsel (r : Req) (num : Nat) (s : State) : exec (.mgtLogsel r num) s = execMgtLogsel r num s := rfl
theorem exec_go (r : Req) (s : State) : exec (.go r) s = execGo r s := rfl
theorem exec_strapRelease (s : State) : exec (.strapRelease) s = execStrapRelease s := rfl
theorem exec_registerWrite (r : Req) (a : Nat) (v : Nat) (s : State) : exec (.registerWrite r a v) s = execRegisterWrite r a v s := rfl
theorem exec_rcRegisterRead (r : Req) (a : Nat) (s : State) : exec (.rcRegisterRead r a) s = execRcRegisterRead r a s := rfl
theorem exec_rlLowRead (r : Req) (a : Nat) (s : State) : exec (.rlLowRead r a) s = execRlLowRead r a s := rfl
theorem exec_startwaitExpiry (s : State) : exec (.startwaitExpiry) s = execStartwaitExpiry s := rfl
theorem exec_referenceInputLost (b : Nat) (s : State) : exec (.referenceInputLost b) s = execReferenceInputLost b s := rfl
theorem exec_referenceInputReturn (s : State) : exec (.referenceInputReturn) s = execReferenceInputReturn s := rfl
theorem exec_ocxoFault (s : State) : exec (.ocxoFault) s = execOcxoFault s := rfl
theorem exec_leapSecond (s : State) : exec (.leapSecond) s = execLeapSecond s := rfl
theorem exec_pdelayReqSend (s : State) : exec (.pdelayReqSend) s = execPdelayReqSend s := rfl
theorem exec_transceiverFault (k : Nat) (s : State) : exec (.transceiverFault k) s = execTransceiverFault k s := rfl
theorem exec_arpReply (ix : Nat) (a : Nat) (s : State) : exec (.arpReply ix a) s = execArpReply ix a s := rfl
theorem exec_arpRequestRepeat (ix : Nat) (a : Nat) (s : State) : exec (.arpRequestRepeat ix a) s = execArpRequestRepeat ix a s := rfl
theorem exec_arpCacheAging (ix : Nat) (s : State) : exec (.arpCacheAging ix) s = execArpCacheAging ix s := rfl
theorem exec_duplicateAddressDetectionDone (ix : Nat) (s : State) : exec (.duplicateAddressDetectionDone ix) s = execDuplicateAddressDetectionDone ix s := rfl
theorem exec_framePrepared (s : State) : exec (.framePrepared) s = execFramePrepared s := rfl
theorem exec_restoreFactoryDone (s : State) : exec (.restoreFactoryDone) s = execRestoreFactoryDone s := rfl
theorem exec_moduleSeated (s : State) : exec (.moduleSeated) s = execModuleSeated s := rfl
theorem exec_stationInputOutOfRange (v : Nat) (s : State) : exec (.stationInputOutOfRange v) s = execStationInputOutOfRange v s := rfl
theorem exec_stationInputInRange (v : Nat) (s : State) : exec (.stationInputInRange v) s = execStationInputInRange v s := rfl

end Sys2Proof.Machine
end

