-- ==== Sys2Proof/Laws/Memory.lean ====
section
/-! SUPPORT. The memories: every operation that writes one keeps the canonical form of all, and a byte, line or row reads back as written. -/
namespace Sys2Proof

theorem sortedFrom_set {α : Type} [DecidableEq α] {d : α} {m : SMap α} {k : Nat} {v : α} (h : m.sortedFrom 0 = true) :
    (m.set d k v).sortedFrom 0 = true := by
  unfold SMap.set
  split
  · exact sortedFrom_filter _ h
  · exact sortedFrom_insert (Nat.zero_le _) h

theorem sortedFrom_map {α : Type} {m : SMap α} {lo : Nat} (f : Nat × α → Nat × α) (hf : ∀ p, (f p).1 = p.1) (h : m.sortedFrom lo = true) :
    SMap.sortedFrom lo (m.map f) = true := by
  induction m generalizing lo with
  | nil => rfl
  | cons p rest ih =>
    obtain ⟨k, v⟩ := p
    simp only [SMap.sortedFrom, Bool.and_eq_true, decide_eq_true_eq] at h
    rcases hp : f (k, v) with ⟨k', v'⟩
    have hk : k' = k := by have := hf (k, v); rw [hp] at this; exact this
    subst hk
    simp only [List.map_cons, hp, SMap.sortedFrom, Bool.and_eq_true, decide_eq_true_eq]
    exact ⟨h.1, ih h.2⟩

/-- Writing many keys one after another keeps the canonical form. -/
theorem wf_foldl_set {α β : Type} [DecidableEq α] {d : Nat → α} (l : List β) (key : β → Nat) (val : β → α) :
    ∀ {m : SMap α}, m.wf d = true → (l.foldl (fun m p => SMap.set (d (key p)) m (key p) (val p)) m).wf d = true := by
  induction l with
  | nil => exact fun h => h
  | cons x rest ih => exact fun h => ih (wf_set h)

/-- An entry of a map that was written is the one written or was there. -/
theorem all_set {α : Type} [DecidableEq α] {d : α} {m : SMap α} {k : Nat} {v : α} {P : α → Bool} (h : m.all (fun p => P p.2) = true) (hv : P v = true) :
    (m.set d k v).all (fun p => P p.2) = true := by
  rw [List.all_eq_true] at h ⊢
  unfold SMap.set
  split
  · exact fun e he => h e (List.mem_of_mem_filter he)
  · intro e he
    rcases mem_insert he with rfl | he
    · exact hv
    · exact h e he

theorem find_mem {α : Type} {m : SMap α} {k : Nat} {v : α} (h : SMap.find? m k = some v) : (k, v) ∈ m := by
  induction m with
  | nil => cases h
  | cons p rest ih =>
    obtain ⟨i, w⟩ := p
    unfold SMap.find? at h
    split at h
    · rename_i hi; cases h; subst hi; exact List.mem_cons_self
    · exact List.mem_cons_of_mem _ (ih h)

namespace Machine

theorem Media.apply_retain_wf {m : Media} (w : StoWrite) (h : m.retain.wf (fun _ => {}) = true) : (m.apply w).retain.wf (fun _ => {}) = true := by
  cases w with
  | retain n l x => exact wf_set (d := fun _ => ({} : Line)) h
  | back n p x => exact h
  | alm k r => exact h
  | mlog e => exact h
  | arc r => exact h
  | note k => exact h

namespace State

/-- The parts of the canonical form, by name. -/
structure MemForm (s : State) : Prop where
  sem : s.img.sem.wf (fun _ => 0) = true
  rows : s.img.rows.sortedFrom 0 = true
  nvs : s.nvs.mem.wf (fun _ => 0) = true
  prog : s.prog.wf (fun _ => guardLine) = true
  sram : s.mgt.engSram.wf (fun _ => 0) = true
  tbl : s.mmu.tbl.wf (fun _ => 0) = true
  frames : s.mmu.frames.wf (fun _ => {}) = true
  lines : s.mmu.frames.all (fun p => p.2.lines.wf (fun _ => { fresh := p.2.prepared })) = true
  retain : s.sto.ack.retain.wf (fun _ => {}) = true

theorem memoryWf_iff (s : State) : s.memoryWf = true ↔ s.MemForm := by
  unfold memoryWf
  simp only [Bool.and_eq_true]
  constructor
  · rintro ⟨⟨⟨⟨⟨⟨⟨⟨h1, h2⟩, h3⟩, h4⟩, h5⟩, h6⟩, h7⟩, h8⟩, h9⟩
    exact ⟨h1, h2, h3, h4, h5, h6, h7, h8, h9⟩
  · rintro ⟨h1, h2, h3, h4, h5, h6, h7, h8, h9⟩
    exact ⟨⟨⟨⟨⟨⟨⟨⟨h1, h2⟩, h3⟩, h4⟩, h5⟩, h6⟩, h7⟩, h8⟩, h9⟩

/-- The state after reset lists nothing. -/
theorem reset_memForm : State.reset.MemForm := (memoryWf_iff _).1 (by decide)

/-- Any update that leaves the six blocks holding memory alone keeps the form. -/
theorem MemForm.of_eq {s t : State} (h : s.MemForm) (h1 : t.img = s.img) (h2 : t.nvs = s.nvs) (h3 : t.prog = s.prog) (h4 : t.mgt = s.mgt)
    (h5 : t.mmu = s.mmu) (h6 : t.sto = s.sto) : t.MemForm := by
  constructor
  · rw [h1]; exact h.sem
  · rw [h1]; exact h.rows
  · rw [h2]; exact h.nvs
  · rw [h3]; exact h.prog
  · rw [h4]; exact h.sram
  · rw [h5]; exact h.tbl
  · rw [h5]; exact h.frames
  · rw [h5]; exact h.lines
  · rw [h6]; exact h.retain

theorem wr_memForm {s : State} (h : s.MemForm) (a v : Nat) : (s.wr a v).MemForm := h.of_eq rfl rfl rfl rfl rfl rfl

theorem memRegs_memForm {s : State} (h : s.MemForm) : s.memRegs.MemForm := by
  unfold memRegs
  exact h.of_eq rfl rfl rfl rfl rfl rfl

/-! ### Image rows -/

theorem setRow_memForm {s : State} (h : s.MemForm) (row : Nat) (x : RowHist) : (s.setRow row x).MemForm :=
  { h with rows := sortedFrom_set h.rows }

theorem retire_memForm {s : State} (h : s.MemForm) (n : Nat) : (s.retire n).MemForm := by
  refine { h with rows := ?_ }
  refine sortedFrom_filter _ (sortedFrom_map _ (fun p => ?_) h.rows)
  dsimp only
  split
  · split <;> rfl
  · rfl

theorem setSem_memForm {s : State} (h : s.MemForm) (row : Nat) (v : Row) :
    ({ s with img := { s.img with sem := s.img.sem.set 0 row v } } : State).MemForm :=
  { h with sem := wf_set (d := fun _ => (0 : Row)) h.sem }

theorem clearSem_memForm {s : State} (h : s.MemForm) (n : Nat) : (s.clearSem n).MemForm :=
  { h with sem := wf_filter (d := fun _ => (0 : Row)) _ h.sem }

/-! ### Program lines -/

theorem setLine_memForm {s : State} (h : s.MemForm) (a v : Nat) : (s.setLine a v).MemForm :=
  { h with prog := wf_set (d := fun _ => guardLine) h.prog }

theorem loadProgram_memForm {s : State} (h : s.MemForm) (n : Nat) (ls : List Nat) : (s.loadProgram n ls).MemForm :=
  { h with prog := wf_foldl_set (d := fun _ => guardLine) _ _ _ (wf_filter _ h.prog) }

/-- A program line reads as it was set. -/
theorem setLine_read (s : State) (a v : Nat) : (s.setLine a v).prog.get guardLine a = v := get_set_same _ _ _ _

theorem setLine_other (s : State) {a b : Nat} (v : Nat) (h : b ≠ a) : (s.setLine a v).prog.get guardLine b = s.prog.get guardLine b :=
  get_set_other _ _ _ h

/-! ### Page tables, frames and their lines -/

theorem setEntry_memForm {s : State} (h : s.MemForm) (key e : Nat) : (s.setEntry key e).MemForm :=
  { h with tbl := wf_set (d := fun _ => (0 : Nat)) h.tbl }

theorem frame_lines {s : State} (h : s.MemForm) (f : Nat) : (s.frame f).lines.wf (fun _ => { fresh := (s.frame f).prepared }) = true := by
  unfold frame SMap.get
  cases hf : SMap.find? s.mmu.frames f with
  | none => rfl
  | some x => exact List.all_eq_true.1 h.lines _ (find_mem hf)

theorem setFrame_memForm {s : State} (h : s.MemForm) (f : Nat) (x : Frame) (hx : x.lines.wf (fun _ => { fresh := x.prepared }) = true) (m : Mmu)
    (hm : m.frames = s.mmu.frames.set {} f x) (ht : m.tbl = s.mmu.tbl) : ({ s with mmu := m } : State).MemForm :=
  { h with
    tbl := by rw [ht]; exact h.tbl
    frames := by rw [hm]; exact wf_set (d := fun _ => ({} : Frame)) h.frames
    lines := by rw [hm]; exact all_set (P := fun (x : Frame) => x.lines.wf (fun _ => { fresh := x.prepared })) h.lines hx }

theorem putLine_memForm {s : State} (h : s.MemForm) (f va : Nat) (l : Line) : (s.putLine f va l).MemForm :=
  setFrame_memForm h f _ (wf_set (d := fun _ => ({ fresh := (s.frame f).prepared } : Line)) (frame_lines h f)) _ rfl rfl

theorem prepareOne_memForm {s : State} (h : s.MemForm) : s.prepareOne.MemForm := by
  unfold prepareOne
  split
  · exact h
  · split
    · exact memRegs_memForm (setFrame_memForm h _ { prepared := true } rfl _ rfl rfl)
    · split
      · exact h
      · exact memRegs_memForm (setFrame_memForm h _ { prepared := true } rfl _ rfl rfl)

/-- A line reads as it was put. -/
theorem putLine_read (s : State) (f va : Nat) (l : Line) : (s.putLine f va l).lineAt f va = l := by
  have h : (s.putLine f va l).frame f = { s.frame f with lines := (s.frame f).lines.set { fresh := (s.frame f).prepared } (va / 64 % 1024) l } :=
    get_set_same _ _ _ _
  have hg (x : Frame) (i : Nat) : x.line i = x.lines.get { fresh := x.prepared } i := by
    unfold Frame.line SMap.get; cases SMap.find? x.lines i <;> rfl
  unfold lineAt
  rw [h, hg]
  exact get_set_same _ _ _ _

/-! ### Settings, the management engine's DATA, RETAIN lines -/

theorem nvsWrite_memForm {s : State} (h : s.MemForm) (r off : Nat) (bs : List Byte) : (s.nvsWrite r off bs).MemForm := by
  unfold nvsWrite bump
  refine wr_memForm ?_ _ _
  exact { h with nvs := wf_foldl_set (d := fun _ => (0 : Byte)) _ _ _ h.nvs }

theorem nvsDefault_memForm {s : State} (h : s.MemForm) (r : Nat) : (s.nvsDefault r).MemForm := by
  unfold nvsDefault
  dsimp only
  split
  · exact h
  · exact { h with nvs := wf_foldl_set (d := fun _ => (0 : Byte)) _ (fun (p : Byte × Nat) => (s.region r).base + p.2) (fun p => p.1) (wf_filter _ h.nvs) }

theorem mgtStore_memForm {s : State} (h : s.MemForm) (off : Nat) (bs : List Byte) : (s.mgtStore off bs).MemForm :=
  { h with sram := wf_foldl_set (d := fun _ => (0 : Byte)) _ (fun (p : Byte × Nat) => off + p.2) (fun p => p.1) h.sram }

theorem ackWrite_memForm {s : State} (h : s.MemForm) (w : StoWrite) (st : Sto) (hs : st.ack = s.sto.ack.apply w) :
    ({ s with sto := st } : State).MemForm :=
  { h with retain := by rw [hs]; exact Media.apply_retain_wf w h.retain }

end State
end Machine
end Sys2Proof
end

