-- ==== Sys2Proof/Laws/Run.lean ====
section
/-! SUPPORT. How an engine runs one instruction: what the stages before the body leave, and what completion does, each said once. -/
namespace Sys2Proof.Machine
namespace State

theorem fetch_codeAt {s : State} {e pc : Nat} (hl : s.leanRegime e = false) (hc : s.codeAt e pc = true) : s.fetch e pc = (none, s) := by
  unfold codeAt at hc
  simp only [Bool.and_eq_true, decide_eq_true_eq, beq_iff_eq] at hc
  obtain ⟨⟨h1, h2⟩, h3⟩ := hc
  unfold fetch
  simp only [hl, Bool.false_eq_true, if_false]
  rw [if_neg (by omega)]
  cases hp : s.progLine e (pc / 9) with
  | mk v a =>
    rw [hp] at h2 h3
    cases a with
    | none => simp [h2]
    | some a => simp at h3; simp [h2, h3.1, h3.2]

/-- The stages before the body find nothing wrong: the body runs in the issued state, after the drain where the instruction has one. -/
theorem runOp_runs {s : State} {q : Issue} {i : OpInfo} {body : List Row → State → Res × State} (h : s.runs q.eng = true)
    (hd : s.decodeExc q.eng i = none) {u : State} (hu : (if i.drains then s.afterDrain q else (none, s.issued q)) = (none, u)) :
    s.runOp q i body =
      match body ((u.stk q.eng).take i.nin) u with
      | (.ok d, t) => t.complete q.eng i d (s.waitOf q i.worst)
      | (.exc code kind addr, t) => t.takeExc q.eng (if code ≤ 0x04 then 1 else
          1 + (Config.free s.free) % (max 1 i.base) + cdiv (s.waitOf q i.worst) (max 1 (s.pacePs q.eng))) (t.excHere q.eng i code kind addr)
      | (.older l, t) => t.takeExc q.eng (1 + (Config.free s.free) % (max 1 i.base) + cdiv (s.waitOf q i.worst) (max 1 (s.pacePs q.eng))) (excOlder l)
      | (.stall st, t) => t.setEng q.eng { t.eng q.eng with stall := st, since := t.now } := by
  unfold runs at h
  simp only [Bool.and_eq_true, Bool.not_eq_true'] at h
  obtain ⟨⟨⟨hi, hl⟩, hc⟩, -⟩ := h
  have hl' : (s.advance q.at_).leanRegime q.eng = false := hl
  have hc' : (s.advance q.at_).codeAt q.eng ((s.advance q.at_).eng q.eng).ctx.pc = true := hc
  have hd' : (s.advance q.at_).decodeExc q.eng i = none := hd
  have hp : (s.issued q).pacePs q.eng = s.pacePs q.eng := rfl
  have hw : min q.wait i.worst + ((s.advance q.at_).eng q.eng).waited * 1000 = s.waitOf q i.worst := rfl
  have hiss : ({ s.advance q.at_ with free := (s.advance q.at_).free + 1 } : State) = s.issued q := rfl
  have hfr : Config.free (s.advance q.at_).free = Config.free s.free := rfl
  unfold runOp
  simp only [hi, Bool.not_true, Bool.false_eq_true, if_false]
  rw [fetch_codeAt hl' hc']
  simp only [hd', fresh]
  rw [hw, hiss, hp, hfr]
  have hpre : (if (i.drains && q.eng != 256) = true then (s.issued q).drain q.eng else (none, s.issued q)) = (none, u) := by
    rw [← hu]
    unfold afterDrain
    by_cases h1 : i.drains = true <;> by_cases h2 : q.eng = 256 <;> simp [h1, h2]
  rw [hpre]
  rfl

/-- Completion of an instruction that is not a flow instruction, in the self-timed regime. -/
theorem complete_ran {s : State} {e : Nat} {i : OpInfo} {d : Done} {w : Nat} (hl : s.leanRegime e = false)
    (hg : d.goto = none) (hp : d.rpush = none) (hr : d.rpop = false) :
    s.complete e i d w = d.post (s.ran e i.nin d.outs (s.hsCost e d.base w)) := by
  unfold complete ran agedResv nextPc
  simp only [hl, hg, hp, hr, Bool.false_eq_true, if_false]
  cases hf : (s.eng e).ctx.flow <;> rfl

/-- Completion of a flow instruction in the self-timed regime. -/
theorem complete_flowed {s : State} {e : Nat} {i : OpInfo} {d : Done} {w tgt : Nat} {tk : Bool} (hl : s.leanRegime e = false)
    (hg : d.goto = some (tgt, tk)) (ho : d.outs = []) (hpo : d.post = id) :
    s.complete e i d w = s.flowed e i.nin (s.hsCost e d.base w) tgt tk
      (match d.rpush with
       | some r => r :: (s.eng e).ctx.rstack
       | none => if d.rpop then (s.eng e).ctx.rstack.drop 1 else (s.eng e).ctx.rstack) := by
  unfold complete flowed agedResv
  simp only [hl, hg, ho, hpo, Bool.false_eq_true, if_false, List.nil_append]
  rfl

@[simp] theorem issued_eng (s : State) (q : Issue) (e : Nat) : (s.issued q).eng e = s.eng e := rfl
@[simp] theorem issued_leanRegime (s : State) (q : Issue) (e : Nat) : (s.issued q).leanRegime e = s.leanRegime e := rfl
@[simp] theorem issued_stk (s : State) (q : Issue) (e : Nat) : (s.issued q).stk e = s.stk e := rfl

theorem runs_lean {s : State} {e : Nat} (h : s.runs e = true) : s.leanRegime e = false := by
  unfold runs at h
  simp only [Bool.and_eq_true, Bool.not_eq_true'] at h
  exact h.1.1.2

theorem runs_rstack {s : State} {e : Nat} (h : s.runs e = true) : (s.eng e).ctx.rstack.length ≤ 32 := by
  unfold runs at h
  simp only [Bool.and_eq_true, decide_eq_true_eq] at h
  exact h.2

/-- A running instruction whose body only computes. -/
theorem runOp_pure {s : State} {q : Issue} {i : OpInfo} {base : Nat} {f : List Row → List Row} (h : s.runs q.eng = true)
    (hd : s.decodeExc q.eng i = none) (hi : i.drains = false) :
    s.runOp q i (pureBody base f) =
      (s.issued q).ran q.eng i.nin (f ((s.stk q.eng).take i.nin)) (s.costOf q base i.worst) := by
  rw [runOp_runs h hd (u := s.issued q) (by simp [hi])]
  exact complete_ran (s := s.issued q) (runs_lean h) rfl rfl rfl

/-- The stack checks pass where the entries are there and there is room. -/
theorem decodeExc_none {s : State} {e : Nat} {i : OpInfo} (hi : i.illegal = false) (hs : i.slotBad = false ∨ (s.eng e).ctx.flow = none)
    (hd : i.denied = false) (hn : i.nin ≤ (s.stk e).length) (ho : (s.stk e).length - i.nin + i.nout ≤ 16)
    (hr : i.rin ≤ (s.eng e).ctx.rstack.length) (hR : (s.eng e).ctx.rstack.length - i.rin + i.rout ≤ 32) : s.decodeExc e i = none := by
  unfold decodeExc
  unfold stk at hn ho
  have hsb : (i.slotBad && (s.eng e).ctx.flow.isSome) = false := by
    rcases hs with h | h <;> simp [h]
  simp only [hi, hsb, hd, Bool.false_eq_true, if_false]
  rw [if_neg (by omega), if_neg (by omega), if_neg (by omega), if_neg (by omega)]

/-- The same for an engine that runs, where the instruction is legal and the entries are there. -/
theorem runs_decode {s : State} {q : Issue} {i : OpInfo} (h1 : i.illegal = false)
    (h2 : i.slotBad = false ∨ (s.eng q.eng).ctx.flow = none) (h3 : i.denied = false) (h4 : i.nin ≤ (s.stk q.eng).length)
    (h5 : (s.stk q.eng).length - i.nin + i.nout ≤ 16) (h6 : i.rin ≤ (s.eng q.eng).ctx.rstack.length)
    (h7 : (s.eng q.eng).ctx.rstack.length - i.rin + i.rout ≤ 32) : s.decodeExc q.eng i = none :=
  decodeExc_none h1 h2 h3 h4 h5 h6 h7

/-- An instruction that a check of stages 2 to 4 refuses takes its exception at once. -/
theorem runOp_refused {s : State} {q : Issue} {i : OpInfo} {body : List Row → State → Res × State} {code addr : Nat} (h : s.runs q.eng = true)
    (hd : s.decodeExc q.eng i = some (code, addr)) :
    s.runOp q i body = (s.advance q.at_).takeExc q.eng 1 ((s.advance q.at_).excHere q.eng i code 0 addr) := by
  have hl := runs_lean h
  unfold runs at h
  simp only [Bool.and_eq_true] at h
  have hd' : (s.advance q.at_).decodeExc q.eng i = some (code, addr) := hd
  have hc : (s.advance q.at_).codeAt q.eng ((s.advance q.at_).eng q.eng).ctx.pc = true := h.1.2
  unfold runOp
  simp only [h.1.1.1, Bool.not_true, Bool.false_eq_true, if_false]
  rw [fetch_codeAt (s := s.advance q.at_) hl hc]
  simp only [hd']

end State

/-- An instruction that only computes, on the entries it needs. -/
theorem takes_comp {mk : Issue → Instr} {word nin nout base : Nat} {f : List Row → List Row} {ins : List Row} {P : List Row → Prop}
    (hm : ∀ q s, exec (mk q) s = comp q word nin nout base f s) (hl : ins.length = nin) (ho : (f ins).length = nout) (hP : P (f ins)) :
    Takes mk ins nout base P := by
  intro q s rest hr hs hroom
  refine ⟨f ins, hP, ho, ?_⟩
  have hr32 := State.runs_rstack hr
  have hlen : (s.stk q.eng).length = nin + rest.length := by rw [hs, List.length_append, hl]
  have hd : s.decodeExc q.eng { word := word, nin := nin, nout := nout, base := base } = none := by
    apply State.decodeExc_none
    · rfl
    · exact .inl rfl
    · rfl
    · show nin ≤ (s.stk q.eng).length; omega
    · show (s.stk q.eng).length - nin + nout ≤ 16; omega
    · exact Nat.zero_le _
    · show (s.eng q.eng).ctx.rstack.length - 0 + 0 ≤ 32; omega
  have ht : (s.stk q.eng).take nin = ins := by rw [hs, ← hl, List.take_left]
  rw [hm]
  unfold comp
  rw [act_eq, State.runOp_pure hr hd rfl]
  show done s ((s.issued q).ran q.eng nin (f ((s.stk q.eng).take nin)) (s.costOf q base 0)) = _
  rw [ht, hl]

end Sys2Proof.Machine
end

