-- ==== Sys2Proof/Tests/Slice0.lean ====
section
/-! SUPPORT. The model's own tests: each check of a well-formed command refuses a term; one step of most instructions against results by hand and the spec's
worked examples; and for every obligation with hypotheses a witness that concrete states and operands meet them (`writesB` is `State.writes` as a test, `reaches`
a register access that rows 1 to 7 of Table 1.8 let pass, which `writes_of` and `reaches_hit` turn into the propositions). -/
namespace Sys2Proof.Tests
open Sys2Proof.Machine Sys2Proof.Machine.State
section
set_option Elab.async false

/-! ### Base values -/

def q0 : Issue := { eng := 0, at_ := 0, wait := 0 }
def lh : LorHead := { session := 1, seq := 1, fmt := true, tag := true, flags := 0, stamp := 0, port := 96, v6 := false, ep := 0 }
def nh : NetHead := { port := 0, len := 64, stamp := 0, fcs := true, overload := false, dmac := 0, src := 0, tci := 0x10000, outer := false, red := none }
def ph : PairHead := { seq := 0, tag := true, bulk := false }
def gp : GoosePdu := ⟨0, 0, 0, 1, 0, 1, 0, false, false, false, 0, []⟩
def sp0 : SvPdu := { appid := 0, svidcrc := 0, sim := false, asdus := [], bytes := [] }
def cf : CanFrame := { id := 0, ide := false, fdf := false, brs := false, esi := false, rtr := false, dlc := 0, data := [], sof := 0 }
def ud : Udp := { v6 := false, plain := true, sumOk := true, raddr := 0, laddr := 0, rport := 0, lport := 0, data := [] }
def pu : PowerUp := { at_ := 0, busMv := 48000, bankMv := 48000, bank := 1000 }
def he : Hello := { serial := 0, pairid := 0, base := 0, mode := 0, role := 0, nonce := 0, pub := 0, digest := 0 }
def se : Sensors := { volts := [], sustained := [], temps := [], vin := 0, iin := 0, pin := 0, v48 := 0 }

/-! ### Well-formedness -/

/-- Each check of a well-formed command refuses a term that fails it alone. -/
theorem test_ill_formed_1 : ([
  .powerFailWarning 4 0, .modecmdStop (.session 0) 0, .modecmdStop .mgt 4, .modecmdRun (.session 0) 0, .modecmdRun .mgt 4,
    .modecmdTest (.session 0) 0, .modecmdTest .mgt 4, .modecmdDrain (.session 0) 0, .modecmdDrain .mgt 4, .ownerQuietExpiry 8, .ownerStop 8,
    .ownerStart 8 0, .scnLoad { lh with session := 256 } 0 [] false, .scnLoad lh 0 (List.replicate 1409 0) false, .loadTimeout 9,
    .scnCommit { lh with session := 256 }, .scnConfirm { lh with session := 256 }, .scnRollback { lh with session := 256 },
    .nop { q0 with eng := 257 }, .dup { q0 with eng := 257 }, .drop { q0 with eng := 257 }, .swap { q0 with eng := 257 },
    .over { q0 with eng := 257 }, .rot { q0 with eng := 257 }, .nip { q0 with eng := 257 }, .pick { q0 with eng := 257 },
    .and_ { q0 with eng := 257 }, .or_ { q0 with eng := 257 }, .xor { q0 with eng := 257 }, .not_ { q0 with eng := 257 },
    .andn { q0 with eng := 257 }, .orn { q0 with eng := 257 }, .mux { q0 with eng := 257 }, .lshu { q0 with eng := 257 },
    .lshd { q0 with eng := 257 }, .lrot { q0 with eng := 257 }, .bcast { q0 with eng := 257 }, .any { q0 with eng := 257 },
    .all { q0 with eng := 257 }, .popc { q0 with eng := 257 }] : List Instr).all (fun c => !c.wf) = true := by decide +kernel

/-- Each check of a well-formed command refuses a term that fails it alone. -/
theorem test_ill_formed_2 : ([
  .lmask { q0 with eng := 257 }, .rise { q0 with eng := 257 }, .fall { q0 with eng := 257 }, .ton { q0 with eng := 257 },
    .tof { q0 with eng := 257 }, .tp { q0 with eng := 257 }, .trst { q0 with eng := 257 }, .add { q0 with eng := 257 }, .sub { q0 with eng := 257 },
    .neg { q0 with eng := 257 }, .inc { q0 with eng := 257 }, .dec { q0 with eng := 257 }, .mul { q0 with eng := 257 }, .mulh { q0 with eng := 257 },
    .mulhu { q0 with eng := 257 }, .div { q0 with eng := 257 }, .divu { q0 with eng := 257 }, .rem { q0 with eng := 257 },
    .remu { q0 with eng := 257 }, .shl { q0 with eng := 257 }, .shr { q0 with eng := 257 }, .sar { q0 with eng := 257 }, .min { q0 with eng := 257 },
    .max { q0 with eng := 257 }, .minu { q0 with eng := 257 }, .maxu { q0 with eng := 257 }, .abs { q0 with eng := 257 },
    .addsat { q0 with eng := 257 }, .subsat { q0 with eng := 257 }, .fadd { q0 with eng := 257 } false, .fsub { q0 with eng := 257 } false,
    .fmul { q0 with eng := 257 } false, .fdiv { q0 with eng := 257 } false, .fsqrt { q0 with eng := 257 } false, .fma { q0 with eng := 257 } false,
    .fneg { q0 with eng := 257 } false, .fabs { q0 with eng := 257 } false, .fmin { q0 with eng := 257 } false, .fmax { q0 with eng := 257 } false,
    .eq { q0 with eng := 257 }] : List Instr).all (fun c => !c.wf) = true := by decide +kernel

/-- Each check of a well-formed command refuses a term that fails it alone. -/
theorem test_ill_formed_3 : ([
  .ne { q0 with eng := 257 }, .lt { q0 with eng := 257 }, .le { q0 with eng := 257 }, .gt { q0 with eng := 257 }, .ge { q0 with eng := 257 },
    .ltu { q0 with eng := 257 }, .leu { q0 with eng := 257 }, .gtu { q0 with eng := 257 }, .geu { q0 with eng := 257 }, .req { q0 with eng := 257 },
    .feq { q0 with eng := 257 } false, .flt { q0 with eng := 257 } false, .fle { q0 with eng := 257 } false, .fun { q0 with eng := 257 } false,
    .sx { q0 with eng := 257 } 0, .sx q0 3, .zx { q0 with eng := 257 } 0, .zx q0 3, .i2s { q0 with eng := 257 }, .i2d { q0 with eng := 257 },
    .u2s { q0 with eng := 257 }, .u2d { q0 with eng := 257 }, .s2i { q0 with eng := 257 }, .d2i { q0 with eng := 257 }, .s2d { q0 with eng := 257 },
    .d2s { q0 with eng := 257 }, .wext { q0 with eng := 257 }, .wins { q0 with eng := 257 }, .yield { q0 with eng := 257 },
    .wait { q0 with eng := 257 }, .signal { q0 with eng := 257 }, .end_ { q0 with eng := 257 }, .ret { q0 with eng := 257 },
    .trap { q0 with eng := 257 }, .enq { q0 with eng := 257 }, .enq2 { q0 with eng := 257 }, .deq { q0 with eng := 257 },
    .deq2 { q0 with eng := 257 }, .rcnt { q0 with eng := 257 }, .din { q0 with eng := 257 }] : List Instr).all (fun c => !c.wf) = true := by decide +kernel

/-- Each check of a well-formed command refuses a term that fails it alone. -/
theorem test_ill_formed_4 : ([
  .dout { q0 with eng := 257 }, .now { q0 with eng := 257 }, .nowe { q0 with eng := 257 }, .elapsed { q0 with eng := 257 },
    .elapsedh { q0 with eng := 257 }, .br { q0 with eng := 257 } 0, .br q0 1024, .bz { q0 with eng := 257 } 0, .bz q0 1024,
    .bnz { q0 with eng := 257 } 0, .bnz q0 1024, .call { q0 with eng := 257 } 0, .call q0 1024, .lit { q0 with eng := 257 } 0, .lit q0 2048,
    .ext { q0 with eng := 257 } 0, .ext q0 2048, .ldb { q0 with eng := 257 } 0 0, .ldb q0 16 0, .ldb q0 0 16, .stb { q0 with eng := 257 } 0 0,
    .stb q0 16 0, .stb q0 0 16, .ldr { q0 with eng := 257 } 0 0, .ldr q0 16 0, .ldr q0 0 16, .str { q0 with eng := 257 } 0 0, .str q0 16 0,
    .str q0 0 16, .strm { q0 with eng := 257 } 0 0, .strm q0 16 0, .strm q0 0 16, .ldw { q0 with eng := 257 } 0 0, .ldw q0 16 0, .ldw q0 0 16,
    .stw { q0 with eng := 257 } 0 0, .stw q0 16 0, .stw q0 0 16, .ldl { q0 with eng := 257 } 0 0, .ldl q0 16 0] : List Instr).all (fun c => !c.wf) = true := by decide +kernel

/-- Each check of a well-formed command refuses a term that fails it alone. -/
theorem test_ill_formed_5 : ([
  .ldl q0 0 16, .stl { q0 with eng := 257 } 0 0, .stl q0 16 0, .stl q0 0 16, .lr { q0 with eng := 257 } 0 0, .lr q0 16 0, .lr q0 0 16,
    .sc { q0 with eng := 257 } 0 0, .sc q0 16 0, .sc q0 0 16, .tset { q0 with eng := 257 } 0 0, .tset q0 16 0, .tset q0 0 16,
    .ldc { q0 with eng := 257 } 0 0, .ldc q0 16 0, .ldc q0 0 16, .storeLineWrite 256, .reservationExpiry 257, .paceReport 64 0, .paceReport 0 4096,
    .bentSelfTest (.session 0) 0, .bentSelfTest .mgt 256, .selfTestDone 64 false, .bentGateOff 64, .bentWakeComplete 64, .preemption 256,
    .budgetExceeded 512, .deadlineMiss 512, .mutualWaitDetected 8, .waitEvent 512, .waitDeadline 512, .commit 8, .stagedStoreResume 256,
    .poolStallLimit 256, .sysRowUpdate 8 0, .sysRowUpdate 0 2, .ringEnable (.session 0) 0, .ringEnable .mgt 4096, .ringEnableDone 4096,
    .ringDisable (.session 0) 0] : List Instr).all (fun c => !c.wf) = true := by decide +kernel

/-- Each check of a well-formed command refuses a term that fails it alone. -/
theorem test_ill_formed_6 : ([
  .ringDisable .mgt 4096, .ringDisableDone 4096, .hwRingEntry 4096 [], .hwRingEntry 0 (List.replicate 65 0), .hwRingTake 4096,
    .splLoad { lh with session := 256 } 0 [], .splLoad lh 0 (List.replicate 1409 0), .splApply { lh with session := 256 } 0, .spliceApplyInstant 8,
    .spliceApplyTimeout 8, .splConfirm { lh with session := 256 } 0, .splRollback { lh with session := 256 } 0, .spliceWindowExpiry 8,
    .spliceRollbackInstant 8, .spliceForcedRollback 8, .heartbeat ph 12 0 0 0 0 0, .ringe ph 4096 0 0 [], .pkg ph 8 0 [], .switch (.session 0),
    .clrsusp (.session 0), .inputDisagreement 64, .pairLinkDown 4, .pageInDone 8 0 0, .pageOutDone 8 0, .erase (.session 0) 0, .erase .mgt 8,
    .eraseComplete 8, .packageFailed 1001 [], .archiveDisable (.session 0), .archiveEnable (.session 0), .gooseFrame { nh with port := 128 } gp,
    .gooseTalExpiry 4096, .gooseRetransmit 1024, .svFrame { nh with port := 128 } sp0, .svMissExpiry 1024, .supervisionFrame { nh with port := 128 },
    .udpDatagram 128 ud 0, .udpSend 8 0, .udpSend 0 16, .arpRequest 128 0 0] : List Instr).all (fun c => !c.wf) = true := by decide +kernel

/-- Each check of a well-formed command refuses a term that fails it alone. -/
theorem test_ill_formed_7 : ([
  .icmpEcho 128 false false 0 0, .ndp 128 0 0, .neighbourTimeout 128 false 0, .portDisable (.session 0) 0, .portDisable .mgt 128,
    .portEnable (.session 0) 0, .portEnable .mgt 128, .linkDown 128, .linkUp 128, .open_ { lh with session := 256 } 0 0, .open_ lh 256 0,
    .halfOpenTimeout 0, .halfOpenTimeout 65, .sessionTimeout 0, .sessionTimeout 65, .heldRequestTimeout 0, .heldRequestTimeout 65,
    .status { lh with session := 256 }, .close { lh with session := 256 }, .imgRead { lh with session := 256 } 0 0 0, .imgRead lh 16 0 0,
    .imgWrite { lh with session := 256 } [], .imgWrite lh (List.replicate 22 (0, 0, 0)), .imgForce { lh with session := 256 } [],
    .regRead { lh with session := 256 } [], .regRead lh [0x100000000], .regWrite { lh with session := 256 } [], .regWrite lh [(0x100000000, 0)],
    .nvsRead { lh with session := 256 } 0 0 0 0, .nvsRead lh 256 0 0 0, .nvsWrite { lh with session := 256 } 0 0 0 0 [], .nvsWrite lh 256 0 0 0 [],
    .almRead { lh with session := 256 } 0 0, .almFreeze { lh with session := 256 } 0, .almFreeze lh 256,
    .arcRead { lh with session := 256 } 0 0 0 0 0, .arcTrig { lh with session := 256 } 0 0 0, .modeSet { lh with session := 256 } 0 0 0 0,
    .modeSet lh 256 0 0 0, .plumb { lh with session := 256 } 0] : List Instr).all (fun c => !c.wf) = true := by decide +kernel

/-- Each check of a well-formed command refuses a term that fails it alone. -/
theorem test_ill_formed_8 : ([
  .ptpSync 128 0 0 0 0 0 0 0, .ptpSync 0 0 3 0 0 0 0 0, .ptpAnnounce 128 0 {} 0 false 0, .pdelayReq 128 0 0, .pdelayResp 128 0 0 0 0 0,
    .syncSend 128 0, .announceTimeout 128, .ppsEdge 2 0, .sourceQualified 0, .sourceQualified 5, .compareFire 64,
    .compareTargetWrite (.session 0) 0 0, .compareTargetWrite .mgt 64 0, .compareArm (.session 0) 0 false, .compareArm .mgt 64 false,
    .calendarHold (.session 0) false, .calendarModeChange (.session 0), .canFrameReceived 32 cf false,
    .canFrameReceived 0 { cf with dlc := 16 } false, .canFrameSent 32 0 0, .canTxreq (.session 0) 0 0, .canTxreq .mgt 32 0, .canTxreq .mgt 0 128,
    .canPeriodicTx 32 0, .canPeriodicTx 0 128, .canBusError 32 0 0 false, .canRejoin 32, .recover (.session 0) 0, .recover .mgt 32,
    .capreq (.session 0) 0, .capreq .mgt 32, .canModeWrite (.session 0) 0 0, .canModeWrite .mgt 32 0, .canModeWrite .mgt 0 4,
    .canDisable (.session 0) 0, .canDisable .mgt 32, .canEnable (.session 0) 0, .canEnable .mgt 32, .barrierDownlink 3, .inputChange 64 false 0] : List Instr).all (fun c => !c.wf) = true := by decide +kernel

/-- Each check of a well-formed command refuses a term that fails it alone. -/
theorem test_ill_formed_9 : ([
  .groupSupplyFault 4 0, .groupSupplyReturn 4 0, .outputFault 64 0, .outputRetry 64 false, .complianceLost 16, .complianceRestored 16,
    .calibrationWrite (.session 0) 0 0 0, .calibrationWrite .mgt 3 0 0, .loopDisable (.session 0) 0, .loopDisable .mgt 256,
    .loopEnable (.session 0) 0, .loopEnable .mgt 256, .faultFiring 2048 0 0 0, .sourceInactive 2048, .force (.session 0) 0 false,
    .force .mgt 2048 false, .clr (.session 0), .nowPlumb (.session 0), .armPlumb (.session 0), .cancelPlumb (.session 0), .wdgWindowOpen 9,
    .wdgExpiry 9, .serviceArm (.session 0) 0, .serviceArm .mgt 9, .service (.session 0) 0, .service .mgt 9, .disableArm (.session 0) 0,
    .disableArm .mgt 9, .wdgDisable (.session 0) 0, .wdgDisable .mgt 9, .wdgPeriod (.session 0) 0 0, .wdgPeriod .mgt 9 0, .wdgEnable (.session 0) 0,
    .wdgEnable .mgt 9, .wdgLock (.session 0) 0, .wdgLock .mgt 9, .wdgFallback 9, .wdgTimebaseReturn 9, .nvsPsel (.session 0) 0 0 0,
    .nvsPsel .mgt 8 0 0] : List Instr).all (fun c => !c.wf) = true := by decide +kernel

/-- Each check of a well-formed command refuses a term that fails it alone. -/
theorem test_ill_formed_10 : ([
  .nvsPsel .mgt 0 64 0, .nvsPsel .mgt 0 0 2, .nvsPpwd (.session 0) 0 0, .nvsPpwd .mgt 8 0, .nvsPpwd .mgt 0 18446744073709551616,
    .nvsPdataRead (.session 0) 0, .nvsPdataRead .mgt 8, .nvsPdataWrite (.session 0) 0 0, .nvsPdataWrite .mgt 8 0, .setrd (.session 0) 0,
    .setrd .mgt 8, .setwr (.session 0) 0, .setwr .mgt 8, .bankMeasure 4096, .mgtLogsel (.session 0) 0, .go (.session 0),
    .registerWrite (.session 0) 0 0, .registerWrite .mgt 4294967296 0, .registerWrite .mgt 0 4294967296, .rcRegisterRead (.session 0) 0,
    .rcRegisterRead .mgt 4294967296, .rlLowRead (.session 0) 0, .rlLowRead .mgt 4294967296, .referenceInputLost 8, .transceiverFault 32,
    .arpReply 128 0, .arpRequestRepeat 128 0, .arpCacheAging 128, .duplicateAddressDetectionDone 128] : List Instr).all (fun c => !c.wf) = true := by decide +kernel

/-- Every row has a well-formed command. -/
theorem test_well_formed_1 : ([
  .supplyValid pu, .leanRetry pu, .configureComplete, .powerFailWarning 0 0, .seatedLoopBreak, .drainComplete false, .supplyLossNoDrain,
    .removalRequest 0, .removalConfirmTimeout, .modecmdStop .mgt 0, .modecmdRun .mgt 0, .modecmdTest .mgt 0, .modecmdDrain .mgt 0, .runStart 0,
    .holdQuietExpiry, .ownerQuietExpiry 0, .ownerStop 0, .ownerStart 0 0, .scnLoad lh 0 [] false, .loadTimeout 0, .scnCommit lh, .planeStreamDone,
    .planeSwap, .updateFail, .scnConfirm lh, .scnRollback lh, .updateWindowExpiry, .rollbackSwap false, .nop q0, .dup q0, .drop q0, .swap q0,
    .over q0, .rot q0, .nip q0, .pick q0, .and_ q0, .or_ q0, .xor q0, .not_ q0] : List Instr).all (fun c => c.wf) = true := by decide +kernel

/-- Every row has a well-formed command. -/
theorem test_well_formed_2 : ([
  .andn q0, .orn q0, .mux q0, .lshu q0, .lshd q0, .lrot q0, .bcast q0, .any q0, .all q0, .popc q0, .lmask q0, .rise q0, .fall q0, .ton q0, .tof q0,
    .tp q0, .trst q0, .add q0, .sub q0, .neg q0, .inc q0, .dec q0, .mul q0, .mulh q0, .mulhu q0, .div q0, .divu q0, .rem q0, .remu q0, .shl q0,
    .shr q0, .sar q0, .min q0, .max q0, .minu q0, .maxu q0, .abs q0, .addsat q0, .subsat q0, .fadd q0 false] : List Instr).all (fun c => c.wf) = true := by decide +kernel

/-- Every row has a well-formed command. -/
theorem test_well_formed_3 : ([
  .fsub q0 false, .fmul q0 false, .fdiv q0 false, .fsqrt q0 false, .fma q0 false, .fneg q0 false, .fabs q0 false, .fmin q0 false, .fmax q0 false,
    .eq q0, .ne q0, .lt q0, .le q0, .gt q0, .ge q0, .ltu q0, .leu q0, .gtu q0, .geu q0, .req q0, .feq q0 false, .flt q0 false, .fle q0 false,
    .fun q0 false, .sx q0 0, .zx q0 0, .i2s q0, .i2d q0, .u2s q0, .u2d q0, .s2i q0, .d2i q0, .s2d q0, .d2s q0, .wext q0, .wins q0, .yield q0,
    .wait q0, .signal q0, .end_ q0] : List Instr).all (fun c => c.wf) = true := by decide +kernel

/-- Every row has a well-formed command. -/
theorem test_well_formed_4 : ([
  .ret q0, .trap q0, .enq q0, .enq2 q0, .deq q0, .deq2 q0, .rcnt q0, .din q0, .dout q0, .now q0, .nowe q0, .elapsed q0, .elapsedh q0, .br q0 0,
    .bz q0 0, .bnz q0 0, .call q0 0, .lit q0 0, .ext q0 0, .ldb q0 0 0, .stb q0 0 0, .ldr q0 0 0, .str q0 0 0, .strm q0 0 0, .ldw q0 0 0,
    .stw q0 0 0, .ldl q0 0 0, .stl q0 0 0, .lr q0 0 0, .sc q0 0 0, .tset q0 0 0, .ldc q0 0 0, .storeLineWrite 0, .reservationExpiry 0,
    .paceReport 0 0, .bentSelfTest .mgt 0, .selfTestDone 0 false, .bentGateOff 0, .bentWakeComplete 0, .cyclicRelease] : List Instr).all (fun c => c.wf) = true := by decide +kernel

/-- Every row has a well-formed command. -/
theorem test_well_formed_5 : ([
  .eventRelease, .pendingRelease, .preemption 0, .budgetExceeded 0, .deadlineMiss 0, .mutualWaitDetected 0, .waitEvent 0, .waitDeadline 0,
    .releaseHoldEnd, .commit 0, .stagedStoreResume 0, .poolStallLimit 0, .sysRowUpdate 0 0, .ringEnable .mgt 0, .ringEnableDone 0,
    .ringDisable .mgt 0, .ringDisableDone 0, .hwRingEntry 0 [], .hwRingTake 0, .splLoad lh 0 [], .splApply lh 0, .spliceApplyInstant 0,
    .spliceApplyTimeout 0, .splConfirm lh 0, .splRollback lh 0, .spliceWindowExpiry 0, .spliceRollbackInstant 0, .spliceForcedRollback 0, .hello he,
    .helloSend, .keyconf 0, .heartbeatSend, .heartbeat ph 0 0 0 0 0 0, .partnerLost, .takeoverComplete, .holdTakeover, .digest ph [], .digestMissing,
    .role ph 0 0 0, .leave ph 0] : List Instr).all (fun c => c.wf) = true := by decide +kernel

/-- Every row has a well-formed command. -/
theorem test_well_formed_6 : ([
  .stopcmd ph 0, .seqmap ph [], .splice ph 0 0 0 0, .event ph 0 0, .rows ph [], .ringe ph 0 0 0 [], .xfer ph 0 0 0 [], .pkg ph 0 0 [], .xferCut,
    .xferShadowEntry, .xferTimeout, .switch .mgt, .clrsusp .mgt, .switchoverT, .switchoverDriversOff, .switchoverComplete, .autoSwitchover,
    .claimCycle 0 false, .inputDisagreement 0, .pairLinkDown 0, .pageInDone 0 0 0, .pageOutDone 0 0, .erase .mgt 0, .eraseComplete 0,
    .stagingFlush 0 0 0, .packageFailed 0 [], .rebuildDone, .archiveWindowEnd, .archiveDisable .mgt, .archiveEnable .mgt, .gooseFrame nh gp,
    .gooseTalExpiry 0, .gooseRetransmit 0, .svFrame nh sp0, .svMissExpiry 0, .supervisionFrame nh, .supervisionSend, .dupEntryAging,
    .udpDatagram 0 ud 0, .udpSend 0 0] : List Instr).all (fun c => c.wf) = true := by decide +kernel

/-- Every row has a well-formed command. -/
theorem test_well_formed_7 : ([
  .arpRequest 0 0 0, .icmpEcho 0 false false 0 0, .ndp 0 0 0, .neighbourTimeout 0 false 0, .portDisable .mgt 0, .portEnable .mgt 0, .linkDown 0,
    .linkUp 0, .open_ lh 0 0, .halfOpenTimeout 1, .sessionTimeout 1, .heldRequestTimeout 1, .status lh, .close lh, .imgRead lh 0 0 0,
    .imgWrite lh [], .imgForce lh [], .regRead lh [], .regWrite lh [], .nvsRead lh 0 0 0 0, .nvsWrite lh 0 0 0 0 [], .almRead lh 0 0,
    .almFreeze lh 0, .arcRead lh 0 0 0 0 0, .arcTrig lh 0 0 0, .modeSet lh 0 0 0 0, .plumb lh 0, .ptpSync 0 0 0 0 0 0 0 0,
    .ptpAnnounce 0 0 {} 0 false 0, .pdelayReq 0 0 0, .pdelayResp 0 0 0 0 0 0, .syncSend 0 0, .announceTimeout 0, .holdoverDegrade, .ppsEdge 0 0,
    .irigFrame 0 false false 0 0 0 0 0 0 false, .sourceQualified 1, .timeStep, .compareFire 0, .compareTargetWrite .mgt 0 0] : List Instr).all (fun c => c.wf) = true := by decide +kernel

/-- Every row has a well-formed command. -/
theorem test_well_formed_8 : ([
  .compareArm .mgt 0 false, .ppsOutput, .calendarAutoWrite, .calendarHold .mgt false, .calendarModeChange .mgt, .oscillatorStopped,
    .canFrameReceived 0 cf false, .canFrameSent 0 0 0, .canTxreq .mgt 0 0, .canPeriodicTx 0 0, .canBusError 0 0 0 false, .canRejoin 0,
    .recover .mgt 0, .capreq .mgt 0, .canCapture, .canModeWrite .mgt 0 0, .canDisable .mgt 0, .canEnable .mgt 0, .barrierDownlink 0,
    .barrierUplink 0 0 0 0, .inputChange 0 false 0, .sillRefreshLost, .logicRefreshLost, .groupSupplyFault 0 0, .groupSupplyReturn 0 0,
    .outputFault 0 0, .outputRetry 0 false, .complianceLost 0, .complianceRestored 0, .calibrationWrite .mgt 0 0 0, .loopSample, .loopDisable .mgt 0,
    .loopEnable .mgt 0, .faultFiring 0 0 0 0, .historyWrite, .stormEnd, .sourceInactive 0, .force .mgt 0 false, .clr .mgt, .nowPlumb .mgt] : List Instr).all (fun c => c.wf) = true := by decide +kernel

/-- Every row has a well-formed command. -/
theorem test_well_formed_9 : ([
  .armPlumb .mgt, .cancelPlumb .mgt, .scheduledPlumb, .wdgWindowOpen 0, .wdgExpiry 0, .serviceArm .mgt 0, .service .mgt 0, .disableArm .mgt 0,
    .wdgDisable .mgt 0, .wdgPeriod .mgt 0 0, .wdgEnable .mgt 0, .wdgLock .mgt 0, .wdgFallback 0, .wdgTimebaseReturn 0, .nvsPsel .mgt 0 0 0,
    .nvsPpwd .mgt 0 0, .nvsPdataRead .mgt 0, .nvsPdataWrite .mgt 0 0, .setrd .mgt 0, .setwr .mgt 0, .almanacWrite, .almanacCheckpoint,
    .mgtEngineRelease, .sensorSample se, .bankMeasure 0, .mgtLogsel .mgt 0, .go .mgt, .strapRelease, .registerWrite .mgt 0 0, .rcRegisterRead .mgt 0,
    .rlLowRead .mgt 0, .startwaitExpiry, .referenceInputLost 0, .referenceInputReturn, .ocxoFault, .leapSecond, .pdelayReqSend, .transceiverFault 0,
    .arpReply 0 0, .arpRequestRepeat 0 0] : List Instr).all (fun c => c.wf) = true := by decide +kernel

/-- Every row has a well-formed command. -/
theorem test_well_formed_10 : ([
  .arpCacheAging 0, .duplicateAddressDetectionDone 0, .framePrepared, .restoreFactoryDone, .moduleSeated, .stationInputOutOfRange 0,
    .stationInputInRange 0] : List Instr).all (fun c => c.wf) = true := by decide +kernel

/-! ### A small module -/

/-- A module in a mode, with one item of every kind, all of O0's, and its registers at 0 but where `regs` says otherwise. -/
def cfgAll : Scn :=
  { hdr := { ownmask := 1 }
    part := { bents := [(0, { assigned := true })], taskOwn := [(0, 0)], ringOwn := [(0, 0), (1, 0)], loopOwn := [(0, 0)], canOwn := [(0, 0)],
              dOwn := [(0, 0), (1, 0)], aOwn := [(0, 0)]
              owners := [(0, { perm := 0xFFFF, retmax := 1, inR := ⟨0, 4⟩, outR := ⟨4, 4⟩, mrkR := ⟨8, 4⟩, sysR := ⟨12, 4⟩, semR := ⟨0, 4⟩, prgLen := 4 })] }
    port := { ports := [(0, { mode := 1, ptp := true }), (1, { mode := 1 }), (96, { mode := 2 })], ips := [(96, { v4 := [(0x0A000001, 24)] })] }
    tasks := [(0, { defined := true, period := 1000, deadline := 900, entry := 1 })]
    cnst := [(0, { dataBase := 0, dataSize := 131072, retBase := 131072, retSize := 65536, constBase := 196608, constSize := 65536 })]
    rings := [(0, { defined := true, base := 0 }), (1, { defined := true, esize := 2, prod := 2, base := 4096 })]
    nvly := [(0, { defined := true, base := 0, size := 64 })]
    subs := [(0, { owner := 0, port := 0, paired := false, simok := false, dmac := 0, appid := 0, vid := 0xFFF, templ := 0, confrev := 0, valid := 8, refcrc := 0, dscrc := 0 })]
    pubs := [(0, { owner := 0, port := 0, paired := false, stopform := false, dmac := 0, appid := 0, tci := 0, templ := 0, confrev := 0, minint := 2, maxint := 1000, talmul := 2 })]
    eps := [(0, { v4 := true, lport := 5000, ports := 1, rx := some 1, tx := some 0 })]
    can := [(0, { cfg := 0, nbt := 0, dbt := 0, ring := 0 })], canobj := [(0, { cfg := 3, id := 0, mask := 0, map := 0 })]
    dch := [(0, {}), (1, { out := true })], ach := [(0, {})], loops := [(0, [])] }

/-- A module in a mode, with one item of every kind, all of O0's; `extra` are registers that do not hold their reset value. -/
def mod (m : Mode) (extra : List (Nat × Nat) := []) : State :=
  let s : State := { State.reset with
    ms := { mode := m, begun := true }
    cfg := cfgAll
    owners := [(0, { st := .running, started := true })]
    bents := [(0, { awake := true })]
    prog := [(0, 0), (1, 0), (2, 0), (3, 0)]
    engines := [(0, { task := some 0, running := true, ctx := { pc := 9 } })]
    tasks := [(0, { st := .running, eng := some 0 })]
    mmu := { prep := [0], frames := [(0, { prepared := true })], nextFrame := 1 } }
  forEach (extra ++ [(Reg.LOP_CFG 0, 1), (Reg.NET_STAT, 1), (Reg.NET_PSTAT 0, 5), (Reg.NET_PSTAT 96, 5), (Reg.OBJCFG 0 0, 3), (Reg.NET_GSSTAT 0, 3),
    (Reg.NET_GPSTAT 0, 1), (Reg.MMU_OSTAT 0, 1)]) (fun s p => s.wr p.1 p.2) s

/-- A register access that rows 1 to 7 of Table 1.8 let pass, as a test. -/
def reaches (s : State) (r : Req) (a : Nat) (w : Bool) (p : RegHit → Bool) : Bool :=
  match s.busCheck r a w with
  | .ok h => p h
  | .error _ => false

theorem reaches_hit {s : State} {r : Req} {a : Nat} {w : Bool} {p : RegHit → Bool} (h : reaches s r a w p = true) :
    ∃ x, s.busCheck r a w = .ok x ∧ p x = true := by
  unfold reaches at h
  split at h
  · exact ⟨_, ‹_›, h⟩
  · cases h

/-- `State.writes` as a test. -/
def writesB (s : State) (r : Req) (a base i : Nat) : Bool :=
  s.reqLive r && reaches s r a true fun h => h.desc.base == base && h.i == i && !h.shadow && h.desc.pair == .one && s.itemDefined a h &&
    !(decide (blockOf a = 0) && !(s.bent (h.i / 4)).awake)

theorem writes_of {s : State} {r : Req} {a base i : Nat} (h : writesB s r a base i = true) : s.writes r a base i := by
  unfold writesB at h
  rw [Bool.and_eq_true] at h
  obtain ⟨x, hx, hp⟩ := reaches_hit h.2
  simp only [Bool.and_eq_true, Bool.not_eq_true', beq_iff_eq, Bool.and_eq_false_iff, decide_eq_false_iff_not] at hp
  obtain ⟨⟨⟨⟨⟨h1, h2⟩, h3⟩, h4⟩, h5⟩, h6⟩ := hp
  refine ⟨h.1, x, hx, h1, h2, h3, h4, h5, ?_⟩
  rintro ⟨a1, a2⟩
  rcases h6 with h6 | h6
  · exact h6 a1
  · simp [a2] at h6

/-! ### Witnesses of the obligations' hypotheses -/

/-- Registers set to values. -/
def regs (l : List (Nat × Nat)) (s : State) : State := forEach l (fun s p => s.wr p.1 p.2) s

/-- Engine 0 with some entries on its operand stack (TOS first). -/
def withStk (l : List Nat) (s : State) : State :=
  s.setEng 0 { s.eng 0 with ctx := { (s.eng 0).ctx with stack := l.map (BitVec.ofNat 256) } }

/-- A module in Run whose engine 0 runs task 0 and has some entries on its operand stack. -/
def gu (l : List Nat) : State := withStk l (mod .run)

/-- The management engine running its release. -/
def mgm : State :=
  let s := mod .run
  { s with
    cfg := { s.cfg with mgtp := some { period := 100, lines := [0, 0], const := [], dataLen := 64 } }
    mgt := { s.mgt with engInstalled := true, engRunning := true }
    engines := s.engines ++ [(256, { running := true, ctx := { pc := 9 } })] }

def q256 : Issue := { eng := 256, at_ := 0, wait := 0 }

/-- Did a data access give its bytes? -/
def isOk : MemRes → Bool
  | .ok _ _ => true
  | _ => false

/-- A calm state, and an empty queue. -/
theorem witness_CalmEffectStands :
    (mod .run).calm = true ∧ (mod .run).pending = [] := by decide +kernel

/-- Every depth of operand stack occurs on an engine that runs its code (the premises of `Takes` and `Traps` for any entries, in StackInstructionsMoveEntries, RowLogicActsOnEveryLane, LaneInstructionsMoveLanes, IntegerArithmeticWraps, DivisionTruncatesOrTraps, ShiftsAndBoundsOfIntegers, RealInstructionsRoundOnce, ComparesPushTheirRelation, ConversionsFollowTheirFormat and LiteralsExtendTheTop). -/
theorem witness_Takes :
    (List.range 17).all (fun n => (gu (List.replicate n 5)).runs 0 && ((gu (List.replicate n 5)).stk 0).length == n) = true ∧ mgm.runs 256 = true := by decide +kernel

/-- PICK at the largest index, and both ways of STKUNF at their boundaries. -/
theorem witness_StackInstructionsMoveEntries :
    ((gu (14 :: List.replicate 15 5)).stk 0)[15]?.isSome = true ∧ scalar (14 : Row) ≤ 14 ∧ 14 < scalar (15 : Row) ∧
    ((gu [1, 5]).stk 0).length - 1 ≤ scalar (1 : Row) := by decide +kernel

/-- Divisors that are 0 and that are not. -/
theorem witness_DivisionTruncatesOrTraps :
    scalar (BitVec.ofNat 256 (2 ^ 64)) = 0 ∧ scalar (BitVec.ofNat 256 (2 ^ 64 - 1)) ≠ 0 := by decide +kernel

/-- NaNs and numbers of both formats. -/
theorem witness_NaNsAreCanonicalAndZerosOrdered :
    f32.isNan 0x7F800001 = true ∧ f32.isNan 0xFFFFFFFF = true ∧ f32.isNan 0x7F800000 = false ∧ f64.isNan 0x7FF0000000000001 = true ∧
    f64.isNan 0x7FF0000000000000 = false := by decide +kernel

/-- Operands with a NaN and without one. -/
theorem witness_ComparesPushTheirRelation :
    f32.decode (realOf false 0x7FC00000) = .nan ∧ f32.decode (realOf false 0x7F800000) ≠ .nan ∧ f64.decode (realOf true 0x7FF8000000000000) = .nan ∧
    f64.decode (realOf true 0x7FF0000000000000) ≠ .nan := by decide +kernel

/-- An empty stack under EXT. -/
theorem witness_LiteralsExtendTheTop :
    (gu []).runs 0 = true ∧ (gu []).stk 0 = [] := by decide +kernel

/-- Targets at both ends of the range from the word 9 of a program of 4 lines, a full operand stack, 31 return points, and a return point to pop. -/
theorem witness_FlowTakesItsDelaySlot :
    (gu (List.replicate 16 0)).runs 0 = true ∧ ((gu []).eng 0).ctx.flow = none ∧ ((gu []).eng 0).ctx.pc = 9 ∧ (gu []).progLen 0 = 4 ∧
    (9 : Int) + 1 + signed 10 1023 = 9 ∧ (9 : Int) + 1 + signed 10 25 = 35 ∧
    ((mod .run).setEng 0 { (mod .run).eng 0 with ctx := { pc := 9, rstack := List.replicate 31 9 } }).runs 0 = true ∧
    ((mod .run).setEng 0 { (mod .run).eng 0 with ctx := { pc := 9, rstack := [9] } }).runs 0 = true := by decide +kernel

/-- Targets just outside the range, and an engine in a delay slot. -/
theorem witness_FlowOutsideProgramTraps :
    (9 : Int) + 1 + signed 10 1022 = 8 ∧ (9 : Int) + 1 + signed 10 26 = 36 ∧ (gu [0]).runs 0 = true ∧
    ((mod .run).setEng 0 { (mod .run).eng 0 with ctx := { pc := 10, flow := some ⟨20, 20⟩ } }).runs 0 = true := by decide +kernel

/-- Engine 0 runs task 0; task 1 of the same owner is as given. -/
def two (l : List Nat) (x : Task) : State :=
  let s := gu l
  { s with cfg := { s.cfg with tasks := s.cfg.tasks ++ [(1, { defined := true, event := true, entry := 1 })] }, tasks := s.tasks ++ [(1, x)] }

def waitsFor (w : WaitDesc) : Task := { st := .waiting, wait := some w, ctx := { pc := 10, stack := [0, 0] } }

/-- An engine with a task that has staged nothing, and one that has staged a row; a promised task, a ready task of equal priority, and neither; the management engine. -/
theorem witness_TaskInstructionsEndAndHandOver :
    (gu [0]).runs 0 = true ∧ ((gu [0]).eng 0).ctx.flow = none ∧ ((gu []).afterDrain q0).1.isNone = true ∧ ((gu []).eng 0).task = some 0 ∧
    ((gu []).task 0).staged = [] ∧ (((gu []).setTask 0 { (gu []).task 0 with staged := [(8, (1, 1))] }).task 0).staged ≠ [] ∧ ((gu []).eng 0).preempt = none ∧
    (gu []).yieldTo 0 0 = none ∧ (two [] { st := .ready }).yieldTo 0 0 = some 1 ∧
    (((two [] { st := .ready }).setEng 0 { (two [] { st := .ready }).eng 0 with preempt := some 1 }).eng 0).preempt = some 1 ∧ mgm.runs 256 = true ∧
    (mgm.eng 256).ctx.flow = none ∧ (mgm.stk 256).length ≤ 16 := by decide +kernel

/-- A WAIT descriptor (Table 5.17's fields) and a deadline on the stack: kind, TMO, identifier. -/
def waitOn (kind tmo id dl : Nat) : State := gu [kind * 2 ^ 60 + tmo * 2 ^ 59 + id, dl]

/-- Tokens 255 and 256, a task waiting on the token and none, and each way a WAIT ends. -/
theorem witness_SignalsAndWaits :
    ((gu [255]).afterDrain q0).1.isNone = true ∧ scalar (255 : Row) ≤ 255 ∧ 255 < scalar (256 : Row) ∧
    ((two [] (waitsFor { kind := 1, tmo := false, id := 255, deadline := 0 })).tasksOf 0) = [0, 1] ∧
    ((two [] (waitsFor { kind := 1, tmo := false, id := 255, deadline := 0 })).task 1).st = .waiting ∧ ((gu [255]).tasksOf 0) = [0] ∧
    (waitOn 2 0 0 0).waitCheck 0 (2 * 2 ^ 60) = none ∧ (waitOn 2 0 0 0).deadlinePassed 0 = true ∧ (waitOn 2 0 0 1).deadlinePassed 1 = false ∧
    (waitOn 1 1 7 0).waitCheck 0 (2 ^ 60 + 2 ^ 59 + 7) = none ∧ (waitOn 1 1 7 0).waitHolds 0 { kind := 1, tmo := true, id := 7, deadline := 0 } = false ∧
    ((waitOn 1 0 7 0).setOwner 0 { (waitOn 1 0 7 0).owner 0 with tokens := [7] }).waitHolds 0 { kind := 1, tmo := false, id := 7, deadline := 0 } = true ∧
    ((waitOn 1 0 7 0).eng 0).task = some 0 := by decide +kernel

/-- Ring 0 open with some entries present, and a stack. -/
def ringed (n : Nat) (l : List Nat) : State := regs [(Reg.RING_STAT 0, 1), (Reg.RING_PIDX 0, n)] (gu l)

/-- Ring 1 (64-byte entries) open, its producer software. -/
def ringed2 (n : Nat) (l : List Nat) : State :=
  let s := regs [(Reg.RING_STAT 1, 1), (Reg.RING_PIDX 1, n)] (gu l)
  { s with cfg := { s.cfg with rings := [(1, { defined := true, esize := 2, base := 4096 })] } }

def slotOk (s : State) (q i : Nat) : Bool := match (s.engXlat 0 (s.ringSlot q i)).1 with | .zero => true | .frame _ _ => true | _ => false

/-- Rings that are open and have room or entries, that are full or empty, closed, undefined, and of hardware; slots that can be reached, written and read. -/
theorem witness_RingInstructionsTransfer :
    ((ringed 0 [0, 9]).afterDrain q0).1.isNone = true ∧ (ringed 0 []).ringOwner 0 = some 0 ∧ (ringed 0 []).engOwner 0 = 0 ∧ (ringed 0 []).ringOpen 0 = true ∧
    (ringed 0 []).ringCount 0 = 0 ∧ (ringed 16 []).ringCount 0 = ringLen ((ringed 16 []).ringCfg 0) ∧ (mod .run).ringOpen 0 = false ∧
    ((mod .run).ringCfg 4095).defined = false ∧ ((mod .run).ringCfg 1).prod ≠ 0 ∧ slotOk (ringed 0 []) 0 0 = true ∧
    ((ringed 0 []).hwWrite 0 0 (List.replicate 16 0)).1 = true ∧ ((ringed 1 []).hwRead 0 0 16).1.isSome = true ∧ (ringed2 0 []).ringOpen 1 = true ∧
    ((ringed2 0 []).ringCfg 1).esize = 2 ∧ slotOk (ringed2 1 []) 1 0 = true ∧ ((ringed2 1 []).hwWrite 0 4096 (List.replicate 64 1)).1 = true ∧
    ((ringed2 1 []).hwRead 0 4096 64).1.isSome = true := by decide +kernel

/-- A stack of 15. -/
theorem witness_TimeInstructionsReadTheClock :
    (gu (List.replicate 15 0)).runs 0 = true := by decide +kernel

/-- A register that is read and written, addresses of 32 and 33 bits, and a refusal. -/
theorem witness_DeviceInstructionsReachRegisters :
    ((gu [Reg.MGT_VIN]).afterDrain q0).1.isNone = true ∧ ((gu []).busRead (.engine 0) Reg.MGT_VIN).1 = .ok 0 ∧
    reaches (gu []) (.engine 0) Reg.MGT_MODECMD true (fun _ => true) = true ∧ 2 ^ 32 ≤ scalar (BitVec.ofNat 256 (2 ^ 32)) ∧
    ((gu []).busRead (.engine 0) 1).1 = .refused 2 ∧ ((gu []).busWrite (.engine 0) 0xFFFFFFFC 0).1 = .refused 3 := by decide +kernel

/-- Loads of every kind at the last element of their space, from the image and from DATA, and FENCE. -/
theorem witness_LoadsPushTheElement :
    (List.range 4).all (fun sp => usable 0 .ldb sp 12 && usable 0 .ldr sp 8) = true ∧ (gu [0]).elem 0 .ldb 0 1023 = .row 3 255 ∧
    (gu [0]).elem 0 .ldr 2 768 = .row 11 0 ∧ usable 0 .ldw 5 4 = true ∧ (gu [0]).elem 0 .ldw 5 131068 = .byte 131068 0 ∧
    (gu [0]).elem 0 .ldb 5 1048575 = .byte 131071 7 ∧ (gu [0]).elem 0 .ldl 6 65528 = .byte 65528 0 ∧ (gu [0]).elem 0 .ldr 7 65504 = .byte 65504 0 ∧
    isOk ((gu [0]).loadBytes 0 5 131068 4).1 = true ∧ isOk ((gu [0]).loadBytes 0 7 0 8).1 = true ∧
    (((gu [0]).loadBytes 0 5 131068 4).2.fenced 0 12).1.isNone = true ∧ isOk ((gu [0]).loadInit 0 5 0).1 = true ∧ isOk ((gu [0]).loadInit 0 1 32).1 = true := by decide +kernel

/-- Stores to a row with room in its pool, to SEM, and to DATA with its mask, at the last element. -/
theorem witness_StoresReachTheirSpace :
    usable 0 .strm 1 8 = true ∧ (gu [0, 1, 2]).elem 0 .strm 1 768 = .row 7 0 ∧ (gu [0, 1]).elem 0 .stb 4 1023 = .row 3 255 ∧ ((gu []).eng 0).task = some 0 ∧
    (gu []).poolFull 0 7 = false ∧ usable 0 .stl 5 12 = true ∧ (gu [0, 1]).elem 0 .stl 5 131064 = .byte 131064 0 ∧
    isOk ((gu []).storeBytes 0 5 131064 (leBytes 8 7) (2 ^ 64 - 1) 9 0x1850).1 = true ∧
    ((gu []).storeBytes 0 5 131064 (leBytes 8 7) (2 ^ 64 - 1) 9 0x1850).2.1.isNone = true ∧
    (((gu []).storeBytes 0 5 131064 (leBytes 8 7) (2 ^ 64 - 1) 9 0x1850).2.2.fenced 0 8).1.isNone = true ∧
    isOk ((gu []).storeBytes 0 6 0 (leBytes 32 7) (2 ^ 256 - 1) 9 0).1 = true := by decide +kernel

/-- LR and SC on DATA with the reservation held and not, and TSET on the last bit of SEM. -/
theorem witness_ReservedAndIndivisibleAccesses :
    usable 0 .lr 5 12 = true ∧ usable 0 .sc 6 0 = true ∧ usable 0 .tset 4 12 = true ∧ ((gu [0]).afterDrain q0).1.isNone = true ∧
    (gu [0]).elem 0 .lr 5 8 = .byte 8 0 ∧ isOk ((gu [0]).loadBytes 0 5 8 8).1 = true ∧
    ((gu [0, 1]).setEng 0 { (gu [0, 1]).eng 0 with resv := some ⟨0, (gu []).resvLine 0 5 8, 0⟩ }).runs 0 = true ∧
    ((gu [0, 1]).scWrite 0 5 8 7).1.isNone = true ∧ ((gu [0, 1]).eng 0).resv = none ∧ (gu [0]).elem 0 .tset 4 1023 = .row 3 255 := by decide +kernel

/-- An edge element and a timer block in DATA and RETAIN. -/
theorem witness_EdgesAndTimersWorkPerLane :
    ((gu [0, 5]).edgeElem 0 0 32 32 matches .ok _) = true ∧ ((gu [0, 5]).edgeElem 0 (2 ^ 63) 2176 64 matches .ok _) = true ∧
    isOk ((gu []).loadBytes 0 5 0 32).1 = true ∧ isOk ((gu []).storeBytes 0 5 0 (List.replicate 32 1) (2 ^ 256 - 1) 9 0x0300).1 = true ∧
    ((gu []).storeBytes 0 5 0 (List.replicate 32 1) (2 ^ 256 - 1) 9 0x0300).2.1.isNone = true ∧ ((gu []).blockOvl 0 6 0).1.isNone = true ∧
    ((gu []).blockRead 0 6 0 [0]).1 = .inr [(0, 0)] ∧ ((gu []).blockWrite 0 6 0 [(0, 0), (1, 0)]).1.isNone = true := by decide +kernel

/-- A timer block whose lanes start, read and written; lanes of every case. -/
theorem witness_LaneTimerProgram :
    ((gu []).blockRead 0 5 0 [0, 1]).1 = .inr [(0, 0), (1, 0)] ∧ stampLines .ton 5 1 9 0 = [2] ∧
    ((gu []).blockRead 0 5 0 (stampLines .ton 5 1 9 0)).1 = .inr [(2, 0)] ∧ ((gu []).blockWrite 0 5 0 (timerLines .ton 5 1 9 0 [(2, 0)])).1.isNone = true ∧
    ((gu []).eng 0).task = some 0 ∧ (laneStep .ton 9 4 true { prev := true, q := false, run := true, start := 5 }).q = true ∧
    (laneStep .tof 9 4 false { prev := false, q := true, run := true, start := 6 }).q = true ∧
    (laneStep .tp 9 4 true { prev := false, q := false, run := false, start := 0 }).run = true := by decide +kernel

/-- The first address past each end, and misaligned ones, for every group of instructions. -/
theorem witness_AddressChecksTrap :
    (gu [0]).elem 0 .ldr 0 1024 = .exc 0x09 ∧ (gu [0]).elem 0 .ldr 0 1 = .exc 0x0A ∧ (gu [0, 1]).elem 0 .stw 5 131072 = .exc 0x09 ∧
    (gu [0, 1]).elem 0 .stw 5 2 = .exc 0x0A ∧ (gu [0, 1, 2]).elem 0 .strm 1 2 = .exc 0x0A ∧ (gu [0]).elem 0 .lr 5 4 = .exc 0x0A ∧
    (gu [0, 1]).elem 0 .sc 5 131072 = .exc 0x09 ∧ (gu [0]).elem 0 .tset 4 1024 = .exc 0x09 ∧ (gu [0]).elem 0 .ldb 7 (8 * 65536) = .exc 0x09 := by decide +kernel

/-- Each refusal. -/
theorem witness_RefusedAccessTouchesNothing :
    (mod .run).reqLive .mgt = true ∧ (mod .lean).busCheck .mgt 0 false matches .error 1 ∧ (mod .drain).busCheck .mgt Reg.MGT_MODECMD true matches .error 1 ∧
    (mod .run).busCheck .mgt 2 false matches .error 2 ∧ (mod .run).busCheck .mgt 0x7000000 true matches .error 3 ∧ busFind 0x6FFFFFC = none ∧
    (mod .run).blockPerm 1 5 = false ∧ (mod .run).sessLive 1 = false := by decide +kernel

/-- A register with RW bits and one with W1C bits, whose write starts nothing. -/
theorem witness_WriteFollowsAccessTypes :
    (mod .run).reqLive .mgt = true ∧
    reaches (mod .run) .mgt (Reg.FLT_STAT) true (fun h => !h.shadow && (mod .run).itemDefined Reg.FLT_STAT h && h.desc.pair == .one && h.desc.w1c != 0) = true ∧
    Reg.FLT_STAT ∉ actingRegs ∧ (mod .run).rd Reg.FLT_STAT < 2 ^ 32 := by decide +kernel

/-- A register with RC bits, a pair of words, and latches that hold another quantity. -/
theorem witness_ReadClearsAndLatches :
    reaches (mod .run) .mgt Reg.RED_FWDLAT false (fun h => h.desc.pair == .one && h.desc.rc != 0) = true ∧
    reaches (mod .run) .mgt (Reg.FLT_HCOUNT) false (fun h => h.desc.pair == .lo && !(mod .run).foreignWord 0 Reg.FLT_HCOUNT h) = true ∧
    (busFind (Reg.FLT_HCOUNT + 4)).isSome = true ∧ ((mod .run).reqLat .mgt).hi = none ∧
    (((mod .run).setReqLat .mgt { hi := some (0, 7) }).reqLat .mgt).hi = some (0, 7) := by decide +kernel

/-- A 64-bit RW quantity whose low word is held, and not; the last compare unit. -/
theorem witness_WideWriteAppliesBothHalves :
    reaches (mod .run) .mgt (Reg.TIM_CUTGT 63) true (fun h => h.desc.pair == .lo && h.desc.rw == 0xFFFFFFFF && (mod .run).itemDefined (Reg.TIM_CUTGT 63) h && !h.shadow) = true ∧
    reaches (mod .run) .mgt (Reg.TIM_CUTGT 63 + 4) true (fun h => h.desc.pair == .hi && h.desc.rw == 0xFFFFFFFF && (mod .run).itemDefined (Reg.TIM_CUTGT 63 + 4) h && !h.shadow) = true ∧
    reaches (mod .run) .mgt (Reg.TIM_CUTGT_H 63) true (fun _ => true) = true ∧ ((mod .run).reqLat .mgt).lo = none ∧
    (((mod .run).setReqLat .mgt { lo := some (Reg.TIM_CUTGT 63, 7) }).reqLat .mgt).lo = some (Reg.TIM_CUTGT 63, 7) := by decide +kernel

/-- A watchdog of a module in Run that counts, with what is given of it. -/
def wdog (x : Wdg) (m : Mode := .run) : State := { mod m with wdg := [(8, x)] }

/-- Watchdog 8 counting with its window closed, and open with each key armed, locked and not. -/
theorem witness_WatchdogKeysServeOrViolate :
    writesB (wdog { counting := true, en := true }) .mgt (Reg.WDG_KEY 8) (Reg.WDG_KEY 0) 8 = true ∧
    ((wdog { counting := true, en := true }).wd 8).counting = true ∧
    ¬us 1000000 ≤ 2 * ((wdog { counting := true }).mono - ((wdog { counting := true }).wd 8).since) ∧
    us 1000000 ≤ 2 * (({ wdog { counting := true } with now := us 500000 } : State).mono - 0) ∧ ((wdog { counting := true, armed := 1 }).wd 8).armed = 1 ∧
    ((wdog { counting := true, armed := 2 }).wd 8).armed = 2 ∧ ((wdog { counting := true, lock := true }).wd 8).lock = true ∧
    ((wdog { counting := true }).wd 8).winOpen = false ∧ ((wdog { counting := true, lost := some 0 }).wd 8).lost = some (wdog { counting := true }).mono ∧
    ((wdog { counting := true, armed := 1, lost := some 5 }).wd 8).lost ≠ some (wdog {}).mono := by decide +kernel

/-- Both settings registers of watchdog 8, periods at and beyond their bounds, and a watchdog on each time base. -/
theorem witness_WatchdogSettingsAndExpiry :
    writesB (wdog { counting := true, en := true }) .mgt (Reg.WDG_PERIOD 8) (Reg.WDG_PERIOD 0) 8 = true ∧
    writesB (wdog {}) .mgt (Reg.WDG_CTL 8) (Reg.WDG_CTL 0) 8 = true ∧
    us 100 ≤ 2 * (({ wdog { counting := true, period := 100 } with now := us 50 } : State).mono - ((wdog { counting := true }).wd 8).since) ∧
    60000001 < 2 ^ 26 ∧ ((wdog { en := true }).wd 8).en = true ∧ ((wdog {}).wd 8).en = false ∧
    ((wdog { counting := true, fallback := true, period := 100 }).wd 8).fallback = true := by decide +kernel

/-- An assigned source of a calm device, of each class, with no trigger and room in the intake; entries, a storm and a firing to end. -/
theorem witness_FiringsAreCountedAndLogged :
    (mod .run).calm = true ∧ srcAssigned 1409 = true ∧ ((mod .run).srcCfg 1409).react = 0 ∧ (mod .run).ms.mode ≠ .hold ∧ (mod .run).cfg.trigs = [] ∧
    (mod .run).flt.intake.length < 16 ∧ (mod .run).flt.first = none ∧ ((mod .run).srcCfg 1409).cls < 3 ∧
    (({ mod .run with cfg := { cfgAll with fltr := [(1409, { cls := 3 })] } } : State).srcCfg 1409).cls = 3 ∧
    (({ mod .run with cfg := { cfgAll with fltr := [(1409, { cls := 3 })] } } : State).srcCfg 1409).react = 0 ∧
    ({ mod .run with flt := { intake := [{}] } } : State).cfg.hring.find? 0 = none ∧ ({ mod .run with flt := { storm := true } } : State).flt.storm = true ∧
    ({ mod .run with flt := { lastFire := [(1409, (0, 2))] } } : State).flt.lastFire.find? 1409 = some (0, 2) := by decide +kernel

/-- FORCE of an assigned and an unassigned source in Test and outside it, CLR, the plumb commands, an armed plumb, and a stored counter with a shadow. -/
theorem witness_ForcesAndPlumbs :
    writesB (mod .test) .mgt (Reg.FLT_SFORCE 1409) (Reg.FLT_SFORCE 0) 1409 = true ∧
    writesB (mod .run) .mgt (Reg.FLT_SFORCE 2047) (Reg.FLT_SFORCE 0) 2047 = true ∧ srcAssigned 1409 = true ∧ srcAssigned 2047 = false ∧
    writesB (mod .run) .mgt Reg.FLT_FECLR Reg.FLT_FECLR 0 = true ∧ writesB (mod .run) .mgt Reg.FLT_PLUMBCTL Reg.FLT_PLUMBCTL 0 = true ∧
    ({ mod .run with flt := { plumb := some 5 } } : State).flt.plumb = some 5 ∧ ({ State.reset with regs := [(Reg.RED_HBLOST, 7)] } : State).regsWf = true ∧
    isShadow Reg.RED_HBLOST = false ∧ shadowOf Reg.RED_HBLOST = some 0x180834 ∧ regReset 0x180834 = 0 ∧ isShadow Reg.MGT_VIN = false ∧
    shadowOf Reg.MGT_VIN = none := by decide +kernel

/-- A module whose partner is in a mode and role. -/
def paired (m : Mode) (active : Bool) (pMode pRole : Nat) : State :=
  let s := mod m
  { s with
    cfg := { s.cfg with redn := some { pairid := 1, base := 1, auto := true, addrs := [] } }
    ms := { s.ms with paired := true, active := active }
    red := { s.red with pMode := pMode, pRole := pRole } }

/-- MGT_MODECMD in each mode it acts in, with and without a pending start, unpaired and with a partner. -/
theorem witness_ModeCommandsFollowTable22 :
    [Mode.run, .shadow, .test, .hold, .stop, .handover].all (fun m => writesB (mod m) .mgt Reg.MGT_MODECMD Reg.MGT_MODECMD 0) = true ∧
    (mod .stop).ms.startPend.isSome = false ∧ ({ mod .stop with ms := { (mod .stop).ms with startPend := some true } } : State).ms.startPend.isSome = true ∧
    (mod .stop).isSuspect = false ∧ (regs [(Reg.RED_STAT, 8)] (mod .stop)).isSuspect = true ∧ (mod .stop).ms.paired = false ∧
    (paired .stop true 5 2).red.pMode = 5 ∧ writesB (paired .stop true 7 2) .mgt Reg.MGT_MODECMD Reg.MGT_MODECMD 0 = true := by decide +kernel

/-- A pending start alone and beside an active partner, owners in each state, Hold within and beyond its allowance, and the wait for a partner. -/
theorem witness_StartsHoldsAndOwners :
    ({ mod .stop with ms := { (mod .stop).ms with startPend := some true } } : State).ms.startPend = some true ∧ (mod .stop).hasRedn = false ∧
    (paired .stop false 6 1).hasRedn = true ∧ (paired .stop false 6 1).partnerActive = true ∧ ((mod .run).owner 0).st = .running ∧
    (((mod .run).setOwner 0 { st := .held }).owner 0).st = .held ∧ (((mod .run).setOwner 0 { st := .held }).owner 0).startPend = none ∧
    (((mod .run).setOwner 0 { st := .stopped, startPend := some false }).owner 0).startPend = some false ∧ (mod .hold).ms.mode = .hold ∧
    1 ≤ ({ mod .hold with cfg := { cfgAll with mode := { holdalw := 1 } } } : State).cfg.mode.holdalw ∧ (mod .hold).cfg.mode.holdalw < 1 ∧
    ({ mod .hold with ms := { (mod .hold).ms with heldFrom := some .shadow } } : State).ms.heldFrom = some .shadow ∧ (mod .hold).partnerActive = false ∧
    ({ mod .stop with ms := { (mod .stop).ms with startPend := some true }, red := { startAt := some 5 } } : State).red.startAt = some 5 ∧
    ((mod .run).setOwner 0 { st := .stopped }).startable 0 = true := by decide +kernel

/-- A seated module with its input in range, in Backup and in Lean, before and after a failed check; Configure with and without a plane that fails; both states of the input; Recovery by the strap. -/
theorem witness_SupplyEntersLean :
    State.reset.pw.inputOk = true ∧ State.reset.pw.seated = true ∧ ({ State.reset with ms := { mode := .lean, cause := 1 } } : State).ms.begun = false ∧
    ({ State.reset with ms := { mode := .backup } } : State).ms.mode = .backup ∧
    ({ State.reset with ms := { mode := .lean, leanFailed := true } } : State).ms.leanRetried = false ∧ (mod .configure).ms.mode = .configure ∧
    (((mod .configure).leanStep 1950).slotPlane 0).isNone = true ∧ ({ mod .lean with pw := { inputOk := false } } : State).pw.inputOk = false ∧
    ({ mod .recovery with ms := { mode := .recovery, recov := some .strap } } : State).ms.recov = some .strap := by decide +kernel

/-- A Drain under way under a supply. -/
def draining (p : Power) : State := { mod .drain with pw := p, ms := { mode := .drain } }

/-- Every group of modes, an input out of range, a Drain under way and over with and without supply, a removal alone and with a good standby. -/
theorem witness_SupplyLossDrains :
    ({ mod .run with pw := { outSince := some 5 } } : State).pw.outSince = some 5 ∧ ¬((mod .run).ms.mode = .drain ∧ (mod .run).ms.drainOver = true) ∧
    (mod .drain).ms.drainOver = false ∧ (draining {}).ms.drainOver = false ∧ (mod .run).pw.inputOk = true ∧ (draining {}).pw.inputOk = false ∧
    ({ mod .drain with ms := { (mod .drain).ms with drainOver := true } } : State).ms.drainOver = true ∧ (mod .run).ms.active = false ∧
    (paired .run true 7 2).partnerGood = true ∧ (paired .run true 7 2).red.sw = 0 ∧ ({ mod .run with red := { removal := true } } : State).red.removal = true := by decide +kernel

/-- The update engine in a state, in Stop. -/
def upd (k : Nat) (f : Upd → Upd := id) : State :=
  let s := mod .stop
  { s with mgt := { s.mgt with upd := f { state := k } }, store := { s.store with idle := some cfgAll }, tasks := [] }

/-- Each state of the update engine, a swap at a quiet point, a rollback before it is forced, and both kinds of load. -/
theorem witness_UpdatesSwapConfirmAndRollBack :
    (upd 1).curSlot.bad = 0 ∧ (upd 2).store.idle = some cfgAll ∧ (upd 2).swapMode = true ∧ (upd 2).quiet = true ∧
    (upd 2).mono ≤ (upd 2).mgt.upd.lAt + 10 * secU ∧ (upd 4).mgt.upd.forced = false ∧ (upd 4).quiet = true ∧
    ({ mod .run with store := { load := some {} } } : State).store.load = some {} := by decide +kernel

/-- Tasks waiting for their instants. -/
def tasked (x : Task) : State := { mod .run with tasks := [(0, x)] }

/-- A boundary, an event, a latched release and a hold; a task in each of the cases of Table 7.3. -/
theorem witness_ReleasesAreJudged :
    leastOf ((tasked { nextB := some 5 }).tasks.filterMap (fun p => p.2.nextB)) = some 5 ∧
    leastOf ((tasked { events := [7, 6] }).tasks.flatMap (fun p => p.2.events)) = some 6 ∧
    leastOf ((tasked { pend := some 9 }).tasks.filterMap (fun p => if p.2.pendJudged then none else p.2.pend)) = some 9 ∧
    ({ mod .run with relHold := true } : State).relHold = true ∧ (mod .run).releasable 0 = true ∧ (mod .stop).releasable 0 = false ∧
    ((mod .run).owner 0).draining = false ∧ (mod .run).splForced 0 = false ∧ (mod .run).relHeld = false ∧ ((tasked { st := .ready }).task 0).st ≠ .idle ∧
    ((tasked {}).task 0).st = .idle ∧ (tasked {}).poolTested 0 = false ∧ (tasked {}).img.commits = [] ∧ ((tasked { pend := some 5 }).task 0).pend ≠ none ∧
    ((tasked { everRel := true }).task 0).everRel = true := by decide +kernel

/-- A promised preemption, a release over its budget and one unended, a mutual wait, and each way a wait ends. -/
theorem witness_ReleaseFaultsAndWaits :
    ((two [] {}).eng 0).task = some 0 ∧ ((two [] {}).eng 0).running = true ∧ ((two [] {}).eng 0).stall = .none ∧ ((two [] {}).drain 0).1.isNone = true ∧
    (({ mod .run with cfg := { cfgAll with tasks := [(0, { defined := true, budget := 5 })] } } : State).taskCfg 0).budget = 5 ∧
    ((tasked { st := .running, hs := 6 }).task 0).budFired = false ∧ ((tasked { st := .running }).task 0).dlFired = false ∧
    (tasked (waitsFor { kind := 1, tmo := false, id := 3, deadline := 0 })).mutualWait 0 = true ∧
    ((tasked { waitsFor { kind := 1, tmo := false, id := 3, deadline := 0 } with wstat := some 2 }).task 0).wstat = some 2 ∧
    ((tasked (waitsFor { kind := 2, tmo := false, id := 0, deadline := 9 })).task 0).wait = some { kind := 2, tmo := false, id := 0, deadline := 9 } ∧
    ((tasked (waitsFor { kind := 2, tmo := false, id := 0, deadline := 9 })).task 0).wstat = none := by decide +kernel

/-- A waking bent and an idle one, a self-test asked for and answered, and the management engine's program idle and running. -/
theorem witness_BentsWakeGateAndTest :
    (({ mod .run with bents := [(0, { waking := true })] } : State).bent 0).unusable = false ∧ ((mod .run).bentCfg 0).assigned = true ∧
    ({ mod .run with engines := [] } : State).busyEngines 0 = 0 ∧ ((mod .run).bentCfg 0).keepWarm = false ∧
    writesB (mod .test) .mgt (Reg.ENG_STEST 3) (Reg.ENG_STEST 0) 3 = true ∧ (mod .test).reqOwner .mgt = 0 ∧
    ({ mod .test with engines := [], bents := [(0, { awake := true, testReq := true })] } : State).busyEngines 0 = 0 ∧ ((mod .run).bent 0).awake = true ∧
    ((mod .run).lineOut 0).1.isNone = true ∧ mgm.mgt.engRunning = true ∧ ({ mgm with mgt := { engInstalled := true } } : State).mgt.engRunning = false ∧
    mgm.cfg.mgtp.isSome = true := by decide +kernel

/-- A commit of task 0 that waits, of one row of OUT. -/
def commit0 : Commit := { owner := 0, task := 0, epoch := 5, rows := [(4, (1, 1))], endAt := 0, eng := 0 }

/-- Engine 0 stalled for a pool row. -/
def stalled (b : Bool) : State := (mod .run).setEng 0 { (mod .run).eng 0 with stall := .pool 4 1 1 [] 3 b }

/-- A waiting commit, an unforced row whose value changes and one whose value and stamp do not, a stall with a free pool row, and SYS with two rows. -/
theorem witness_CommitsAndPoolStalls :
    ({ mod .run with img := { commits := [commit0] } } : State).img.commits = [] ++ commit0 :: [] ∧ ((mod .run).img.forces.get (0, 0) 4).2 = 0 ∧
    ((mod .run).rowFlags 0 1 0).1 = false ∧ (mod .run).cfg.trigs.get [] 0 = [] ∧
    mergeRow ((mod .run).rowHist 4).cur.bits 1 1 ≠ ((mod .run).rowHist 4).cur.bits ∧
    mergeRow ((mod .run).rowHist 4).cur.bits 1 0 = ((mod .run).rowHist 4).cur.bits ∧ ((stalled false).eng 0).stall = .pool 4 1 1 [] 3 false ∧
    ((stalled false).eng 0).task = some 0 ∧ (stalled false).poolFull 0 4 = false ∧ 2 ≤ ((mod .run).range 0 3).len := by decide +kernel

/-- RING_CTL of a ring that is disabled, enabling, and open; hardware entries that go in, find the ring full, and find it closed; consumers of NET and CAN. -/
theorem witness_RingsEnableDisableAndCarry :
    writesB (mod .run) .mgt (Reg.RING_CTL 1) (Reg.RING_CTL 0) 1 = true ∧ (mod .run).ringStarted 1 = true ∧ (mod .run).ringEnabled 1 = false ∧
    (regs [(Reg.RING_STAT 1, 1)] (mod .run)).ringEnabled 1 = true ∧ (regs [(Reg.RING_STAT 1, 4)] (mod .run)).ringEnabling 1 = true ∧
    (regs [(Reg.RING_STAT 1, 3)] (mod .run)).ringDraining 1 = true ∧ (mod .run).ringOwner 1 = some 0 ∧ (mod .run).isStandby = false ∧
    (regs [(Reg.RING_STAT 1, 1)] (mod .run)).ringOpen 1 = true ∧ (regs [(Reg.RING_STAT 1, 1), (Reg.RING_PIDX 1, 16)] (mod .run)).ringFull 1 = true ∧
    ((mod .run).hwWrite 0 4096 (List.replicate 64 1)).1 = true ∧ (((mod .run).hwWrite 0 4096 (List.replicate 64 1)).2.ringAdvance 1).forwards = false ∧
    cfgAll.eps.search (fun _ c => c.tx == some 0) = some (0, { v4 := true, lport := 5000, ports := 1, rx := some 1, tx := some 0 }) := by decide +kernel

/-- O0's splice in a state of Table 9.10, with its reference task released. -/
def splice (k : Nat) (f : Splice → Splice := id) : State :=
  { regs [(Reg.SPL_STAT 0, k)] (tasked { everRel := true, relAt := us 1000 }) with spl := [(0, f { pkg := some {} })], now := us 1000 }

/-- A splice loading, armed with a cycle to try, applied, and rolling back. -/
theorem witness_SplicesApplyConfirmAndRollBack :
    (splice 3).splSt 0 = 3 ∧ ((splice 3).splTarget 0).isSome = true ∧ (splice 4).splSt 0 = 4 ∧ (splice 5).splSt 0 = 5 ∧
    ((splice 5).splice 0).forcing = false ∧ ((splice 5).splTarget 0).isSome = true ∧ (splice 1).splSt 0 = 1 ∧ (mod .run).splPaired = false := by decide +kernel

/-- A member that can pair, and what its partner says. -/
def lone : State :=
  let s := regs [(Reg.RED_STAT, 1), (Reg.RED_LINK, 1)] (mod .stop)
  { s with cfg := { s.cfg with redn := some { pairid := 1, base := 1 }, pairDig := 5 } }

def partner : Hello := { serial := 9, pairid := lone.myHello.pairid, base := 2, mode := 5, role := 0, nonce := 0, pub := 0, digest := 5 }

/-- A member that can pair, a HELLO for each check it fails and one that passes, a KEYCONF with the tag and one without, messages in order, and old or bad ones. -/
theorem witness_PairFormsOnItsChecks :
    lone.canPair = true ∧ ({ partner with pairid := 2 } : Hello).pairid ≠ lone.myHello.pairid ∧ ({ partner with base := 1 } : Hello).base = lone.baseClaim ∧
    partner.base ≠ lone.baseClaim ∧ ({ partner with digest := 4 } : Hello).digest ≠ lone.cfg.pairDig ∧ partner.digest = lone.cfg.pairDig ∧
    (lone.setRed { lone.red with hello := some partner }).canPair = true ∧ (lone.setRed { lone.red with hello := some partner }).red.hello = some partner ∧
    lone.ms.active = false ∧ (paired .run true 7 2).ms.paired = true ∧ ph.tag = true ∧ (paired .run true 7 2).red.rxSeq.get 0 (pairGroup ph) ≤ ph.seq ∧
    ((paired .run true 7 2).setRed { (paired .run true 7 2).red with rxSeq := [(pairGroup ph, 1)] }).red.rxSeq.get 0 (pairGroup ph) = 1 := by decide +kernel

/-- The standby of an active partner, SP6 clear or not. -/
def standby (clear : Bool) : State :=
  let s := paired .shadow false 6 1
  { s with fio := { s.fio with seen2 := if clear then [(0, false), (0, false)] else [(8, false), (0, false)] } }

/-- Both members of a pair in each situation of Tables 10.5 and 10.6: a lost partner, a takeover, a switch-over at T and after it, RED_CMD accepted and not, link and input disagreements, LEAVE and ROLE. -/
theorem witness_PairRolesChangeHands :
    (standby true).ms.paired = true ∧ (standby true).red.pRole = 1 ∧ (standby true).mayTakeOver = true ∧ ((standby true).xferFail 7).sp6Clear = true ∧
    ((standby false).xferFail 7).sp6Clear = false ∧ (paired .run true 7 2).red.pRole ≠ 1 ∧
    ({ standby true with red := { (standby true).red with sw := 4 } } : State).red.sw = 4 ∧
    ({ paired .run true 7 2 with red := { (paired .run true 7 2).red with sw := 3 } } : State).ms.active = true ∧
    ({ standby true with red := { (standby true).red with holdSince := some 5 } } : State).partnerActive = true ∧ (standby true).cfg.redn.isSome = true ∧
    ({ paired .run true 7 2 with red := { (paired .run true 7 2).red with sw := 2 } } : State).ms.mode = .run ∧
    ({ standby true with red := { (standby true).red with sw := 2 } } : State).ms.mode = .shadow ∧
    ({ paired .run true 7 2 with fio := { keepUntil := some 7 } } : State).fio.keepUntil = some 7 ∧
    writesB (paired .run true 7 2) .mgt Reg.RED_CMD Reg.RED_CMD 0 = true ∧ (paired .run true 7 2).hasRedn = true ∧
    (paired .run true 7 2).fld Reg.RED_STAT 5 1 = 0 ∧ writesB lone .mgt Reg.RED_CMD Reg.RED_CMD 0 = true ∧ lone.ms.mode = .stop ∧
    (standby true).isStandby = true ∧ ((standby true).cfg.dch.find? 0).isSome = true ∧ (standby true).curField ((standby true).dOwner 0) 0 0 1 = 0 ∧
    bit (standby true).fio.filt 0 = false ∧ bit ({ standby true with fio := { (standby true).fio with filt := 1 } } : State).fio.filt 0 = true ∧
    (standby true).red.rxSeq.get 0 (pairGroup ph) ≤ ph.seq := by decide +kernel

/-- A joiner in a phase of the state transfer. -/
def joiner (p : Nat) (q : Option Nat) : State :=
  let s := regs [(Reg.RED_XFER, p)] (paired .handover false 6 1)
  { s with red := { s.red with joiner := true, xferQ := q } }

def dig0 : Dig := { owner := 0, kind := 0, num := 0, epoch := 0, dig := 0, at_ := 0, mine := true }

/-- A comparing standby in Shadow and in Handover, digests that wait, an active at its cut, and a joiner in each phase. -/
theorem witness_PairMessagesCarryState :
    (standby true).comparing = true ∧ (standby true).isStandby = true ∧ (standby true).ms.mode = .shadow ∧ (joiner 1 none).isStandby = true ∧
    (joiner 1 none).ms.mode = .handover ∧ (standby true).canOwner 0 = some 0 ∧ (standby true).splSt 0 < 2 ∧
    (({ standby true with spl := [(0, { buf := [1, 2] })] } : State).splice 0).buf.length = 2 ∧ (standby true).rowPlace 0 = some (0, 0) ∧
    ({ standby true with red := { (standby true).red with digs := [dig0] } } : State).red.digs.filter (·.mine) = dig0 :: [] ∧
    ({ regs [(Reg.RED_STAT, 16)] (paired .run true 7 2) with tasks := [] } : State).cutWindow = true ∧
    ({ regs [(Reg.RED_STAT, 16)] (paired .run true 7 2) with tasks := [] } : State).fld Reg.RED_STAT 4 1 = 1 ∧ (joiner 4 (some 9)).red.xferQ = some 9 ∧
    (joiner 4 (some 9)).red.joiner = true ∧ (joiner 4 (some 9)).ms.resetDue = false ∧ (joiner 1 none).fld Reg.RED_XFER 0 3 = 1 ∧
    (joiner 2 none).fld Reg.RED_XFER 0 3 = 2 ∧ (joiner 3 none).fld Reg.RED_XFER 0 3 = 3 := by decide +kernel

/-- Pages in transit. -/
def moving (inward : Bool) : State := let s := mod .run; { s with mmu := { s.mmu with transit := [(0, 0, inward)] } }

/-- A module after a store that its line's write has put in a frame, its page on the way out. -/
def mapped : State :=
  let s := ((mod .run).hwWrite 0 0 (List.replicate 16 1)).2
  { s with mmu := { s.mmu with transit := [(0, 0, false)] } }

/-- Pages in transit both ways, an erasure that begins and one that ends, waiting writes, a rebuild, a window and ARCHIVE on and off, and a prepared frame. -/
theorem witness_PagingErasureAndStorage :
    (0, 0, true) ∈ (moving true).mmu.transit ∧ (0, 0, false) ∈ mapped.mmu.transit ∧ (walk mapped.mmu 0 0 matches .page _ _) = true ∧
    writesB ((mod .stop).setOwner 0 { st := .stopped }) .mgt (Reg.MMU_OCMD 0) (Reg.MMU_OCMD 0) 0 = true ∧
    (((mod .stop).setOwner 0 { st := .stopped }).owner 0).st = .stopped ∧ (mod .stop).ownerDef 0 = true ∧
    (({ mod .stop with mmu := { keys := [(0, { erasing := true })] } } : State).mmu.keys.get {} 0).erasing = true ∧
    ({ mod .run with sto := { staging := [⟨1, 4, .note 0⟩] } } : State).sto.staging = [] ++ (⟨1, 4, .note 0⟩ : Staged) :: [] ∧
    ({ mod .run with sto := { wins := [⟨0, 0, 9⟩] } } : State).sto.wins = [⟨0, 0, 9⟩] ∧ ({ mod .run with sto := { wins := [⟨0, 0, 9⟩] } } : State).ns ≤ 9 ∧
    writesB (mod .run) .mgt Reg.STO_ACTL Reg.STO_ACTL 0 = true ∧ (mod .run).fld Reg.STO_ACTL 0 1 = 0 ∧
    (regs [(Reg.STO_ACTL, 1)] (mod .run)).fld Reg.STO_ACTL 0 1 = 1 ∧ (mod .run).prepareOne.mmu.prep ≠ [] := by decide +kernel

/-- Frames that pass, of the shortest and the longest length and beyond, with a VID the port takes and one it does not; a subscription and a publication in time, a stream, and one window. -/
theorem witness_FramesReachTheirSubscribers :
    (mod .run).netUp = true ∧ (mod .run).portEnabled 0 = true ∧ (mod .run).portLink 0 = true ∧ (mod .run).frameVid nh ≠ none ∧
    (mod .run).frameVid { nh with outer := true } = none ∧ (mod .run).portRed 0 = 0 ∧ ((mod .run).netRx { nh with len := 1528 }).1 = true ∧
    ((mod .run).netRx { nh with len := 1529 }).1 = false ∧ ((mod .run).netRx { nh with len := 63 }).1 = false ∧
    ({ mod .run with net := { gs := [(0, { tal := some 5 })] } } : State).gsSub 0 = { tal := some 5 } ∧ (mod .run).fld (Reg.NET_GSSTAT 0) 1 1 = 1 ∧
    (cfgAll.subs.find? 0).isSome = true ∧ (cfgAll.pubs.find? 0).isSome = true ∧ (mod .run).pubForm 0 = 0 ∧
    (regs [(Reg.NET_GPST 0, 1)] (mod .run)).rd (Reg.NET_GPST 0) ≠ 0 ∧
    (({ mod .run with net := { sv := [(0, { seen := true })] } } : State).strm 0).seen = true ∧
    (regs [(Reg.NET_SVSTAT 0, 3)] (mod .run)).fld (Reg.NET_SVSTAT 0) 1 1 = 1 ∧ (standby true).isStandby = true ∧
    ({ mod .run with net := { dup := [(0, ⟨1, 1, 0⟩)] } } : State).net.dup = [(0, ⟨1, 1, 0⟩)] := by decide +kernel

/-- A module with a neighbour, resolved or not. -/
def neighboured (r : Bool) : State := { mod .run with net := { nbrs := [⟨96, false, 7, r, 1, 0, some (0, 0, [1])⟩] } }

def dgram : Udp := { ud with laddr := 0x0A000001, lport := 5000 }

/-- A port where IP runs, its address and another, neighbours resolved and not, address detection, a datagram for the endpoint with its ring open and closed, a full send ring and an empty one, ports enabled and disabled, with and without link. -/
theorem witness_NetworkStackAnswers :
    (mod .run).ipPort 96 = true ∧ 0x0A000001 ∈ ((mod .run).ipRx 96 64).portAddrs 96 false ∧ 7 ∉ ((mod .run).ipRx 96 64).portAddrs 96 false ∧
    (mod .run).net.dad.find? 96 = none ∧ (96, 0x0A000001) ∉ (mod .run).net.conflicts ∧ (((neighboured false).ipRx 96 64).nbr 96 false 7).isSome = true ∧
    ((neighboured false).nbr 96 false 7).isSome = true ∧
    ((neighboured true).net.nbrs.filter (fun x => x.port == 96 && x.resolved && !x.v6)).getLast?.isSome = true ∧
    ({ mod .run with net := { dad := [(96, 5)] } } : State).net.dad.find? 96 = some 5 ∧ (((mod .run).ipRx 96 46).udpEp 96 dgram).isSome = true ∧
    (((mod .run).ipRx 96 46).udpEp 96 dgram).map (·.2.2.rx) = some (some 1) ∧ ((mod .run).ipRx 96 46).ringOpen 1 = false ∧
    ((regs [(Reg.RING_STAT 1, 1)] (mod .run)).ipRx 96 46).ringOpen 1 = true ∧ ((regs [(Reg.RING_STAT 1, 1)] (mod .run)).ipRx 96 46).ringFull 1 = false ∧
    (((regs [(Reg.RING_STAT 1, 1)] (mod .run)).ipRx 96 46).hwWriteBytes 0 0 []).1 = true ∧
    (((regs [(Reg.RING_STAT 1, 1)] (mod .run)).ipRx 96 46).hwEnq 1 (udpEntry 0 0 0 96 0 0 0 false)).1 = true ∧
    cfgAll.eps.find? (0 * 16 + 0) = some { v4 := true, lport := 5000, ports := 1, rx := some 1, tx := some 0 } ∧ ((mod .run).hwTake 0).1.isNone = true ∧
    ((ringed 1 []).hwTake 0).1.isSome = true ∧ writesB (mod .run) .mgt (Reg.NET_PCTL 0) (Reg.NET_PCTL 0) 0 = true ∧ (mod .run).portEnabled 0 = true ∧
    (mod .run).portEnabled 1 = false ∧ ((mod .run).portRec 1).mode ≠ 0 ∧ (regs [(Reg.NET_PSTAT 1, 4)] (mod .run)).portLink 1 = false ∧
    (regs [(Reg.NET_PSTAT 1, 4)] (mod .run)).portEnabled 1 = true := by decide +kernel

/-- A module with session 1 as given. -/
def withSess (x : LorSess) : State := { mod .run with lor := [(1, x)] }

/-- A module whose current scantling authorises a key serial for O0. -/
def authorised : State := let s := mod .run; { s with store := { s.store with slots := [(0, { scn := { auth := [(0, 77)] } })] } }

/-- OPEN in each of its cases, session 1 half open, open and with a held request, and requests in order, repeated and out of the window. -/
theorem witness_LoratSessionsServeInOrder :
    (mod .run).lorServed = true ∧ lorPort 96 = true ∧ lorPort 123 = true ∧ (authorised.advance 0).ownerDef 0 = true ∧
    (authorised.advance 0).ownerDef 7 = false ∧ (authorised.advance 0).curSlot.scn.auth.find? 0 = some 77 ∧ (authorised.advance 0).freeSession = some 1 ∧
    ({ authorised with lor := (List.range 64).map (fun k => (k + 1, { isOpen := true, owner := 1 })) } : State).freeSession = none ∧
    ({ authorised with lor := (List.range 63).map (fun k => (k + 1, { isOpen := true, owner := 1 })) } : State).freeSession = some 64 ∧
    ((withSess { half := true }).sess 1).half = true ∧ ((withSess { isOpen := true }).sess 1).isOpen = true ∧
    ((withSess { isOpen := true, held := [⟨3, 0, 0, 0, .status⟩] }).sess 1).held = [⟨3, 0, 0, 0, .status⟩] ∧
    ((withSess { isOpen := true }).sess 1).half = false ∧ ((withSess { isOpen := true }).sess 1).waiting = none ∧
    lh.seq = ((withSess { isOpen := true }).sess 1).h + 1 ∧ (withSess { isOpen := true }).sessLive 1 = true ∧
    ((withSess { isOpen := true, h := 5, stored := [(5, ⟨1, 0, 0, []⟩)] }).sess 1).stored.find? 5 = some ⟨1, 0, 0, []⟩ := by decide +kernel

/-- Each command in a state that allows it, and the refusals. -/
theorem witness_LoratCommandsAct :
    (mod .run).lorDenied 1 (.plumb 0) = true ∧ (mod .run).lorDenied 0 .scnCommit = false ∧ (mod .run).blockPerm 0 2 = true ∧
    0 + 4 ≤ ((mod .run).range 0 0).len ∧ (mod .run).img.badWords = [] ∧ (mod .test).ms.mode = .test ∧ (mod .run).sessLive 1 = false ∧
    ((withSess { isOpen := true }).busRead (.session 1) Reg.MGT_VIN).1 = .ok 0 ∧ ((withSess { isOpen := true }).busWrite (.session 1) 2 0).1 = .refused 2 ∧
    ((withSess { isOpen := true }).busWrite (.session 1) Reg.TIM_UTCOFF 5).1 = .ok 0 ∧ ((mod .run).lorNvsCheck 0 0 0 4 0 false).1.isNone = true ∧
    ((mod .run).lorNvsCheck 0 0 0 4 0 true).1.isNone = true ∧ (mod .run).alm.frozenBy = none ∧
    ({ mod .run with alm := { frozenBy := some 1 } } : State).alm.frozenBy = some 1 ∧ (mod .run).arcOwner 5 = none ∧
    (regs [(Reg.STO_ACTL, 1)] (mod .run)).fld Reg.STO_ACTL 0 1 = 1 ∧ (mod .run).ownerDef 0 = true ∧ modeKindOk 6 1 = true ∧ (mod .stop).modeSetOk 6 = true ∧
    ((mod .run).owner 0).st = .running ∧ ((mod .run).setOwner 0 { st := .stopped }).startable 0 = true := by decide +kernel

/-- A module whose port 0 has heard an Announce, and that is its slave (9), its master (6) or passive. -/
def ptpIn (st : Nat) : State := { regs [(Reg.TIM_PPSTAT 0, st)] (mod .run) with tim := { anns := [(0, { gm := 5, src := 5 })], syncs := [(7, 1)] } }

/-- A time source that is valid and not yet qualified, with an offset. -/
def sourced (x : Int) : State := (mod .run).setSrc 1 { since := some 0, qual := false, meas := x }

/-- A port of the module's domain as slave, master and neither, its Sync held, holdover at its first threshold, a source within and beyond 60 s, a step due, compare units armed and not, the calendar under AUTO, each leap second, and slews of either sign. -/
theorem witness_StationTimeIsKept :
    (mod .run).ptpPort 0 = true ∧ 1 ≠ (mod .run).cfg.port.domain ∧ 0 = (mod .run).cfg.port.domain ∧
    (((ptpIn 9).bump (Reg.TIM_PPRX 0) 1).advance 0).fld (Reg.TIM_PPSTAT 0) 0 4 = 9 ∧
    (((ptpIn 9).bump (Reg.TIM_PPRX 0) 1).advance 0).tim.anns.find? 0 = some { gm := 5, src := 5 } ∧
    (((ptpIn 9).bump (Reg.TIM_PPRX 0) 1).advance 0).tim.syncs.find? (0 * 65536 + 7) = some 1 ∧ (ptpIn 6).fld (Reg.TIM_PPSTAT 0) 0 4 = 6 ∧
    (mod .run).isStandby = false ∧ (standby true).isStandby = true ∧ (regs [(Reg.TIM_STAT, 128)] (mod .run)).timHold = true ∧
    ([60, 600, 3600, 21600, 86400] : List Nat).find? (fun h => decide ((regs [(Reg.TIM_STAT, 128)] (mod .run)).holds < h)) = some 60 ∧
    ((sourced (60 * secU)).src 1).since = some 0 ∧ ((sourced (60 * secU)).src 1).meas.natAbs ≤ 60 * secU ∧
    60 * secU < ((sourced (60 * secU + 1)).src 1).meas.natAbs ∧ (sourced 0).qStep ≤ 5 ∧ 6 ≤ (regs [(Reg.TIM_STAT, 96)] (mod .run)).qStep ∧
    ({ mod .run with tim := { stepDue := some (5, -7) } } : State).tim.stepDue = some (5, -7) ∧ (mod .run).tim.stepDue = none ∧
    ((mod .run).advance 0).tim.edges.find? 1 = none ∧ (({ mod .run with tim := { edges := [(0, 0)] } } : State).advance secU).tim.edges.find? 0 = some 0 ∧
    secU ≤ (({ mod .run with tim := { edges := [(0, 0)] } } : State).advance secU).now - 0 + us 100 ∧ (mod .run).tim.irigBad ≤ (mod .run).mono ∧
    (mod .run).fld Reg.TIM_UTCOFF 16 1 = 0 ∧ (mod .run).cuArmed 63 = false ∧ ((mod .run).setArm 63 true).cuArmed 63 = true ∧
    writesB (mod .run) .mgt (Reg.TIM_CUCTL 63) (Reg.TIM_CUCTL 0) 63 = true ∧ (mod .run).tim.outOn = false ∧
    ({ mod .stop with tim := { outOn := true, outOff := (msec 1 : Nat) + 1 } } : State).tim.outOn = true ∧
    msec 1 < ({ mod .stop with tim := { outOn := true, outOff := (msec 1 : Nat) + 1 } } : State).tim.outOff.natAbs ∧
    (regs [(Reg.TIM_CFG, 2 ^ 31)] (mod .stop)).fld Reg.TIM_CFG 31 1 = 1 ∧ (regs [(Reg.TIM_CALCTL, 2)] (mod .run)).calAuto = true ∧ (mod .run).qStep ≤ 4 ∧
    writesB (mod .run) .mgt Reg.TIM_CALCTL Reg.TIM_CALCTL 0 = true ∧ (regs [(Reg.TIM_UTCOFF, 2 ^ 18)] (mod .run)).fld Reg.TIM_UTCOFF 18 2 = 1 ∧
    (regs [(Reg.TIM_UTCOFF, 2 ^ 19)] (mod .run)).fld Reg.TIM_UTCOFF 18 2 = 2 ∧ (mod .run).fld Reg.TIM_UTCOFF 18 2 = 0 ∧ (mod .run).mono ≤ 1 ∧
    (mod .run).tim.slew = none ∧ ({ mod .run with tim := { slew := some (0, 5) } } : State).tim.slew = some (0, 5) ∧
    ({ mod .run with tim := { slew := some (0, -5) } } : State).tim.slew = some (0, -5) := by decide +kernel

/-- A module whose CAN controller 0 is enabled, with its object's configuration and what is on its bus. -/
def caned (obj : Nat) (bus : Option Nat) (f : CanCtl → CanCtl := id) : State :=
  let s := regs [(Reg.CAN_STAT 0, 2), (Reg.OBJCFG 0 0, obj)] (mod .run)
  { s with cfg := { s.cfg with canobj := [(0, { cfg := obj, id := 0, mask := 0, map := 0 })] }, can := { ctl := [(0, f { bus := bus })], tx := [(0, { cur := some (1, [7]) })] } }

/-- Frames that no object takes and that one takes, with and without its options; a frame on the bus; an error past 255; a rejoin by AUTOREC and by RECOVER; objects that send; each write of CAN_CTL. -/
theorem witness_CanSendsReceivesAndRecovers :
    ((caned 1 none).canOwner 0).isSome = true ∧ (caned 1 none).canEnabled 0 = true ∧ ((caned 1 none).canCtl 0).bus = none ∧ (mod .run).canEnabled 0 = false ∧
    (mod .run).canOwner 31 = none ∧
    ((((caned 1 none).canRecOk 0).canErrState 0).canObjs 0).find? (fun j => (((caned 1 none).canRecOk 0).canErrState 0).canMatch 0 j cf) = some 0 ∧
    ((((caned 1 none).canRecOk 0).canErrState 0).canObjs 0).find? (fun j => (((caned 1 none).canRecOk 0).canErrState 0).canMatch 0 j { cf with ide := true }) = none ∧
    ((((caned 0xE1 none).canRecOk 0).canErrState 0).canObjs 0).find? (fun j => (((caned 0xE1 none).canRecOk 0).canErrState 0).canMatch 0 j cf) = some 0 ∧
    ((caned 3 (some 0)).canCtl 0).bus = some 0 ∧ (caned 3 (some 0)).fld (Reg.CAN_CFG 0) 3 1 = 0 ∧ ((caned 3 (some 0)).canTx 0 0).cur = some (1, [7]) ∧
    (caned 3 none).fld (Reg.CAN_STAT 0) 4 2 ≠ 2 ∧ 255 < ((caned 3 none (fun c => { c with tec := 256 })).canCtl 0).tec ∧ (mod .run).canOff 0 = false ∧
    (regs [(Reg.CAN_STAT 0, 0x22), (Reg.CAN_CFG 0, 2)] (mod .run)).canOff 0 = true ∧
    (regs [(Reg.CAN_STAT 0, 0x22), (Reg.CAN_CFG 0, 2)] (mod .run)).fld (Reg.CAN_CFG 0) 1 1 = 1 ∧
    ((caned 3 none (fun c => { c with recovering := true })).canCtl 0).recovering = true ∧
    writesB (mod .run) .mgt (Reg.OBJTXREQ 0 0) (Reg.OBJTXREQ 0 0) 0 = true ∧ bit ((caned 3 none).objCfg 0 0) 1 = true ∧
    bits ((caned 3 none).objCfg 0 0) 10 2 = 0 ∧ bits ((caned 0x803 none).objCfg 0 0) 10 2 = 2 ∧
    writesB (mod .run) .mgt (Reg.CAN_CTL 0) (Reg.CAN_CTL 0) 0 = true ∧ (mod .run).canCtlNow 0 = 0 ∧ (regs [(Reg.CAN_CTL 0, 3)] (mod .run)).canCtlNow 0 = 3 := by decide +kernel

/-- A module whose field side runs: group 0 supplied, the sill refreshed. -/
def fieldOn (f : Fio → Fio := id) (m : Mode := .run) : State :=
  { mod m with fio := f { inRange := 1, reporting := 1, sillSeen := true, upSeen := true, driven := true } }

/-- Loop 0 timed, with its state in LOP_STAT. -/
def looped (st : Nat) (m : Mode := .run) : State := { regs [(Reg.LOP_STAT 0, st * 256), (Reg.LOP_PERIOD 0, 1000)] (mod m) with loops := [(0, { next := some 0 })] }

/-- The barrier on and off, an input in a supplied group with room in the queue and without, a sill refreshed and lost, a group in range and out, outputs driven and not, an output in retry, a current output with and without compliance, calibration by O0 and by others, and a loop in each state. -/
theorem witness_FieldIoAndLoopsAct :
    (mod .lean).fioOn = false ∧ fieldOn.fioOn = true ∧ (mod .run).fio.inRange = 0 ∧ fieldOn.fio.inRange ≠ 0 ∧ (mod .run).cfg.dch.find? 63 = none ∧
    fieldOn.cfg.dch.find? 0 = some {} ∧ fieldOn.groupOk (dGroup 0) = true ∧ (mod .run).groupOk 3 = false ∧ bit fieldOn.fio.filt 0 ≠ true ∧
    fieldOn.fio.queue.length < 64 ∧ 64 ≤ (fieldOn (fun f => { f with queue := List.replicate 64 ⟨0, true, 0, false, false⟩ })).fio.queue.length ∧
    (mod .run).fio.sillSeen = false ∧ 3 ≤ (fieldOn (fun f => { f with downMiss := 3 })).fio.downMiss ∧ fieldOn.fio.sillLost = false ∧
    3 ≤ (fieldOn (fun f => { f with upMiss := 3 })).fio.upMiss ∧ bit fieldOn.fio.reporting 3 = false ∧ cfgAll.dch.find? 1 = some { out := true } ∧
    (regs [(Reg.FIO_DSTAT 1, 4)] (mod .run)).fld (Reg.FIO_DSTAT 1) 2 1 = 1 ∧ (mod .run).fld (Reg.FIO_DSTAT 1) 2 1 = 0 ∧
    (fieldOn (fun f => { f with limitAt := [(1, 5)] })).fio.limitAt.find? 1 = some 5 ∧ 2000 ≤ (regs [(Reg.FIO_ASET 0, 2000)] fieldOn).rd (Reg.FIO_ASET 0) ∧
    (regs [(Reg.FIO_ASET 0, 2000)] fieldOn).fio.driven = true ∧ (fieldOn.cfg.ach.find? 0).isSome = true ∧ bit fieldOn.fio.compl 0 = false ∧
    bit (fieldOn (fun f => { f with compl := 1 })).fio.compl 0 = true ∧ fieldOn.groupOk (aGroup 0) = true ∧
    writesB (mod .stop) .mgt (Reg.FIO_DTHR 3) (Reg.FIO_DTHR 0) 3 = true ∧ writesB (mod .stop) .mgt (Reg.FIO_ATRIMG 0) (Reg.FIO_ATRIMG 0) 0 = true ∧
    writesB (mod .stop) .mgt (Reg.FIO_ATRIMO 0) (Reg.FIO_ATRIMO 0) 0 = true ∧ 3000 < (signed 16 3001).natAbs ∧ (mod .run).loopsTimed = [] ∧
    (looped 1).loopsTimed = [(0, 0)] ∧ (looped 1 .stop).loopRuns 0 = false ∧ (looped 1).loopRuns 0 = true ∧ (looped 1).fld (Reg.LOP_STAT 0) 8 2 = 1 ∧
    (looped 0).fld (Reg.LOP_STAT 0) 8 2 = 0 ∧ 2 ≤ (looped 3).fld (Reg.LOP_STAT 0) 8 2 ∧ ((looped 1).loopOut 0).loopRuns 0 = true ∧
    ((looped 3).loopOut 0).fld (Reg.LOP_STAT 0) 8 2 = 3 ∧ ((looped 1).loop 0).weak = false ∧ ((looped 1).loop 0).pend = none ∧
    f32.isNan ((((regs [(Reg.LOP_PVADDR 0, 2 ^ 31)] (looped 1)).sourceWrite 0 [(0, 0x7FC00000, BitVec.allOnes 256)] 0 0).loopWord 0 (Reg.LOP_PVADDR 0) 5).getD 0) = true ∧
    writesB (mod .run) .mgt (Reg.LOP_CTL 0) (Reg.LOP_CTL 0) 0 = true ∧ (looped 1).loopDef 0 = true ∧
    ((looped 1).setBit (Reg.LOP_CTL 0) 0 false).fld (Reg.LOP_STAT 0) 8 1 = 1 := by decide +kernel

/-- Port 0 of NVS with region 0 selected in a direction, unlocked or not, at offset 0. -/
def ported (dir : Bool) (un : Bool) : State :=
  { regs [(Reg.NVS_PSEL 0, if dir then 256 else 0), (Reg.NVS_PSTAT 0, if un then 1 else 0)] (mod .run) with nvs := { pwRd := [(0, 9)], pwWr := [(0, 9)] } }

/-- A port of NVS in each state, a waiting record, the counts of ALM, a sample, temperatures on both sides of a warning, the log and the factory command. -/
theorem witness_NvsAlmanacAndManagementAct :
    writesB (mod .run) .mgt (Reg.NVS_PSEL 0) (Reg.NVS_PSEL 0) 0 = true ∧ writesB (mod .run) .mgt (Reg.NVS_PSEL 7) (Reg.NVS_PSEL 0) 7 = true ∧
    reaches (mod .run) .mgt (Reg.NVS_PPWD 0) true (fun h => h.desc.base == Reg.NVS_PPWD 0 && !h.shadow && h.desc.pair == .lo && (h.desc.rw ||| h.desc.wo) == 0xFFFFFFFF && (mod .run).itemDefined (Reg.NVS_PPWD 0) h) = true ∧
    reaches (mod .run) .mgt (Reg.NVS_PPWD_H 0) true (fun h => h.desc.base == Reg.NVS_PPWD_H 0 && !h.shadow && h.i == 0 && h.desc.pair == .hi && (h.desc.rw ||| h.desc.wo) == 0xFFFFFFFF && (mod .run).itemDefined (Reg.NVS_PPWD_H 0) h) = true ∧
    blockOf (Reg.NVS_PPWD 0) ≠ 0 ∧ (ported false true).portReach 0 0 = true ∧ (ported false true).portUnlocked 0 = true ∧
    (ported false false).portUnlocked 0 = false ∧ (ported false false).nvs.locked.contains 0 = false ∧
    (ported false false).pwOpens 0 ((ported false false).portDir 0) 9 = true ∧ (ported false false).pwOpens 0 ((ported false false).portDir 0) 8 = false ∧
    reaches (mod .run) .mgt (Reg.NVS_PDATA 0) false (fun h => h.desc.base == Reg.NVS_PDATA 0 && h.i == 0 && h.desc.scope == .own) = true ∧
    (ported false true).portOk 0 false = true ∧ (ported false false).portOk 0 false = false ∧ (ported true true).portOk 0 true = true ∧
    (ported false true).portOk 0 true = false ∧ writesB (ported true true) .mgt (Reg.NVS_PDATA 0) (Reg.NVS_PDATA 0) 0 = true ∧
    writesB (ported true true) .mgt (Reg.NVS_PCMD 0) (Reg.NVS_PCMD 0) 0 = true ∧ (ported true true).portCmdOk 0 = true ∧
    (ported true false).portCmdOk 0 = false ∧
    (nvsWords ((ported false true).nvsAddrs 0 0 4)).all (fun w => !(ported false true).nvs.badWords.contains w) = true ∧
    ({ mod .run with alm := { fifo := [⟨0, 0, 0, 0, 0, 0, 0, 0, false⟩], writing := true } } : State).alm.fifo.length = 1 ∧ (mod .run).almHeld < 16777216 ∧
    (mod .run).alm.writing = false ∧ (mod .run).ms.mode ≠ .backup ∧ (tempLimits 16).1 < (tempLimits 16).2.1 ∧
    (tempLimits 16).2.1 - (tempLimits 16).2.2 < (tempLimits 16).2.1 ∧ 16 ∉ (mod .run).mgt.warn ∧ (mod .run).ms.begun = true ∧ State.reset.ms.begun = false ∧
    writesB (mod .run) .mgt Reg.MGT_LOGSEL Reg.MGT_LOGSEL 0 = true ∧
    (({ mod .run with sto := { ack := { mlog := [(5, ⟨0, 5, 0, 0, 0⟩)] } } } : State).sto.ack.mlog.find? (5 % 4096)).map (·.num) = some 5 ∧
    writesB (mod .stop) .mgt Reg.MGT_FACTCMD Reg.MGT_FACTCMD 0 = true ∧ (mod .stop).fld Reg.MGT_FACTSTAT 0 1 = 0 ∧
    (regs [(Reg.MGT_FACTSTAT, 1)] (mod .stop)).fld Reg.MGT_FACTSTAT 0 1 = 1 ∧ (mod .stop).cfg.mode.factreg = 255 ∧ ((mod .stop).region 0).defined = true ∧
    ((mod .stop).region 0).owner = 0 ∧ (mod .stop).pwOpens 0 true ((mod .stop).rd64 Reg.MGT_FACTPWD) = true ∧
    ({ mod .stop with nvs := { pwWr := [(0, 9)] } } : State).pwOpens 0 true ((mod .stop).rd64 Reg.MGT_FACTPWD) = false := by decide +kernel

/-- The forms hold at reset and in a module that runs. -/
theorem witness_StepsKeepRegistersAndQueueInForm :
    State.reset.regsWf = true ∧ (mod .run).regsWf = true ∧ ({ mod .run with pending := [.cyclicRelease] } : State).queueWf = true := by decide +kernel


/-- The state after a command. -/
def after (c : Instr) (s : State) : Option State :=
  match exec c s with
  | .next t => some t
  | _ => none

/-- Engine 0's operand stack after a command, as numbers. -/
def top (c : Instr) (s : State) : Option (List Nat) := (after c s).map fun t => (t.stk 0).map (·.toNat)

/-- A test of the state after a command. -/
def then_ (c : Instr) (s : State) (p : State → Bool) : Bool :=
  match after c s with
  | some t => p t
  | none => false

/-! ### Guaris instructions: results by hand from Tables 5.4 to 5.14 and R107 -/

theorem test_nop : top (.nop q0) (gu [1, 2]) = some [1, 2] := by decide +kernel
theorem test_dup : top (.dup q0) (gu [7]) = some [7, 7] := by decide +kernel
theorem test_drop : top (.drop q0) (gu [1, 2]) = some [2] := by decide +kernel
theorem test_swap : top (.swap q0) (gu [1, 2]) = some [2, 1] := by decide +kernel
theorem test_over : top (.over q0) (gu [1, 2]) = some [2, 1, 2] := by decide +kernel
theorem test_rot : top (.rot q0) (gu [1, 2, 3]) = some [3, 1, 2] := by decide +kernel
theorem test_nip : top (.nip q0) (gu [1, 2]) = some [1] := by decide +kernel
theorem test_pick : top (.pick q0) (gu [1, 5, 6]) = some [6, 5, 6] := by decide +kernel
theorem test_and : top (.and_ q0) (gu [57896044618658097711785492504343953926634992332820282019728792003956564819980, 57896044618658097711785492504343953926634992332820282019728792003956564819978]) = some [57896044618658097711785492504343953926634992332820282019728792003956564819976] := by decide +kernel
theorem test_or : top (.or_ q0) (gu [12, 10]) = some [14] := by decide +kernel
theorem test_xor : top (.xor q0) (gu [12, 10]) = some [6] := by decide +kernel
theorem test_not : top (.not_ q0) (gu [0]) = some [115792089237316195423570985008687907853269984665640564039457584007913129639935] := by decide +kernel
theorem test_andn : top (.andn q0) (gu [12, 10]) = some [2] := by decide +kernel
theorem test_orn : top (.orn q0) (gu [0, 115792089237316195423570985008687907853269984665640564039457584007913129639934]) = some [115792089237316195423570985008687907853269984665640564039457584007913129639935] := by decide +kernel
theorem test_mux : top (.mux q0) (gu [3, 5, 8]) = some [9] := by decide +kernel
theorem test_lshu : top (.lshu q0) (gu [255, 1]) = some [57896044618658097711785492504343953926634992332820282019728792003956564819968] := by decide +kernel
theorem test_lshd : top (.lshd q0) (gu [1, 57896044618658097711785492504343953926634992332820282019728792003956564819968]) = some [28948022309329048855892746252171976963317496166410141009864396001978282409984] := by decide +kernel
theorem test_lrot : top (.lrot q0) (gu [1, 57896044618658097711785492504343953926634992332820282019728792003956564819969]) = some [3] := by decide +kernel
theorem test_bcast : top (.bcast q0) (gu [1, 2]) = some [115792089237316195423570985008687907853269984665640564039457584007913129639935] := by decide +kernel
theorem test_any : top (.any q0) (gu [57896044618658097711785492504343953926634992332820282019728792003956564819968]) = some [1] := by decide +kernel
theorem test_all : top (.all q0) (gu [115792089237316195423570985008687907853269984665640564039457584007913129639935]) = some [1] := by decide +kernel
theorem test_popc : top (.popc q0) (gu [57896044618658097711785492504343953926634992332820282019728792003956564819973]) = some [3] := by decide +kernel
theorem test_lmask : top (.lmask q0) (gu [3]) = some [7] := by decide +kernel
theorem test_add : top (.add q0) (gu [1, 18446744073709551615]) = some [0] := by decide +kernel
theorem test_sub : top (.sub q0) (gu [1, 0]) = some [18446744073709551615] := by decide +kernel
theorem test_neg : top (.neg q0) (gu [5]) = some [18446744073709551611] := by decide +kernel
theorem test_inc : top (.inc q0) (gu [18446744073709551615]) = some [0] := by decide +kernel
theorem test_dec : top (.dec q0) (gu [0]) = some [18446744073709551615] := by decide +kernel
theorem test_mul : top (.mul q0) (gu [18446744073709551615, 3]) = some [18446744073709551613] := by decide +kernel
theorem test_mulh : top (.mulh q0) (gu [18446744073709551615, 3]) = some [18446744073709551615] := by decide +kernel
theorem test_mulhu : top (.mulhu q0) (gu [18446744073709551615, 3]) = some [2] := by decide +kernel
theorem test_div : top (.div q0) (gu [2, 18446744073709551609]) = some [18446744073709551613] := by decide +kernel
theorem test_divu : top (.divu q0) (gu [2, 18446744073709551609]) = some [9223372036854775804] := by decide +kernel
theorem test_rem : top (.rem q0) (gu [2, 18446744073709551609]) = some [18446744073709551615] := by decide +kernel
theorem test_remu : top (.remu q0) (gu [10, 18446744073709551609]) = some [9] := by decide +kernel
theorem test_shl : top (.shl q0) (gu [65, 1]) = some [2] := by decide +kernel
theorem test_shr : top (.shr q0) (gu [1, 18446744073709551614]) = some [9223372036854775807] := by decide +kernel
theorem test_sar : top (.sar q0) (gu [1, 18446744073709551614]) = some [18446744073709551615] := by decide +kernel
theorem test_min : top (.min q0) (gu [18446744073709551615, 1]) = some [18446744073709551615] := by decide +kernel
theorem test_max : top (.max q0) (gu [18446744073709551615, 1]) = some [1] := by decide +kernel
theorem test_minu : top (.minu q0) (gu [18446744073709551615, 1]) = some [1] := by decide +kernel
theorem test_maxu : top (.maxu q0) (gu [18446744073709551615, 1]) = some [18446744073709551615] := by decide +kernel
theorem test_abs : top (.abs q0) (gu [9223372036854775808]) = some [9223372036854775808] := by decide +kernel
theorem test_addsat : top (.addsat q0) (gu [1, 9223372036854775807]) = some [9223372036854775807] := by decide +kernel
theorem test_subsat : top (.subsat q0) (gu [1, 9223372036854775808]) = some [9223372036854775808] := by decide +kernel
theorem test_fadd : top (.fadd q0 false) (gu [1065353216, 1073741824]) = some [1077936128] := by decide +kernel
theorem test_fsub : top (.fsub q0 true) (gu [4607182418800017408, 4611686018427387904]) = some [4607182418800017408] := by decide +kernel
theorem test_fmul : top (.fmul q0 false) (gu [1073741824, 1077936128]) = some [1086324736] := by decide +kernel
theorem test_fdiv : top (.fdiv q0 false) (gu [0, 1065353216]) = some [2139095040] := by decide +kernel
theorem test_fsqrt : top (.fsqrt q0 true) (gu [4616189618054758400]) = some [4611686018427387904] := by decide +kernel
theorem test_fma : top (.fma q0 false) (gu [1065353216, 1073741824, 1077936128]) = some [1088421888] := by decide +kernel
theorem test_fneg : top (.fneg q0 false) (gu [1065353216]) = some [3212836864] := by decide +kernel
theorem test_fabs : top (.fabs q0 true) (gu [13830554455654793216]) = some [4607182418800017408] := by decide +kernel
theorem test_fmin : top (.fmin q0 false) (gu [2147483648, 0]) = some [2147483648] := by decide +kernel
theorem test_fmax : top (.fmax q0 false) (gu [2143289344, 1065353216]) = some [1065353216] := by decide +kernel
theorem test_eq : top (.eq q0) (gu [5, 5]) = some [1] := by decide +kernel
theorem test_ne : top (.ne q0) (gu [5, 5]) = some [0] := by decide +kernel
theorem test_lt : top (.lt q0) (gu [0, 18446744073709551615]) = some [1] := by decide +kernel
theorem test_le : top (.le q0) (gu [1, 1]) = some [1] := by decide +kernel
theorem test_gt : top (.gt q0) (gu [0, 18446744073709551615]) = some [0] := by decide +kernel
theorem test_ge : top (.ge q0) (gu [1, 0]) = some [0] := by decide +kernel
theorem test_ltu : top (.ltu q0) (gu [0, 18446744073709551615]) = some [0] := by decide +kernel
theorem test_leu : top (.leu q0) (gu [0, 0]) = some [1] := by decide +kernel
theorem test_gtu : top (.gtu q0) (gu [0, 18446744073709551615]) = some [1] := by decide +kernel
theorem test_geu : top (.geu q0) (gu [1, 0]) = some [0] := by decide +kernel
theorem test_req : top (.req q0) (gu [57896044618658097711785492504343953926634992332820282019728792003956564819968, 0]) = some [0] := by decide +kernel
theorem test_feq : top (.feq q0 false) (gu [2147483648, 0]) = some [1] := by decide +kernel
theorem test_flt : top (.flt q0 false) (gu [1065353216, 3212836864]) = some [1] := by decide +kernel
theorem test_fle : top (.fle q0 true) (gu [9221120237041090560, 0]) = some [0] := by decide +kernel
theorem test_fun : top (.fun q0 false) (gu [2143289344, 0]) = some [1] := by decide +kernel
theorem test_sx : top (.sx q0 0) (gu [128]) = some [18446744073709551488] := by decide +kernel
theorem test_zx : top (.zx q0 1) (gu [74565]) = some [9029] := by decide +kernel
theorem test_i2s : top (.i2s q0) (gu [18446744073709551615]) = some [3212836864] := by decide +kernel
theorem test_i2d : top (.i2d q0) (gu [3]) = some [4613937818241073152] := by decide +kernel
theorem test_u2s : top (.u2s q0) (gu [18446744073709551615]) = some [1602224128] := by decide +kernel
theorem test_u2d : top (.u2d q0) (gu [1]) = some [4607182418800017408] := by decide +kernel
theorem test_s2i : top (.s2i q0) (gu [3217031168]) = some [18446744073709551615] := by decide +kernel
theorem test_d2i : top (.d2i q0) (gu [9221120237041090560]) = some [0] := by decide +kernel
theorem test_s2d : top (.s2d q0) (gu [1065353216]) = some [4607182418800017408] := by decide +kernel
theorem test_d2s : top (.d2s q0) (gu [9218868437227405311]) = some [2139095040] := by decide +kernel
theorem test_wext : top (.wext q0) (gu [1, 166020696663385964551]) = some [9] := by decide +kernel
theorem test_wins : top (.wins q0) (gu [5, 9, 7]) = some [166020696663385964551] := by decide +kernel
theorem test_lit : top (.lit q0 130) (gu []) = some [130] := by decide +kernel
theorem test_ext : top (.ext q0 5) (gu [130]) = some [266245] := by decide +kernel
theorem test_now : top (.now q0) (gu []) = some [0] := by decide +kernel
theorem test_rcnt : top (.rcnt q0) (gu [0]) = some [0] := by decide +kernel
theorem test_lit_negative : top (.lit q0 2047) (gu []) = some [18446744073709551615] := by decide +kernel

/-! ### The spec's worked examples -/

/-- Chapter 4: BZ +4 at word 583 leads to word 588 by the delay slot, taken or not; here with its line 64 in an owner's range of 128. -/
def slotState (w : Nat) : State :=
  let s := withStk [w] (mod .run)
  { s with
    cfg := { s.cfg with part := { s.cfg.part with owners := [(0, { prgLen := 128 })] } }
    prog := [(64, 0)]
    engines := [(0, { s.eng 0 with ctx := { (s.eng 0).ctx with pc := 583 } })] }

theorem test_bz_taken : then_ (.bz q0 4) (slotState 0) (fun t => (t.eng 0).ctx.pc == 584 && (t.eng 0).ctx.flow == some ⟨588, 588⟩) = true := by
  decide +kernel
theorem test_bz_not_taken : then_ (.bz q0 4) (slotState 1) (fun t => (t.eng 0).ctx.pc == 584 && (t.eng 0).ctx.flow == some ⟨588, 585⟩) = true := by
  decide +kernel

/-- Chapter 5: LDR on IN with KEEP is 0x1208, STR on OUT 0x1310, TSET on SEM with FENCE 0x1B44, LDL on RETAIN 0x1760. -/
theorem test_memory_words : [MemOp.ldr.word 0 8, MemOp.str.word 1 0, MemOp.tset.word 4 4, MemOp.ldl.word 6 0] = [0x1208, 0x1310, 0x1B44, 0x1760] := by
  decide

/-- Table 5.10 slot 2: LDR IN with KEEP leaves the advanced address below the row. -/
theorem test_ldr_keep : top (.ldr q0 0 8) (gu [256]) = some [0, 512] := by decide +kernel
/-- A store to OUT is staged, not installed (R154). -/
theorem test_str_stages : then_ (.str q0 1 0) (gu [256, 7]) (fun t => (t.task 0).staged.find? 5 == some (7, BitVec.allOnes 256) && t.curBits 5 == 0) = true := by
  decide +kernel
theorem test_tset_pushes_old : top (.tset q0 4 0) (gu [3]) = some [0] := by decide +kernel
theorem test_stl_then_buffer : then_ (.stl q0 5 0) (gu [8, 5]) (fun t => (t.eng 0).sb.length == 1) = true := by decide +kernel
theorem test_sc_without_reservation : top (.sc q0 5 0) (gu [8, 5]) = some [1] := by decide +kernel
/-- Chapter 1's latch: the high word comes from the latch although the counter has moved on. -/
theorem test_latch : ((((mod .run).setReqLat .mgt { hi := some (Reg.FLT_HCOUNT, 2) }).wr64 Reg.FLT_HCOUNT (3 * 2 ^ 32)).busRead .mgt
    (Reg.FLT_HCOUNT + 4)).1 = .ok 2 := by decide +kernel
/-- Chapter 18: rne(-5, 1) is -2 and rne(-7, 1) is -4; the loop's products (Table of LP012). -/
theorem test_rne : [rneShift (-5) 1, rneShift (-7) 1, rneShift (4194304 * 15360) 17, rneShift (4294967 * 15360) 25] = [-2, -4, 491520, 1966] := by decide
/-- Chapter 11: slot 512 of a ring of 32-byte entries, LOG2LEN 10, at 0x10_0000_0000 lies at 0x10_0000_4000. -/
theorem test_ring_slot :
    ({ mod .run with cfg := { cfgAll with rings := [(0x100, { defined := true, esize := 1, log2len := 10, base := 0x1000000000 })] } } : State).ringSlot
      0x100 512 = 0x1000004000 := by decide +kernel
/-- Table 11.3: one walk through four levels. -/
theorem test_walk : (walkFrom { tbl := [(0x800, 0x10801), (0x2110, 0x21001), (0x4200, 0x29801), (0x5300, 0x345670576)] } 0x1000004000 4 1 0x4000
    matches .page 0x5300 0x345670576) = true := by decide +kernel
/-- Chapter 13: the retransmission offsets of publication 0040 (MININT 2 ms, MAXINT 1000 ms). -/
theorem test_retransmission : (List.range 11).map (pubInterval (cfgAll.pubs.get ⟨0, 0, false, false, 0, 0, 0, 0, 0, 2, 1000, 2⟩ 9)) =
    [2, 4, 8, 16, 32, 64, 128, 256, 512, 1000, 1000] := by decide +kernel
/-- Table 15.7: the quality steps of holdover. -/
theorem test_hold_steps : [3, 60, 600, 3600].map holdStep = [0, 1, 2, 3] := by decide
/-- Table 15.7, steps 5 to 8: 35 µs slewed at 1000 ppm leaves 10 µs after 25 ms and 0.05 µs after 34.95 ms; station time is 35 µs behind after 50 ms. -/
def slewing : State := { mod .run with tim := { slew := some (0, (us 35 : Nat)) } }
theorem test_slew_pace : (slewing.advanceMono (us 25000)).slewLeft = us 10 ∧ (slewing.advanceMono (us 34950)).slewLeft = nsec 50 ∧
    (slewing.advanceMono (us 25000)).now = us 24975 ∧ (slewing.advanceMono (us 50000)).now = us 49965 ∧ (slewing.advanceMono (us 50000)).mono = us 50000 ∧
    (slewing.advance (us 24975)).mono = us 25000 ∧ (slewing.advance (us 49965)).mono = us 50000 := by decide +kernel
/-- Chapter 19: WD2 with a period of 10 ms served at 6 ms is armed; at 4 ms the key is a violation and F1538 fires with DET1 = 2. -/
def wd2 (t : Nat) : State := { mod .run with wdg := [(2, { counting := true, en := true, period := 10000, next := 10000 })], now := us t }
theorem test_service_in_window : then_ (.serviceArm .mgt 2) (wd2 6000) (fun t => (t.wd 2).armed == 1) = true := by decide +kernel
theorem test_service_too_early : then_ (.serviceArm .mgt 2) (wd2 4000) (fun t => t.rd (Reg.WDG_VIOCNT 2) == 1 && t.rd (Reg.FLT_SCNT 1538) == 1 &&
    t.flt.intake.map (·.det1) == [2] && (t.wd 2).since == us 4000) = true := by decide +kernel
/-- Chapter 20: 300 bytes at offset 0x3A0 of region 5 (BASE 0x1_0000, SIZE 0x400) wrap: 96 bytes to the end, the rest from the start. -/
def region5 : State := { mod .run with cfg := { cfgAll with nvly := [(5, { defined := true, base := 0x10000, size := 0x400 })] } }
theorem test_nvs_wrap : (((region5.nvsAddrs 5 0x3A0 300)[0]?, (region5.nvsAddrs 5 0x3A0 300)[95]?, (region5.nvsAddrs 5 0x3A0 300)[96]?,
    (region5.nvsAddrs 5 0x3A0 300)[299]?) = (some 0x103A0, some 0x103FF, some 0x10000, some 0x100CB)) := by decide +kernel
/-- Chapter 7: with allowance 2 the overrun source fires only when CONSEC passes 2. -/
def overrunning (n : Nat) : State := { mod .run with cfg := { cfgAll with tasks := [(0, { defined := true, period := 250, allow := 2 })] },
                                                     tasks := [(0, { st := .running, consec := n })] }
theorem test_overrun_allowed : ((overrunning 1).overrun 0).raised = [] := by decide +kernel
theorem test_overrun_fires : (((overrunning 2).overrun 0).raised.map (·.src)) = [128] := by decide +kernel
/-- Table 6.2 step 5: an edge stamped 20.5 over V2 stamped 24 is stamped 24. -/
theorem test_stamp_clamped : ((((mod .run).install 0 0 0 1 1 (us 24) 0 false).2.install 0 0 0 0 1 (nsec 20500) 1 false).2.rowHist 0).cur.stamp = us 24 := by
  decide +kernel
/-- Table 19.5 step 3: one exit in the window returns to the mode held from. -/
def held (exits : List Nat) : State :=
  let s := mod .hold
  { s with cfg := { cfgAll with mode := { holdq := 200, holdalw := 2 } }, ms := { s.ms with heldFrom := some .run }
           flt := { quietFrom := msec 1800000, exits := exits }, now := msec 1800000 }
theorem test_hold_returns : then_ .holdQuietExpiry (held []) (fun t => t.ms.mode == .run && t.rd Reg.FLT_RECOVCNT == 1) = true := by decide +kernel
theorem test_hold_limit : then_ .holdQuietExpiry (held [msec 900200, msec 350]) (fun t => t.ms.mode == .stop && t.fld Reg.FLT_STAT 19 1 == 1 &&
    t.rd (Reg.FLT_SCNT 1409) == 1) = true := by decide +kernel
/-- The pair link's SEQ counts per EtherType from 0 at pairing (Table 10.2). -/
theorem test_pair_seq : ((mod .run).emit (.pair 3 [])).red.txSeq = [(0x88B5, 1)] := by decide +kernel

end
end Sys2Proof.Tests
end

section
/-! SUPPORT. Loops over a list; what an engine, a bent or a register reads as after an update of a bent; the bents' commands and the management engine's
boundary where they act; and O43, which says so. -/
namespace Sys2Proof

/-- Keeping the entries whose key a test keeps: a kept key reads as before, any other is not listed. -/
theorem find_filter_key {α : Type} (m : SMap α) (p : Nat → Bool) (k : Nat) :
    SMap.find? (m.filter (fun e => p e.1)) k = if p k then SMap.find? m k else none := by
  induction m with
  | nil => simp [SMap.find?]
  | cons e rest ih =>
    obtain ⟨j, v⟩ := e
    rw [List.filter_cons]
    by_cases hj : j = k
    · subst hj
      by_cases hp : p j = true
      · simp [hp, SMap.find?]
      · simpa [hp] using ih
    · by_cases hp : p j = true
      · simp [hp, hj, SMap.find?, ih]
      · simp [hp, hj, SMap.find?, ih]

namespace Machine

/-- A field that no turn of a loop changes is as before the loop. -/
theorem forEach_keeps {α β : Type} (f : State → α → State) (g : State → β) (h : ∀ s x, g (f s x) = g s) (l : List α) (s : State) :
    g (forEach l f s) = g s := by
  unfold forEach
  induction l generalizing s with
  | nil => rfl
  | cons a l ih => rw [List.foldl_cons, ih, h]

/-- What one element's turn brings about and every turn keeps holds after the loop. -/
theorem forEach_brings {α : Type} (f : State → α → State) (P : State → Prop) {a : α} (hset : ∀ s, P (f s a))
    (hkeep : ∀ s x, P s → P (f s x)) {l : List α} (ha : a ∈ l) (s : State) : P (forEach l f s) := by
  have keeps (l : List α) (s : State) (h : P s) : P (forEach l f s) := by
    unfold forEach
    induction l generalizing s with
    | nil => exact h
    | cons x l ih => exact ih _ (hkeep s x h)
  induction l generalizing s with
  | nil => cases ha
  | cons x l ih =>
    rcases List.mem_cons.1 ha with rfl | ha
    · exact keeps l _ (hset s)
    · exact ih ha _

namespace State

@[simp] theorem eng_setEng_same (s : State) (e : Nat) (x : Engine) : (s.setEng e x).eng e = x := get_set_same _ _ _ _

theorem eng_setEng_other (s : State) {e j : Nat} (x : Engine) (h : j ≠ e) : (s.setEng e x).eng j = s.eng j := get_set_other _ _ _ h

@[simp] theorem bent_setBent_same (s : State) (m : Nat) (x : Bent) : (s.setBent m x).bent m = x := get_set_same _ _ _ _

/-- The addresses of a bent's four engines' registers. -/
def bentReg (m a : Nat) : Bool := decide (0x2000000 + 4 * m * 0x1000 ≤ a) && decide (a < 0x2000000 + (4 * m + 4) * 0x1000)

/-- A bent's registers read their reset values after their reset, every other register as before. -/
theorem rd_resetBentRegs (s : State) (m a : Nat) : (s.resetBentRegs m).rd a = if bentReg m a then regReset a else s.rd a := by
  have h : SMap.find? (s.resetBentRegs m).regs a = if !bentReg m a then SMap.find? s.regs a else none :=
    find_filter_key s.regs (fun k => !bentReg m k) a
  unfold rd
  rw [h]
  cases bentReg m a <;> rfl

/-! ### A bent is gated off -/

/-- Gating takes the bent's mark off and resets its registers before it empties its engines and its translation cache. -/
theorem gateBent_eq (s : State) (m : Nat) : s.gateBent m = (forEach (bentEngines m) (fun s e => s.setEng e {})
    ((s.setBent m { s.bent m with awake := false, waking := false }).resetBentRegs m)).emptyTlb m := rfl

/-- Emptying engines changes neither the registers nor the bents. -/
theorem forEach_emptied (l : List Nat) (s : State) :
    (forEach l (fun s e => s.setEng e {}) s).regs = s.regs ∧ (forEach l (fun s e => s.setEng e {}) s).bents = s.bents :=
  ⟨forEach_keeps (fun s e => s.setEng e {}) State.regs (fun _ _ => rfl) l s,
    forEach_keeps (fun s e => s.setEng e {}) State.bents (fun _ _ => rfl) l s⟩

theorem rd_gateBent (s : State) (m a : Nat) : (s.gateBent m).rd a = if bentReg m a then regReset a else s.rd a := by
  have h : (s.gateBent m).regs = (s.resetBentRegs m).regs := (forEach_emptied (bentEngines m) _).1
  rw [← rd_resetBentRegs]
  unfold rd
  rw [h]

theorem awake_gateBent (s : State) (m : Nat) : ((s.gateBent m).bent m).awake = false := by
  have h : (s.gateBent m).bents = (s.setBent m { s.bent m with awake := false, waking := false }).bents :=
    (forEach_emptied (bentEngines m) _).2
  have hb : (s.gateBent m).bent m = (s.setBent m { s.bent m with awake := false, waking := false }).bent m :=
    congrArg (fun b => SMap.get ({} : Bent) b m) h
  rw [hb, bent_setBent_same]

theorem eng_gateBent (s : State) (m : Nat) {e : Nat} (h : e ∈ bentEngines m) : (s.gateBent m).eng e = {} := by
  rw [gateBent_eq]
  refine forEach_brings (fun s e => s.setEng e {}) (fun t => t.eng e = {}) (fun t => eng_setEng_same t e {}) (fun t j ht => ?_) h _
  by_cases hj : e = j
  · subst hj; exact eng_setEng_same t e {}
  · exact (eng_setEng_other t {} hj).trans ht

/-! ### The commands' effects, where they act -/

/-- A waking bent's wake is the wake of R21 at some instant within 10 µs. -/
theorem bentWoken_waking {s : State} {m : Nat} (h : (s.bent m).waking = true) :
    ∃ d ≤ us 10, s.bentWoken m = (({ s with free := s.free + 1 } : State).advance (s.now + d)).bentWake m := by
  refine ⟨Config.free s.free % (us 10 + 1), Nat.le_of_lt_succ (Nat.mod_lt _ (Nat.succ_pos _)), ?_⟩
  unfold bentWoken
  rw [h]
  rfl

theorem bentWake_usable {s : State} {m : Nat} (ha : (s.bent m).awake = false) (hu : (s.bent m).unusable = false)
    (hc : (s.bentCfg m).assigned = true) :
    let v := (s.setBent m { s.bent m with awake := true, waking := false, idleSince := s.now }).bump (Reg.MGT_PDONCNT m) 1
    let w := forEach (bentEngines m) (fun s e => match (s.eng e).task with | some k => s.startOn e k | none => s) v
    s.bentWake m = w.dispatch (w.bentCfg m).owner := by
  unfold bentWake
  exact if_neg (by simp [ha, hu, hc])

theorem bentGateOff_idle {s : State} {m : Nat} (hc : (s.bentCfg m).assigned = true) (hk : (s.bentCfg m).keepWarm = false)
    (ha : (s.bent m).awake = true) (ht : (s.bent m).testReq = false) (hb : s.busyEngines m = 0) :
    s.bentGateOff m = (s.advance ((s.bent m).idleSince + us (s.bentCfg m).idleUs)).gateBent m := by
  unfold bentGateOff
  simp [hc, hk, ha, ht, hb]

/-- A write of ENG_STEST acts through REQ alone. -/
theorem sysWriteHook_stest {h : RegHit} (hb : h.desc.base = Reg.ENG_STEST 0) (s : State) (byO0 : Bool) (v : Nat) :
    s.sysWriteHook byO0 h v = some (if bit v 0 then s.selfTestRequest (if byO0 then 0 else 1) (h.i / 4) else s) := by
  unfold sysWriteHook
  simp only [hb]
  rfl

theorem selfTestRequest_test {s : State} {m : Nat} (hm : s.ms.mode = .test) (hu : (s.bent m).unusable = false) :
    s.selfTestRequest 0 m = forEach (bentEngines m) (fun s e => s.setBit (Reg.ENG_STEST e) 1 true)
      (s.setBent m { s.bent m with testReq := true }) := by
  unfold selfTestRequest
  rw [if_neg (by simp [hm, hu])]

/-- O0's write of 1 to ENG_STEST in Test is a request for the bent's test. -/
theorem busSet_stest {s : State} {r : Req} {e i : Nat} (hw : s.writes r (Reg.ENG_STEST e) (Reg.ENG_STEST 0) i) (ho : s.reqOwner r = 0) :
    s.busSet r (Reg.ENG_STEST e) 1 = s.selfTestRequest 0 (i / 4) := by
  obtain ⟨hit, hb, rfl, hset⟩ := busSet_writes hw
  rw [hset, sysWriteHook_stest hb, ho]
  rfl

/-- A test that runs ends at some instant within 200 µs, in the order: the bent, its results, its owner's tasks. -/
theorem selfTestDone_testing {s : State} {m : Nat} (ht : (s.bent m).testReq = true) (hb : s.busyEngines m = 0) (pass : Bool) :
    ∃ d ≤ us 200, let u := ({ s with free := s.free + 1 } : State).advance (s.now + d)
      let v := u.setBent m { s.bent m with testReq := false, idleSince := u.now }
      let w := forEach (bentEngines m) (fun s e => s.wr (Reg.ENG_STEST e) (if pass then 4 else 8)) (if pass then v else v.bentFailed m)
      let n := (w.bentCfg m).owner
      s.selfTestDone m pass = if (w.bentCfg m).assigned then (forEach (w.tasksOf n) (fun s k => s.pendAfter k) w).dispatch n else w := by
  refine ⟨Config.free s.free % (us 200 + 1), Nat.le_of_lt_succ (Nat.mod_lt _ (Nat.succ_pos _)), ?_⟩
  have hr : s.bentTesting m = true := by unfold bentTesting; rw [ht, hb]; rfl
  unfold selfTestDone
  rw [hr]
  rfl

/-- What a pace report leaves in the registers of the bent's engines (R81). -/
def paceShown (s : State) (m v : Nat) : State :=
  forEach (bentEngines m) (fun s e => (s.wr (Reg.ENG_PACE e) v).maxReg (Reg.ENG_PACEMAX e) v) s

theorem paceReport_awake {s : State} {m : Nat} (h : (s.bent m).awake = true) (ps : Nat) :
    s.paceReport m ps = if 2500 < ps % 4096 then (s.paceShown m (ps % 4096)).raise m else s.paceShown m (ps % 4096) := by
  unfold paceReport
  rw [h]
  rfl

theorem pace_ne_paceMax (e j : Nat) : Reg.ENG_PACE e ≠ Reg.ENG_PACEMAX j := by
  simp only [Reg.ENG_PACE, Reg.ENG_PACEMAX]
  omega

theorem rd_pace_maxReg (s : State) (e j v : Nat) : (s.maxReg (Reg.ENG_PACEMAX j) v).rd (Reg.ENG_PACE e) = s.rd (Reg.ENG_PACE e) :=
  rd_wr_other s _ (pace_ne_paceMax e j)

theorem rd_pace_paceShown (s : State) {m v e : Nat} (hv : v < 2 ^ 32) (h : e ∈ bentEngines m) : (s.paceShown m v).rd (Reg.ENG_PACE e) = v := by
  have hset (t : State) : ((t.wr (Reg.ENG_PACE e) v).maxReg (Reg.ENG_PACEMAX e) v).rd (Reg.ENG_PACE e) = v := by
    rw [rd_pace_maxReg, rd_wr_same, Nat.mod_eq_of_lt hv]
  refine forEach_brings (fun s e => (s.wr (Reg.ENG_PACE e) v).maxReg (Reg.ENG_PACEMAX e) v) (fun t => t.rd (Reg.ENG_PACE e) = v) hset
    (fun t j ht => ?_) h s
  by_cases hj : e = j
  · subst hj; exact hset t
  · rw [rd_pace_maxReg, rd_wr_other t v (by simp only [Reg.ENG_PACE]; omega), ht]

theorem lineWritten_taken {s u : State} {e : Nat} (h : s.lineOut e = (none, u)) : s.lineWritten e = u := by
  unfold lineWritten
  rw [h]

theorem lineWritten_refused {s u : State} {e : Nat} {l : SbLine} (h : s.lineOut e = (some l, u)) :
    s.lineWritten e = u.takeExc e 1 (excOlder l) := by
  unfold lineWritten
  rw [h]

/-! ### The management engine's boundary -/

/-- The instant of the management engine's next boundary (R482): now, where now is one it has not met, else the next multiple of its period. -/
def mgtBoundaryAt (s : State) (per : Nat) : Nat := if s.now % per = 0 ∧ s.mgt.engLast ≠ s.now then s.now else nextMultiple per s.now

/-- The state in which the boundary at `t` is met. -/
def atMgtBoundary (s : State) (t : Nat) : State := (s.advance t).setMgt { s.mgt with engLast := t }

theorem mgtEngRuns_mode {s : State} (hi : s.mgt.engInstalled = true) (hm : s.ms.mode ∈ [Mode.stop, .run, .shadow, .test, .hold]) :
    s.mgtEngRuns = true := by
  unfold mgtEngRuns
  simpa [hi, or_assoc] using hm

theorem mgtEngBoundary_runs {s : State} {p : Mgtp} (hp : s.cfg.mgtp = some p) (hr : s.mgtEngRuns = true) :
    s.mgtEngBoundary = (s.atMgtBoundary (s.mgtBoundaryAt (us (max 1 p.period)))).mgtEngAt (s.mgtBoundaryAt (us (max 1 p.period))) := by
  unfold mgtEngBoundary
  rw [hp, hr]
  rfl

theorem mgtEngAt_running {s : State} (h : s.mgt.engRunning = true) (t : Nat) : s.mgtEngAt t = s.bump Reg.MGT_ENGOVR 1 := by
  unfold mgtEngAt
  rw [if_pos h]

theorem mgtEngAt_idle {s : State} (h : s.mgt.engRunning = false) (t : Nat) :
    s.mgtEngAt t = ((({ s with mgt := { s.mgt with engRunning := true, engAt := t, engHs := 0 } } : State).setEng
      256 { running := true, ctx := { pc := linear 1 0 } }).setBit Reg.MGT_ENGSTAT 1 true) := by
  unfold mgtEngAt
  rw [h]
  rfl

end State

end Machine
end Sys2Proof

open Sys2Proof Sys2Proof.Machine Sys2Proof.Machine.State

/-- Settles O43, a clause per command: the command is its effect, and the effect where it acts is the lemma of its name above. -/
theorem bentsWakeGateAndTest : Obligations.BentsWakeGateAndTest := by
  unfold Obligations.BentsWakeGateAndTest
  refine ⟨?wake, ?gate, ?request, ?tested, ?pace, ?line, ?reservation, ?boundary⟩
  case wake =>
    intro s m hw ha hu hc
    obtain ⟨d, hd, e⟩ := bentWoken_waking hw
    exact ⟨d, hd, congrArg (done s) (e.trans (bentWake_usable ha hu hc))⟩
  case gate =>
    intro s m _ hc hk ha ht hb u
    refine ⟨congrArg (done s) (bentGateOff_idle hc hk ha ht hb), awake_gateBent u m, fun _ he => eng_gateBent u m he,
      fun a => ⟨fun h1 h2 => ?_, fun h => ?_⟩⟩
    · rw [rd_gateBent, if_pos (by simp [bentReg, h1, h2])]
    · rw [rd_gateBent, if_neg (by simp only [bentReg, Bool.and_eq_true, decide_eq_true_eq]; omega)]
      rfl
  case request =>
    intro s r e i hw ho hm hu
    exact congrArg (done s) ((busSet_stest hw ho).trans (selfTestRequest_test hm hu))
  case tested =>
    intro s m pass ht hb
    obtain ⟨d, hd, e⟩ := selfTestDone_testing ht hb pass
    exact ⟨d, hd, congrArg (done s) e⟩
  case pace =>
    intro s m ps ha v u
    have hv : v < 2 ^ 32 := Nat.lt_of_lt_of_le (Nat.mod_lt ps (by decide)) (by decide)
    exact ⟨congrArg (done s) (paceReport_awake ha ps), fun e he => rd_pace_paceShown s hv he⟩
  case line =>
    intro s u e
    exact ⟨fun h => congrArg (done s) (lineWritten_taken h), fun l h => congrArg (done s) (lineWritten_refused h)⟩
  case reservation => exact fun s e => rfl
  case boundary =>
    intro s p hp hi hm per t u
    have hb : s.mgtEngBoundary = u.mgtEngAt t := mgtEngBoundary_runs hp (mgtEngRuns_mode hi hm)
    exact ⟨fun h => congrArg (done s) (hb.trans (mgtEngAt_running (s := u) h t)),
      fun h => congrArg (done s) (hb.trans (mgtEngAt_idle (s := u) h t))⟩

end

section
/-! SUPPORT. A write of MGT_MODECMD: where Tables 2.2 and 2.8 allow each target, what is then done, and what CMDREJ shows; and O36, which says so. -/
namespace Sys2Proof.Machine
namespace State

/-! ### A write of MGT_MODECMD -/

/-- A write of TARGET and KIND to MGT_MODECMD that is performed is the mode command (Table 2.8). -/
theorem busSet_modecmd {s : State} {r : Req} {i : Nat} (hw : s.writes r Reg.MGT_MODECMD Reg.MGT_MODECMD i) {target : Nat} (ht : target < 16)
    (kind : Nat) : s.busSet r Reg.MGT_MODECMD (target + kind % 4 * 16) = s.modeCmd target (kind % 4) := by
  obtain ⟨hit, hb, -, hset⟩ := busSet_writes hw
  have hv : (target + kind % 4 * 16) % 2 ^ 32 = target + kind % 4 * 16 := by omega
  have h0 : bits (target + kind % 4 * 16) 0 4 = target := by
    simp only [bits, Nat.shiftRight_zero]; omega
  have h1 : bits (target + kind % 4 * 16) 4 2 = kind % 4 := by
    simp only [bits, Nat.shiftRight_eq_div_pow]; omega
  have hook : s.sysWriteHook (s.reqOwner r == 0) hit (target + kind % 4 * 16) = some (s.modeCmd target (kind % 4)) := by
    unfold sysWriteHook
    rw [if_pos hb, h0, h1]
  rw [hset, hv, hook]

theorem modeCmd_taken {s : State} {target kind : Nat} (h : (modeKindOk target kind && s.modeSetOk target) = true) :
    s.modeCmd target kind = s.modePerform target kind := if_pos h

theorem modeCmd_rejected {s : State} {target kind : Nat} (h : ¬(modeKindOk target kind && s.modeSetOk target) = true) :
    s.modeCmd target kind = s.cmdRej := if_neg h

/-! ### Where Tables 2.2 and 2.8 allow each target -/

theorem ne_stop_of_running {m : Mode} (h : m ∈ [Mode.run, .shadow, .test, .hold]) : m ≠ .stop := by
  rintro rfl
  exact absurd h (by decide)

theorem not_drainable {m : Mode} (h : m ∈ [Mode.backup, .lean, .recall, .recovery, .drain]) :
    m ∉ [Mode.configure, .stop, .run, .shadow, .test, .hold, .handover] := by
  cases m <;> simp at h ⊢

theorem stopAllowed_iff (s : State) (kind : Nat) : (modeKindOk 5 kind && s.modeSetOk 5) = true ↔
    kind = 0 ∧ (s.ms.mode ∈ [.run, .shadow, .test, .hold] ∨ s.ms.mode = .stop ∧ s.ms.startPend.isSome = true) := by
  unfold modeKindOk modeSetOk startPending
  cases s.ms.mode <;> simp

theorem runAllowed_iff (s : State) (kind : Nat) : (modeKindOk 6 kind && s.modeSetOk 6) = true ↔
    kind ∈ [1, 2] ∧ s.ms.mode = .stop ∧ s.ms.startPend.isSome = false ∧ s.isSuspect = false := by
  unfold modeKindOk modeSetOk startPending
  simp [and_assoc]

theorem testAllowed_iff (s : State) (kind : Nat) : (modeKindOk 8 kind && s.modeSetOk 8) = true ↔
    kind = 0 ∧ s.ms.mode = .stop ∧ s.ms.startPend.isSome = false ∧ (s.ms.paired = false ∨ s.red.pMode = 5) := by
  unfold modeKindOk modeSetOk startPending
  simp [and_assoc]

theorem drainAllowed_iff (s : State) (kind : Nat) : (modeKindOk 0xB kind && s.modeSetOk 0xB) = true ↔
    kind = 0 ∧ s.ms.mode ∈ [.configure, .stop, .run, .shadow, .test, .hold, .handover] := by
  unfold modeKindOk modeSetOk
  cases s.ms.mode <;> simp

/-! ### What an allowed command does, and a rejected one -/

theorem modePerform_stop {s : State} {kind : Nat} (h : s.ms.mode ≠ .stop) : s.modePerform 5 kind = s.deviceStop 0 := if_neg h

theorem modePerform_stop_pending {s : State} {kind : Nat} (h : s.ms.mode = .stop) : s.modePerform 5 kind = s.dropStart := if_pos h

/-- A mode set Drain hands over first where an active member has a good standby, in Run or while a switch-over is under way (R47). -/
theorem modeDrain_eq (s : State) : s.modeDrain =
    if s.ms.active = true ∧ s.partnerGood = true ∧ (s.ms.mode = .run ∨ s.red.sw ≠ 0) then s.modeDrain else (s.xferFail 7).enterDrain 3 := by
  split
  · rfl
  · rename_i h
    unfold modeDrain
    exact if_neg (by simpa [and_assoc] using h)

theorem startDevice_ms (s : State) (cold policy : Bool) :
    (s.startDevice cold policy).ms = { s.ms with startPend := some cold, startFrom := s.now, fromPolicy := policy } := by
  unfold startDevice
  simp only [setMs, setRed]
  cases s.cfg.redn <;> rfl

/-- A one-bit field reads back set in the register's low word. -/
theorem testBit_putBits_one (v : Nat) {i : Nat} (hi : i < 32) : (putBits v i 1 1 % 2 ^ 32).testBit i = true := by
  have hp : 0 < 2 ^ i := Nat.two_pow_pos i
  have hdiv : putBits v i 1 1 / 2 ^ i = v / 2 ^ i - v / 2 ^ i % 2 + 1 := by
    rw [putBits, Nat.one_mod_eq_one.2 (by decide), Nat.add_mul_div_right _ _ hp, Nat.mul_comm, Nat.sub_mul_div, bits,
      Nat.shiftRight_eq_div_pow, Nat.pow_one]
  rw [Nat.testBit_mod_two_pow, Nat.testBit_eq_decide_div_mod_eq, hdiv]
  simp only [hi, decide_true, Bool.true_and, decide_eq_true_eq]
  omega

theorem rd_setBit_testBit (s : State) (a : Nat) {i : Nat} (hi : i < 32) : ((s.setBit a i true).rd a).testBit i = true := by
  unfold setBit setFld
  rw [rd_wr_same]
  exact testBit_putBits_one _ hi

theorem mgtLog_ms (s : State) (code arg det : Nat) : (s.mgtLog code arg det).ms = s.ms := wr_ms _ _ _

theorem mgtNote2_ms (s : State) (code : Nat) : (s.mgtNote2 code).ms = s.ms := mgtLog_ms _ _ _ _

theorem cmdRej_ms (s : State) : s.cmdRej.ms = s.ms := (mgtNote2_ms _ _).trans (wr_ms _ _ _)

theorem rd_mgtNote2 (s : State) (code : Nat) {a : Nat} (h : a ≠ Reg.MGT_LOGNEXT) : (s.mgtNote2 code).rd a = s.rd a :=
  rd_wr_other _ _ h

end State
end Sys2Proof.Machine

open Sys2Proof Sys2Proof.Machine Sys2Proof.Machine.State

/-- Settles O36: a performed write is the mode command; per target, the table's condition (`…Allowed_iff`) says which side of it is taken. -/
theorem modeCommandsFollowTable22 : Obligations.ModeCommandsFollowTable22 := by
  unfold Obligations.ModeCommandsFollowTable22
  intro s r kind i hw m k pend rejected
  have stop : exec (.modecmdStop r kind) s = done s (s.modeCmd 5 k) := congrArg (done s) (busSet_modecmd hw (by decide) kind)
  have run : exec (.modecmdRun r kind) s = done s (s.modeCmd 6 k) := congrArg (done s) (busSet_modecmd hw (by decide) kind)
  have test : exec (.modecmdTest r kind) s = done s (s.modeCmd 8 k) := congrArg (done s) (busSet_modecmd hw (by decide) kind)
  have drain : exec (.modecmdDrain r kind) s = done s (s.modeCmd 0xB k) := congrArg (done s) (busSet_modecmd hw (by decide) kind)
  refine ⟨?stop, ?abandon, ?noStop, ?run, ?noRun, ?test, ?noTest, ?drain, ?noDrain, cmdRej_ms s, ?reported⟩
  case stop =>
    intro hk hm
    rw [stop, modeCmd_taken ((stopAllowed_iff s k).2 ⟨hk, .inl hm⟩), modePerform_stop (ne_stop_of_running hm)]
  case abandon =>
    intro hk hm hp
    rw [stop, modeCmd_taken ((stopAllowed_iff s k).2 ⟨hk, .inr ⟨hm, hp⟩⟩), modePerform_stop_pending hm]
    exact ⟨rfl, rfl⟩
  case noStop =>
    intro h
    show exec _ s = _
    rw [stop, modeCmd_rejected]
    rw [stopAllowed_iff]
    rintro ⟨hk, hm⟩
    rcases h with h | h | ⟨h, hp⟩
    · exact h hk
    · exact h (hm.elim (List.mem_append_left [Mode.stop]) (fun hm => by rw [show m = .stop from hm.1]; decide))
    · exact hm.elim (fun hm => ne_stop_of_running hm h) (fun hm => Bool.false_ne_true (hp.symm.trans hm.2))
  case run =>
    intro hk hm hp hs
    rw [run, modeCmd_taken ((runAllowed_iff s k).2 ⟨hk, hm, hp, hs⟩)]
    exact ⟨rfl, startDevice_ms s _ _⟩
  case noRun =>
    intro h
    show exec _ s = _
    rw [run, modeCmd_rejected]
    rw [runAllowed_iff]
    rintro ⟨hk, hm, hp, hs⟩
    rcases h with h | h | h | h
    · exact h hk
    · exact h hm
    · exact Bool.false_ne_true (hp.symm.trans h)
    · exact Bool.false_ne_true (hs.symm.trans h)
  case test =>
    intro hk hm hp hu
    rw [test, modeCmd_taken ((testAllowed_iff s k).2 ⟨hk, hm, hp, hu⟩)]
    rfl
  case noTest =>
    intro h
    show exec _ s = _
    rw [test, modeCmd_rejected]
    rw [testAllowed_iff]
    rintro ⟨hk, hm, hp, hu⟩
    rcases h with h | h | h | ⟨h, h'⟩
    · exact h hk
    · exact h hm
    · exact Bool.false_ne_true (hp.symm.trans h)
    · exact hu.elim (fun hu => Bool.false_ne_true (hu.symm.trans h)) h'
  case drain =>
    intro hk hm
    rw [drain, modeCmd_taken ((drainAllowed_iff s k).2 ⟨hk, hm⟩)]
    exact congrArg (done s) (modeDrain_eq s)
  case noDrain =>
    intro h
    show exec _ s = _
    rw [drain, modeCmd_rejected]
    rw [drainAllowed_iff]
    rintro ⟨hk, hm⟩
    rcases h with h | h
    · exact h hk
    · exact not_drainable h hm
  case reported =>
    unfold cmdRej
    rw [rd_mgtNote2 _ _ (by decide)]
    exact rd_setBit_testBit s _ (by decide)

end

section
/-! SUPPORT. What a change of mode and the passing of time leave alone, where each end of a hold, start and stop acts; and O37, which says so. -/
namespace Sys2Proof.Machine
namespace State

/-! ### A change of mode leaves the pair's state, and the mode's own but for the mode -/

/-- The mode's state, the pair's and station time, which what follows from a change of mode leaves alone. -/
def modeView (s : State) : ModeSt × Red × Nat := (s.ms, s.red, s.now)

theorem modeView_eq_iff {s : State} {m : ModeSt} {r : Red} {t : Nat} : s.modeView = (m, r, t) ↔ s.ms = m ∧ s.red = r ∧ s.now = t := by
  unfold modeView
  rw [Prod.mk.injEq, Prod.mk.injEq]

@[simp] theorem setBit_modeView (s : State) (a i : Nat) (b : Bool) : (s.setBit a i b).modeView = s.modeView := rfl

@[simp] theorem wdgRegs_modeView (s : State) (w : Nat) : (s.wdgRegs w).modeView = s.modeView := by
  unfold wdgRegs modeView
  simp

@[simp] theorem setWd_modeView (s : State) (w : Nat) (x : Wdg) : (s.setWd w x).modeView = s.modeView := rfl

@[simp] theorem wdgRestart_modeView (s : State) (w : Nat) : (s.wdgRestart w).modeView = s.modeView := by
  unfold wdgRestart
  rw [wdgRegs_modeView, setWd_modeView]

@[simp] theorem almEvent_modeView (s : State) (code block arg det : Nat) : (s.almEvent code block arg det).modeView = s.modeView := by
  unfold almEvent modeView
  split
  · rfl
  · split <;> simp

@[simp] theorem leaveTest_modeView (s : State) : s.leaveTest.modeView = s.modeView := by
  unfold leaveTest clearForces
  dsimp only
  rw [forEach_keeps (g := modeView) (h := fun _ _ => by rfl)]
  rfl

@[simp] theorem mgtEngCatch_modeView (s : State) : s.mgtEngCatch.modeView = s.modeView := by
  unfold mgtEngCatch mgtEngAt
  split
  · split
    · split <;> rfl
    · rfl
  · rfl

@[simp] theorem wdgModes_modeView (s : State) : s.wdgModes.modeView = s.modeView := by
  refine forEach_keeps _ modeView (fun t w => ?_) _ _
  dsimp only
  split
  · rfl
  · split
    · split <;> simp
    · simp

@[simp] theorem drivenRegs_modeView (s : State) : s.drivenRegs.modeView = s.modeView := by
  unfold drivenRegs
  dsimp only
  split
  all_goals
    simp only [setBit_modeView]
    rw [forEach_keeps (g := modeView) (h := fun _ _ => by rfl), forEach_keeps (g := modeView)]
    intro t p
    split <;> rfl

@[simp] theorem setFlt_modeView (s : State) (f : Flt) : (s.setFlt f).modeView = s.modeView := rfl

/-- A mode entered as far as what the mode left brings: the mode and its record, its console line, and the end of Test or Hold (R29, R499). -/
def modeChanged (s : State) (m : Mode) (cause : Nat) : State :=
  let old := s.ms.mode
  let s := s.setMs { s.ms with mode := m, prev := old, safeLed := false }
  let s := (s.almEvent 0x0002 15 0xFF (m.code + old.code * 16)).emit (.console m.code cause 0)
  let s := if old = .test then s.leaveTest else s
  if old = .hold then (s.setBit Reg.FLT_STAT 3 false).setFlt { s.flt with quietFrom := 0 } else s

theorem enterMode_eq (s : State) (m : Mode) (cause : Nat) : s.enterMode m cause =
    let t := s.modeChanged m cause
    (if m = .handover then t.setMs { t.ms with hoAt := t.now } else if s.ms.mode = .handover then t.mgtEngCatch else t).wdgModes.drivenRegs := rfl

theorem modeChanged_modeView (s : State) (m : Mode) (cause : Nat) : (s.modeChanged m cause).modeView =
    ({ s.ms with mode := m, prev := s.ms.mode, safeLed := false }, s.red, s.now) := by
  have console (t : State) : (t.emit (.console m.code cause 0)).modeView = t.modeView := rfl
  unfold modeChanged
  simp only [apply_ite modeView, setFlt_modeView, setBit_modeView, leaveTest_modeView, ite_self, console, almEvent_modeView]
  rfl

/-- Entering a mode records it and the mode left, turns the safe LED off, and in Handover notes the instant (R29). -/
theorem enterMode_modeView (s : State) (m : Mode) (cause : Nat) : (s.enterMode m cause).modeView =
    ({ s.ms with mode := m, prev := s.ms.mode, safeLed := false, hoAt := if m = .handover then s.now else s.ms.hoAt }, s.red, s.now) := by
  have h := s.modeChanged_modeView m cause
  rw [enterMode_eq]
  simp only [drivenRegs_modeView, wdgModes_modeView]
  split
  · obtain ⟨hms, hred, hnow⟩ := modeView_eq_iff.1 h
    exact modeView_eq_iff.2 ⟨by rw [setMs, hms, hnow], hred, hnow⟩
  · simpa only [apply_ite modeView, mgtEngCatch_modeView, ite_self] using h

theorem enterMode_ms (s : State) (m : Mode) (cause : Nat) : (s.enterMode m cause).ms =
    { s.ms with mode := m, prev := s.ms.mode, safeLed := false, hoAt := if m = .handover then s.now else s.ms.hoAt } :=
  (modeView_eq_iff.1 (s.enterMode_modeView m cause)).1

theorem enterMode_red (s : State) (m : Mode) (cause : Nat) : (s.enterMode m cause).red = s.red :=
  (modeView_eq_iff.1 (s.enterMode_modeView m cause)).2.1

/-! ### Starts of the device (R38, R40, R240) -/

/-- A start completes at once on a module without REDN, and on a paired one whose partner neither is active nor waits in Stop. -/
theorem startPath_completes {s : State} (h : s.hasRedn = false ∨ (s.ms.paired = true ∧ s.partnerActive = false ∧ s.red.pMode ≠ 5)) :
    s.startPath = 0 := by
  unfold startPath
  rcases h with h | ⟨hp, ha, hm⟩
  · simp [h]
  · simp [hp, ha, hm]

theorem startPath_joins {s : State} (hr : s.hasRedn = true) (ha : s.partnerActive = true) : s.startPath = 2 := by
  have hp : s.ms.paired = true := by unfold partnerActive at ha; simp_all
  unfold startPath
  simp [hr, hp, ha]

/-- A pending start in Stop, at the instant asked for and within its bound: it completes or joins as its path says. -/
theorem runStartAt_pending {s : State} {cold : Bool} (t : Nat) (hm : s.ms.mode = .stop) (hp : s.ms.startPend = some cold) :
    let u := s.advance (min t (s.ms.startFrom + msec (if cold then 200 else 20)))
    (u.startPath = 0 → s.runStartAt t = u.runStart cold) ∧ (u.startPath = 2 → s.runStartAt t = u.joinPair) := by
  intro u
  unfold runStartAt
  simp only [hp, hm, ne_eq, not_true_eq_false, if_false]
  exact ⟨fun h => by simp only [u] at h; simp only [h, u], fun h => by simp only [u] at h; simp only [h, u]⟩

theorem setMs_ms (s : State) (m : ModeSt) : (s.setMs m).ms = m := rfl

theorem setRed_ms (s : State) (r : Red) : (s.setRed r).ms = s.ms := rfl

theorem xferPhase_ms (s : State) (p : Nat) : (s.xferPhase p).ms = s.ms := rfl

theorem redFlag_ms (s : State) (i : Nat) (b : Bool) : (s.redFlag i b).ms = s.ms := by
  unfold redFlag
  split <;> rfl

theorem joinPair_startPend (s : State) : s.joinPair.ms.startPend = none := by
  unfold joinPair
  simp only [redFlag_ms, xferPhase_ms, wr_ms, setRed_ms, enterMode_ms, setMs_ms]

/-! ### Owners start and stop (R42, R43, R450) -/

theorem ownerStop_active {s : State} {n : Nat} (h : (s.owner n).st = .running ∨ (s.owner n).st = .held) :
    let t := s.splDiscard n
    s.ownerStop n = ((t.setOwnerSt n .stopped).setOwner n { t.owner n with st := .stopped, startPend := none }).beginDrain n := by
  intro t
  unfold ownerStop
  rw [if_pos h]

theorem ownerStartDone_pending {s : State} {n : Nat} {cold : Bool} (t : Nat) (h : (s.owner n).startPend = some cold) :
    s.ownerStartDone n t = (s.advance (min t ((s.owner n).startFrom + msec (if cold then 200 else 20)))).ownerStartNow n cold := by
  unfold ownerStartDone
  rw [h]

theorem ownerStartNow_startable {s : State} {n : Nat} (cold : Bool) (hs : s.startable n = true)
    (ho : (s.owner n).st = .stopped ∨ (s.owner n).st = .held) :
    let v := s.ownerPrepare n cold
    s.ownerStartNow n cold = ((v.setOwner n { v.owner n with startPend := none }).setOwnerSt n .running).ownerRun n := by
  intro v
  unfold ownerStartNow
  exact if_neg (by rcases ho with ho | ho <;> simp [hs, ho])

/-! ### The ends of quiet periods (R449, R450) -/

/-- At the end of Hold's quiet period the exit is counted among those in the window, and held against the allowance. -/
theorem holdExpiry_hold {s : State} (hm : s.ms.mode = .hold) :
    let u := s.advanceMono (s.flt.quietFrom + s.holdQ)
    let exits := u.mono :: s.flt.exits.filter (fun e => decide (u.mono < e + s.holdWin))
    let v := u.setFlt { u.flt with exits := exits }
    s.holdExpiry = if exits.length ≤ s.cfg.mode.holdalw then (v.bump Reg.FLT_RECOVCNT 1).holdReturn else v.holdLimit := by
  intro u exits v
  unfold holdExpiry
  exact if_neg (not_not.2 hm)

/-- The same of a Held owner, against its own allowance; a start that the owner may have is then pending. -/
theorem ownerExpiry_held {s : State} {n : Nat} (ho : (s.owner n).st = .held) (hp : (s.owner n).startPend = none) :
    let q := s.cfg.mode.oquiet.get (0, 0) n
    let u := s.advanceMono (s.flt.oquietFrom.get 0 n + msec (if q.1 = 0 then 1000 else q.1))
    let exits := u.mono :: (s.flt.oexits.get [] n).filter (fun e => decide (u.mono < e + s.holdWin))
    let v := (u.setFlt { u.flt with oexits := u.flt.oexits.insert n exits, oquietFrom := u.flt.oquietFrom.erase n }).bump (Reg.FLT_ORECOV n) 1
    s.ownerExpiry n = if exits.length ≤ q.2 then (if v.startable n = true then
      v.setOwner n { v.owner n with startPend := some false, startFrom := v.now } else v) else (v.ownerStop n).raise (1424 + n) := by
  intro q u exits v
  unfold ownerExpiry
  exact if_neg (by simp [ho, hp])

theorem startWaitDone_unpaired {s : State} {t : Nat} (ha : s.red.startAt = some t) (hp : s.ms.startPend.isSome = true) (hu : s.ms.paired = false) :
    s.startWaitDone = (s.advanceMono t).setRed { s.red with startAt := none } := by
  unfold startWaitDone
  rw [ha]
  exact if_pos (by simp [startPending, hp, hu])

theorem partnerActive_enterMode (s : State) (m : Mode) (cause : Nat) : (s.enterMode m cause).partnerActive = s.partnerActive := by
  unfold partnerActive
  rw [enterMode_ms, enterMode_red]

theorem partnerActive_heldFrom (s : State) (f : Option Mode) : (s.setMs { s.ms with heldFrom := f }).partnerActive = s.partnerActive := rfl

/-- Hold ends in the mode it was entered from, where no active partner is to be joined (R176, R449). -/
theorem holdReturn_alone {s : State} (ha : s.partnerActive = false) :
    s.holdReturn = (let t := s.enterMode (s.ms.heldFrom.getD .run) 0; (t.setMs { t.ms with heldFrom := none }).resumeAll) := by
  unfold holdReturn
  refine if_neg ?_
  rw [partnerActive_heldFrom, partnerActive_enterMode, ha]
  exact Bool.false_ne_true

end State
end Sys2Proof.Machine

open Sys2Proof Sys2Proof.Machine Sys2Proof.Machine.State

/-- Settles O37, a clause per command: the command is its effect, and the effect where it acts is the lemma of its name above. -/
theorem startsHoldsAndOwners : Obligations.StartsHoldsAndOwners := by
  unfold Obligations.StartsHoldsAndOwners
  refine ⟨?deviceStart, ?ownerStop, ?ownerStart, ?holdEnd, ?holdReturn, ?ownerQuiet, ?partnerWait⟩
  case deviceStart =>
    intro s t cold hm hp u
    obtain ⟨completes, joins⟩ := runStartAt_pending t hm hp
    exact ⟨fun h => congrArg (done s) (completes (startPath_completes (s := u) h)),
      fun hr ha => ⟨congrArg (done s) (joins (startPath_joins (s := u) hr ha)), joinPair_startPend u⟩⟩
  case ownerStop =>
    intro s n h t
    exact congrArg (done s) (ownerStop_active h)
  case ownerStart =>
    intro s n t cold h u
    exact ⟨congrArg (done s) (ownerStartDone_pending t h), fun hs ho => ownerStartNow_startable cold hs ho⟩
  case holdEnd =>
    intro s hm u exits v
    have e : exec .holdQuietExpiry s = done s _ := congrArg (done s) (holdExpiry_hold hm)
    exact ⟨fun h => e.trans (congrArg (done s) (if_pos h)), fun h => e.trans (congrArg (done s) (if_neg (Nat.not_le.2 h)))⟩
  case holdReturn =>
    intro s _ ha to_
    rw [holdReturn_alone ha]
  case ownerQuiet =>
    intro s n ho hp q u exits v
    exact congrArg (done s) (ownerExpiry_held ho hp)
  case partnerWait =>
    intro s t ha hp hu
    exact congrArg (done s) (startWaitDone_unpaired ha hp hu)
end

section
/-! SUPPORT. What a Drain's saving leaves alone, and the supply's commands where they act; and O39, which says so. -/
namespace Sys2Proof.Machine
namespace State

/-! ### Saving leaves the supply as it stands (Table 2.5) -/

@[simp] theorem setAlm_pw (s : State) (a : Alm) : (s.setAlm a).pw = s.pw := rfl

@[simp] theorem setNvs_pw (s : State) (x : Nvs) : (s.setNvs x).pw = s.pw := rfl

@[simp] theorem almEvent_pw (s : State) (code block arg det : Nat) : (s.almEvent code block arg det).pw = s.pw := by
  unfold almEvent
  split
  · rfl
  · split <;> simp

@[simp] theorem mgtNote2_pw (s : State) (code : Nat) : (s.mgtNote2 code).pw = s.pw := wr_pw _ _ _

@[simp] theorem flushOne_pw (s : State) (share : Nat) : (s.flushOne share).pw = s.pw := by
  unfold flushOne
  split <;> rfl

@[simp] theorem flushShare_pw (s : State) (share k : Nat) : (s.flushShare share k).pw = s.pw := by
  induction k generalizing s with
  | zero => rfl
  | succ k ih => exact (ih _).trans (flushOne_pw s share)

@[simp] theorem flushAll_pw (s : State) : s.flushAll.pw = s.pw := by
  unfold flushAll
  simp only [flushShare_pw]

@[simp] theorem makeRoom_pw (s : State) (share len k : Nat) : (s.makeRoom share len k).pw = s.pw := by
  induction k generalizing s with
  | zero => rfl
  | succ k ih =>
    unfold makeRoom
    split
    · rw [ih, flushOne_pw]
    · rfl

@[simp] theorem stage_pw (s : State) (share len : Nat) (w : StoWrite) : (s.stage share len w).pw = s.pw := by
  unfold stage
  dsimp only
  rw [maxReg_pw, wr_pw, bump64_pw]
  refine (makeRoom_pw _ _ _ _).trans ?_
  rw [apply_ite State.pw, raise_pw, setBit_pw, bump_pw, ite_self]

@[simp] theorem almWrite_pw (s : State) : s.almWrite.pw = s.pw := by
  unfold almWrite
  split
  · rfl
  · split
    · rfl
    · rw [wr_pw, wr_pw, setAlm_pw, stage_pw, apply_ite State.pw, wr_pw, ite_self]

@[simp] theorem almWriteAll_pw (s : State) (k : Nat) : (s.almWriteAll k).pw = s.pw := by
  induction k generalizing s with
  | zero => rfl
  | succ k ih => exact (ih _).trans (almWrite_pw s)

@[simp] theorem almBegin_pw (s : State) : s.almBegin.pw = s.pw := by
  unfold almBegin
  simp only [setBit_pw, almWriteAll_pw, setAlm_pw]

@[simp] theorem almCheckpointNow_pw (s : State) : s.almCheckpointNow.pw = s.pw := by
  unfold almCheckpointNow
  simp only [stage_pw, setAlm_pw]

@[simp] theorem nvsSave_pw (s : State) (ok : Bool) : (s.nvsSave ok).pw = s.pw := by
  unfold nvsSave
  extract_lets _ _ _ _ _ _ _ saved
  have h : saved.pw = s.pw := by
    simp only [saved]
    split <;> rfl
  split
  · rw [wr64_pw, bump_pw, h]
  · split
    · rw [raise_pw, setBit_pw, h]
    · exact h

@[simp] theorem drainRecords_pw (s : State) : s.drainRecords.pw = s.pw := by
  unfold drainRecords
  dsimp only
  rw [flushAll_pw, mgtNote2_pw, fresh_pw, setAlm_pw, almCheckpointNow_pw, almBegin_pw, almEvent_pw, apply_ite State.pw, mgtNote2_pw, ite_self]

theorem drainSave_pw (s : State) (ok : Bool) : (s.drainSave ok).pw = s.pw := by
  unfold drainSave
  simp only [apply_ite State.pw, drainRecords_pw, nvsSave_pw, flushAll_pw, flushShare_pw, fresh_pw, ite_self]

/-- Steps 5 and 6 of Table 2.5, and the last domains off. -/
def drainSaved (s : State) (ok : Bool) : State :=
  forEach ([64, 65, 69, 70, 71, 72, 79] : List Nat) (fun s d => s.setBit (Reg.MGT_PDSTAT d) 0 false) (s.drainSave ok)

theorem drainSaved_pw (s : State) (ok : Bool) : (s.drainSaved ok).pw = s.pw :=
  (forEach_keeps (fun s d => s.setBit (Reg.MGT_PDSTAT d) 0 false) State.pw (fun _ _ => rfl) _ _).trans (drainSave_pw s ok)

/-- A Drain under way ends with its saving and, as the input stands, in Backup or with the module still supplied (R45 to R48). -/
theorem drainDone_underway {s : State} (ok : Bool) (hm : s.ms.mode = .drain) (ho : s.ms.drainOver = false) :
    let u := s.drainSaved ok
    s.drainDone ok = if s.pw.inputOk then u.setMs { u.ms with drainOver := true, safeLed := u.ms.drainCause != 1 } else u.powerOff := by
  intro u
  rw [← drainSaved_pw s ok]
  unfold drainDone
  exact if_neg (by simp [hm, ho])

/-! ### The warning, by mode (R44, R48) -/

theorem powerWarning_noDrain {s : State} (h : s.ms.mode ∈ [.lean, .recall, .recovery]) : s.powerWarning = s.powerOff := by
  unfold powerWarning
  cases hm : s.ms.mode <;> simp_all

theorem powerWarning_drained {s : State} (h : s.ms.mode ∈ [.drain, .backup]) : s.powerWarning = s := by
  unfold powerWarning
  cases hm : s.ms.mode <;> simp_all

theorem powerWarning_drains {s : State} (h : s.ms.mode ∉ [.lean, .recall, .recovery, .drain, .backup]) :
    s.powerWarning = (s.xferFail 7).enterDrain 1 := by
  unfold powerWarning
  cases hm : s.ms.mode <;> simp_all

theorem powerFail_input {s : State} {t : Nat} (mv : Nat) (h : s.pw.outSince = some t) :
    s.powerFail 0 mv = (s.advanceMono (t + msec 10)).powerWarning := by
  unfold powerFail
  rw [if_pos rfl, h]

theorem powerFail_bus {s : State} {c mv : Nat} (hc : c ≠ 0) (h : mv < 44000) :
    s.powerFail c mv = ({ s with pw := { s.pw with busMv := mv } } : State).powerWarning := by
  unfold powerFail
  rw [if_neg hc, if_pos h]

theorem seatedBreak_undrained {s : State} (h : ¬(s.ms.mode = .drain ∧ s.ms.drainOver = true)) :
    s.seatedBreak = ({ s with pw := { s.pw with seated := false } } : State).powerWarning := if_neg h

theorem supplyGone_off {s : State} (h : s.ms.mode ∈ [.lean, .recall, .recovery] ∨ (s.ms.mode = .drain ∧ s.ms.drainOver = true)) :
    s.supplyGone = ({ s with pw := { s.pw with inputOk := false, busMv := 0, bankMv := 0 } } : State).powerOff := by
  unfold supplyGone
  cases hm : s.ms.mode <;> simp_all

/-! ### A removal request, by mode (R47, R519) -/

section
variable {s : State} {held : Nat} (hh : 100 ≤ held)
include hh

theorem removalRequest_configure (hm : s.ms.mode = .configure) : s.removalRequest held = s.enterDrain 2 := by
  unfold removalRequest
  rw [if_neg (Nat.not_lt.2 hh), hm]

theorem removalRequest_noDrain (hm : s.ms.mode ∈ [.lean, .recall, .recovery]) :
    s.removalRequest held = s.setMs { s.ms with safeLed := true } := by
  unfold removalRequest
  rw [if_neg (Nat.not_lt.2 hh)]
  cases hm' : s.ms.mode <;> simp_all

theorem removalRequest_restarts (hm : s.ms.mode = .drain) (ho : s.ms.drainOver = true) (h3 : 3000 ≤ held) (hi : s.pw.inputOk = true) :
    s.removalRequest held = s.restartLean 5 false := by
  unfold removalRequest
  rw [if_neg (Nat.not_lt.2 hh), hm]
  exact if_pos (by simp [ho, h3, hi])

/-- Past Configure the module drains at once unless it is active and has a good standby. -/
theorem removalRequest_drains (hm : s.ms.mode ∈ [.stop, .run, .shadow, .test, .hold, .handover])
    (h : s.ms.active = false ∨ s.partnerGood = false) : s.removalRequest held = (s.xferFail 7).enterDrain 2 := by
  have hg : (s.ms.active && s.partnerGood) = false := by rcases h with h | h <;> simp [h]
  simp only [List.mem_cons, List.not_mem_nil, or_false] at hm
  unfold removalRequest
  rw [if_neg (Nat.not_lt.2 hh), hg]
  rcases hm with hm | hm | hm | hm | hm | hm
  all_goals
    rw [hm]
    exact (if_neg Bool.false_ne_true).trans (if_neg Bool.false_ne_true)

theorem removalRequest_handsOver (hm : s.ms.mode = .run) (ha : s.ms.active = true) (hg : s.partnerGood = true) (hsw : s.red.sw = 0) :
    s.removalRequest held =
      ((s.setMs { s.ms with removeWait := true, removeAt := s.mono }).setRed { s.red with removal := true }).switchRequest 5 0 := by
  unfold removalRequest
  rw [if_neg (Nat.not_lt.2 hh), hm]
  exact if_pos (by simp [ha, hg, hsw])

end

theorem removalTimeout_unconfirmed {s : State} (hr : s.red.removal = true) (hm : s.ms.mode ≠ .drain) :
    let u := s.advanceMono (s.ms.removeAt + msec 150)
    s.removalTimeout = (u.setMs { u.ms with noConfirm := true }).enterDrain (if s.ms.removeWait then 2 else 3) := by
  intro u
  unfold removalTimeout
  exact if_neg (by simp [hr, hm])

end State
end Sys2Proof.Machine

open Sys2Proof Sys2Proof.Machine Sys2Proof.Machine.State

/-- Settles O39, a clause per command: the command is its effect, and the effect where it acts is the lemma of its name above. -/
theorem supplyLossDrains : Obligations.SupplyLossDrains := by
  unfold Obligations.SupplyLossDrains
  refine ⟨?warning, ?off, ?input, ?bus, ?seat, ?gone, ?complete, ?removal, ?unconfirmed⟩
  case warning => exact fun s => ⟨powerWarning_noDrain, powerWarning_drained, powerWarning_drains⟩
  case off => exact fun s => ⟨rfl, rfl, rfl, rfl, rfl, rfl⟩
  case input => exact fun s t mv h => congrArg (done s) (powerFail_input mv h)
  case bus => exact fun s c mv hc h => congrArg (done s) (powerFail_bus hc h)
  case seat => exact fun s h => congrArg (done s) (seatedBreak_undrained h)
  case gone => exact fun s h => congrArg (done s) (supplyGone_off h)
  case complete =>
    intro s ok hm ho u
    have e : exec (.drainComplete ok) s = done s _ := congrArg (done s) (drainDone_underway ok hm ho)
    exact ⟨fun h => e.trans (congrArg (done s) (if_neg (h ▸ Bool.false_ne_true))), fun h => e.trans (congrArg (done s) (if_pos h))⟩
  case removal =>
    intro s held hh
    exact ⟨fun hm => congrArg (done s) (removalRequest_configure hh hm), fun hm => congrArg (done s) (removalRequest_noDrain hh hm),
      fun hm ho h3 hi => congrArg (done s) (removalRequest_restarts hh hm ho h3 hi),
      fun hm h => congrArg (done s) (removalRequest_drains hh hm h),
      fun hm ha hg hsw => congrArg (done s) (removalRequest_handsOver hh hm ha hg hsw)⟩
  case unconfirmed => exact fun s hr hm => congrArg (done s) (removalTimeout_unconfirmed hr hm)

end

section
/-! SUPPORT. How a flow instruction completes on an engine that runs it, and where the word in its delay slot leads; and O15, which says so. -/
namespace Sys2Proof.Machine
namespace State

/-! ### A flow instruction completes (R106) -/

/-- A running instruction whose body only decides a flow, and changes no state. -/
theorem runOp_flows {s : State} {q : Issue} {i : OpInfo} {body : List Row → State → Res × State} {d : Done} {t : Nat} {taken : Bool}
    (h : s.runs q.eng = true) (hd : s.decodeExc q.eng i = none) (hi : i.drains = false)
    (hb : body ((s.stk q.eng).take i.nin) (s.issued q) = (.ok d, s.issued q))
    (hg : d.goto = some (t, taken)) (ho : d.outs = []) (hp : d.post = id) :
    s.runOp q i body = (s.issued q).flowed q.eng i.nin (s.costOf q d.base i.worst) t taken
      (match d.rpush with
       | some r => r :: (s.eng q.eng).ctx.rstack
       | none => if d.rpop then (s.eng q.eng).ctx.rstack.drop 1 else (s.eng q.eng).ctx.rstack) := by
  rw [runOp_runs h hd (u := s.issued q) (by simp [hi]), issued_stk, hb]
  exact complete_flowed (s := s.issued q) (runs_lean h) hg ho hp

/-- In the self-timed regime a target above line 0 and below the end of the range passes the check (R91). -/
theorem flowBad_inRange {s : State} {e : Nat} {t : Int} (hlo : 9 ≤ t) (hhi : t < (s.progLen e * 9 : Nat)) : s.flowBad e t = false := by
  unfold flowBad
  rw [decide_eq_false (Int.not_lt.2 hlo), decide_eq_false (Int.not_le.2 hhi), Bool.and_false, Bool.or_false]

/-- A branch or call whose target is in range, with its entry and the room it needs, leads through its delay slot to the target or past the slot. -/
theorem flowOp_inRange {s : State} {q : Issue} {nin rout off : Nat} (word : Nat) (taken : Row → Bool) (call : Bool)
    (h : s.runs q.eng = true) (hf : (s.eng q.eng).ctx.flow = none) (hn : nin ≤ (s.stk q.eng).length) (ho : (s.stk q.eng).length ≤ 16)
    (hr : (s.eng q.eng).ctx.rstack.length + rout ≤ 32)
    (hlo : 9 ≤ ((s.eng q.eng).ctx.pc : Int) + 1 + signed 10 off)
    (hhi : ((s.eng q.eng).ctx.pc : Int) + 1 + signed 10 off < (s.progLen q.eng * 9 : Nat)) :
    s.flowOp q word nin rout off taken call =
      (s.issued q).flowed q.eng nin (s.costOf q 1 0) (((s.eng q.eng).ctx.pc : Int) + 1 + signed 10 off).toNat
        (taken (inp ((s.stk q.eng).take nin) 0))
        (if call then ((s.eng q.eng).ctx.pc + 2) :: (s.eng q.eng).ctx.rstack else (s.eng q.eng).ctx.rstack) := by
  have hd : s.decodeExc q.eng { word := word, slotBad := true, nin := nin, rout := rout } = none :=
    runs_decode rfl (.inr hf) rfl hn (show _ - nin + 0 ≤ 16 by omega) (Nat.zero_le _) hr
  have hbad : (s.issued q).flowBad q.eng (((s.eng q.eng).ctx.pc : Int) + 1 + signed 10 off) = false := flowBad_inRange hlo hhi
  have hl : (s.issued q).leanRegime q.eng = false := runs_lean h
  unfold flowOp
  rw [runOp_flows h hd rfl (by dsimp only; rw [issued_eng, hbad, hl]; rfl) rfl rfl rfl]
  cases call <;> rfl

/-- A conditional branch pops TOS either way, and TOS decides. -/
theorem flowOp_popsTos {s : State} {q : Issue} {off : Nat} {w : Row} {rest : List Row} (word : Nat) (taken : Row → Bool)
    (h : s.runs q.eng = true) (hf : (s.eng q.eng).ctx.flow = none) (hw : s.stk q.eng = w :: rest) (ho : (s.stk q.eng).length ≤ 16)
    (hlo : 9 ≤ ((s.eng q.eng).ctx.pc : Int) + 1 + signed 10 off)
    (hhi : ((s.eng q.eng).ctx.pc : Int) + 1 + signed 10 off < (s.progLen q.eng * 9 : Nat)) :
    s.flowOp q word 1 0 off taken false =
      (s.issued q).flowed q.eng 1 (s.costOf q 1 0) (((s.eng q.eng).ctx.pc : Int) + 1 + signed 10 off).toNat
        (taken w) (s.eng q.eng).ctx.rstack := by
  have hn : 1 ≤ (s.stk q.eng).length := by rw [hw]; exact Nat.succ_pos _
  rw [flowOp_inRange word taken false h hf hn ho (runs_rstack h) hlo hhi, hw]
  rfl

/-- RET continues at the return point it pops. -/
theorem ret_flows {s : State} {q : Issue} {r : Nat} {rs : List Nat} (h : s.runs q.eng = true) (hf : (s.eng q.eng).ctx.flow = none)
    (ho : (s.stk q.eng).length ≤ 16) (hrs : (s.eng q.eng).ctx.rstack = r :: rs) :
    exec (.ret q) s = done s ((s.issued q).flowed q.eng 0 (s.costOf q 1 0) r true rs) := by
  have hlen : (s.eng q.eng).ctx.rstack.length = rs.length + 1 := by rw [hrs, List.length_cons]
  have hmax := runs_rstack h
  have hd : s.decodeExc q.eng { word := 0x0804, slotBad := true, rin := 1 } = none :=
    runs_decode rfl (.inr hf) rfl (Nat.zero_le _) ho (show 1 ≤ _ by omega) (show _ - 1 + 0 ≤ 32 by omega)
  rw [exec_ret]
  unfold execRet
  rw [act_eq, runOp_flows h hd rfl rfl rfl rfl rfl, issued_eng, hrs]
  rfl

/-! ### What an engine holds after an instruction -/

@[simp] theorem addHs_engines (s : State) (e n : Nat) : (s.addHs e n).engines = s.engines := by
  unfold addHs
  split
  · rfl
  · dsimp only
    split
    · rw [setTask_engines, bump64_engines]
    · exact bump64_engines _ _ _

/-- Counting handshakes leaves each engine as it stands. -/
@[simp] theorem addHs_eng (s : State) (e n j : Nat) : (s.addHs e n).eng j = s.eng j :=
  congrArg (·.get {} j) (addHs_engines s e n)

/-- An instruction that is not a flow instruction leads to where the program counter or the delay slot says. -/
theorem ran_pc (s : State) (e nin : Nat) (outs : List Row) (hs : Nat) :
    ((s.ran e nin outs hs).eng e).ctx.pc = nextPc (s.eng e).ctx := by
  unfold ran
  rw [addHs_eng, eng_setEng_same]

theorem flowed_pc (s : State) (e nin hs t : Nat) (taken : Bool) (rs : List Nat) :
    ((s.flowed e nin hs t taken rs).eng e).ctx.pc = (s.eng e).ctx.pc + 1 := by
  unfold flowed
  rw [addHs_eng, eng_setEng_same]

theorem flowed_flow (s : State) (e nin hs t : Nat) (taken : Bool) (rs : List Nat) :
    ((s.flowed e nin hs t taken rs).eng e).ctx.flow = some { target := t, next := if taken then t else (s.eng e).ctx.pc + 2 } := by
  unfold flowed
  rw [addHs_eng, eng_setEng_same]

/-- From a delay slot the next word is the one its flow instruction decided (R106). -/
theorem nextPc_slot {c : Ctx} {f : Flow} (h : c.flow = some f) : nextPc c = f.next := by
  unfold nextPc
  rw [h]

end State
end Sys2Proof.Machine

open Sys2Proof Sys2Proof.Machine Sys2Proof.Machine.State

/-- Settles O15: each flow instruction completes as `flowed` says, and the word after one finds `flowed`'s decision in its delay slot. -/
theorem flowTakesItsDelaySlot : Obligations.FlowTakesItsDelaySlot := by
  unfold Obligations.FlowTakesItsDelaySlot
  refine ⟨?branch, fun q s r rs h hf ho hrs => ret_flows h hf ho hrs, ?slot⟩
  case branch =>
    intro q s off h hf ho pc rs t u cost hlo hhi
    refine ⟨?br, fun w rest hw => ⟨?bz, ?bnz⟩, fun hroom => ?call⟩
    case br => exact congrArg (done s) (flowOp_inRange _ _ false h hf (Nat.zero_le _) ho (runs_rstack h) hlo hhi)
    case bz => exact congrArg (done s) (flowOp_popsTos _ _ h hf hw ho hlo hhi)
    case bnz =>
      simp only [ne_eq, decide_not]
      exact congrArg (done s) (flowOp_popsTos _ _ h hf hw ho hlo hhi)
    case call => exact congrArg (done s) (flowOp_inRange _ _ true h hf (Nat.zero_le _) ho (Nat.succ_le_succ hroom) hlo hhi)
  case slot =>
    intro s e nin hs t taken rs m n o
    exact ⟨flowed_pc s e nin hs t taken rs, (ran_pc _ e m o n).trans (nextPc_slot (flowed_flow s e nin hs t taken rs))⟩

end

section
/-! SUPPORT. How an instruction that reaches its body ends, and what those that only compute leave on the stack: whole entries, lanes and scalars
(Tables 5.4 to 5.6); and O4, O5 and O6, which say so. -/
namespace Sys2Proof.Machine
namespace State

/-! ### How an instruction that reaches its body ends -/

section
variable {s u t : State} {q : Issue} {i : OpInfo} {body : List Row → State → Res × State}

/-- A body that answers outputs, and no flow, in an engine that stays in the self-timed regime completes its instruction. -/
theorem runOp_completes {d : Done} (h : s.runs q.eng = true) (hd : s.decodeExc q.eng i = none)
    (hu : (if i.drains then s.afterDrain q else (none, s.issued q)) = (none, u)) (hb : body ((u.stk q.eng).take i.nin) u = (.ok d, t))
    (hl : t.leanRegime q.eng = false) (hg : d.goto = none) (hp : d.rpush = none) (hr : d.rpop = false) :
    s.runOp q i body = d.post (t.ran q.eng i.nin d.outs (t.hsCost q.eng d.base (s.waitOf q i.worst))) := by
  rw [runOp_runs h hd hu, hb]
  exact complete_ran hl hg hp hr

/-- A body that answers an exception has its instruction take it, some handshakes after its issue. -/
theorem runOp_excepts {code kind addr : Nat} (h : s.runs q.eng = true) (hd : s.decodeExc q.eng i = none)
    (hu : (if i.drains then s.afterDrain q else (none, s.issued q)) = (none, u))
    (hb : body ((u.stk q.eng).take i.nin) u = (.exc code kind addr, t)) :
    ∃ hs, s.runOp q i body = t.takeExc q.eng hs (t.excHere q.eng i code kind addr) := by
  rw [runOp_runs h hd hu, hb]
  exact ⟨_, rfl⟩

end

end State

/-! ### Inputs, of one and two -/

theorem inp_tos (a : Row) (l : List Row) : inp (a :: l) 0 = a := rfl

theorem inp_below (a b : Row) (l : List Row) : inp (a :: b :: l) 1 = b := rfl

theorem takes_comp1 {mk : Issue → Instr} {word base : Nat} {f : Row → Row} {a : Row} {P : List Row → Prop}
    (hm : ∀ q s, exec (mk q) s = comp1 q word base f s) (hP : P [f a]) : Takes mk [a] 1 base P :=
  takes_comp hm rfl rfl hP

theorem takes_comp2 {mk : Issue → Instr} {word base : Nat} {f : Row → Row → Row} {a b : Row} {P : List Row → Prop}
    (hm : ∀ q s, exec (mk q) s = comp2 q word base f s) (hP : P [f a b]) : Takes mk [b, a] 1 base P :=
  takes_comp hm rfl rfl hP

/-- A row is given by its 256 lanes. -/
theorem lanes_row {r : Row} {f : Nat → Bool} (h : ∀ i < 256, r.getLsbD i = f i) : Lanes f [r] := ⟨r, rfl, h⟩

theorem scalar_lt (r : Row) : scalar r < 2 ^ 64 := Nat.mod_lt _ (Nat.two_pow_pos 64)

theorem scalar_ofScalar {v : Nat} (h : v < 2 ^ 64) : Scalar v [ofScalar v] :=
  ⟨h, by rw [ofScalar, Nat.mod_eq_of_lt h]⟩

/-- A truth value is left as 1 or 0 (R131). -/
theorem scalar_ofBool {p : Prop} [Decidable p] {b : Bool} (h : b = true ↔ p) : Scalar (if p then 1 else 0) [ofBool b] := by
  have hb : b = decide p := by rw [Bool.eq_iff_iff, decide_eq_true_iff]; exact h
  subst hb
  by_cases hp : p
  · simp [hp, Scalar, ofBool, ofScalar, b2n]
  · simp [hp, Scalar, ofBool, ofScalar, b2n]

/-! ### PICK (R122) -/

/-- PICK with its index on the stack and room for what it leaves passes the checks of stages 2 to 4. -/
theorem pick_decodes {s : State} {q : Issue} {n : Row} {rest : List Row} (h : s.runs q.eng = true) (hs : s.stk q.eng = n :: rest)
    (hl : rest.length ≤ 15) : s.decodeExc q.eng { word := 0x0007, nin := 1, nout := 1 } = none := by
  have hlen : (s.stk q.eng).length = rest.length + 1 := by rw [hs, List.length_cons]
  exact State.runs_decode rfl (.inl rfl) rfl (show 1 ≤ _ by omega) (show _ - 1 + 1 ≤ 16 by omega) (Nat.zero_le _) (State.runs_rstack h)

theorem exec_pick_indexes {s : State} {q : Issue} {n x : Row} {rest : List Row} (h : s.runs q.eng = true) (hs : s.stk q.eng = n :: rest)
    (hl : rest.length ≤ 15) (hn : scalar n ≤ 14) (hx : rest[scalar n]? = some x) :
    exec (.pick q) s = done s ((s.issued q).ran q.eng 1 [x] (s.costOf q 1 0)) := by
  obtain ⟨hlt, hget⟩ := List.getElem?_eq_some_iff.1 hx
  have hctx : ((s.issued q).eng q.eng).ctx.stack = n :: rest := hs
  have hgetD : rest.getD (scalar n) 0 = x := by rw [List.getD_eq_getElem?_getD, hx]; rfl
  rw [exec_pick]
  unfold execPick
  refine congrArg (done s) (State.runOp_completes (t := s.issued q) (d := { outs := [x] }) h (pick_decodes h hs hl) rfl ?_ (State.runs_lean h)
    rfl rfl rfl)
  simp only [State.issued_stk, hs, hctx, inp_tos, List.take_succ_cons, List.take_zero, List.drop_succ_cons, List.drop_zero]
  rw [if_neg (by omega), hgetD]

theorem exec_pick_underflows {s : State} {q : Issue} {n : Row} {rest : List Row} (h : s.runs q.eng = true) (hs : s.stk q.eng = n :: rest)
    (hl : rest.length ≤ 15) (hn : 14 < scalar n ∨ rest.length ≤ scalar n) :
    exec (.pick q) s = done s ((s.issued q).takeExc q.eng 1 ((s.issued q).excHere q.eng { word := 0x0007 } 0x02 0 0)) := by
  have hctx : ((s.issued q).eng q.eng).ctx.stack = n :: rest := hs
  rw [exec_pick]
  unfold execPick
  rw [act_eq, State.runOp_runs h (pick_decodes h hs hl) (u := s.issued q) rfl]
  simp only [State.issued_stk, hs, hctx, inp_tos, List.take_succ_cons, List.take_zero, List.drop_succ_cons, List.drop_zero]
  rw [if_pos hn]
  rfl

/-! ### Lanes (Tables 5.5 and 5.6) -/

theorem mergeRow_lane (old val mask : Row) {i : Nat} (hi : i < 256) :
    (mergeRow old val mask).getLsbD i = if mask.getLsbD i then val.getLsbD i else old.getLsbD i := by
  unfold mergeRow
  rw [BitVec.getLsbD_or, BitVec.getLsbD_and, BitVec.getLsbD_and, BitVec.getLsbD_not, decide_eq_true hi]
  cases mask.getLsbD i <;> simp

theorem laneShU_lane (r : Row) (n : Nat) {i : Nat} (hi : i < 256) :
    (laneShU r n).getLsbD i = (decide (n ≤ i) && r.getLsbD (i - n)) := by
  unfold laneShU
  split
  · have : ¬n ≤ i := by omega
    simp [this]
  · rw [BitVec.getLsbD_shiftLeft, decide_eq_true hi, Bool.true_and, ← decide_not]
    simp only [not_lt]

theorem laneShD_lane (r : Row) (n i : Nat) :
    (laneShD r n).getLsbD i = (decide (i + n ≤ 255) && r.getLsbD (i + n)) := by
  unfold laneShD
  by_cases hin : i + n ≤ 255
  · have hn : ¬n ≥ 256 := by omega
    simp [hn, hin, BitVec.getLsbD_ushiftRight, Nat.add_comm n i]
  · have hout : r.getLsbD (n + i) = false := BitVec.getLsbD_of_ge _ _ (by omega)
    split
    · simp [hin]
    · simp [hin, BitVec.getLsbD_ushiftRight, hout]

/-- A rotation by k takes lane i from k lanes below, around the row's end. -/
theorem laneRot_lane (r : Row) (n : Nat) {i : Nat} (hi : i < 256) :
    (laneRot r n).getLsbD i = r.getLsbD ((i + 256 - n % 256) % 256) := by
  have hk : n % 256 < 256 := Nat.mod_lt _ (by decide)
  unfold laneRot
  generalize n % 256 = k at hk ⊢
  by_cases hki : k ≤ i
  · have hpos : (i + 256 - k) % 256 = i - k := by omega
    have hhigh : (if k = 0 then (0 : Row) else r >>> (256 - k)).getLsbD i = false := by
      split
      · simp
      · rw [BitVec.getLsbD_ushiftRight]
        exact BitVec.getLsbD_of_ge _ _ (by omega)
    rw [BitVec.getLsbD_or, hhigh, hpos, BitVec.getLsbD_shiftLeft]
    simp [hi, hki]
  · have hpos : (i + 256 - k) % 256 = 256 - k + i := by omega
    have hk0 : k ≠ 0 := by omega
    rw [BitVec.getLsbD_or, if_neg hk0, hpos, BitVec.getLsbD_shiftLeft, BitVec.getLsbD_ushiftRight]
    simp [Nat.lt_of_not_le hki]

theorem allOnes_lane {i : Nat} (hi : i < 256) : (BitVec.allOnes 256).getLsbD i = true :=
  BitVec.getLsbD_allOnes.trans (decide_eq_true hi)

theorem laneBcast_lane (r : Row) (n : Nat) {i : Nat} (hi : i < 256) :
    (laneBcast r n).getLsbD i = (decide (n < 256) && r.getLsbD n) := by
  unfold laneBcast
  split
  case isTrue h => rw [allOnes_lane hi, h.2, decide_eq_true h.1]; rfl
  case isFalse h => simpa using fun hn hr => h ⟨hn, hr⟩

theorem laneLow_lane (n : Nat) {i : Nat} (hi : i < 256) : (laneLow n).getLsbD i = decide (i < n) := by
  unfold laneLow
  split
  · have : i < n := by omega
    rw [allOnes_lane hi, decide_eq_true this]
  · rw [BitVec.getLsbD_ofNat, Nat.testBit_two_pow_sub_one]
    simp [hi]

/-- A row is 0 exactly where no lane is 1. -/
theorem anyLane_iff (r : Row) : (r != 0) = true ↔ (List.range 256).any (fun i => r.getLsbD i) = true := by
  rw [bne_iff_ne, List.any_eq_true]
  constructor
  · intro h
    by_contra hn
    refine h (BitVec.eq_of_getLsbD_eq fun i hi => ?_)
    refine Eq.trans ?_ BitVec.getLsbD_zero.symm
    exact eq_false_of_ne_true fun hr => hn ⟨i, List.mem_range.2 hi, hr⟩
  · rintro ⟨i, -, hi⟩ rfl
    simp at hi

/-- A row is all ones exactly where every lane is 1. -/
theorem allLanes_iff (r : Row) : (r == BitVec.allOnes 256) = true ↔ (List.range 256).all (fun i => r.getLsbD i) = true := by
  rw [beq_iff_eq, List.all_eq_true]
  constructor
  · rintro rfl i hi
    exact allOnes_lane (List.mem_range.1 hi)
  · refine fun h => BitVec.eq_of_getLsbD_eq fun i hi => ?_
    rw [h i (List.mem_range.2 hi), allOnes_lane hi]

/-- Adding up truth values counts those that hold. -/
theorem foldl_b2n_eq_countP (p : Nat → Bool) (l : List Nat) (n : Nat) : l.foldl (fun a i => a + b2n (p i)) n = n + l.countP p := by
  induction l generalizing n with
  | nil => rfl
  | cons i l ih =>
    rw [List.foldl_cons, ih, List.countP_cons, Nat.add_assoc, Nat.add_comm (b2n (p i))]
    rfl

theorem laneCount_eq (r : Row) : laneCount r = (List.range 256).countP fun i => r.getLsbD i :=
  (foldl_b2n_eq_countP _ _ 0).trans (Nat.zero_add _)

theorem laneCount_lt (r : Row) : laneCount r < 2 ^ 64 :=
  laneCount_eq r ▸ Nat.lt_of_le_of_lt List.countP_le_length (by simp)

end Sys2Proof.Machine

open Sys2Proof Sys2Proof.Machine Sys2Proof.Machine.State

/-- Settles O4: the fixed ones compute a list of the entries they find; PICK's body decides on its index. -/
theorem stackInstructionsMoveEntries : Obligations.StackInstructionsMoveEntries := by
  unfold Obligations.StackInstructionsMoveEntries
  exact ⟨takes_comp exec_nop rfl rfl rfl, fun _ => takes_comp exec_dup rfl rfl rfl, fun _ => takes_comp exec_drop rfl rfl rfl,
    fun _ _ => takes_comp exec_swap rfl rfl rfl, fun _ _ => takes_comp exec_over rfl rfl rfl,
    fun _ _ _ => takes_comp exec_rot rfl rfl rfl, fun _ _ => takes_comp exec_nip rfl rfl rfl,
    fun _ _ _ _ _ h hs hl hn hx => exec_pick_indexes h hs hl hn hx, fun _ _ _ _ h hs hl hn => exec_pick_underflows h hs hl hn⟩

/-- Settles O5: each instruction is one operation on bit vectors, whose lanes the library gives. -/
theorem rowLogicActsOnEveryLane : Obligations.RowLogicActsOnEveryLane := by
  unfold Obligations.RowLogicActsOnEveryLane
  refine ⟨fun a b => takes_comp2 exec_and_ (lanes_row ?and), fun a b => takes_comp2 exec_or_ (lanes_row ?or),
    fun a b => takes_comp2 exec_xor (lanes_row ?xor), fun a => takes_comp1 exec_not_ (lanes_row ?not),
    fun a b => takes_comp2 exec_andn (lanes_row ?andn), fun a b => takes_comp2 exec_orn (lanes_row ?orn),
    fun a b m => takes_comp exec_mux rfl rfl (lanes_row ?mux)⟩
  case and => exact fun i _ => BitVec.getLsbD_and
  case or => exact fun i _ => BitVec.getLsbD_or
  case xor => exact fun i _ => BitVec.getLsbD_xor
  case not => intro i hi; simp [hi]
  case andn => intro i hi; simp [hi]
  case orn => intro i hi; simp [hi]
  case mux => exact fun i hi => mergeRow_lane a b m hi

/-- Settles O6: each instruction leaves its lane operation, whose lanes the lemma of its name above gives, or a test or count of them. -/
theorem laneInstructionsMoveLanes : Obligations.LaneInstructionsMoveLanes := by
  unfold Obligations.LaneInstructionsMoveLanes
  exact ⟨fun a n => takes_comp2 exec_lshu (lanes_row fun _ hi => laneShU_lane a _ hi),
    fun a n => takes_comp2 exec_lshd (lanes_row fun i _ => laneShD_lane a _ i),
    fun a n => takes_comp2 exec_lrot (lanes_row fun _ hi => laneRot_lane a _ hi),
    fun a n => takes_comp2 exec_bcast (lanes_row fun _ hi => laneBcast_lane a _ hi),
    fun a => takes_comp1 exec_any (scalar_ofBool (anyLane_iff a)),
    fun a => takes_comp1 exec_all (scalar_ofBool (allLanes_iff a)),
    fun a => takes_comp1 exec_popc (laneCount_eq a ▸ scalar_ofScalar (laneCount_lt a)),
    fun n => takes_comp1 exec_lmask (lanes_row fun _ hi => laneLow_lane _ hi)⟩

end

section
/-! SUPPORT. Integer and literal scalars (R120, R129), NaNs in the real operations and compares (R130, R131), the time instructions (R140); and O11,
O12, O14 and O20, which say so. -/
namespace Sys2Proof.Machine

/-! ### Signed scalars (R89, R129) -/

theorem sval_eq_sscalar (r : Row) : sval r = sscalar r := by
  have h := scalar_lt r
  unfold sval sscalar signed
  rw [Nat.mod_eq_of_lt h]
  split <;> split <;> omega

/-- A signed result is left in two's complement (R129). -/
theorem wrapped_ofInt (v : Int) : Wrapped v [ofInt v] := by
  refine ⟨?_, rfl⟩
  have h : v % 2 ^ 64 < 2 ^ 64 := Int.emod_lt_of_pos v (by decide)
  have h0 : 0 ≤ v % 2 ^ 64 := Int.emod_nonneg v (by decide)
  omega

/-! ### Literals (R120) -/

theorem signed_literal {imm : Nat} (h : imm < 2048) : signed 11 imm = if imm < 1024 then (imm : Int) else (imm : Int) - 2048 := by
  unfold signed
  rw [Nat.mod_eq_of_lt (show imm < 2 ^ 11 from h)]
  rfl

/-- Shifting by 11 leaves the place of the 11 bits ORed in clear. -/
theorem extended_eq_or (a : Nat) {imm : Nat} (h : imm < 2048) :
    a * 2048 % 2 ^ 64 + imm % 2048 = (a * 2 ^ 11 % 2 ^ 64) ||| imm := by
  have hlow : a * 2 ^ 11 % 2 ^ 64 = 2 ^ 11 * (a % 2 ^ 53) := by omega
  rw [Nat.mod_eq_of_lt h, hlow, ← Nat.two_pow_add_eq_or_of_lt h, ← hlow]
  rfl

theorem extended_lt (a : Nat) {imm : Nat} (h : imm < 2048) : (a * 2 ^ 11 % 2 ^ 64) ||| imm < 2 ^ 64 :=
  Nat.or_lt_two_pow (Nat.mod_lt _ (Nat.two_pow_pos 64)) (Nat.lt_trans h (by decide))

/-- Fewer entries than a legal instruction takes are STKUNF (Table 5.1 stage 4). -/
theorem decodeExc_underflow {s : State} {e : Nat} {i : OpInfo} (hi : i.illegal = false) (hs : i.slotBad = false) (hd : i.denied = false)
    (hn : (s.stk e).length < i.nin) : s.decodeExc e i = some (0x02, 0) := by
  have hn' : (s.eng e).ctx.stack.length < i.nin := hn
  unfold State.decodeExc
  simp [hi, hs, hd, hn']

theorem exec_ext_underflows {s : State} {q : Issue} {imm : Nat} (hi : imm < 2048) (h : s.runs q.eng = true) (hs : s.stk q.eng = []) :
    exec (.ext q imm) s = done s ((s.advance q.at_).takeExc q.eng 1 ((s.advance q.at_).excHere q.eng { word := 0x3800 + imm } 0x02 0 0)) := by
  have hd : s.decodeExc q.eng { word := 0x3800 + imm % 2048, nin := 1, nout := 1, base := 1 } = some (0x02, 0) :=
    decodeExc_underflow rfl rfl rfl (by rw [hs]; exact Nat.one_pos)
  rw [exec_ext]
  unfold execExt comp1 comp
  rw [act_eq, State.runOp_refused h hd, Nat.mod_eq_of_lt hi]
  rfl

/-! ### NaNs (R130, R131) -/

namespace Fmt

theorem isNan_iff {f : Fmt} {a : Nat} : f.isNan a = true ↔ f.decode a = .nan := decide_eq_true_iff

theorem addFl_nan {f : Fmt} {x y : Fl} (h : x = .nan ∨ y = .nan) : f.addFl x y = f.nan := by
  rcases h with rfl | rfl
  · rfl
  · cases x <;> rfl

theorem mul_eq_nan {x y : Fl} (h : x = .nan ∨ y = .nan) : x.mul y = .nan := by
  rcases h with rfl | rfl
  · rfl
  · cases x <;> rfl

theorem add_nan {f : Fmt} {a b : Nat} (h : f.decode a = .nan ∨ f.decode b = .nan) : f.add a b = f.nan := addFl_nan h

theorem sub_nan {f : Fmt} {a b : Nat} (h : f.decode a = .nan ∨ f.decode b = .nan) : f.sub a b = f.nan :=
  addFl_nan (h.imp_right (congrArg Fl.neg))

theorem mul_nan {f : Fmt} {a b : Nat} (h : f.decode a = .nan ∨ f.decode b = .nan) : f.mul a b = f.nan :=
  congrArg f.pack (mul_eq_nan h)

theorem div_nan {f : Fmt} {a b : Nat} (h : f.decode a = .nan ∨ f.decode b = .nan) : f.div a b = f.nan := by
  unfold div
  rcases h with h | h
  · rw [h]
  · rw [h]
    cases f.decode a <;> rfl

theorem fma_nan {f : Fmt} {a b c : Nat} (h : (f.decode a = .nan ∨ f.decode b = .nan) ∨ f.decode c = .nan) : f.fma a b c = f.nan :=
  addFl_nan (h.imp_left mul_eq_nan)

theorem sqrt_nan {f : Fmt} {a : Nat} (h : f.decode a = .nan) : f.sqrt a = f.nan := by
  unfold sqrt
  rw [h]

theorem min_max_nans {f : Fmt} {a b : Nat} (ha : f.isNan a = true) (hb : f.isNan b = true) : f.min a b = f.nan ∧ f.max a b = f.nan := by
  unfold min max
  simp [ha, hb]

/-- FMIN and FMAX prefer a number to a NaN, on either side. -/
theorem min_max_number {f : Fmt} {a b : Nat} (ha : f.isNan a = true) (hb : f.isNan b = false) (hlt : b < 2 ^ f.width) :
    f.min a b = b ∧ f.max a b = b ∧ f.min b a = b ∧ f.max b a = b := by
  unfold min max
  simp [ha, hb, Nat.mod_eq_of_lt hlt]

/-- A relation of two reals is false with a NaN. -/
theorem relation_nan {f : Fmt} {a b : Nat} (h : f.decode a = .nan ∨ f.decode b = .nan) (p : Bool) :
    (!f.isNan a && !f.isNan b && p) = false := by
  rcases h with h | h <;> simp [isNan_iff.2 h]

theorem relation_numbers {f : Fmt} {a b : Nat} (ha : ¬f.decode a = .nan) (hb : ¬f.decode b = .nan) (p : Bool) :
    (!f.isNan a && !f.isNan b && p) = p := by
  rw [Bool.eq_false_iff.2 (mt isNan_iff.1 ha), Bool.eq_false_iff.2 (mt isNan_iff.1 hb)]
  rfl

theorem un_nan {f : Fmt} {a b : Nat} (h : f.decode a = .nan ∨ f.decode b = .nan) : f.un a b = true :=
  Bool.or_eq_true_iff.2 (h.imp isNan_iff.2 isNan_iff.2)

theorem un_numbers {f : Fmt} {a b : Nat} (ha : ¬f.decode a = .nan) (hb : ¬f.decode b = .nan) : f.un a b = false :=
  Bool.or_eq_false_iff.2 ⟨Bool.eq_false_iff.2 (mt isNan_iff.1 ha), Bool.eq_false_iff.2 (mt isNan_iff.1 hb)⟩

end Fmt

/-- A real compare that says false leaves 0, one that says true leaves 1. -/
theorem scalar_truth {b c : Bool} (h : b = c) : Scalar (b2n c) [ofBool b] := by
  subst h
  cases b <;> exact scalar_ofScalar (by decide)

/-- A real relation of two numbers leaves 1 exactly where it holds. -/
theorem scalar_relation {f : Fmt} {a b : Nat} {p : Prop} [Decidable p] (ha : ¬f.decode a = .nan) (hb : ¬f.decode b = .nan) :
    Scalar (if p then 1 else 0) [ofBool (!f.isNan a && !f.isNan b && decide p)] := by
  rw [Fmt.relation_numbers ha hb]
  exact scalar_ofBool decide_eq_true_iff

/-! ### Time (R140) -/

/-- A time instruction pushes its value of the issued state. -/
theorem timeOp_pushes {s : State} {q : Issue} {f : State → Nat} {v : Nat} (word : Nat) (h : s.runs q.eng = true)
    (hl : (s.stk q.eng).length ≤ 15) (hv : f (s.issued q) = v) :
    timeOp q word f s = done s ((s.issued q).ran q.eng 0 [BitVec.ofNat 256 (v % 2 ^ 64)] (s.costOf q 2 0)) := by
  subst hv
  have hd : s.decodeExc q.eng { word := word, nout := 1, base := 2 } = none :=
    State.runs_decode rfl (.inl rfl) rfl (Nat.zero_le _) (show _ - 0 + 1 ≤ 16 by omega) (Nat.zero_le _) (State.runs_rstack h)
  unfold timeOp
  exact congrArg (done s) (State.runOp_completes (t := s.issued q) (d := { outs := [ofScalar (f (s.issued q))], base := 2 }) h hd rfl rfl
    (State.runs_lean h) rfl rfl rfl)

theorem form64_lt (t : Nat) : form64 t < 2 ^ 64 := Nat.mod_lt _ (Nat.two_pow_pos 64)

/-- The difference of two 64-bit times modulo 2^64. -/
theorem elapsed_eq {a b : Nat} (hb : b < 2 ^ 64) : (a + 2 ^ 64 - b) % 2 ^ 64 = (((a : Int) - b) % 2 ^ 64).toNat := by
  omega

end Sys2Proof.Machine

open Sys2Proof Sys2Proof.Machine Sys2Proof.Machine.State

/-- Settles O11: a NaN decodes to `.nan`, which every operation passes on; the zeros are fixed patterns. -/
theorem naNsAreCanonicalAndZerosOrdered : Obligations.NaNsAreCanonicalAndZerosOrdered := by
  unfold Obligations.NaNsAreCanonicalAndZerosOrdered
  refine ⟨by decide, by decide, fun f hf => ⟨fun a b c _ hb => ⟨fun h => ?pair, fun ha => Fmt.sqrt_nan (Fmt.isNan_iff.1 ha),
    fun hc => Fmt.fma_nan (.inr (Fmt.isNan_iff.1 hc)), Fmt.min_max_nans, fun ha hn => Fmt.min_max_number ha hn hb⟩, ?zeros⟩⟩
  case pair =>
    have h' : f.decode a = .nan ∨ f.decode b = .nan := h.imp Fmt.isNan_iff.1 Fmt.isNan_iff.1
    exact ⟨Fmt.add_nan h', Fmt.sub_nan h', Fmt.mul_nan h', Fmt.div_nan h', Fmt.fma_nan (.inl h')⟩
  case zeros =>
    simp only [List.mem_cons, List.not_mem_nil, or_false] at hf
    rcases hf with rfl | rfl <;> decide

/-- Settles O12: a compare leaves a truth value of its relation; a NaN decides a real one. -/
theorem comparesPushTheirRelation : Obligations.ComparesPushTheirRelation := by
  unfold Obligations.ComparesPushTheirRelation
  simp only [sval_eq_sscalar]
  refine ⟨fun a b => takes_comp2 exec_eq (scalar_ofBool beq_iff_eq), fun a b => takes_comp2 exec_ne (scalar_ofBool bne_iff_ne),
    fun a b => takes_comp2 exec_lt (scalar_ofBool decide_eq_true_iff), fun a b => takes_comp2 exec_le (scalar_ofBool decide_eq_true_iff),
    fun a b => takes_comp2 exec_gt (scalar_ofBool decide_eq_true_iff), fun a b => takes_comp2 exec_ge (scalar_ofBool decide_eq_true_iff),
    fun a b => takes_comp2 exec_ltu (scalar_ofBool decide_eq_true_iff), fun a b => takes_comp2 exec_leu (scalar_ofBool decide_eq_true_iff),
    fun a b => takes_comp2 exec_gtu (scalar_ofBool decide_eq_true_iff), fun a b => takes_comp2 exec_geu (scalar_ofBool decide_eq_true_iff),
    fun a b => takes_comp2 exec_req (scalar_ofBool beq_iff_eq), fun dbl => ⟨fun a b h => ?nan, fun a b ha hb => ?numbers, ?zeros⟩⟩
  case nan =>
    exact ⟨takes_comp2 (exec_feq · dbl) (scalar_truth (c := false) (Fmt.relation_nan h _)),
      takes_comp2 (exec_flt · dbl) (scalar_truth (c := false) (Fmt.relation_nan h _)),
      takes_comp2 (exec_fle · dbl) (scalar_truth (c := false) (Fmt.relation_nan h _)),
      takes_comp2 (exec_fun · dbl) (scalar_truth (c := true) (Fmt.un_nan h))⟩
  case numbers =>
    exact ⟨takes_comp2 (exec_feq · dbl) (scalar_relation ha hb), takes_comp2 (exec_flt · dbl) (scalar_relation ha hb),
      takes_comp2 (exec_fle · dbl) (scalar_relation ha hb), takes_comp2 (exec_fun · dbl) (scalar_truth (c := false) (Fmt.un_numbers ha hb))⟩
  case zeros => cases dbl <;> decide

/-- Settles O14: the literal is signed 11 bits wide, EXT's low 11 bits are clear before it ORs, and an empty stack fails its check. -/
theorem literalsExtendTheTop : Obligations.LiteralsExtendTheTop := by
  unfold Obligations.LiteralsExtendTheTop
  refine ⟨fun imm hi => ?lit, fun imm hi a => ?ext, fun imm hi q s h hs => exec_ext_underflows hi h hs⟩
  case lit => exact takes_comp (exec_lit · imm) rfl rfl (signed_literal hi ▸ wrapped_ofInt (signed 11 imm))
  case ext => exact takes_comp1 (exec_ext · imm) (extended_eq_or (scalar a) hi ▸ scalar_ofScalar (extended_eq_or (scalar a) hi ▸ extended_lt _ hi))

/-- Settles O20: each pushes its value of the issued state. -/
theorem timeInstructionsReadTheClock : Obligations.TimeInstructionsReadTheClock := by
  unfold Obligations.TimeInstructionsReadTheClock
  intro q s h hl u epoch hs ns pushes
  exact ⟨timeOp_pushes 0x0B00 h hl rfl, timeOp_pushes 0x0B01 h hl rfl,
    timeOp_pushes 0x0B02 h hl (elapsed_eq (form64_lt epoch)), timeOp_pushes 0x0B03 h hl rfl⟩

end

section
/-! SUPPORT. What a memory access of an engine leaves alone: the modes, the bents, and every engine's task and operand stack, on which rest the regime
it runs in and the entries its instruction finds. -/
namespace Sys2Proof

/-- Changing the listed values changes what a key reads as. -/
theorem find_map_value {α : Type} (m : SMap α) (f : α → α) (k : Nat) :
    SMap.find? (m.map (fun e => (e.1, f e.2))) k = (SMap.find? m k).map f := by
  induction m with
  | nil => rfl
  | cons e rest ih =>
    obtain ⟨j, v⟩ := e
    by_cases hj : j = k
    · simp [SMap.find?, hj]
    · simpa [SMap.find?, hj] using ih

namespace Machine
namespace State

/-- The modes, the bents, and each engine's task and operand stack. -/
def standing (s : State) : ModeSt × SMap Bent × (Nat → Option Nat × List Row) := (s.ms, s.bents, fun e => ((s.eng e).task, s.stk e))

/-- The state half of an operation that answers, once the answer is named. -/
theorem standing_snd {α : Type} {p : α × State} {a : α} {s t : State} (h : p = (a, t)) (hp : p.2.standing = s.standing) :
    t.standing = s.standing := by
  subst h
  exact hp

theorem task_of_standing {s t : State} (h : t.standing = s.standing) (e : Nat) : (t.eng e).task = (s.eng e).task :=
  congrArg Prod.fst (congrFun (congrArg (fun p => p.2.2) h) e)

theorem stk_of_standing {s t : State} (h : t.standing = s.standing) (e : Nat) : t.stk e = s.stk e :=
  congrArg Prod.snd (congrFun (congrArg (fun p => p.2.2) h) e)

/-! ### Single updates (proved by `(rfl)`, so that `simp` rewrites with them and does not compare the registers written) -/

@[simp] theorem wr_standing (s : State) (a v : Nat) : (s.wr a v).standing = s.standing := (rfl)
@[simp] theorem wr64_standing (s : State) (a v : Nat) : (s.wr64 a v).standing = s.standing := (wr_standing _ _ _).trans (wr_standing _ _ _)
@[simp] theorem setBit_standing (s : State) (a i : Nat) (b : Bool) : (s.setBit a i b).standing = s.standing := wr_standing _ _ _
@[simp] theorem clr_standing (s : State) (a : Nat) : (s.clr a).standing = s.standing := wr_standing _ _ _
@[simp] theorem bump_standing (s : State) (a n : Nat) : (s.bump a n).standing = s.standing := wr_standing _ _ _
@[simp] theorem bump64_standing (s : State) (a n : Nat) : (s.bump64 a n).standing = s.standing := wr64_standing _ _ _
@[simp] theorem maxReg_standing (s : State) (a v : Nat) : (s.maxReg a v).standing = s.standing := wr_standing _ _ _
@[simp] theorem raise_standing (s : State) (src task d1 d2 : Nat) : (s.raise src task d1 d2).standing = s.standing := (rfl)
@[simp] theorem advance_standing (s : State) (t : Nat) : (s.advance t).standing = s.standing := (rfl)
@[simp] theorem fresh_standing (s : State) : s.fresh.2.standing = s.standing := (rfl)
@[simp] theorem issued_standing (s : State) (q : Issue) : (s.issued q).standing = s.standing := (rfl)
@[simp] theorem setTask_standing (s : State) (k : Nat) (x : Task) : (s.setTask k x).standing = s.standing := (rfl)
@[simp] theorem setFlt_standing (s : State) (f : Flt) : (s.setFlt f).standing = s.standing := (rfl)
@[simp] theorem setNvs_standing (s : State) (x : Nvs) : (s.setNvs x).standing = s.standing := (rfl)
@[simp] theorem setSess_standing (s : State) (k : Nat) (x : LorSess) : (s.setSess k x).standing = s.standing := (rfl)
@[simp] theorem setEntry_standing (s : State) (key e : Nat) : (s.setEntry key e).standing = s.standing := (rfl)
@[simp] theorem putLine_standing (s : State) (f va : Nat) (l : Line) : (s.putLine f va l).standing = s.standing := (rfl)
@[simp] theorem memRegs_standing (s : State) : s.memRegs.standing = s.standing := by
  unfold memRegs
  simp only [setBit_standing, wr_standing]
@[simp] theorem freeFrame_standing (s : State) (f : Nat) : (s.freeFrame f).standing = s.standing := memRegs_standing _
@[simp] theorem addResident_standing (s : State) (n : Nat) : (s.addResident n).standing = s.standing :=
  (maxReg_standing _ _ _).trans (wr_standing _ _ _)
@[simp] theorem cancelOut_standing (s : State) (n page key e : Nat) : (s.cancelOut n page key e).standing = s.standing := (rfl)
@[simp] theorem detPage_standing (s : State) (n va task : Nat) : (s.detPage n va task).standing = s.standing := by
  unfold detPage
  simp only [raise_standing, wr64_standing, setBit_standing, bump_standing]
@[simp] theorem mgtStore_standing (s : State) (off : Nat) (bs : List Byte) : (s.mgtStore off bs).standing = s.standing := (rfl)

theorem with_mmu_standing {s t : State} {x : Mmu} (h : t.standing = s.standing) : ({ t with mmu := x } : State).standing = s.standing := h

theorem with_sto_standing {s t : State} {x : Sto} (h : t.standing = s.standing) : ({ t with sto := x } : State).standing = s.standing := h

/-- An engine's update that keeps its task and its operand stack. -/
theorem setEng_standing {s : State} {e : Nat} {x : Engine} (ht : x.task = (s.eng e).task) (hs : x.ctx.stack = s.stk e) :
    (s.setEng e x).standing = s.standing := by
  refine congrArg (fun f => (s.ms, s.bents, f)) (funext fun j => ?_)
  by_cases hj : j = e
  · subst hj
    unfold stk
    rw [eng_setEng_same, ht, hs]
    rfl
  · unfold stk
    rw [eng_setEng_other s x hj]

/-- What every turn of a loop keeps is as before the loop. -/
theorem forEach_standing {α : Type} {f : State → α → State} (h : ∀ s x, (f s x).standing = s.standing) (l : List α) (s : State) :
    (forEach l f s).standing = s.standing := forEach_keeps f standing h l s

/-! ### Staging (R287, R288) -/

@[simp] theorem flushOne_standing (s : State) (share : Nat) : (s.flushOne share).standing = s.standing := by
  unfold flushOne
  split
  · rfl
  · exact (wr_standing _ _ _).trans (with_sto_standing rfl)

@[simp] theorem makeRoom_standing (s : State) (share len k : Nat) : (s.makeRoom share len k).standing = s.standing := by
  induction k generalizing s with
  | zero => rfl
  | succ k ih =>
    unfold makeRoom
    split
    · rw [ih, flushOne_standing]
    · rfl

@[simp] theorem stage_standing (s : State) (share len : Nat) (w : StoWrite) : (s.stage share len w).standing = s.standing := by
  unfold stage
  dsimp only
  rw [maxReg_standing, wr_standing, bump64_standing]
  refine with_sto_standing ((makeRoom_standing _ _ _ _).trans ?_)
  rw [apply_ite standing, raise_standing, setBit_standing, bump_standing, ite_self]

@[simp] theorem stoRead_standing (s : State) (region sector len : Nat) : (s.stoRead region sector len).2.standing = s.standing := by
  unfold stoRead
  dsimp only
  split
  · simp only [raise_standing, setBit_standing, bump_standing, bump64_standing]
  · split
    · exact (bump_standing _ _ _).trans (with_sto_standing (bump64_standing s _ _))
    · exact bump64_standing s _ _

/-! ### Frames and tables (R268 to R275) -/

@[simp] theorem invalidate_standing (s : State) (n page : Nat) : (s.invalidate n page).standing = s.standing := by
  refine forEach_standing (fun s p => ?_) _ _
  dsimp only
  split
  · rfl
  · exact (bump_standing _ _ _).trans (with_mmu_standing rfl)

@[simp] theorem prepareOne_standing (s : State) : s.prepareOne.standing = s.standing := by
  unfold prepareOne
  split
  · rfl
  · split
    · exact (memRegs_standing _).trans (with_mmu_standing rfl)
    · split
      · rfl
      · exact (memRegs_standing _).trans (with_mmu_standing rfl)

@[simp] theorem takeFrame_standing (s : State) : s.takeFrame.2.standing = s.standing := by
  unfold takeFrame
  split
  · exact (memRegs_standing _).trans (with_mmu_standing rfl)
  · exact memRegs_standing s

@[simp] theorem takeFrameNow_standing (s : State) : s.takeFrameNow.2.standing = s.standing := by
  unfold takeFrameNow
  split <;> simp

@[simp] theorem newTable_standing (s : State) : s.newTable.2.standing = s.standing := by
  unfold newTable
  split <;> exact (memRegs_standing _).trans (with_mmu_standing rfl)

@[simp] theorem ensureRoot_standing (s : State) (n : Nat) : (s.ensureRoot n).standing = s.standing := by
  unfold ensureRoot
  split
  · rfl
  · exact (wr64_standing _ _ _).trans (with_mmu_standing (newTable_standing s))

@[simp] theorem ensureFrom_standing (s : State) (va fuel level addr : Nat) : (s.ensureFrom va fuel level addr).2.standing = s.standing := by
  induction fuel generalizing s level addr with
  | zero => rfl
  | succ fuel ih =>
    unfold ensureFrom
    dsimp only
    split
    · rfl
    · split
      · exact ih s _ _
      · rw [ih, setEntry_standing, newTable_standing]

@[simp] theorem ensureEntry_standing (s : State) (n va : Nat) : (s.ensureEntry n va).2.standing = s.standing :=
  (ensureFrom_standing _ _ _ _ _).trans (ensureRoot_standing s n)

@[simp] theorem evict_standing (s : State) (n page key e : Nat) : (s.evict n page key e).standing = s.standing := by
  unfold evict
  dsimp only
  split
  · exact with_mmu_standing ((setEntry_standing _ _ _).trans (invalidate_standing s n page))
  · rw [wr_standing, freeFrame_standing, setEntry_standing, invalidate_standing]

@[simp] theorem sweep_standing (s : State) (n : Nat) (l : List (Nat × Nat × Nat)) : (s.sweep n l).standing = s.standing := by
  induction l generalizing s with
  | nil => rfl
  | cons p l ih =>
    obtain ⟨page, key, x⟩ := p
    unfold sweep
    dsimp only
    split
    · rw [ih, setEntry_standing, invalidate_standing]
      exact with_mmu_standing rfl
    · exact (evict_standing _ n page key _).trans (with_mmu_standing rfl)

@[simp] theorem pageOutIfNeeded_standing (s : State) (n : Nat) : (s.pageOutIfNeeded n).standing = s.standing := by
  unfold pageOutIfNeeded
  dsimp only
  split
  · exact sweep_standing s n _
  · rfl

@[simp] theorem allocPage_standing (s : State) (n va : Nat) (pin now_ : Bool) : (s.allocPage n va pin now_).2.standing = s.standing := by
  have ht : (if now_ = true then s.takeFrameNow else s.takeFrame).2.standing = s.standing := by split <;> simp
  unfold allocPage
  split
  rename_i f? t h
  have hst := standing_snd h ht
  split
  · exact hst
  · dsimp only
    rw [pageOutIfNeeded_standing, apply_ite standing, wr_standing, ite_self, addResident_standing, bump_standing, setEntry_standing,
      ensureEntry_standing, invalidate_standing, hst]

@[simp] theorem startPageIn_standing (s : State) (n page : Nat) : (s.startPageIn n page).standing = s.standing := by
  unfold startPageIn
  split <;> rfl

@[simp] theorem walkEvent_standing (s : State) (n va code task : Nat) : (s.walkEvent n va code task).standing = s.standing := by
  unfold walkEvent
  dsimp only
  split <;> simp only [raise_standing, setBit_standing, bump_standing, wr64_standing]

@[simp] theorem walkAccess_standing (s : State) (n va task : Nat) : (s.walkAccess n va task).2.standing = s.standing := by
  unfold walkAccess
  dsimp only
  split
  · exact walkEvent_standing s n va _ task
  · exact walkEvent_standing s n va _ task
  · rfl
  · split
    · exact setEntry_standing s _ _
    · split
      · exact setEntry_standing s _ _
      · split
        · exact (cancelOut_standing _ n _ _ _).trans (setEntry_standing s _ _)
        · exact (startPageIn_standing _ n _).trans (setEntry_standing s _ _)

@[simp] theorem translate_standing (s : State) (m n va task : Nat) : (s.translate m n va task).2.standing = s.standing := by
  unfold translate
  dsimp only
  split
  · exact with_mmu_standing (bump64_standing s _ _)
  · have h (t : State) (w : Nat) (ht : t.standing = s.standing) :
        (((t.bump (Reg.MMU_TCMISS m) 1).maxReg (Reg.MMU_TCMAXW m) w).walkAccess n va task).2.standing = s.standing := by
      rw [walkAccess_standing, maxReg_standing, bump_standing, ht]
    split
    · exact with_mmu_standing (h _ _ (fresh_standing s))
    · exact with_mmu_standing (h _ _ (fresh_standing s))
    · exact h _ _ (fresh_standing s)

/-! ### Lines (R278 to R282) -/

@[simp] theorem tagEvent_standing (s : State) (n f va task : Nat) : (s.tagEvent n f va task).standing = s.standing := by
  unfold tagEvent
  dsimp only
  split <;> split <;> simp only [raise_standing, wr64_standing, setBit_standing, bump_standing, putLine_standing]

@[simp] theorem poisonEvent_standing (s : State) (n f va task : Nat) : (s.poisonEvent n f va task).standing = s.standing := by
  unfold poisonEvent
  dsimp only
  split <;> simp only [raise_standing, wr64_standing, setBit_standing, bump_standing, putLine_standing]

@[simp] theorem correctLine_standing (s : State) (f va : Nat) : (s.correctLine f va).standing = s.standing := by
  unfold correctLine
  dsimp only
  split
  · rw [bump_standing, putLine_standing]
  · rfl

@[simp] theorem readLine_standing (s : State) (n f va task : Nat) : (s.readLine n f va task).2.standing = s.standing := by
  unfold readLine
  dsimp only
  split
  · simp
  · split
    · simp
    · split <;> simp

@[simp] theorem markDirty_standing (s : State) (n va : Nat) : (s.markDirty n va).standing = s.standing := by
  unfold markDirty
  split <;> rfl

@[simp] theorem writeLine_standing (s : State) (n f va : Nat) (data : Line64) : (s.writeLine n f va data).standing = s.standing := by
  unfold writeLine
  dsimp only
  split
  · rw [stage_standing, markDirty_standing, putLine_standing]
    exact with_mmu_standing rfl
  · rw [markDirty_standing, putLine_standing]
    exact with_mmu_standing rfl

@[simp] theorem mergeLine_standing (s : State) (n f va : Nat) (data mask : Line64) (task : Nat) :
    (s.mergeLine n f va data mask task).2.standing = s.standing := by
  unfold mergeLine
  dsimp only
  split
  · simp
  · split
    · simp
    · split
      · simp
      · split <;> simp

@[simp] theorem installSectors_standing (s : State) (n f page : Nat) (bp : BackPage) (k : Nat) :
    (s.installSectors n f page bp k).standing = s.standing := by
  induction k with
  | zero => rfl
  | succ k ih =>
    unfold installSectors
    dsimp only
    split
    · refine (forEach_standing (fun s i => ?_) _ _).trans ((stoRead_standing _ _ _ _).trans ih)
      split
      · rfl
      · exact (putLine_standing _ _ _ _).trans (with_mmu_standing rfl)
    · rw [raise_standing, setBit_standing, bump_standing]
      exact (forEach_standing (fun s i => putLine_standing s _ _ _) _ _).trans ((stoRead_standing _ _ _ _).trans ih)

@[simp] theorem pageInDone_standing (s : State) (n page : Nat) : (s.pageInDone n page).standing = s.standing := by
  unfold pageInDone
  split
  · split
    · split
      · rename_i h
        exact standing_snd h (takeFrame_standing s)
      · rename_i h
        dsimp only
        rw [pageOutIfNeeded_standing, bump64_standing, addResident_standing, apply_ite standing, wr_standing, ite_self, setEntry_standing]
        exact with_mmu_standing ((installSectors_standing _ n _ page _ 16).trans (standing_snd h (takeFrame_standing s)))
    · rfl
  · rfl

/-! ### Store buffers and reservations (R100 to R102) -/

/-- An engine without its reservation, if that is one on the line. -/
def unreserved (n va : Nat) (x : Engine) : Engine :=
  match x.resv with
  | some r => if r.owner = n ∧ r.line = va / 64 then { x with resv := none } else x
  | none => x

theorem unreserved_task_stack (n va : Nat) (x : Engine) :
    (unreserved n va x).task = x.task ∧ (unreserved n va x).ctx.stack = x.ctx.stack := by
  unfold unreserved
  split
  · split <;> exact ⟨rfl, rfl⟩
  · exact ⟨rfl, rfl⟩

theorem eng_loseResv (s : State) (n va e : Nat) : (s.loseResv n va).eng e = unreserved n va (s.eng e) := by
  have hmap : (s.loseResv n va).engines = s.engines.map fun p => (p.1, unreserved n va p.2) := by
    refine List.map_congr_left fun p _ => ?_
    unfold unreserved
    cases p.2.resv with
    | none => rfl
    | some r => by_cases h : r.owner = n ∧ r.line = va / 64 <;> simp [h]
  unfold eng SMap.get
  rw [hmap, find_map_value]
  cases SMap.find? s.engines e <;> rfl

@[simp] theorem loseResv_standing (s : State) (n va : Nat) : (s.loseResv n va).standing = s.standing := by
  refine congrArg (fun f => (s.ms, s.bents, f)) (funext fun e => ?_)
  obtain ⟨ht, hs⟩ := unreserved_task_stack n va (s.eng e)
  unfold stk
  rw [eng_loseResv, ht, hs]

@[simp] theorem writeVa_standing (s : State) (n va : Nat) (data mask : Line64) (task : Nat) :
    (s.writeVa n va data mask task).2.standing = s.standing := by
  unfold writeVa
  extract_lets t u
  have hu : u.standing = s.standing := by
    have ht : (t.walkAccess n va task).2.standing = s.standing := by simp [t]
    simp only [u]
    split
    · rename_i h
      rw [pageInDone_standing, apply_ite standing, prepareOne_standing, ite_self, standing_snd h ht]
    · rename_i h
      exact standing_snd h ht
  have hw : (u.walkAccess n va task).2.standing = s.standing := (walkAccess_standing u n va task).trans hu
  split
  · rename_i h
    rw [mergeLine_standing, standing_snd h hw]
  · rename_i h
    have ha := (allocPage_standing _ n va false true).trans (standing_snd h hw)
    split
    · rename_i h2
      rw [mergeLine_standing, standing_snd h2 ha]
    · rename_i h2
      exact standing_snd h2 ha
  · rename_i h
    exact standing_snd h hw

@[simp] theorem lineOut_standing (s : State) (e : Nat) : (s.lineOut e).2.standing = s.standing := by
  unfold lineOut
  dsimp only
  split
  · rfl
  · rename_i l rest _
    have h := (writeVa_standing (s.setEng e { s.eng e with sb := rest }) ((s.setEng e { s.eng e with sb := rest }).engOwner e) l.va l.data
      l.mask ((s.eng e).task.getD 0xFFFF)).trans (setEng_standing rfl rfl)
    split <;> rename_i hw <;> exact standing_snd hw h

@[simp] theorem drainSb_standing (s : State) (e k : Nat) : (s.drainSb e k).2.standing = s.standing := by
  induction k generalizing s with
  | zero => rfl
  | succ k ih => exact (ih _).trans (lineOut_standing s e)

@[simp] theorem drain_standing (s : State) (e : Nat) : (s.drain e).2.standing = s.standing := drainSb_standing s e _

@[simp] theorem afterDrain_standing (s : State) (q : Issue) : (s.afterDrain q).2.standing = s.standing := by
  unfold afterDrain
  split
  · exact issued_standing s q
  · exact (drain_standing _ _).trans (issued_standing s q)

@[simp] theorem bufStore_standing (s : State) (e va : Nat) (data mask : Line64) (pc word space : Nat) :
    (s.bufStore e va data mask pc word space).2.standing = s.standing := by
  unfold bufStore
  dsimp only
  split
  · exact setEng_standing rfl rfl
  · refine (setEng_standing ?_ ?_).trans ?_
    · rfl
    · rfl
    · split
      · exact (lineOut_standing _ e).trans (bump_standing _ _ _)
      · rfl

/-! ### An engine's loads and stores of its data spaces (R99, R100, R128) -/

@[simp] theorem engXlat_standing (s : State) (e va : Nat) : (s.engXlat e va).2.standing = s.standing := by
  unfold engXlat
  dsimp only
  split
  · rw [wr64_standing, wr_standing, translate_standing]
  · exact translate_standing s _ _ va _

@[simp] theorem pageWait_standing (s : State) (e va : Nat) : (s.pageWait e va).2.standing = s.standing := by
  unfold pageWait
  dsimp only
  split
  · exact detPage_standing s _ va _
  · rfl

@[simp] theorem loadBytes_standing (s : State) (e space off len : Nat) : (s.loadBytes e space off len).2.standing = s.standing := by
  unfold loadBytes
  split
  · rfl
  · dsimp only
    have hx := engXlat_standing s e ((s.spaceBase (s.engOwner e) space).1 + off)
    split
    · rfl
    · split
      · rename_i h
        exact standing_snd h hx
      · rename_i f _ t h
        have hr := (readLine_standing t (s.engOwner e) f ((s.spaceBase (s.engOwner e) space).1 + off) (t.engTask e)).trans (standing_snd h hx)
        split <;> rename_i h2 <;> exact standing_snd h2 hr
      · rename_i h
        exact standing_snd h hx
      · rename_i h
        exact (pageWait_standing _ e _).trans (standing_snd h hx)

@[simp] theorem storeBytes_standing (s : State) (e space off : Nat) (bs : List Byte) (mask pc word : Nat) :
    (s.storeBytes e space off bs mask pc word).2.2.standing = s.standing := by
  unfold storeBytes
  split
  · exact mgtStore_standing s _ _
  · dsimp only
    have hx := engXlat_standing s e ((s.spaceBase (s.engOwner e) space).1 + off)
    split
    · rename_i h
      exact (bufStore_standing _ e _ _ _ pc word space).trans (standing_snd h hx)
    · rename_i h
      exact (bufStore_standing _ e _ _ _ pc word space).trans (standing_snd h hx)
    · rename_i h
      exact standing_snd h hx
    · rename_i h
      exact (pageWait_standing _ e _).trans (standing_snd h hx)

@[simp] theorem lineFrame_standing (s : State) (e va : Nat) : (s.lineFrame e va).2.standing = s.standing := by
  unfold lineFrame
  have hx := engXlat_standing s e va
  split
  · rename_i h
    exact standing_snd h hx
  · rename_i t h
    have ha := (allocPage_standing t (t.engOwner e) va false false).trans (standing_snd h hx)
    split <;> rename_i h2 <;> exact standing_snd h2 ha
  · rename_i h
    exact standing_snd h hx
  · rename_i h
    exact (pageWait_standing _ e va).trans (standing_snd h hx)

@[simp] theorem blockRead_standing (s : State) (e sp off : Nat) (l : List Nat) : (s.blockRead e sp off l).2.standing = s.standing := by
  induction l generalizing s with
  | nil => rfl
  | cons j l ih =>
    have hb := loadBytes_standing s e sp (off + 64 * j) 64
    unfold blockRead
    split
    · rename_i t h
      have hr := (ih t).trans (standing_snd h hb)
      split <;> rename_i h2 <;> exact standing_snd h2 hr
    · rename_i h
      exact standing_snd h hb

@[simp] theorem blockWrite_standing (s : State) (e sp off : Nat) (l : List (Nat × Nat)) : (s.blockWrite e sp off l).2.standing = s.standing := by
  induction l generalizing s with
  | nil => rfl
  | cons p l ih =>
    obtain ⟨j, v⟩ := p
    unfold blockWrite
    split
    · exact (ih _).trans (mgtStore_standing s _ _)
    · dsimp only
      have hf := lineFrame_standing s e ((s.spaceBase (s.engOwner e) sp).1 + off + 64 * j)
      split
      · rename_i h
        exact standing_snd h hf
      · rename_i t h
        have hr := (ih t).trans (standing_snd h hf)
        split
        · rename_i h2
          exact standing_snd h2 hr
        · rename_i h2
          rw [writeLine_standing, loseResv_standing, standing_snd h2 hr]

@[simp] theorem blockOvl_standing (s : State) (e sp off : Nat) : (s.blockOvl e sp off).2.standing = s.standing := by
  unfold blockOvl
  split
  · rfl
  · exact drainSb_standing s e _

end State
end Machine
end Sys2Proof
end

section
/-! SUPPORT. A register access leaves an engine its regime and its latches are the context's; the device instructions (Table 5.18, R139); and O21, which
says so. -/
namespace Sys2Proof.Machine
namespace State

/-! ### What keeps an engine in the self-timed regime (R105, R115) -/

/-- The mode and the test requests stand, and no engine has lost its task. -/
structure KeepsRegime (s t : State) : Prop where
  mode : t.ms.mode = s.ms.mode
  testReq : ∀ m, (t.bent m).testReq = (s.bent m).testReq
  busy : ∀ e, (s.eng e).task ≠ none → (t.eng e).task ≠ none

theorem busyEngines_eq_zero {s : State} {m : Nat} : s.busyEngines m = 0 ↔ ∀ e ∈ bentEngines m, (s.eng e).task = none := by
  unfold busyEngines
  simp [List.filter_eq_nil_iff]

namespace KeepsRegime

theorem refl (s : State) : KeepsRegime s s := ⟨rfl, fun _ => rfl, fun _ h => h⟩

theorem trans {s t u : State} (h : KeepsRegime s t) (k : KeepsRegime t u) : KeepsRegime s u :=
  ⟨k.mode.trans h.mode, fun m => (k.testReq m).trans (h.testReq m), fun e he => k.busy e (h.busy e he)⟩

theorem of_standing {s t : State} (h : t.standing = s.standing) : KeepsRegime s t := by
  have hb : t.bents = s.bents := congrArg (fun p => p.2.1) h
  refine ⟨congrArg (fun p => p.1.mode) h, fun m => ?_, fun e he => ?_⟩
  · unfold bent
    rw [hb]
  · rwa [task_of_standing h]

theorem bentTesting {s t : State} (h : KeepsRegime s t) {m : Nat} (ht : t.bentTesting m = true) : s.bentTesting m = true := by
  unfold State.bentTesting at ht ⊢
  rw [Bool.and_eq_true, beq_iff_eq, busyEngines_eq_zero] at ht ⊢
  exact ⟨(h.testReq m).symm.trans ht.1, fun e he => by_contra fun hn => h.busy e hn (ht.2 e he)⟩

/-- An engine of the self-timed regime stays in it. -/
theorem leanRegime {s t : State} (h : KeepsRegime s t) {e : Nat} (hl : s.leanRegime e = false) : t.leanRegime e = false := by
  have hb : s.bentTesting (e / 4) = false → t.bentTesting (e / 4) = false := fun hs => Bool.eq_false_iff.2 fun ht => by
    rw [h.bentTesting ht] at hs
    cases hs
  unfold State.leanRegime at hl ⊢
  simp only [Bool.and_eq_false_iff, Bool.or_eq_false_iff, h.mode] at hl ⊢
  exact hl.imp_right fun ⟨hm, ht⟩ => ⟨hm, hb ht⟩

/-- An engine's update that leaves it a task where it had one. -/
theorem setEng {s : State} {e : Nat} {x : Engine} (h : (s.eng e).task ≠ none → x.task ≠ none) : KeepsRegime s (s.setEng e x) := by
  refine ⟨rfl, fun _ => rfl, fun j hj => ?_⟩
  by_cases he : j = e
  · subst he
    rw [eng_setEng_same]
    exact h hj
  · rwa [eng_setEng_other s x he]

/-- A bent's update that keeps its test request. -/
theorem setBent {s : State} {m : Nat} {x : Bent} (h : x.testReq = (s.bent m).testReq) : KeepsRegime s (s.setBent m x) := by
  refine ⟨rfl, fun j => ?_, fun _ hj => hj⟩
  by_cases hm : j = m
  · subst hm
    rw [bent_setBent_same, h]
  · exact congrArg Bent.testReq (get_set_other _ _ _ hm)

theorem setTask {s t : State} (h : KeepsRegime s t) {k : Nat} {x : Task} : KeepsRegime s (t.setTask k x) :=
  h.trans (.of_standing (setTask_standing t k x))

/-- What every turn of a loop keeps is kept by the loop. -/
theorem foldl {α : Type} {f : State → α → State} (h : ∀ s x, KeepsRegime s (f s x)) (l : List α) (s : State) : KeepsRegime s (l.foldl f s) := by
  induction l generalizing s with
  | nil => exact refl s
  | cons x l ih => exact (h s x).trans (ih _)

end KeepsRegime

/-! ### Serving ready tasks (R180) and waking a bent (R21) -/

@[simp] theorem retire_standing (s : State) (n : Nat) : (s.retire n).standing = s.standing := (rfl)

@[simp] theorem poolRegs_standing (s : State) (n : Nat) : (s.poolRegs n).standing = s.standing := maxReg_standing _ _ _

@[simp] theorem endStats_standing (s : State) (k : Nat) : (s.endStats k).standing = s.standing := by
  unfold endStats
  simp only [maxReg_standing, wr_standing]

/-- The end of a release that no engine holds leaves every engine as it stands. -/
theorem endRelease_standing {s : State} {k : Nat} (h : (s.task k).eng = none) : (s.endRelease k).standing = s.standing := by
  unfold endRelease
  dsimp only
  rw [h]
  dsimp only
  rw [poolRegs_standing, retire_standing, setTask_standing, endStats_standing]

/-- A context that cannot be restored ends its release, which no engine holds by then; any other gives its engine a task. -/
theorem startOn_keeps (s : State) (e k : Nat) : KeepsRegime s (s.startOn e k) := by
  have hweak : (if (s.task k).ctxWeak then (s.setTask k { s.task k with ctxWeak := false }).bump Reg.SEQ_CTXCOR 1 else s).standing =
      s.standing := by
    rw [apply_ite standing, bump_standing, setTask_standing, ite_self]
  unfold startOn
  dsimp only
  split
  · refine .of_standing ?_
    rw [raise_standing, setBit_standing, setBit_standing, bump_standing, endRelease_standing, setTask_standing, hweak]
    unfold setTask task
    rw [get_set_same]
  · refine KeepsRegime.trans (.of_standing ?_) (KeepsRegime.setEng fun _ => Option.some_ne_none k)
    rw [setTask_standing, maxReg_standing, fresh_standing, hweak]

theorem serve_keeps (s : State) (n k : Nat) : KeepsRegime s (s.serve n k) := by
  unfold serve
  split
  · exact startOn_keeps s _ k
  · split
    · refine KeepsRegime.setTask (KeepsRegime.setEng ?_)
      exact id
    · split
      · exact KeepsRegime.setTask (KeepsRegime.setEng fun _ => Option.some_ne_none k)
      · split
        · refine KeepsRegime.setTask (KeepsRegime.trans (KeepsRegime.setBent ?_) (KeepsRegime.setEng fun _ => Option.some_ne_none k))
          rfl
        · exact KeepsRegime.refl s

theorem dispatch_keeps (s : State) (n : Nat) : KeepsRegime s (s.dispatch n) := by
  refine KeepsRegime.foldl (fun s r => ?_) _ s
  split
  · exact serve_keeps s n _
  · exact KeepsRegime.refl s

theorem bentWake_keeps (s : State) (m : Nat) : KeepsRegime s (s.bentWake m) := by
  unfold bentWake
  dsimp only
  split
  · exact KeepsRegime.refl s
  · refine KeepsRegime.trans ?_ (dispatch_keeps _ _)
    refine KeepsRegime.trans ?_ (KeepsRegime.foldl (fun s e => ?_) _ _)
    · refine KeepsRegime.trans (KeepsRegime.setBent ?_) (.of_standing (bump_standing _ _ _))
      rfl
    · split
      · exact startOn_keeps s e _
      · exact KeepsRegime.refl s

theorem busWake_keeps (s : State) (a : Nat) (h : RegHit) : KeepsRegime s (s.busWake a h) := by
  unfold busWake
  split
  · exact (KeepsRegime.of_standing ((advance_standing _ _).trans (fresh_standing s))).trans (bentWake_keeps _ _)
  · exact KeepsRegime.refl s

/-! ### A register read (R26) -/

@[simp] theorem secEvent_standing (s : State) (n : Nat) : (s.secEvent n).standing = s.standing := by
  unfold secEvent
  dsimp only
  split
  · split
    · exact bump_standing s _ _
    · rw [raise_standing, setFlt_standing, bump_standing]
  · rw [raise_standing, setFlt_standing, bump_standing]

@[simp] theorem setReqLat_standing (s : State) (r : Req) (l : Latches) : (s.setReqLat r l).standing = s.standing := by
  cases r with
  | mgt => exact setEng_standing rfl rfl
  | session k => exact setSess_standing s k _
  | engine e => exact setEng_standing rfl rfl

@[simp] theorem rcClear_standing (s : State) (a : Nat) (h : RegHit) : (s.rcClear a h).standing = s.standing := by
  unfold rcClear
  split
  · rfl
  · split
    · exact forEach_standing (fun s e => clr_standing s _) _ s
    · exact wr_standing s _ _

@[simp] theorem nvsWord_standing (s : State) (w : Nat) : (s.nvsWord w).2.standing = s.standing := by
  unfold nvsWord
  split
  · simp
  · split
    · simp
    · rfl

@[simp] theorem nvsRead_standing (s : State) (r off len : Nat) : (s.nvsRead r off len).2.2.standing = s.standing := by
  have words (l : List Nat) (p : Bool × State) : (l.foldl (fun (acc : Bool × State) w =>
      let (b, s) := acc.2.nvsWord w
      (acc.1 || b, s)) p).2.standing = p.2.standing := by
    induction l generalizing p with
    | nil => rfl
    | cons w l ih => exact (ih _).trans (nvsWord_standing p.2 w)
  exact words _ _

@[simp] theorem portRead_standing (s : State) (n : Nat) : (s.portRead n).2.standing = s.standing := by
  unfold portRead
  split
  · dsimp only
    refine (wr_standing _ _ _).trans ?_
    rw [apply_ite standing, setBit_standing, ite_self, nvsRead_standing]
  · exact setBit_standing s _ _ _

@[simp] theorem readNow_standing (s : State) (r : Req) (a : Nat) (h : RegHit) : (s.readNow r a h).2.standing = s.standing := by
  unfold readNow
  split
  · exact portRead_standing s _
  · dsimp only
    split
    · exact rcClear_standing s a h
    · exact setReqLat_standing s r _
    · split <;> rfl

theorem busRead_keeps (s : State) (r : Req) (a : Nat) : KeepsRegime s (s.busRead r a).2 := by
  unfold busRead
  split
  · dsimp only
    split
    · exact .of_standing (secEvent_standing s _)
    · exact KeepsRegime.refl s
  · rename_i h _
    dsimp only
    split
    · exact busWake_keeps s a h
    · exact (busWake_keeps s a h).trans (.of_standing (readNow_standing _ r a h))

/-- An engine's latches are its context's (R28). -/
theorem setReqLat_engine (s : State) (e : Nat) (l : Latches) :
    (s.setReqLat (.engine e) l).reqLat (.engine e) = l ∧ ((s.setReqLat (.engine e) l).eng e).ctx.lat = l := by
  have h : ((s.setReqLat (.engine e) l).eng e).ctx.lat = l := by
    unfold setReqLat setEngLat
    rw [eng_setEng_same]
  exact ⟨h, h⟩

/-! ### An instruction after the drain (R101) -/

theorem afterDrain_lean {s u : State} {q : Issue} (h : s.runs q.eng = true) (hu : s.afterDrain q = (none, u)) : u.leanRegime q.eng = false :=
  (KeepsRegime.of_standing (standing_snd hu (afterDrain_standing s q))).leanRegime (runs_lean h)

theorem afterDrain_stk {s u : State} {q : Issue} (hu : s.afterDrain q = (none, u)) : u.stk q.eng = s.stk q.eng :=
  stk_of_standing (standing_snd hu (afterDrain_standing s q)) q.eng

end State

/-! ### DIN and DOUT (R139) -/

section
variable {s u t : State} {q : Issue} {a w : Row} {rest : List Row}

/-- A device instruction with its inputs and room for its output passes the checks of stages 2 to 4. -/
theorem devInfo_decodes {nin nout : Nat} (word : Nat) (h : s.runs q.eng = true) (hn : nin ≤ (s.stk q.eng).length)
    (ho : (s.stk q.eng).length - nin + nout ≤ 16) : s.decodeExc q.eng (devInfo word nin nout) = none :=
  State.runs_decode rfl (.inl rfl) rfl hn ho (Nat.zero_le _) (State.runs_rstack h)

theorem din_decodes (h : s.runs q.eng = true) (hs : s.stk q.eng = a :: rest) (hl : rest.length ≤ 15) :
    s.decodeExc q.eng (devInfo 0x0A00 1 1) = none := by
  have hlen : (s.stk q.eng).length = rest.length + 1 := by rw [hs, List.length_cons]
  exact devInfo_decodes _ h (by omega) (by omega)

theorem dout_decodes (h : s.runs q.eng = true) (hs : s.stk q.eng = a :: w :: rest) (hl : rest.length ≤ 16) :
    s.decodeExc q.eng (devInfo 0x0A01 2 0) = none := by
  have hlen : (s.stk q.eng).length = rest.length + 2 := by rw [hs, List.length_cons, List.length_cons]
  exact devInfo_decodes _ h (by omega) (by omega)

theorem din_input (hu : s.afterDrain q = (none, u)) (hs : s.stk q.eng = a :: rest) :
    (u.stk q.eng).take (devInfo 0x0A00 1 1).nin = [a] := by
  rw [State.afterDrain_stk hu, hs]
  rfl

theorem dout_inputs (hu : s.afterDrain q = (none, u)) (hs : s.stk q.eng = a :: w :: rest) :
    (u.stk q.eng).take (devInfo 0x0A01 2 0).nin = [a, w] := by
  rw [State.afterDrain_stk hu, hs]
  rfl

theorem exec_din_reads {v : Nat} (h : s.runs q.eng = true) (hu : s.afterDrain q = (none, u)) (hs : s.stk q.eng = a :: rest)
    (hl : rest.length ≤ 15) (ha : scalar a < 2 ^ 32) (hr : u.busRead (.engine q.eng) (scalar a) = (.ok v, t)) :
    exec (.din q) s = done s (t.ran q.eng 1 [ofScalar v] (t.hsCost q.eng 3 (s.waitOf q 28800000))) := by
  have hlean : t.leanRegime q.eng = false := by
    have hk := State.busRead_keeps u (.engine q.eng) (scalar a)
    rw [hr] at hk
    exact hk.leanRegime (State.afterDrain_lean h hu)
  rw [exec_din]
  unfold execDin
  refine congrArg (done s) (State.runOp_completes (d := { outs := [ofScalar v], base := 3 }) h (din_decodes h hs hl) hu ?_ hlean rfl rfl rfl)
  rw [din_input hu hs]
  dsimp only [inp_tos]
  rw [if_neg (Nat.not_le.2 ha), hr]

theorem exec_din_refused {kind : Nat} (h : s.runs q.eng = true) (hu : s.afterDrain q = (none, u)) (hs : s.stk q.eng = a :: rest)
    (hl : rest.length ≤ 15) (hr : (2 ^ 32 ≤ scalar a ∧ kind = 3 ∧ t = u) ∨
      (scalar a < 2 ^ 32 ∧ u.busRead (.engine q.eng) (scalar a) = (.refused kind, t))) :
    ∃ hs, exec (.din q) s = done s (t.takeExc q.eng hs (t.excHere q.eng { word := 0x0A00 } 0x0D kind (scalar a))) := by
  rw [exec_din]
  unfold execDin
  refine (State.runOp_excepts h (din_decodes h hs hl) hu ?_).imp fun n hn => congrArg (done s) hn
  rw [din_input hu hs]
  dsimp only [inp_tos]
  rcases hr with ⟨ha, rfl, rfl⟩ | ⟨ha, hr⟩
  · rw [if_pos ha]
    rfl
  · rw [if_neg (Nat.not_le.2 ha), hr]
    rfl

theorem exec_dout_writes {hit : RegHit} (h : s.runs q.eng = true) (hu : s.afterDrain q = (none, u)) (hs : s.stk q.eng = a :: w :: rest)
    (hl : rest.length ≤ 16) (ha : scalar a < 2 ^ 32) (hc : u.busCheck (.engine q.eng) (scalar a) true = .ok hit) :
    exec (.dout q) s = done s
      ((u.ran q.eng 2 [] (u.hsCost q.eng 3 (s.waitOf q 28800000))).busSet (.engine q.eng) (scalar a) (scalar w % 2 ^ 32)) := by
  rw [exec_dout]
  unfold execDout
  refine congrArg (done s) (State.runOp_completes (u := u)
    (d := { base := 3, post := fun t => t.busSet (.engine q.eng) (scalar a) (scalar w % 2 ^ 32) }) h (dout_decodes h hs hl) hu ?_
    (State.afterDrain_lean h hu) rfl rfl rfl)
  rw [dout_inputs hu hs]
  dsimp only [inp_tos, inp_below]
  rw [if_neg (Nat.not_le.2 ha), hc]

/-- An engine that runs may reach the registers: there are 257 (R26). -/
theorem runs_reqLive {e : Nat} (h : s.runs e = true) (v : State) : v.reqLive (.engine e) = true := by
  unfold State.runs State.canIssue at h
  simp only [Bool.and_eq_true] at h
  obtain ⟨⟨⟨⟨-, hc⟩, -⟩, -⟩, -⟩ := h
  refine decide_eq_true ?_
  split at hc
  · omega
  · simp only [Bool.and_eq_true, decide_eq_true_eq] at hc
    omega

/-- A refused write leaves what its answer leaves. -/
theorem busWrite_refused {r : Req} {addr v k : Nat} (hw : u.busWrite r addr v = (.refused k, t)) (hl : u.reqLive r = true) :
    u.busCheck r addr true = .error k ∧ u.busSet r addr v = t := by
  refine ⟨?_, by rw [State.busSet, if_pos hl, hw]⟩
  unfold State.busWrite at hw
  split at hw
  · rename_i hc
    rw [hc, BusRes.refused.inj (Prod.mk.inj hw).1]
  · cases hw

theorem exec_dout_refused {kind : Nat} (h : s.runs q.eng = true) (hu : s.afterDrain q = (none, u)) (hs : s.stk q.eng = a :: w :: rest)
    (hl : rest.length ≤ 16) (hr : (2 ^ 32 ≤ scalar a ∧ kind = 3 ∧ t = u) ∨
      (scalar a < 2 ^ 32 ∧ u.busWrite (.engine q.eng) (scalar a) (scalar w % 2 ^ 32) = (.refused kind, t))) :
    ∃ hs, exec (.dout q) s = done s (t.takeExc q.eng hs (t.excHere q.eng { word := 0x0A01 } 0x0D kind (scalar a))) := by
  rw [exec_dout]
  unfold execDout
  refine (State.runOp_excepts h (dout_decodes h hs hl) hu ?_).imp fun n hn => congrArg (done s) hn
  rw [dout_inputs hu hs]
  dsimp only [inp_tos, inp_below]
  rcases hr with ⟨ha, rfl, rfl⟩ | ⟨ha, hr⟩
  · rw [if_pos ha]
    rfl
  · obtain ⟨hc, ht⟩ := busWrite_refused hr (runs_reqLive h u)
    rw [if_neg (Nat.not_le.2 ha), hc, ← ht]
    rfl

end

end Sys2Proof.Machine

open Sys2Proof Sys2Proof.Machine Sys2Proof.Machine.State

/-- Settles O21: the drain keeps the engine's stack and regime, so each instruction's body decides on the access to the register it finds there. -/
theorem deviceInstructionsReachRegisters : Obligations.DeviceInstructionsReachRegisters := by
  unfold Obligations.DeviceInstructionsReachRegisters
  intro q s u a h hu
  exact ⟨fun t v rest hs hl ha hr => exec_din_reads h hu hs hl ha hr, fun hit w rest hs hl ha hc => exec_dout_writes h hu hs hl ha hc,
    fun t kind rest hs hl hr => exec_din_refused h hu hs hl hr, fun t kind w rest hs hl hr => exec_dout_refused h hu hs hl hr,
    fun l => setReqLat_engine u q.eng l⟩

end

section
/-! SUPPORT. Edges and lane timers (Tables 5.7 to 5.9, R125 to R128): what the rows they push hold lane by lane, how each completes, and one lane's step;
and O25 and O26, which say so. -/
namespace Sys2Proof.Machine

/-! ### Rows from their lanes -/

theorem testBit_b2n (b : Bool) (j : Nat) : (b2n b).testBit j = (decide (j = 0) && b) := by
  cases b
  · exact (Nat.zero_testBit j).trans (Bool.and_false _).symm
  · rw [Bool.and_true, Bool.eq_iff_iff, decide_eq_true_iff]
    exact Nat.testBit_one_eq_true_iff_self_eq_zero

/-- The number whose bits below n are the first n values of f. -/
theorem testBit_sum_lanes (f : Nat → Bool) (n : Nat) :
    (List.range n).foldl (fun a i => a + b2n (f i) * 2 ^ i) 0 < 2 ^ n ∧
      ∀ i, ((List.range n).foldl (fun a i => a + b2n (f i) * 2 ^ i) 0).testBit i = (decide (i < n) && f i) := by
  induction n with
  | zero => simp
  | succ n ih =>
    obtain ⟨hlt, hbit⟩ := ih
    rw [List.range_succ, List.foldl_append, List.foldl_cons, List.foldl_nil]
    generalize (List.range n).foldl (fun a i => a + b2n (f i) * 2 ^ i) 0 = v at hbit hlt ⊢
    refine ⟨?_, fun i => ?_⟩
    · have hb : b2n (f n) * 2 ^ n ≤ 2 ^ n := by cases f n <;> simp [b2n]
      rw [Nat.pow_succ]
      omega
    · rw [Nat.add_comm, Nat.mul_comm, Nat.testBit_two_pow_mul_add _ hlt, testBit_b2n, hbit]
      rcases Nat.lt_trichotomy i n with h | rfl | h
      · simp [h, Nat.lt_succ_of_lt h]
      · simp
      · simp [Nat.not_lt_of_gt h, Nat.sub_ne_zero_of_lt h, show ¬i < n + 1 by omega]

theorem rowOf_lane (f : Nat → Bool) {i : Nat} (hi : i < 256) : (rowOf f).getLsbD i = f i := by
  unfold rowOf
  rw [BitVec.getLsbD_ofNat, (testBit_sum_lanes f 256).2 i]
  simp [hi]

theorem rowOfLanes_lane {l : List Lane} (f : Lane → Bool) {i : Nat} (hi : i < 256) {x : Lane} (hx : l[i]? = some x) :
    (rowOfLanes l f).getLsbD i = f x := by
  unfold rowOfLanes
  rw [rowOf_lane _ hi, hx]

theorem lanesOf_lane (l0 l1 : Nat) (stamps : List (Nat × Nat)) {i : Nat} (hi : i < 256) :
    (lanesOf l0 l1 stamps)[i]? = some (laneOf l0 l1 stamps i) := by
  unfold lanesOf
  rw [List.getElem?_map, List.getElem?_range hi]
  rfl

theorem lanesAfter_lane (kind : TimerKind) (now pt : Nat) (x : Row) {old : List Lane} {i : Nat} {l : Lane} (h : old[i]? = some l) :
    (lanesAfter kind now pt x old)[i]? = some (laneStep kind now pt (x.getLsbD i) l) := by
  unfold lanesAfter
  rw [List.getElem?_map, List.getElem?_zipIdx, h, Nat.zero_add]
  rfl

/-! ### One lane's step (R127) -/

/-- The signed 64-bit difference of two instants in the 64-bit form. -/
def signedElapsed (now start : Nat) : Int :=
  let d : Int := (now : Int) - start
  if d < -2 ^ 63 then d + 2 ^ 64 else if 2 ^ 63 ≤ d then d - 2 ^ 64 else d

theorem laneDue_iff {now start : Nat} (pt : Nat) (hn : now < 2 ^ 64) (hs : start < 2 ^ 64) :
    laneDue now pt start = true ↔ (pt : Int) ≤ max 0 (signedElapsed now start) := by
  have hd : signed 64 ((now + 2 ^ 64 - start % 2 ^ 64) % 2 ^ 64) = signedElapsed now start := by
    unfold signed signedElapsed
    dsimp only
    rw [Nat.mod_eq_of_lt hs]
    split <;> split <;> omega
  unfold laneDue
  rw [hd, decide_eq_true_iff]
  split <;> omega

theorem laneStep_prev (k : TimerKind) (now pt : Nat) (x : Bool) (l : Lane) : (laneStep k now pt x l).prev = x := by
  cases k <;> rfl

section
variable {now pt : Nat} {x : Bool} {l : Lane}

theorem ton_low (hx : x = false) : laneStep .ton now pt x l = { l with prev := false, q := false, run := false } := by
  subst hx
  rfl

theorem ton_rises (hx : x = true) (hp : l.prev = false) :
    laneStep .ton now pt x l = { prev := true, q := decide (pt = 0), run := decide (pt ≠ 0), start := now } := by
  simp [laneStep, hx, hp]

theorem ton_ends (hx : x = true) (hp : l.prev = true) (h : l.run = true ∧ laneDue now pt l.start = true) :
    laneStep .ton now pt x l = { l with prev := true, q := true, run := false } := by
  simp [laneStep, hx, hp, h]

theorem ton_holds (hx : x = true) (hp : l.prev = true) (h : ¬(l.run = true ∧ laneDue now pt l.start = true)) :
    laneStep .ton now pt x l = { l with prev := true } := by
  simp [laneStep, hx, hp, h]

theorem tof_high (hx : x = true) : laneStep .tof now pt x l = { l with prev := true, q := true, run := false } := by
  subst hx
  rfl

theorem tof_falls (hx : x = false) (hp : l.prev = true) :
    laneStep .tof now pt x l = { prev := false, q := decide (pt ≠ 0), run := decide (pt ≠ 0), start := now } := by
  simp [laneStep, hx, hp]

theorem tof_ends (hx : x = false) (hp : l.prev = false) (h : l.run = true ∧ laneDue now pt l.start = true) :
    laneStep .tof now pt x l = { l with prev := false, q := false, run := false } := by
  simp [laneStep, hx, hp, h]

theorem tof_holds (hx : x = false) (hp : l.prev = false) (h : ¬(l.run = true ∧ laneDue now pt l.start = true)) :
    laneStep .tof now pt x l = { l with prev := false } := by
  simp [laneStep, hx, hp, h]

/-- The lane of a pulse timer after a pulse that is over has ended. -/
def pulseEnded (now pt : Nat) (l : Lane) : Lane := if l.run && laneDue now pt l.start then { l with run := false, q := false } else l

/-- Does a pulse begin: none runs, or the one that ran is over, at a rising input with a preset? -/
def PulseStarts (now pt : Nat) (x : Bool) (l : Lane) : Prop :=
  (l.run = false ∨ laneDue now pt l.start = true) ∧ x = true ∧ l.prev = false ∧ pt ≠ 0

theorem pulseStarts_iff :
    (!(pulseEnded now pt l).run && x && !(pulseEnded now pt l).prev && decide (pt ≠ 0)) = true ↔ PulseStarts now pt x l := by
  obtain ⟨prev, q, run, start⟩ := l
  unfold pulseEnded PulseStarts
  cases run <;> cases laneDue now pt start <;> simp [and_assoc]

theorem tp_eq : laneStep .tp now pt x l =
    { (if !(pulseEnded now pt l).run && x && !(pulseEnded now pt l).prev && decide (pt ≠ 0)
        then { pulseEnded now pt l with start := now, run := true, q := true } else pulseEnded now pt l) with prev := x } := rfl

theorem tp_starts (h : PulseStarts now pt x l) :
    laneStep .tp now pt x l = { prev := x, q := true, run := true, start := now } := by
  rw [tp_eq, if_pos (pulseStarts_iff.2 h)]

theorem pulseEnded_start : (pulseEnded now pt l).start = l.start := by
  unfold pulseEnded
  split <;> rfl

theorem pulseEnded_due (h : l.run = true ∧ laneDue now pt l.start = true) : pulseEnded now pt l = { l with run := false, q := false } :=
  if_pos (Bool.and_eq_true_iff.2 h)

theorem pulseEnded_holds (h : ¬(l.run = true ∧ laneDue now pt l.start = true)) : pulseEnded now pt l = l :=
  if_neg (mt Bool.and_eq_true_iff.1 h)

theorem tp_continues (h : ¬PulseStarts now pt x l) : laneStep .tp now pt x l = { pulseEnded now pt l with prev := x } := by
  rw [tp_eq, if_neg (mt pulseStarts_iff.1 h)]

end

/-! ### An element or a block on the stack (R125, R126) -/

theorem edgeSpace_tos {s : State} {e : Nat} {a : Row} {rest : List Row} (h : s.stk e = a :: rest) :
    s.edgeSpace e = if bit (scalar a) 63 then 6 else 5 := by
  have hc : (s.eng e).ctx.stack = a :: rest := h
  unfold State.edgeSpace
  rw [hc]

/-- An instruction on the top entries, with room for its output and no other condition, passes the checks of stages 2 to 4. -/
theorem decodes_on {s : State} {q : Issue} {word sp nout base worst : Nat} {ins rest : List Row} (h : s.runs q.eng = true)
    (hs : s.stk q.eng = ins ++ rest) (hl : rest.length + nout ≤ 16) :
    s.decodeExc q.eng { word := word, space := sp, nin := ins.length, nout := nout, base := base, worst := worst } = none := by
  have hlen : (s.stk q.eng).length = ins.length + rest.length := by rw [hs, List.length_append]
  exact State.runs_decode rfl (.inl rfl) rfl (show ins.length ≤ _ by omega) (show _ - ins.length + nout ≤ 16 by omega) (Nat.zero_le _)
    (State.runs_rstack h)

/-- An engine that ran at the issue still does where its modes, its bent and its task stand. -/
theorem issued_lean {s t : State} {q : Issue} (h : s.runs q.eng = true) (ht : t.standing = (s.issued q).standing) :
    t.leanRegime q.eng = false :=
  (State.KeepsRegime.of_standing (ht.trans (State.issued_standing s q))).leanRegime (State.runs_lean h)

/-! ### Edges (R125) -/

theorem takesEdge_of_edgeOp {mk : Issue → Instr} {word : Nat} {f : Row → Row → Row} {g : Bool → Bool → Bool}
    (hm : ∀ q s, exec (mk q) s = act (fun s => s.edgeOp q word f) s)
    (hf : ∀ x e : Row, ∀ i < 256, (f x e).getLsbD i = g (x.getLsbD i) (e.getLsbD i)) : TakesEdge mk word g := by
  intro q s v w a x rest off bs bs' buf buf' h hs hl ha sp hload hstore
  have hv : v.standing = (s.issued q).standing := State.standing_snd hload (State.loadBytes_standing _ _ _ _ _)
  have hw : w.standing = v.standing := by
    have hst := State.storeBytes_standing v q.eng sp off (bytesOfRow x) (2 ^ 256 - 1) (v.eng q.eng).ctx.pc word
    rwa [hstore] at hst
  refine ⟨f x (rowOfBytes bs), hf x _, (hm q s).trans (congrArg (done s) ?_)⟩
  unfold State.edgeOp
  dsimp only
  rw [edgeSpace_tos hs]
  refine State.runOp_completes (u := s.issued q) (t := w) (d := { outs := [f x (rowOfBytes bs)], base := if buf then 3 else 4 }) h
    (decodes_on (ins := [a, x]) h hs (by omega)) rfl ?_ (issued_lean h (hw.trans hv)) rfl rfl rfl
  rw [State.issued_stk, hs]
  dsimp only [List.take_succ_cons, List.take_zero, inp_tos, inp_below]
  rw [ha]
  dsimp only
  rw [hload]
  dsimp only
  rw [hstore]

/-! ### Timers (R127, R128) -/

theorem timesLanes_of_timerOp {mk : Issue → Instr} {word : Nat} {kind : TimerKind}
    (hm : ∀ q s, exec (mk q) s = act (fun s => s.timerOp q word kind) s) : TimesLanes mk kind := by
  intro q s s1 s2 s3 s4 a x rest off l0 l1 stamps h hs hl ha sp now hovl hread hstamps hwrite
  have hlean : s4.leanRegime q.eng = false := issued_lean h <|
    (State.standing_snd hwrite (State.blockWrite_standing _ _ _ _ _)).trans <|
    (State.standing_snd hstamps (State.blockRead_standing _ _ _ _ _)).trans <|
    (State.standing_snd hread (State.blockRead_standing _ _ _ _ _)).trans (State.standing_snd hovl (State.blockOvl_standing _ _ _ _))
  refine (hm q s).trans (congrArg (done s) ?_)
  unfold State.timerOp
  dsimp only
  rw [edgeSpace_tos hs]
  refine State.runOp_completes (u := s.issued q) (t := s4)
    (d := { outs := [rowOfLanes (lanesAfter kind now (bits l0 0 64) x (lanesOf l0 l1 stamps)) (·.q)], base := 6 }) h
    (decodes_on (ins := [a, x]) h hs (by omega)) rfl ?_ hlean rfl rfl rfl
  rw [State.issued_stk, hs]
  dsimp only [List.take_succ_cons, List.take_zero, inp_tos, inp_below]
  rw [ha]
  dsimp only
  rw [hovl]
  dsimp only
  rw [hread]
  change (match s2.blockRead q.eng sp off (stampLines kind now x l0 l1) with
    | (.inl (.exc c kd ad), t) => (Res.exc c kd ad, t)
    | (.inl (.stall st), t) => (.stall st, t)
    | (.inl (.ok _ _), t) => (.stall .none, t)
    | (.inr stamps, t) =>
      match t.blockWrite q.eng sp off (timerLines kind now x l0 l1 stamps) with
      | (some (.exc c kd ad), t) => (.exc c kd ad, t)
      | (some (.stall st), t) => (.stall st, t)
      | (_, t) => (.ok { outs := [rowOfLanes (lanesAfter kind now (bits l0 0 64) x (lanesOf l0 l1 stamps)) (·.q)], base := 6 }, t)) = _
  rw [hstamps]
  dsimp only
  rw [hwrite]

theorem exec_trst_clears {s s1 s2 s3 : State} {q : Issue} {a : Row} {rest : List Row} {off l0 : Nat} (h : s.runs q.eng = true)
    (hs : s.stk q.eng = a :: rest) (hl : rest.length ≤ 16) (ha : (s.issued q).edgeElem q.eng (scalar a) 2176 64 = .ok off)
    (hovl : (s.issued q).blockOvl q.eng (if bit (scalar a) 63 then 6 else 5) off = (none, s1))
    (hread : s1.blockRead q.eng (if bit (scalar a) 63 then 6 else 5) off [0] = (.inr [(0, l0)], s2))
    (hwrite : s2.blockWrite q.eng (if bit (scalar a) 63 then 6 else 5) off [(0, l0 % 2 ^ 256), (1, 0)] = (none, s3)) :
    exec (.trst q) s = done s (s3.ran q.eng 1 [] (s3.hsCost q.eng 4 (s.waitOf q 17640000))) := by
  have hlean : s3.leanRegime q.eng = false := issued_lean h <|
    (State.standing_snd hwrite (State.blockWrite_standing _ _ _ _ _)).trans <|
    (State.standing_snd hread (State.blockRead_standing _ _ _ _ _)).trans (State.standing_snd hovl (State.blockOvl_standing _ _ _ _))
  rw [exec_trst]
  refine congrArg (done s) ?_
  unfold State.trstOp
  dsimp only
  rw [edgeSpace_tos hs]
  refine State.runOp_completes (u := s.issued q) (t := s3) (d := { outs := [], base := 4 }) h (decodes_on (ins := [a]) h hs (by omega)) rfl ?_ hlean
    rfl rfl rfl
  rw [State.issued_stk, hs]
  dsimp only [List.take_succ_cons, List.take_zero, inp_tos]
  rw [ha]
  dsimp only
  rw [hovl]
  dsimp only
  rw [hread]
  dsimp only [List.headD_cons]
  have hlow : bits l0 0 256 = l0 % 2 ^ 256 := rfl
  rw [hlow, hwrite]

end Sys2Proof.Machine

open Sys2Proof Sys2Proof.Machine Sys2Proof.Machine.State

/-- Settles O25: each edge row is one operation on bit vectors, the Q row is built lane by lane, and TRST's body reads and writes its two lines. -/
theorem edgesAndTimersWorkPerLane : Obligations.EdgesAndTimersWorkPerLane := by
  unfold Obligations.EdgesAndTimersWorkPerLane
  refine ⟨takesEdge_of_edgeOp exec_rise fun x e i hi => ?rise, takesEdge_of_edgeOp exec_fall fun x e i hi => ?fall,
    fun kind now pt x l0 l1 stamps i hi => rowOfLanes_lane (·.q) hi (lanesAfter_lane kind now pt x (lanesOf_lane l0 l1 stamps hi)),
    fun q s s1 s2 s3 a rest off l0 h hs hl ha hovl hread hwrite => exec_trst_clears h hs hl ha hovl hread hwrite⟩
  case rise => rw [BitVec.getLsbD_and, BitVec.getLsbD_not, decide_eq_true hi, Bool.true_and]
  case fall => rw [BitVec.getLsbD_and, BitVec.getLsbD_not, decide_eq_true hi, Bool.true_and]

/-- Settles O26: the three instructions are one operation; a lane's step is its case of R127, by the lemma of the case's name above. -/
theorem laneTimerProgram : Obligations.LaneTimerProgram := by
  unfold Obligations.LaneTimerProgram
  refine ⟨timesLanes_of_timerOp exec_ton, timesLanes_of_timerOp exec_tof, timesLanes_of_timerOp exec_tp, fun t => rfl, ?epoch, ?lane⟩
  case epoch =>
    intro s e k he hk
    unfold engEpoch
    rw [if_neg he, hk]
  case lane =>
    intro now pt x l hn hst hpt diff wrapped due ton tof tp ended
    have hdue : laneDue now pt l.start = true ↔ due := laneDue_iff pt hn hst
    have hended : ended ↔ l.run = true ∧ laneDue now pt l.start = true := and_congr_right' hdue.symm
    have hstarts : ((l.run = false ∨ due) ∧ x = true ∧ l.prev = false ∧ pt ≠ 0) ↔ PulseStarts now pt x l :=
      and_congr_left' (or_congr_right hdue.symm)
    refine ⟨laneStep_prev _ now pt x l, laneStep_prev _ now pt x l, laneStep_prev _ now pt x l, fun hx => ?tonLow, fun hx hp => ?tonRises,
      fun hx hp h => ?tonEnds, fun hx hp h => ?tonHolds, fun hx => ?tofHigh, fun hx hp => ?tofFalls, fun hx hp h => ?tofEnds,
      fun hx hp h => ?tofHolds, fun hd hx hp h0 => ?tpStarts, fun hno => ⟨?tpStart, fun h => ?tpEnds, fun h => ?tpHolds⟩⟩
    case tonLow => simp [ton, ton_low hx]
    case tonRises => simp [ton, ton_rises hx hp]
    case tonEnds => simp [ton, ton_ends hx hp (hended.1 h)]
    case tonHolds => simp [ton, ton_holds hx hp (mt hended.2 h)]
    case tofHigh => simp [tof, tof_high hx]
    case tofFalls => simp [tof, tof_falls hx hp]
    case tofEnds => simp [tof, tof_ends hx hp (hended.1 h)]
    case tofHolds => simp [tof, tof_holds hx hp (mt hended.2 h)]
    case tpStarts => simp [tp, tp_starts (hstarts.1 ⟨hd, hx, hp, h0⟩)]
    case tpStart => simp [tp, tp_continues (mt hstarts.2 hno), pulseEnded_start]
    case tpEnds => simp [tp, tp_continues (mt hstarts.2 hno), pulseEnded_due (hended.1 h)]
    case tpHolds => simp [tp, tp_continues (mt hstarts.2 hno), pulseEnded_holds (mt hended.2 h)]

end

section
/-! SUPPORT. Storage, memory, the archive and the rings leave the image alone: an entry that a producer offers to a ring, a trigger of the archive. -/
namespace Sys2Proof.Machine
namespace State

/-- The state half of an operation that answers, once the answer is named. -/
theorem snd_img {α : Type} {p : α × State} {a : α} {s t : State} (h : p = (a, t)) (hp : p.2.img = s.img) : t.img = s.img := by
  subst h
  exact hp

/-- What every turn of a loop leaves alone the loop leaves alone. -/
theorem forEach_img {α : Type} {f : State → α → State} (h : ∀ s x, (f s x).img = s.img) (l : List α) (s : State) :
    (forEach l f s).img = s.img := forEach_keeps f img h l s

theorem with_mmu_img {s t : State} {x : Mmu} (h : t.img = s.img) : ({ t with mmu := x } : State).img = s.img := h

theorem with_sto_img {s t : State} {x : Sto} (h : t.img = s.img) : ({ t with sto := x } : State).img = s.img := h

/-! ### Staging and archive windows (R287, R288, R297, R298) -/

@[simp] theorem flushOne_img (s : State) (share : Nat) : (s.flushOne share).img = s.img := by
  unfold flushOne
  split
  · rfl
  · exact (wr_img _ _ _).trans (with_sto_img rfl)

@[simp] theorem makeRoom_img (s : State) (share len k : Nat) : (s.makeRoom share len k).img = s.img := by
  induction k generalizing s with
  | zero => rfl
  | succ k ih =>
    unfold makeRoom
    split
    · rw [ih, flushOne_img]
    · rfl

@[simp] theorem stage_img (s : State) (share len : Nat) (w : StoWrite) : (s.stage share len w).img = s.img := by
  unfold stage
  dsimp only
  rw [maxReg_img, wr_img, bump64_img]
  refine with_sto_img ((makeRoom_img _ _ _ _).trans ?_)
  rw [apply_ite img, raise_img, setBit_img, bump_img, ite_self]

@[simp] theorem winRegs_img (s : State) : s.winRegs.img = s.img := by
  unfold winRegs
  dsimp only
  rw [forEach_img fun s n => (wr_img _ _ _).trans (wr_img s _ _), wr_img, wr_img]

@[simp] theorem releaseWins_img (s : State) (k : Nat) : (s.releaseWins k).img = s.img := by
  induction k generalizing s with
  | zero => rfl
  | succ k ih =>
    unfold releaseWins
    split
    · split
      · rfl
      · rw [ih, raise_img, setBit_img, bump_img]
    · rfl

@[simp] theorem trigger_img (s : State) (n t p q : Nat) : (s.trigger n t p q).img = s.img := by
  unfold trigger
  split
  · rw [winRegs_img, releaseWins_img]
    exact with_sto_img (bump_img s _ _)
  · rfl

/-! ### Frames, tables and lines (R268 to R282) -/

@[simp] theorem setEntry_img (s : State) (key e : Nat) : (s.setEntry key e).img = s.img := rfl
@[simp] theorem putLine_img (s : State) (f va : Nat) (l : Line) : (s.putLine f va l).img = s.img := rfl
@[simp] theorem memRegs_img (s : State) : s.memRegs.img = s.img := by
  unfold memRegs
  rw [setBit_img, wr_img, wr_img, wr_img]
@[simp] theorem freeFrame_img (s : State) (f : Nat) : (s.freeFrame f).img = s.img := memRegs_img _
@[simp] theorem addResident_img (s : State) (n : Nat) : (s.addResident n).img = s.img := (maxReg_img _ _ _).trans (wr_img _ _ _)
@[simp] theorem cancelOut_img (s : State) (n page key e : Nat) : (s.cancelOut n page key e).img = s.img := rfl

@[simp] theorem invalidate_img (s : State) (n page : Nat) : (s.invalidate n page).img = s.img := by
  refine forEach_img (fun s p => ?_) _ _
  dsimp only
  split
  · rfl
  · exact (bump_img _ _ _).trans (with_mmu_img rfl)

@[simp] theorem prepareOne_img (s : State) : s.prepareOne.img = s.img := by
  unfold prepareOne
  split
  · rfl
  · split
    · exact (memRegs_img _).trans (with_mmu_img rfl)
    · split
      · rfl
      · exact (memRegs_img _).trans (with_mmu_img rfl)

@[simp] theorem takeFrame_img (s : State) : s.takeFrame.2.img = s.img := by
  unfold takeFrame
  split
  · exact (memRegs_img _).trans (with_mmu_img rfl)
  · exact memRegs_img s

@[simp] theorem takeFrameNow_img (s : State) : s.takeFrameNow.2.img = s.img := by
  unfold takeFrameNow
  split <;> simp

@[simp] theorem newTable_img (s : State) : s.newTable.2.img = s.img := by
  unfold newTable
  split <;> exact (memRegs_img _).trans (with_mmu_img rfl)

@[simp] theorem ensureRoot_img (s : State) (n : Nat) : (s.ensureRoot n).img = s.img := by
  unfold ensureRoot
  split
  · rfl
  · exact (wr64_img _ _ _).trans (with_mmu_img (newTable_img s))

@[simp] theorem ensureFrom_img (s : State) (va fuel level addr : Nat) : (s.ensureFrom va fuel level addr).2.img = s.img := by
  induction fuel generalizing s level addr with
  | zero => rfl
  | succ fuel ih =>
    unfold ensureFrom
    dsimp only
    split
    · rfl
    · split
      · exact ih s _ _
      · rw [ih, setEntry_img, newTable_img]

@[simp] theorem ensureEntry_img (s : State) (n va : Nat) : (s.ensureEntry n va).2.img = s.img :=
  (ensureFrom_img _ _ _ _ _).trans (ensureRoot_img s n)

@[simp] theorem evict_img (s : State) (n page key e : Nat) : (s.evict n page key e).img = s.img := by
  unfold evict
  dsimp only
  split
  · exact with_mmu_img ((setEntry_img _ _ _).trans (invalidate_img s n page))
  · rw [wr_img, freeFrame_img, setEntry_img, invalidate_img]

@[simp] theorem sweep_img (s : State) (n : Nat) (l : List (Nat × Nat × Nat)) : (s.sweep n l).img = s.img := by
  induction l generalizing s with
  | nil => rfl
  | cons p l ih =>
    unfold sweep
    dsimp only
    split
    · rw [ih, setEntry_img, invalidate_img]
    · exact evict_img _ _ _ _ _

@[simp] theorem pageOutIfNeeded_img (s : State) (n : Nat) : (s.pageOutIfNeeded n).img = s.img := by
  unfold pageOutIfNeeded
  dsimp only
  split
  · exact sweep_img s n _
  · rfl

@[simp] theorem allocPage_img (s : State) (n va : Nat) (pin now_ : Bool) : (s.allocPage n va pin now_).2.img = s.img := by
  have ht : (if now_ = true then s.takeFrameNow else s.takeFrame).2.img = s.img := by split <;> simp
  unfold allocPage
  split
  rename_i f? t h
  have hi := snd_img h ht
  split
  · exact hi
  · dsimp only
    rw [pageOutIfNeeded_img, apply_ite img, wr_img, ite_self, addResident_img, bump_img, setEntry_img, ensureEntry_img, invalidate_img, hi]

@[simp] theorem startPageIn_img (s : State) (n page : Nat) : (s.startPageIn n page).img = s.img := by
  unfold startPageIn
  split <;> rfl

@[simp] theorem walkEvent_img (s : State) (n va code task : Nat) : (s.walkEvent n va code task).img = s.img := by
  unfold walkEvent
  dsimp only
  split <;> rw [raise_img, setBit_img, bump_img, wr64_img]

@[simp] theorem walkAccess_img (s : State) (n va task : Nat) : (s.walkAccess n va task).2.img = s.img := by
  unfold walkAccess
  dsimp only
  split
  · exact walkEvent_img s n va _ task
  · exact walkEvent_img s n va _ task
  · rfl
  · split
    · rfl
    · split
      · rfl
      · split
        · rfl
        · exact startPageIn_img _ n _

@[simp] theorem tagEvent_img (s : State) (n f va task : Nat) : (s.tagEvent n f va task).img = s.img := by
  unfold tagEvent
  dsimp only
  rw [apply_ite img, raise_img, ite_self, wr64_img, setBit_img, bump_img, putLine_img, apply_ite img, raise_img, setBit_img, bump_img, ite_self]

@[simp] theorem poisonEvent_img (s : State) (n f va task : Nat) : (s.poisonEvent n f va task).img = s.img := by
  unfold poisonEvent
  dsimp only
  rw [raise_img, wr64_img, setBit_img, bump_img, putLine_img, apply_ite img, raise_img, setBit_img, bump_img, ite_self]

@[simp] theorem correctLine_img (s : State) (f va : Nat) : (s.correctLine f va).img = s.img := by
  unfold correctLine
  dsimp only
  rw [apply_ite img, bump_img, putLine_img, ite_self]

@[simp] theorem markDirty_img (s : State) (n va : Nat) : (s.markDirty n va).img = s.img := by
  unfold markDirty
  split <;> rfl

@[simp] theorem writeLine_img (s : State) (n f va : Nat) (data : Line64) : (s.writeLine n f va data).img = s.img := by
  unfold writeLine
  dsimp only
  split <;> simp

@[simp] theorem mergeLine_img (s : State) (n f va : Nat) (data mask : Line64) (task : Nat) :
    (s.mergeLine n f va data mask task).2.img = s.img := by
  unfold mergeLine
  dsimp only
  split
  · simp
  · split
    · simp
    · split
      · simp
      · split <;> simp

@[simp] theorem hwWrite_img (s : State) (n va : Nat) (bs : List Byte) : (s.hwWrite n va bs).2.img = s.img := by
  have hw := walkAccess_img s n va 0xFFFF
  unfold hwWrite
  dsimp only
  split
  · rename_i h
    rw [mergeLine_img, snd_img h hw]
  · rename_i t h
    have ha := (allocPage_img t n va false true).trans (snd_img h hw)
    split
    · rename_i h2
      rw [mergeLine_img, snd_img h2 ha]
    · rename_i h2
      exact snd_img h2 ha
  · rename_i h
    exact snd_img h hw

/-! ### Rings (R200 to R203) -/

@[simp] theorem postEvent_img (s : State) (k t : Nat) : (s.postEvent k t).img = s.img := rfl

@[simp] theorem postBound_img (s : State) (kind id t : Nat) : (s.postBound kind id t).img = s.img :=
  forEach_img (fun s k => postEvent_img s k t) _ _

@[simp] theorem wakeWhere_img (s : State) (n : Nat) (p : WaitDesc → Bool) : (s.wakeWhere n p).img = s.img := by
  refine forEach_img (fun s k => ?_) _ _
  dsimp only
  split
  · split <;> rfl
  · rfl

/-- A ring that is not empty ends the waits for an entry. -/
def endEntryWaits (s : State) (n q : Nat) : State := if 0 < s.ringCount q then s.wakeWhere n (waitsRing 3 q) else s

/-- A ring that is not full ends the waits for room. -/
def endRoomWaits (s : State) (n q : Nat) : State := if s.ringFull q then s else s.wakeWhere n (waitsRing 4 q)

theorem ringWake_of_owner {s : State} {q n : Nat} (h : s.ringOwner q = some n) :
    s.ringWake q = if s.ringOpen q then (s.endEntryWaits n q).endRoomWaits n q else s := by
  unfold ringWake
  rw [h]
  rfl

@[simp] theorem endEntryWaits_img (s : State) (n q : Nat) : (s.endEntryWaits n q).img = s.img := by
  unfold endEntryWaits
  rw [apply_ite img, wakeWhere_img, ite_self]

@[simp] theorem endRoomWaits_img (s : State) (n q : Nat) : (s.endRoomWaits n q).img = s.img := by
  unfold endRoomWaits
  rw [apply_ite img, wakeWhere_img, ite_self]

@[simp] theorem ringWake_img (s : State) (q : Nat) : (s.ringWake q).img = s.img := by
  cases h : s.ringOwner q with
  | none =>
    unfold ringWake
    rw [h]
  | some n => rw [ringWake_of_owner h, apply_ite img, endRoomWaits_img, endEntryWaits_img, ite_self]

@[simp] theorem ringSet_img (s : State) (q p c : Nat) : (s.ringSet q p c).img = s.img := by
  unfold ringSet
  dsimp only
  rw [setBit_img, wr_img, wr_img]

@[simp] theorem ringDrop_img (s : State) (q : Nat) : (s.ringDrop q).img = s.img := (setBit_img _ _ _ _).trans (bump_img _ _ _)

@[simp] theorem ringAdvance_img (s : State) (q : Nat) : (s.ringAdvance q).img = s.img := by
  unfold ringAdvance
  dsimp only
  rw [ringWake_img, apply_ite img, postBound_img, ite_self, maxReg_img, bump64_img, ringSet_img]

@[simp] theorem hwEnq_img (s : State) (q : Nat) (entry : List Byte) : (s.hwEnq q entry).2.img = s.img := by
  unfold hwEnq
  split
  · rfl
  · rename_i n _
    dsimp only
    have hw (bs : List Byte) := hwWrite_img s n (s.ringSlot q (s.ringP q)) bs
    split
    · rfl
    · split
      · exact ringDrop_img s q
      · split <;> rename_i h
        · rw [apply_ite img, emit_img, ite_self, ringAdvance_img, snd_img h (hw _)]
        · rw [setBit_img, ringDrop_img, snd_img h (hw _)]

end State
end Sys2Proof.Machine
end

section
/-! SUPPORT. What hears of a row's new version and of a commit (events, records, publications, CAN frames, digests) leaves the image alone; and
another key of a sparse map reads as before a write. -/
namespace Sys2Proof

theorem find_set_other {α : Type} [DecidableEq α] (d : α) (m : SMap α) {k j : Nat} (v : α) (h : j ≠ k) :
    SMap.find? (m.set d k v) j = SMap.find? m j := by
  unfold SMap.set
  split
  · exact find_erase_other _ h
  · exact find_insert_other _ _ h

namespace Machine
namespace State

/-! ### What follows a row's new version (R153, R164 to R166, R178) -/

@[simp] theorem soe_img (s : State) (n space rel : Nat) (old new : Row) (writer stamp : Nat) (clamped : Bool) :
    (s.soe n space rel old new writer stamp clamped).img = s.img := by
  have hw (s : State) : (if writer ≤ 6 then (writer, s) else (s.fresh.1 % 16, s.fresh.2)).2.img = s.img := by split <;> rfl
  unfold soe
  rw [apply_ite img, forEach_img fun s k => ?turn, ite_self]
  dsimp only
  split
  · rfl
  · split
    · rfl
    · split <;> rename_i h
      · rw [bump_img, snd_img h ((hwEnq_img _ _ _).trans (hw s))]
      · rw [raise_img, setBit_img, bump_img, snd_img h ((hwEnq_img _ _ _).trans (hw s))]

/-- What a posted event leaves alone, the events of a new version leave alone. -/
theorem bitEvents_keeps {β : Type} (g : State → β) (hg : ∀ s k t, g (postEvent s k t) = g s) (s : State) (n space rel : Nat) (old new : Row)
    (stamp : Nat) : g (s.bitEvents n space rel old new stamp) = g s := by
  refine forEach_keeps _ g (fun s k => ?_) _ _
  dsimp only
  split
  · split
    · exact hg s k _
    · rfl
  · rfl

@[simp] theorem bitEvents_img (s : State) (n space rel : Nat) (old new : Row) (stamp : Nat) :
    (s.bitEvents n space rel old new stamp).img = s.img := bitEvents_keeps img postEvent_img s n space rel old new stamp

theorem bitEvents_cfg (s : State) (n space rel : Nat) (old new : Row) (stamp : Nat) :
    (s.bitEvents n space rel old new stamp).cfg = s.cfg := bitEvents_keeps cfg (fun _ _ _ => rfl) s n space rel old new stamp

@[simp] theorem bitTriggers_img (s : State) (n space rel : Nat) (old new : Row) (stamp : Nat) :
    (s.bitTriggers n space rel old new stamp).img = s.img := by
  refine forEach_img (fun s t => ?_) _ _
  rw [apply_ite img, trigger_img, ite_self]

@[simp] theorem rowChanged_img (s : State) (n space rel : Nat) (old new : Row) (writer src stamp : Nat) (clamped : Bool) :
    (s.rowChanged n space rel old new writer src stamp clamped).img = s.img := by
  unfold rowChanged
  dsimp only
  rw [apply_ite img, bitTriggers_img, ite_self, bitEvents_img, apply_ite img, soe_img, ite_self]

/-! ### What follows a commit: publications (R321), CAN objects that map OUT rows (R390), the digest (R246) -/

@[simp] theorem setNet_img (s : State) (x : Net) : (s.setNet x).img = s.img := rfl

@[simp] theorem pubSend_img (s : State) (p : Nat) (c : PubRec) (interval k : Nat) (data : List Nat) :
    (s.pubSend p c interval k data).img = s.img := by
  unfold pubSend
  dsimp only
  rw [emit_img, wr_img, bump_img, forEach_img fun s i => bump64_img s _ _, apply_ite img, apply_ite img, emit_img, ite_self, setNet_img, ite_self,
    setNet_img]

@[simp] theorem pubNew_img (s : State) (p : Nat) (c : PubRec) (data : List Nat) : (s.pubNew p c data).img = s.img := by
  unfold pubNew
  dsimp only
  rw [pubSend_img, wr64_img, wr_img, wr_img]

@[simp] theorem pubHook_img (s : State) (n : Nat) (chg : List (Nat × Row)) : (s.pubHook n chg).img = s.img := by
  refine forEach_img (fun s q => ?_) _ _
  dsimp only
  rw [apply_ite img, apply_ite img, pubNew_img, ite_self, ite_self]

@[simp] theorem setCanCtl_img (s : State) (k : Nat) (c : CanCtl) : (s.setCanCtl k c).img = s.img := rfl

@[simp] theorem setCanTx_img (s : State) (k j : Nat) (x : CanTx) : (s.setCanTx k j x).img = s.img := rfl

@[simp] theorem canIdle_img (s : State) (k : Nat) : (s.canIdle k).img = s.img := by
  unfold canIdle
  dsimp only
  split
  · rw [apply_ite img, setBit_img, setCanCtl_img, ite_self, setBit_img, apply_ite img, setBit_img, ite_self]
  · rw [setBit_img, apply_ite img, setBit_img, ite_self]

@[simp] theorem canStage_img (s : State) (k j dlc : Nat) (data : List Byte) : (s.canStage k j dlc data).img = s.img := by
  unfold canStage
  dsimp only
  rw [apply_ite img, setCanTx_img, canIdle_img, setBit_img, setCanTx_img, apply_ite img, bump_img, ite_self, apply_ite img,
    bump_img, ite_self, ite_self]

@[simp] theorem canStageRows_img (s : State) (k j : Nat) : (s.canStageRows k j).img = s.img := canStage_img s k j _ _

@[simp] theorem canOutHook_img (s : State) (n : Nat) (rows : List Nat) : (s.canOutHook n rows).img = s.img := by
  refine forEach_img (fun s p => ?_) _ _
  dsimp only
  split
  · split
    · rw [apply_ite img, canStageRows_img, ite_self]
    · rfl
  · rfl

@[simp] theorem sendDigest_img (s : State) (n kind num epoch : Nat) (rows : SMap (Row × Row)) :
    (s.sendDigest n kind num epoch rows).img = s.img := by
  have he (v : Nat) (e : Emit) : ((s.emit e).bump64 Reg.RED_DIGTX v).img = s.img := (bump64_img _ _ _).trans (emit_img s e)
  unfold sendDigest
  rw [apply_ite img, apply_ite img, he, ite_self, ite_self]

end State
end Machine
end Sys2Proof
end

section
/-! SUPPORT. A row's new version: what it supersedes, how it is placed, and when none is installed; commits in the order of their ENDs; stores that
wait for a pool row and SYS rows; and O44, which says so. -/
namespace Sys2Proof.Machine
namespace State

theorem healWords_lastCommit (s : State) (row : Nat) (mask : Row) : (s.healWords row mask).img.lastCommit = s.img.lastCommit := rfl

theorem poolRegs_img (s : State) (n : Nat) : (s.poolRegs n).img = s.img := maxReg_img _ _ _

theorem poolRegs_cfg (s : State) (n : Nat) : (s.poolRegs n).cfg = s.cfg := maxReg_cfg _ _ _

theorem mergeRow_zero (old val : Row) : mergeRow old val 0 = old := by
  change old &&& ~~~0#256 ||| val &&& 0#256 = old
  rw [BitVec.not_zero, BitVec.and_allOnes, BitVec.and_zero, BitVec.or_zero]

/-! ### What a row holds -/

/-- Which row belongs where is the configuration's. -/
theorem rowHist_congr {s t : State} (hi : t.img = s.img) (hc : t.cfg = s.cfg) (row : Nat) : t.rowHist row = s.rowHist row := by
  unfold rowHist rowDflt rowPlace range ownerDef ownerCfg
  rw [hi, hc]

theorem rowFlags_congr {s t : State} (hc : t.cfg = s.cfg) (n space rel : Nat) : t.rowFlags n space rel = s.rowFlags n space rel := by
  unfold rowFlags imgf
  rw [hc]

@[simp] theorem rowHist_setRow_same (s : State) (row : Nat) (h : RowHist) : (s.setRow row h).rowHist row = h :=
  get_set_same (s.rowDflt row) s.img.rows row h

theorem rowHist_setRow_other (s : State) {row j : Nat} (h : RowHist) (hj : j ≠ row) : (s.setRow row h).rowHist j = s.rowHist j :=
  congrArg (fun o => Option.getD o (s.rowDflt j)) (find_set_other (s.rowDflt row) s.img.rows h hj)

/-! ### What a new version supersedes (R160, R161, R163) -/

/-- A version is not kept (R163): counted, flagged, and F0280 + n fires with the owner's row. -/
def skewed (s : State) (n rel : Nat) : State :=
  ((s.bump (Reg.IMG_SKEWCNT n) 1).setBit (Reg.IMG_OSTAT n) 10 true).raise (280 + n) 0xFFFF 0 rel

theorem skewed_img (s : State) (n rel : Nat) : (s.skewed n rel).img = s.img := by
  unfold skewed
  rw [raise_img, setBit_img, bump_img]

theorem skewed_cfg (s : State) (n rel : Nat) : (s.skewed n rel).cfg = s.cfg := by
  unfold skewed
  rw [raise_cfg, setBit_cfg, bump_cfg]

/-- The new version is current; at most a version is dropped, with F0296 before where no pool row was left for it. -/
theorem supersede_cases (s : State) (n space rel : Nat) (h : RowHist) (new : Version) (staged : Bool) :
    let p := s.supersede n space rel h new staged
    p.1.cur = new ∧ (p.2 = s ∨ p.2 = s.skewed n rel ∨ p.2 = (s.raise 296).skewed n rel) := by
  unfold supersede
  dsimp only
  split
  · exact ⟨rfl, .inl rfl⟩
  · split
    · split
      · exact ⟨rfl, .inr (.inl rfl)⟩
      · exact ⟨rfl, .inl rfl⟩
    · split
      · split
        · exact ⟨rfl, .inr (.inl rfl)⟩
        · exact ⟨rfl, .inl rfl⟩
      · split
        · split
          · exact ⟨rfl, .inr (.inl rfl)⟩
          · exact ⟨rfl, .inl rfl⟩
        · exact ⟨rfl, .inr (.inr rfl)⟩

theorem supersede_img_cfg (s : State) (n space rel : Nat) (h : RowHist) (new : Version) (staged : Bool) :
    (s.supersede n space rel h new staged).2.img = s.img ∧ (s.supersede n space rel h new staged).2.cfg = s.cfg := by
  obtain ⟨-, e | e | e⟩ := supersede_cases s n space rel h new staged
  · rw [e]
    exact ⟨rfl, rfl⟩
  · rw [e]
    exact ⟨skewed_img s n rel, skewed_cfg s n rel⟩
  · rw [e]
    exact ⟨skewed_img _ n rel, skewed_cfg _ n rel⟩

/-! ### A row's new version is installed (R148 to R153) -/

section
variable (s : State) (n space row : Nat) (new : Row) (stamp writer : Nat) (staged : Bool)

/-- A stamp earlier than the current version's is clamped, and the clamp is counted (R150). -/
def clampCounted : State := if decide (stamp < (s.rowHist row).cur.stamp) then s.bump Reg.IMG_CLAMPCNT 1 else s

theorem clampCounted_keeps :
    (s.clampCounted row stamp).img = s.img ∧ (s.clampCounted row stamp).cfg = s.cfg ∧ (s.clampCounted row stamp).now = s.now := by
  unfold clampCounted
  split
  · exact ⟨bump_img _ _ _, bump_cfg _ _ _, bump_now _ _ _⟩
  · exact ⟨rfl, rfl, rfl⟩

/-- The version that new contents make, over the row's current one (R148, R150). -/
def newVersion : Version := { bits := new, stamp := max stamp (s.rowHist row).cur.stamp, inst := s.now, writer := writer }

/-- The row with its new version current, and the state in which what it supersedes is held or dropped. -/
def superseding : RowHist × State :=
  (s.clampCounted row stamp).supersede n space (row - (s.range n space).base) (s.rowHist row)
    { s.newVersion row new stamp writer with inst := (s.clampCounted row stamp).now } staged

theorem superseding_keeps :
    let p := s.superseding n space row new stamp writer staged
    p.1.cur = s.newVersion row new stamp writer ∧ p.2.img = s.img ∧ p.2.cfg = s.cfg := by
  obtain ⟨hi, hc, hn⟩ := s.clampCounted_keeps row stamp
  unfold superseding
  dsimp only
  rw [hn]
  obtain ⟨si, sc⟩ := supersede_img_cfg (s.clampCounted row stamp) n space (row - (s.range n space).base) (s.rowHist row)
    (s.newVersion row new stamp writer) staged
  exact ⟨(supersede_cases _ _ _ _ _ _ _).1, si.trans hi, sc.trans hc⟩

/-- The state with the new version in the row, and a commit's change marked (R157). -/
def placed : State :=
  let p := s.superseding n space row new stamp writer staged
  let h := s.rowHist row
  p.2.setRow row { p.1 with chg := if writer = 5 then (p.2.now, h.cur.bits ^^^ new) :: h.chg else h.chg }

theorem placed_cfg : (s.placed n space row new stamp writer staged).cfg = s.cfg := by
  obtain ⟨-, -, hc⟩ := s.superseding_keeps n space row new stamp writer staged
  exact hc

theorem placed_lastCommit : (s.placed n space row new stamp writer staged).img.lastCommit = s.img.lastCommit := by
  obtain ⟨-, hi, -⟩ := s.superseding_keeps n space row new stamp writer staged
  have h := congrArg Img.lastCommit hi
  exact h

theorem placed_cur : ((s.placed n space row new stamp writer staged).rowHist row).cur = s.newVersion row new stamp writer := by
  unfold placed
  dsimp only
  rw [rowHist_setRow_same]
  obtain ⟨hcur, -, -⟩ := s.superseding_keeps n space row new stamp writer staged
  exact hcur

theorem placed_other {j : Nat} (hj : j ≠ row) : (s.placed n space row new stamp writer staged).rowHist j = s.rowHist j := by
  obtain ⟨-, hi, hc⟩ := s.superseding_keeps n space row new stamp writer staged
  exact (rowHist_setRow_other _ _ hj).trans (rowHist_congr hi hc j)

end

/-- A version that is installed is counted, with the pool use it makes, and so is a late one, which F0272 + n reports (R152). -/
def versionCounted (s : State) (n space stamp : Nat) : State :=
  let s := (s.bump64 (Reg.IMG_VERSIONS n) 1).poolRegs n
  let g := s.guardOf n space
  let late := space == 0 && (s.openEpochs n).any (fun e => decide (stamp + g ≤ e) && decide (e < s.now))
  if late then ((s.bump (Reg.IMG_LATECNT n) 1).setBit (Reg.IMG_OSTAT n) 9 true).raise (272 + n) else s

theorem versionCounted_img (s : State) (n space stamp : Nat) : (s.versionCounted n space stamp).img = s.img := by
  unfold versionCounted
  dsimp only
  rw [apply_ite img, raise_img, setBit_img, bump_img, ite_self, poolRegs_img, bump64_img]

theorem versionCounted_cfg (s : State) (n space stamp : Nat) : (s.versionCounted n space stamp).cfg = s.cfg := by
  unfold versionCounted
  dsimp only
  rw [apply_ite cfg, raise_cfg, setBit_cfg, bump_cfg, ite_self, poolRegs_cfg, bump64_cfg]

/-- A new version is placed, counted, and followed by what hears of it; where neither contents nor stamp change nothing is done. -/
theorem install_eq (s : State) (n space row : Nat) (val mask : Row) (stamp writer : Nat) (staged : Bool) :
    let h := s.rowHist row
    let f := s.img.forces.get (0, 0) row
    let new := mergeRow (mergeRow h.cur.bits val mask) f.1 f.2
    let st := max stamp h.cur.stamp
    s.install n space row val mask stamp writer staged = if new = h.cur.bits ∧ st = h.cur.stamp then (0, s)
      else (h.cur.bits ^^^ new, ((s.placed n space row new stamp writer staged).versionCounted n space st).rowChanged n space
        (row - (s.range n space).base) h.cur.bits new writer stamp st (decide (stamp < h.cur.stamp))) := by
  unfold install placed superseding versionCounted
  rfl

theorem install_lastCommit (s : State) (n space row : Nat) (val mask : Row) (stamp writer : Nat) (staged : Bool) :
    (s.install n space row val mask stamp writer staged).2.img.lastCommit = s.img.lastCommit := by
  rw [install_eq]
  split
  · rfl
  · dsimp only
    rw [rowChanged_img, versionCounted_img, placed_lastCommit]

section
variable {s : State} {n space : Nat}

/-- A row that is not logged, of an owner without archive triggers: the tasks bound to its bits alone hear of a new version. -/
theorem rowChanged_unlogged {rel : Nat} (hl : (s.rowFlags n space rel).1 = false) (ht : s.cfg.trigs.get [] n = [])
    (old new : Row) (writer src stamp : Nat) (clamped : Bool) :
    s.rowChanged n space rel old new writer src stamp clamped = s.bitEvents n space rel old new stamp := by
  have hs : s.soe n space rel old new writer src clamped = s := by
    unfold soe
    rw [hl]
    rfl
  have hb (u : State) (hu : u.cfg = s.cfg) : u.bitTriggers n space rel old new stamp = u := by
    unfold bitTriggers
    rw [hu, ht]
    rfl
  unfold rowChanged
  dsimp only
  rw [hs, ite_self, hb _ (bitEvents_cfg _ _ _ _ _ _ _), ite_self]

/-- With no bit forced, masked bits over contents and stamp that stay are no new version. -/
theorem install_same {row stamp : Nat} {val mask : Row} (hf : (s.img.forces.get (0, 0) row).2 = 0)
    (hb : mergeRow (s.rowHist row).cur.bits val mask = (s.rowHist row).cur.bits) (ht : stamp ≤ (s.rowHist row).cur.stamp) (writer : Nat)
    (staged : Bool) : s.install n space row val mask stamp writer staged = (0, s) := by
  rw [install_eq, hf, mergeRow_zero]
  exact if_pos ⟨hb, Nat.max_eq_right ht⟩

theorem install_changed {row stamp : Nat} {val mask : Row} (hf : (s.img.forces.get (0, 0) row).2 = 0)
    (hl : (s.rowFlags n space (row - (s.range n space).base)).1 = false) (ht : s.cfg.trigs.get [] n = [])
    (h : mergeRow (s.rowHist row).cur.bits val mask ≠ (s.rowHist row).cur.bits ∨ (s.rowHist row).cur.stamp < stamp) (writer : Nat)
    (staged : Bool) :
    let new := mergeRow (s.rowHist row).cur.bits val mask
    let p := s.install n space row val mask stamp writer staged
    p.1 = (s.rowHist row).cur.bits ^^^ new ∧ ∀ j, p.2.rowHist j = (s.placed n space row new stamp writer staged).rowHist j := by
  intro new p
  have hne : ¬(new = (s.rowHist row).cur.bits ∧ max stamp (s.rowHist row).cur.stamp = (s.rowHist row).cur.stamp) := by
    rintro ⟨hb, hs⟩
    exact h.elim (fun h => h hb) (fun h => by omega)
  have hc (st : Nat) : ((s.placed n space row new stamp writer staged).versionCounted n space st).cfg = s.cfg :=
    (versionCounted_cfg _ _ _ _).trans (placed_cfg _ _ _ _ _ _ _ _)
  have hp : p = _ := install_eq s n space row val mask stamp writer staged
  rw [hf, mergeRow_zero, if_neg hne] at hp
  rw [hp]
  refine ⟨rfl, fun j => ?_⟩
  rw [rowChanged_unlogged (by rw [rowFlags_congr (hc _), hl]) (by rw [hc, ht])]
  exact rowHist_congr ((bitEvents_img _ _ _ _ _ _ _).trans (versionCounted_img _ _ _ _))
    ((bitEvents_cfg _ _ _ _ _ _ _).trans (versionCounted_cfg _ _ _ _)) j

end

/-! ### Commits (R155, R156, R171) -/

theorem commitRows_lastCommit (s : State) (n kind num epoch task : Nat) (rows : SMap (Row × Row)) :
    (s.commitRows n kind num epoch task rows).img.lastCommit =
      s.img.lastCommit.insert n (s.advance (s.img.lastCommit.get 0 n + 1)).now := by
  unfold commitRows
  extract_lets at_ im begun place ovl counted flagged told
  have htold : told.img = begun.img := by
    simp only [told, counted]
    rw [apply_ite img, raise_img, ite_self, apply_ite img, setBit_img, bump_img, ite_self]
  split
  rename_i chg t hrows
  have ht : t.img.lastCommit = begun.img.lastCommit := by
    rw [← htold, ← congrArg (fun p => p.2.img.lastCommit) hrows]
    refine List.foldlRecOn rows _ (motive := fun (acc : List (Nat × Nat × Row) × State) => acc.2.img.lastCommit = told.img.lastCommit) rfl
      fun acc ih r _ => ?_
    exact (install_lastCommit _ _ _ _ _ _ _ _ _).trans ((healWords_lastCommit _ _ _).trans ih)
  dsimp only
  rw [sendDigest_img, canOutHook_img, pubHook_img, poolRegs_img, bump64_img, ht]
  rfl

/-- The commit's instant is later than the owner's last, and becomes its last. -/
theorem lastCommit_lt_commitRows (s : State) (n kind num epoch task : Nat) (rows : SMap (Row × Row)) :
    s.img.lastCommit.get 0 n < (s.commitRows n kind num epoch task rows).img.lastCommit.get 0 n := by
  have h : (s.commitRows n kind num epoch task rows).img.lastCommit.get 0 n = max s.now (s.img.lastCommit.get 0 n + 1) := by
    rw [commitRows_lastCommit]
    unfold SMap.get
    rw [find_insert_same]
    rfl
  rw [h]
  exact lt_max_of_lt_right (Nat.lt_succ_self _)

/-- A commit is made at an open instant, and `rest` wait on. -/
def commitMade (s : State) (n : Nat) (c : Commit) (rest : List Commit) : State :=
  let at_ := s.fresh.2.advance (s.fresh.2.commitAt c s.fresh.1)
  let u := ({ at_ with img := { at_.img with commits := rest } } : State).commitRows n 0 c.task c.epoch c.task c.rows
  (((u.retire n).poolRegs n).pendAfter c.task).dispatch n

theorem commitNext_of_find {s : State} {n : Nat} {c : Commit} (h : s.img.commits.find? (fun c => c.owner == n) = some c) :
    s.commitNext n = s.commitMade n c (s.img.commits.erase c) := by
  unfold commitNext
  rw [h]
  rfl

/-- The first commit of an owner is the one that leaves the queue (R156). -/
theorem commitNext_first {s : State} {n : Nat} {c : Commit} {pre post : List Commit} (h : s.img.commits = pre ++ c :: post)
    (hc : c.owner = n) (hpre : ∀ d ∈ pre, d.owner ≠ n) : s.commitNext n = s.commitMade n c (pre ++ post) := by
  have hfind : s.img.commits.find? (fun c => c.owner == n) = some c := by
    rw [h, List.find?_append, List.find?_eq_none.2 (by simpa using hpre)]
    simp [hc]
  have herase : s.img.commits.erase c = pre ++ post := by
    rw [h, List.erase_append_right _ fun hm => hpre c hm hc, List.erase_cons_head]
  rw [commitNext_of_find hfind, herase]

/-! ### Stores that wait for a pool row (R162) and SYS rows (R167) -/

theorem stagedStore_row {s : State} {e k row cost : Nat} {val mask : Row} {stack : List Row} {b : Bool}
    (hs : (s.eng e).stall = .pool row val mask stack cost b) (hk : (s.eng e).task = some k) (hf : s.poolFull k row = false) :
    s.stagedStore e = ((s.setEng e { s.eng e with stall := .none }).stageBits k row val mask).complete e
      { word := 0, nin := (s.eng e).ctx.stack.length } { outs := stack, base := cost } ((s.now - (s.eng e).since) * 1000 / 65536) := by
  unfold stagedStore
  dsimp only
  rw [hs, hk]
  dsimp only
  rw [hf]
  rfl

theorem poolLimit_waiting {s : State} {e k row cost : Nat} {val mask : Row} {stack : List Row}
    (hs : (s.eng e).stall = .pool row val mask stack cost false) (hk : (s.eng e).task = some k) :
    let n := (s.taskCfg k).owner
    let u := s.advance ((s.eng e).since + us (s.imgf n).stallUs)
    s.poolLimit e =
      ((u.setEng e { s.eng e with stall := .pool row val mask stack cost true }).setBit (Reg.IMG_OSTAT n) 12 true).raise (256 + n) k := by
  intro n u
  unfold poolLimit
  dsimp only
  split
  · rename_i hs' hk'
    cases hs.symm.trans hs'
    cases hk.symm.trans hk'
    rfl
  · rename_i hno
    exact absurd hk (hno _ _ _ _ _ _ hs)

theorem sysRowUpdate_one {s : State} {n : Nat} (h : 2 ≤ (s.range n 3).len) :
    let u := s.advance ((s.rowHist ((s.range n 3).base + 1)).cur.inst + us 100)
    s.sysRowUpdate n 1 = u.sysWrite n 1 (u.sysRow1 n) := by
  unfold sysRowUpdate
  dsimp only
  rw [if_neg Nat.one_ne_zero, if_pos rfl, if_neg (Nat.not_lt.2 h)]

end State
end Sys2Proof.Machine

open Sys2Proof Sys2Proof.Machine Sys2Proof.Machine.State

/-- Settles O44: a commit's, a stall's and a SYS row's command is its effect where it acts; of a commit's rows nothing but its beginning sets the
owner's last instant, and an installed version is the one placed, which what follows it leaves in the row. -/
theorem commitsAndPoolStalls : Obligations.CommitsAndPoolStalls := by
  unfold Obligations.CommitsAndPoolStalls
  refine ⟨?first, lastCommit_lt_commitRows, ?installed, ?stall, ?sys⟩
  case first =>
    intro s n c pre post h hc hpre k first
    refine ⟨Config.free s.free % (52428800 * k + 1), Nat.le_of_lt_succ (Nat.mod_lt _ (Nat.succ_pos _)), ?_⟩
    subst hc
    exact congrArg (done s) (commitNext_first h rfl hpre)
  case installed =>
    intro s n space row stamp writer val mask staged hf h new t
    refine ⟨fun hb ht => congrArg Prod.snd (install_same hf hb ht writer staged), fun hl ht hne => ?_⟩
    obtain ⟨hchg, hrow⟩ := install_changed hf hl ht hne writer staged
    exact ⟨(congrArg RowHist.cur (hrow row)).trans (placed_cur s n space row new stamp writer staged),
      fun j hj => (hrow j).trans (placed_other s n space row new stamp writer staged hj), hchg⟩
  case stall =>
    intro s e k row cost val mask stack b hs hk
    refine ⟨fun hf => congrArg (done s) (stagedStore_row hs hk hf), fun hb => ?_⟩
    subst hb
    exact congrArg (done s) (poolLimit_waiting hs hk)
  case sys => exact fun s n => ⟨rfl, fun h => congrArg (done s) (sysRowUpdate_one h)⟩

end

section
/-! SUPPORT. What a task reads as after an update; how a boundary and an event of a task are judged, and what a release and an overrun leave; the
instants at which SEQ judges; and O41, which says so. -/
namespace Sys2Proof.Machine
namespace State

/-! ### Tasks after an update -/

@[simp] theorem task_setTask_same (s : State) (k : Nat) (x : Task) : (s.setTask k x).task k = x := get_set_same _ _ _ _

theorem task_setTask_other (s : State) {k j : Nat} (x : Task) (h : j ≠ k) : (s.setTask k x).task j = s.task j := get_set_other _ _ _ h

theorem task_congr {s t : State} (h : t.tasks = s.tasks) (k : Nat) : t.task k = s.task k :=
  congrArg (SMap.get ({} : Task) · k) h

/-! ### Judging a boundary or an event (R176, R177, R179, Table 7.3) -/

/-- Neither a boundary nor an event gives the task a release: its owner is not releasable or drains, or a forced rollback targets it. -/
def Barred (s : State) (k : Nat) : Prop :=
  s.releasable (s.taskCfg k).owner = false ∨ (s.owner (s.taskCfg k).owner).draining = true ∨ s.splForced k = true

theorem boundaryRefused_iff (s : State) (k : Nat) :
    (!s.releasable (s.taskCfg k).owner || (s.owner (s.taskCfg k).owner).draining || s.relHeld || s.splForced k) = true ↔
      s.Barred k ∨ s.relHeld = true := by
  simp only [Barred, Bool.or_eq_true, Bool.not_eq_true', or_assoc]
  rw [or_comm (a := s.relHeld = true)]

theorem eventRefused_iff (s : State) (k : Nat) :
    (!s.releasable (s.taskCfg k).owner || (s.owner (s.taskCfg k).owner).draining || s.splForced k) = true ↔ s.Barred k := by
  simp only [Barred, Bool.or_eq_true, Bool.not_eq_true', or_assoc]

theorem blocked_iff (s : State) (k : Nat) :
    s.blocked k = true ↔ (s.task k).st ≠ .idle ∨ s.poolTested (s.taskCfg k).owner = true := by
  simp only [blocked, unfinished, Bool.or_eq_true, bne_iff_ne]

section
variable {s : State} {k : Nat}

theorem boundary_refused (h : s.Barred k ∨ s.relHeld = true) (t : Nat) : s.boundary k t = s.bump (Reg.SEQ_TNOREL k) 1 :=
  if_pos ((boundaryRefused_iff s k).2 h)

theorem boundary_judged (hb : ¬s.Barred k) (hr : s.relHeld = false) (t : Nat) :
    s.boundary k t = if s.blocked k then s.overrun k else s.release k t :=
  if_neg (mt (boundaryRefused_iff s k).1 (by simp [hb, hr]))

/-- The instant before which the separation allows no release of an event at `t` (R179). -/
def eventDue (s : State) (k t : Nat) : Nat := if (s.task k).everRel then max t ((s.task k).relAt + s.sepOf k) else t

theorem eventAt_barred (h : s.Barred k) (t : Nat) : s.eventAt k t = s.bump (Reg.SEQ_TNOREL k) 1 := if_pos ((eventRefused_iff s k).2 h)

theorem eventAt_coalesces (hb : ¬s.Barred k) (hp : (s.task k).pend ≠ none) (t : Nat) : s.eventAt k t = s.bump (Reg.SEQ_TCOALESCE k) 1 :=
  (if_neg (mt (eventRefused_iff s k).1 hb)).trans (if_pos (bne_iff_ne.2 hp))

theorem eventAt_unlatched (hb : ¬s.Barred k) (hp : (s.task k).pend = none) (t : Nat) :
    s.eventAt k t = if s.relHeld || decide (t < s.eventDue k t) then s.setTask k { s.task k with pend := some (s.eventDue k t) }
      else if s.blocked k then (s.setTask k { s.task k with pend := some (s.eventDue k t), pendJudged := true }).overrun k
      else s.release k t :=
  (if_neg (mt (eventRefused_iff s k).1 hb)).trans (if_neg (by simp [hp]))

theorem eventAt_latched (hb : ¬s.Barred k) (hp : (s.task k).pend = none) {t : Nat} (h : s.relHeld = true ∨ t < s.eventDue k t) :
    s.eventAt k t = s.setTask k { s.task k with pend := some (s.eventDue k t) } :=
  (eventAt_unlatched hb hp t).trans (if_pos (by simpa using h))

theorem eventAt_judged (hb : ¬s.Barred k) (hp : (s.task k).pend = none) (hr : s.relHeld = false) {t : Nat} (hd : s.eventDue k t ≤ t) :
    s.eventAt k t = if s.blocked k then (s.setTask k { s.task k with pend := some (s.eventDue k t), pendJudged := true }).overrun k
      else s.release k t :=
  (eventAt_unlatched hb hp t).trans (if_neg (by simpa [hr] using hd))

end

/-! ### What a release and an overrun leave (R86, R173, R188) -/

/-- A task just released at a read epoch: ready at its entry with empty stacks, nothing staged and no overruns counted. -/
def releasedTask (s : State) (k t : Nat) : Task :=
  { s.task k with
    st := .ready, eng := none, ctx := { entryCtx (s.taskCfg k) with exc := (s.task k).ctx.exc }, relAt := t, everRel := true, pend := none,
    pendJudged := false, consec := 0, hs := 0, staged := [], wait := none, wstat := none, budFired := false, dlFired := false, readyAt := s.now }

theorem release_tasks (s : State) (k t : Nat) : (s.release k t).tasks = (s.setTask k (s.releasedTask k t)).tasks := by
  unfold release releasedTask
  simp only [wr64_tasks, bump64_tasks]

theorem release_epochMax (s : State) (k t : Nat) : (s.release k t).epochMax = max s.epochMax t := by
  unfold release
  simp only [wr64_epochMax, bump64_epochMax, setTask_epochMax]

theorem task_release_same (s : State) (k t : Nat) : (s.release k t).task k = s.releasedTask k t :=
  (task_congr (release_tasks s k t) k).trans (task_setTask_same _ _ _)

theorem task_release_other (s : State) {k j : Nat} (t : Nat) (h : j ≠ k) : (s.release k t).task j = s.task j :=
  (task_congr (release_tasks s k t) j).trans (task_setTask_other _ _ h)

theorem task_overrun_same (s : State) (k : Nat) : (s.overrun k).task k = { s.task k with consec := (s.task k).consec + 1 } := by
  have h : (s.overrun k).tasks = (s.setTask k { s.task k with consec := (s.task k).consec + 1 }).tasks := by
    unfold overrun
    simp only [apply_ite tasks, raise_tasks, setBit_tasks, bump_tasks, ite_self]
  exact (task_congr h k).trans (task_setTask_same _ _ _)

theorem overrun_raised (s : State) (k : Nat) :
    (s.overrun k).raised = if (s.taskCfg k).allow < (s.task k).consec + 1 then
      s.raised ++ [{ src := 128 + (s.taskCfg k).owner, at_ := s.now, task := k, det1 := (s.task k).consec + 1 }] else s.raised :=
  (apply_ite raised _ _ _).trans rfl

/-! ### The instants at which SEQ judges (R174, R177 to R179, R182) -/

section
variable {s : State} {t : Nat}

/-- A task's boundary at `t` is judged, and its next one follows. -/
def boundaryMet (t : Nat) (s : State) (k : Nat) : State :=
  let u := s.boundary k t
  u.setTask k { u.task k with nextB := some (u.nextBoundary k t) }

theorem cyclicRelease_at (h : leastOf (s.tasks.filterMap (fun p => p.2.nextB)) = some t) :
    let ks := (s.tasks.filter (fun p => p.2.nextB == some t)).map (·.1)
    s.cyclicRelease = (forEach ks (boundaryMet t) (s.advance t)).dispatchFor ks := by
  unfold cyclicRelease
  rw [h]
  rfl

/-- A task's events at `t` leave its list and are judged. -/
def eventsMet (t : Nat) (s : State) (k : Nat) : State :=
  forEach ((s.task k).events.filter (fun u => u == t)) (fun s _ => s.eventAt k t)
    (s.setTask k { s.task k with events := (s.task k).events.filter (fun u => u != t) })

theorem eventRelease_at (h : leastOf (s.tasks.flatMap (fun p => p.2.events)) = some t) :
    let ks := (s.tasks.filter (fun p => p.2.events.contains t)).map (·.1)
    s.eventRelease = (forEach ks (eventsMet t) (s.advance t)).dispatchFor ks := by
  unfold eventRelease
  rw [h]
  rfl

theorem pendingRelease_at (h : leastOf (s.tasks.filterMap (fun p => if p.2.pendJudged then none else p.2.pend)) = some t) :
    let ks := (s.tasks.filter (fun p => p.2.pend == some t && !p.2.pendJudged)).map (·.1)
    s.pendingRelease = (forEach ks pendDue (s.advance t)).dispatchFor ks := by
  unfold pendingRelease
  rw [h]
  rfl

/-- A latched release after a hold: due once its separation has passed, and made at once if it has (R177). -/
def heldMet (s : State) (k : Nat) : State :=
  let due := max s.now (if (s.task k).everRel then (s.task k).relAt + s.sepOf k else 0)
  let v := s.setTask k { s.task k with pend := some due }
  if due ≤ v.now then v.pendDue k else v

theorem releaseHoldEnd_held (h : s.relHold = true) :
    let ks := (s.tasks.filter (fun p => p.2.pend.isSome)).map (·.1)
    s.releaseHoldEnd =
      (forEach ks heldMet (({ s.advance s.epochMax with relHold := false } : State).setBit Reg.SEQ_STAT 1 false)).dispatchFor ks := by
  unfold releaseHoldEnd
  rw [h]
  rfl

end

end State
end Sys2Proof.Machine

open Sys2Proof Sys2Proof.Machine Sys2Proof.Machine.State

/-- Settles O41: the four commands judge the tasks due at their instant, each as the cases of `boundary` and `eventAt` say; a release and an overrun
change the one task. -/
theorem releasesAreJudged : Obligations.ReleasesAreJudged := by
  unfold Obligations.ReleasesAreJudged
  refine ⟨?boundaries, ?events, ?latched, ?holdEnd, ?judged, ?left⟩
  case boundaries => exact fun s t h => congrArg (done s) (cyclicRelease_at h)
  case events => exact fun s t h => congrArg (done s) (eventRelease_at h)
  case latched => exact fun s t h => congrArg (done s) (pendingRelease_at h)
  case holdEnd => exact fun s h => congrArg (done s) (releaseHoldEnd_held h)
  case judged =>
    intro s k t c x none_ blocked due
    have hblk : s.blocked k = true ↔ blocked := blocked_iff s k
    refine ⟨fun h => boundary_refused h t, fun hb hr hk => ?overrun, fun hb hr hk => ?release, fun h => eventAt_barred h t,
      fun hb hp => eventAt_coalesces hb hp t, fun hb hp h => eventAt_latched hb hp h, fun hb hp hr hd hk => ?eventOverrun,
      fun hb hp hr hd hk => ?eventRelease⟩
    case overrun => exact (boundary_judged hb hr t).trans (if_pos (hblk.2 hk))
    case release => exact (boundary_judged hb hr t).trans (if_neg (mt hblk.1 hk))
    case eventOverrun => exact (eventAt_judged hb hp hr hd).trans (if_pos (hblk.2 hk))
    case eventRelease => exact (eventAt_judged hb hp hr hd).trans (if_neg (mt hblk.1 hk))
  case left =>
    intro s k t r
    have hrel : r.task k = s.releasedTask k t := task_release_same s k t
    rw [hrel]
    exact ⟨rfl, rfl, Nat.mul_comm _ _, rfl, rfl, rfl, rfl, fun j hj => task_release_other s t hj, release_epochMax s k t,
      congrArg Task.consec (task_overrun_same s k), overrun_raised s k⟩

end

section
/-! SUPPORT. A preemption, a release over its budget or deadline, a mutual wait and the ends of waits, where they act; and O42, which says so. -/
namespace Sys2Proof.Machine

/-- An open number picks an entry of a list that has one. -/
theorem getD_mod_length_mem {l : List Nat} (h : l ≠ []) (w : Nat) : l.getD (w % max 1 l.length) 0 ∈ l := by
  have hl : 0 < l.length := List.length_pos_iff.2 h
  have hlt : w % max 1 l.length < l.length := by
    rw [Nat.max_eq_right hl]
    exact Nat.mod_lt w hl
  rw [List.getD_eq_getElem _ _ hlt]
  exact List.getElem_mem hlt

namespace State

/-! ### Preemption (R181) -/

/-- The engine's context is saved as a preempted task's, counted, and the promised task starts. -/
def preempted (s : State) (e k j : Nat) : State :=
  let v := (s.bump (Reg.SEQ_TPREEMPT k) 1).saveCtx e k .preempted
  (v.startOn e j).dispatch (v.taskCfg j).owner

theorem preempt_drained {s u : State} {e k j : Nat} (hk : (s.eng e).task = some k) (hj : (s.eng e).preempt = some j)
    (hr : (s.eng e).running = true) (hs : (s.eng e).stall = .none) (hf : (s.eng e).ctx.flow = none) (hd : s.drain e = (none, u)) :
    s.preempt e = u.preempted e k j := by
  unfold preempt
  dsimp only
  rw [hk, hj]
  dsimp only
  rw [hr, hs, hf, hd]
  rfl

/-! ### Budget and deadline (R183, R184) -/

section
variable {s : State} {k : Nat}

theorem budgetExceeded_once (hst : (s.task k).st ≠ .idle) (hb : (s.taskCfg k).budget ≠ 0) (hh : (s.taskCfg k).budget < (s.task k).hs)
    (hf : (s.task k).budFired = false) :
    s.budgetExceeded k = (((s.setTask k { s.task k with budFired := true }).bump (Reg.SEQ_TBUDCNT k) 1).setBit (Reg.SEQ_TFLAG k) 1
      true).raise (136 + (s.taskCfg k).owner) k := by
  unfold budgetExceeded
  exact if_neg (by simp [hst, hb, hh, hf])

theorem deadlineMiss_once (hst : (s.task k).st ≠ .idle) (hf : (s.task k).dlFired = false) :
    let u := s.advance ((s.task k).relAt + us (s.taskCfg k).deadline)
    s.deadlineMiss k = (((u.setTask k { s.task k with dlFired := true }).bump (Reg.SEQ_TDLCNT k) 1).setBit (Reg.SEQ_TFLAG k) 2
      true).raise (144 + (s.taskCfg k).owner) k := by
  unfold deadlineMiss
  exact if_neg (by simp [hst, hf])

/-! ### The ends of waits (R134) -/

theorem waitEvent_occurred {v : Nat} (hst : (s.task k).st = .waiting) (hv : (s.task k).wstat = some v) :
    s.waitEvent k = (s.finishWait k v).dispatch (s.taskCfg k).owner := by
  unfold waitEvent
  dsimp only
  rw [hv, hst]
  rfl

theorem waitDeadline_passed {w : WaitDesc} (hst : (s.task k).st = .waiting) (hv : (s.task k).wstat = none) (hw : (s.task k).wait = some w)
    (hd : w.kind = 2 ∨ w.tmo = true) :
    let u := s.advance (s.deadlineInstant w.deadline)
    s.waitDeadline k = (u.finishWait k (if w.kind = 2 then 0 else 1)).dispatch (s.taskCfg k).owner := by
  unfold waitDeadline
  dsimp only
  rw [hw, hv]
  exact if_pos (by simpa [hst] using hd)

end

/-! ### Mutual wait (R191, R192) -/

/-- The tasks of an owner that wait. -/
def waitingTasks (s : State) (n : Nat) : List Nat := (s.tasksOf n).filter (fun k => (s.task k).st == .waiting)

theorem waitingTasks_ne_nil {s : State} {n : Nat} (h : s.mutualWait n = true) : s.waitingTasks n ≠ [] := by
  unfold mutualWait at h
  obtain ⟨hany, -⟩ := Bool.and_eq_true_iff.1 h
  obtain ⟨k, hk, hst⟩ := List.any_eq_true.1 hany
  exact List.ne_nil_of_mem (List.mem_filter.2 ⟨hk, hst⟩)

/-- The mutual wait is counted, shown and reported with a task. -/
def mutualWaitTold (s : State) (n k : Nat) : State := ((s.bump (Reg.SEQ_OMWCNT n) 1).setBit (Reg.SEQ_OSTAT n) 31 true).raise (152 + n) k

theorem mutualWaitSeen_named {s : State} {n : Nat} (h : s.mutualWait n = true) :
    ∃ k ∈ s.waitingTasks n, s.mutualWaitSeen n =
      let u := ({ s with free := s.free + 1 } : State).mutualWaitTold n k
      if n ∈ s.cfg.nobreak then u
      else (forEach (s.waitingTasks n) (fun s k => (s.setBit (Reg.SEQ_TFLAG k) 3 true).finishWait k 2) u).dispatch n := by
  refine ⟨_, getD_mod_length_mem (waitingTasks_ne_nil h) (Config.free s.free), ?_⟩
  simp only [← List.contains_iff_mem]
  unfold mutualWaitSeen
  rw [h]
  rfl

end State
end Sys2Proof.Machine

open Sys2Proof Sys2Proof.Machine Sys2Proof.Machine.State

/-- Settles O42: each command where it acts is the lemma of its name above; a finished wait changes the one task. -/
theorem releaseFaultsAndWaits : Obligations.ReleaseFaultsAndWaits := by
  unfold Obligations.ReleaseFaultsAndWaits
  refine ⟨?preemption, ?budget, ?deadline, ?mutualWait, ?event, ?passed, ?finished⟩
  case preemption => exact fun s u e k j hk hj hr hs hf hd => congrArg (done s) (preempt_drained hk hj hr hs hf hd)
  case budget => exact fun s k hst hb hh hf => congrArg (done s) (budgetExceeded_once hst hb hh hf)
  case deadline => exact fun s k hst hf => congrArg (done s) (deadlineMiss_once hst hf)
  case mutualWait =>
    intro s n h ws
    obtain ⟨k, hk, hseen⟩ := mutualWaitSeen_named h
    exact ⟨k, hk, congrArg (done s) hseen⟩
  case event => exact fun s k v hst hv => congrArg (done s) (waitEvent_occurred hst hv)
  case passed => exact fun s k w hst hv hw hd => congrArg (done s) (waitDeadline_passed hst hv hw hd)
  case finished =>
    intro s k v _ t
    have ht : t = _ := task_setTask_same s k _
    rw [ht]
    exact ⟨rfl, rfl, rfl, rfl, fun j hj => task_setTask_other s _ hj⟩

end

section
/-! SUPPORT. What a pair message, a HELLO, a KEYCONF and a heartbeat do to a member by its pairing state; and O47, which says so. -/
namespace Sys2Proof.Machine
namespace State

/-! ### A member's pairing state -/

theorem canPair_iff (s : State) : s.canPair = true ↔ s.hasRedn = true ∧ s.fld Reg.RED_STAT 0 1 = 1 ∧ s.ms.paired = false ∧
    s.pairLinkDown = false ∧ s.ms.mode ≠ .drain ∧ s.ms.mode ≠ .configure := by
  simp only [canPair, Bool.and_eq_true, beq_iff_eq, Bool.not_eq_true', bne_iff_ne, and_assoc]

theorem redFlag_red (s : State) (i : Nat) (b : Bool) : (s.redFlag i b).red = s.red := by
  unfold redFlag
  split
  · exact setBit_red s _ i b
  · rfl

theorem redFlag_now (s : State) (i : Nat) (b : Bool) : (s.redFlag i b).now = s.now := by
  unfold redFlag
  split
  · exact setBit_now s _ i b
  · rfl

theorem redFlag_raised (s : State) (i : Nat) (b : Bool) : (s.redFlag i b).raised = s.raised := by
  unfold redFlag
  split
  · exact setBit_raised s _ i b
  · rfl

theorem setPaired_ms (s : State) (b : Bool) : (s.setPaired b).ms = { s.ms with paired := b } := redFlag_ms _ 1 b

theorem setPaired_red (s : State) (b : Bool) : (s.setPaired b).red = s.red := redFlag_red _ 1 b

/-! ### HELLO and KEYCONF (R238, R239) -/

theorem helloSend_canPair {s : State} (h : s.canPair = true) :
    let u := s.advance (nextMultiple (msec 1) s.now)
    let v : State := { u with red := { u.red with nonce := Config.trng s.free }, free := s.free + 1 }
    s.helloSend = v.emit (.pair 0x01 (helloFields v.myHello)) := by
  unfold helloSend
  exact if_neg (by simp [h])

/-- The HELLO that passed is kept, and answered with KEYCONF unless one was sent. -/
def helloKept (s : State) (h : Hello) : State :=
  let u := s.setRed { s.red with hello := some h, confSent := true }
  if s.red.confSent then u else u.emit (.pair 0x02 [u.confTag u.myHello h])

/-- A member that can pair checks a HELLO's pair identity, base claim and pair digest in this order. -/
theorem helloRx_canPair {s : State} (h : Hello) (hs : s.canPair = true) :
    s.helloRx h = if h.pairid ≠ s.myHello.pairid then s.pairRefuse 9
      else if h.base = s.baseClaim then s.pairRefuse 8
      else if h.digest ≠ s.cfg.pairDig then s.pairRefuse 1
      else s.helloKept h := by
  unfold helloRx
  exact if_neg (by simp [hs])

section
variable {s : State} {h : Hello} (hs : s.canPair = true)
include hs

theorem helloRx_otherPair (hid : h.pairid ≠ s.myHello.pairid) : s.helloRx h = s.pairRefuse 9 := by
  rw [helloRx_canPair h hs, if_pos hid]

theorem helloRx_equalBase (hid : h.pairid = s.myHello.pairid) (hb : h.base = s.baseClaim) : s.helloRx h = s.pairRefuse 8 := by
  rw [helloRx_canPair h hs, if_neg (not_not.2 hid), if_pos hb]

theorem helloRx_otherDigest (hid : h.pairid = s.myHello.pairid) (hb : h.base ≠ s.baseClaim) (hd : h.digest ≠ s.cfg.pairDig) :
    s.helloRx h = s.pairRefuse 1 := by
  rw [helloRx_canPair h hs, if_neg (not_not.2 hid), if_neg hb, if_pos hd]

theorem helloRx_passes (hid : h.pairid = s.myHello.pairid) (hb : h.base ≠ s.baseClaim) (hd : h.digest = s.cfg.pairDig) :
    s.helloRx h = s.helloKept h := by
  rw [helloRx_canPair h hs, if_neg (not_not.2 hid), if_neg hb, if_neg (not_not.2 hd)]

/-- A KEYCONF is checked against the HELLO kept. -/
theorem keyConfRx_canPair (tag : Nat) (hh : s.red.hello = some h) :
    s.keyConfRx tag = if tag = s.confTag h s.myHello then s.pairForm h else s.pairRefuse 2 := by
  unfold keyConfRx
  rw [if_neg (by simp [hs]), hh]

end

/-! ### A pair formed, and one refused -/

/-- Where not both members are active the pair forms without a transfer (R240). -/
theorem pairForm_notBothActive {s : State} {h : Hello} (ha : s.ms.active = false ∨ h.role ≠ 1) :
    (s.pairForm h).ms = { s.ms with paired := true } ∧ (s.pairForm h).red.pMode = h.mode ∧ (s.pairForm h).red.pRole = h.role ∧
      (s.pairForm h).red.rxSeq = [] := by
  have hboth : (s.ms.active && h.role == 1) = false := by simpa [imp_iff_not_or] using ha
  unfold pairForm
  dsimp only
  simp only [wr64_ms, setPaired_ms, setRed_ms, hboth, Bool.false_and, Bool.false_eq_true, if_false, wr64_red, setPaired_red, true_and]
  exact ⟨rfl, rfl, rfl⟩

theorem pairRefuse_ms (s : State) (c : Nat) : (s.pairRefuse c).ms = s.ms := redFlag_ms s 21 true

theorem pairRefuse_hello (s : State) (c : Nat) : (s.pairRefuse c).red.hello = none := rfl

/-- A refusal fires F1284 with its code. -/
theorem pairRefuse_raised (s : State) (c : Nat) :
    (s.pairRefuse c).raised = s.raised ++ [{ src := 1284, at_ := s.now, det1 := c }] := by
  unfold pairRefuse
  simp only [raise, setRed, setFld_raised, setFld_now, redFlag_raised, redFlag_now]

/-! ### Messages of a pair (R241, R242) -/

theorem heartbeatSend_paired {s : State} (h : s.ms.paired = true) :
    let u := s.advance (nextMultiple (us 50) s.now)
    s.heartbeatSend = u.emit (.pair 0x03 [u.ms.mode.code, if u.ms.active then 1 else if u.isStandby then 2 else 0, u.flevel, u.claimNow,
      b2n u.isSuspect, form64 u.epochMax, u.rd Reg.RED_DIGTX]) := by
  unfold heartbeatSend
  rw [if_neg (by simp [h])]
  exact if_pos h

section
variable {s : State} {h : PairHead} (f : State → State)

theorem paired_noPartner (hp : s.ms.paired = false) : s.paired h f = s := by
  have hrx : s.pairRx h = (false, s) := if_pos (by rw [hp]; rfl)
  rw [State.paired, hrx]

/-- A failed tag, or a number below the next one expected: counted and nothing else. -/
theorem paired_discards (hp : s.ms.paired = true) (hbad : h.tag = false ∨ h.seq < s.red.rxSeq.get 0 (pairGroup h)) :
    s.paired h f = s.bump Reg.RED_LINKERR 1 := by
  have hrx : s.pairRx h = (false, s.bump Reg.RED_LINKERR 1) := by
    unfold pairRx
    rw [if_neg (by simp [hp]), if_pos (by simpa using hbad)]
  rw [State.paired, hrx]

/-- A message accepted sets the next number expected of its group, and is then acted on. -/
theorem paired_accepts (hp : s.ms.paired = true) (ht : h.tag = true) (hq : s.red.rxSeq.get 0 (pairGroup h) ≤ h.seq) :
    s.paired h f = f (s.setRed { s.red with rxSeq := s.red.rxSeq.set 0 (pairGroup h) (h.seq + 1) }) := by
  have hrx : s.pairRx h = (true, s.setRed { s.red with rxSeq := s.red.rxSeq.set 0 (pairGroup h) (h.seq + 1) }) := by
    unfold pairRx
    rw [if_neg (by simp [hp]), if_neg (by simpa [ht] using hq)]
  rw [State.paired, hrx]

end

end State
end Sys2Proof.Machine

open Sys2Proof Sys2Proof.Machine Sys2Proof.Machine.State

/-- Settles O47, a clause per command: the command is its effect, and the effect where it acts is the lemma of its name above; each message of a pair
acts through `paired`, whose three cases say when it does. -/
theorem pairFormsOnItsChecks : Obligations.PairFormsOnItsChecks := by
  unfold Obligations.PairFormsOnItsChecks
  refine ⟨canPair_iff, ?helloSend, ?hello, ?keyconf, fun s h ha => pairForm_notBothActive ha, ?refused, ?heartbeatSend, ?heartbeat, ?messages⟩
  case helloSend => exact fun s hs => congrArg (done s) (helloSend_canPair hs)
  case hello =>
    exact fun s h hs => ⟨fun hid => congrArg (done s) (helloRx_otherPair hs hid),
      fun hid hb => congrArg (done s) (helloRx_equalBase hs hid hb),
      fun hid hb hd => congrArg (done s) (helloRx_otherDigest hs hid hb hd),
      fun hid hb hd => congrArg (done s) (helloRx_passes hs hid hb hd)⟩
  case keyconf =>
    intro s tag h hs hh
    have e : exec (.keyconf tag) s = done s _ := congrArg (done s) (keyConfRx_canPair hs tag hh)
    exact ⟨fun ht => e.trans (congrArg (done s) (if_pos ht)), fun ht => e.trans (congrArg (done s) (if_neg ht))⟩
  case refused => exact fun s c => ⟨pairRefuse_ms s c, pairRefuse_hello s c, pairRefuse_raised s c⟩
  case heartbeatSend => exact fun s hp => congrArg (done s) (heartbeatSend_paired hp)
  case heartbeat => exact fun s h mode role fl sus ep off hp ht hq => congrArg (done s) (paired_accepts _ hp ht hq)
  case messages =>
    intro s h c hc
    obtain ⟨f, hf⟩ : ∃ f, exec c s = done s (s.paired h f) := by
      rcases hc with ⟨_, _, _, _, _, _, rfl⟩ | ⟨_, rfl⟩ | ⟨_, _, _, rfl⟩ | ⟨_, rfl⟩ | ⟨_, rfl⟩ | ⟨_, rfl⟩ | ⟨_, _, rfl⟩ | ⟨_, rfl⟩ <;>
        exact ⟨_, rfl⟩
    rw [hf]
    exact ⟨fun hp => congrArg (done s) (paired_noPartner f hp), fun hp hbad => congrArg (done s) (paired_discards f hp hbad)⟩

end

section
/-! SUPPORT. The bits of a register after a field is written; ARP, ICMP, NDP, neighbours, endpoints, ports and links where they act; and O52, which says
so. -/
namespace Sys2Proof.Machine

/-- A field written over holds the value's bits inside and the old ones outside. -/
theorem testBit_putBits (v lo len x j : Nat) :
    (putBits v lo len x).testBit j = if lo ≤ j ∧ j < lo + len then x.testBit (j - lo) else v.testBit j := by
  have hlt : v % 2 ^ lo < 2 ^ lo := Nat.mod_lt _ (Nat.two_pow_pos lo)
  have hlt' : x % 2 ^ len < 2 ^ len := Nat.mod_lt _ (Nat.two_pow_pos len)
  have hput : putBits v lo len x = 2 ^ lo * (2 ^ len * (v / 2 ^ lo / 2 ^ len) + x % 2 ^ len) + v % 2 ^ lo := by
    have hv := Nat.div_add_mod v (2 ^ lo)
    have hq := Nat.div_add_mod (v / 2 ^ lo) (2 ^ len)
    have hmul : 2 ^ lo * (v / 2 ^ lo) = 2 ^ lo * (2 ^ len * (v / 2 ^ lo / 2 ^ len)) + v / 2 ^ lo % 2 ^ len * 2 ^ lo := by
      rw [Nat.mul_comm (v / 2 ^ lo % 2 ^ len), ← Nat.mul_add, hq]
    rw [putBits, bits, Nat.shiftRight_eq_div_pow, Nat.mul_add, Nat.mul_comm (x % 2 ^ len)]
    omega
  rw [hput, Nat.testBit_two_pow_mul_add _ hlt, Nat.testBit_two_pow_mul_add _ hlt', Nat.testBit_mod_two_pow, Nat.testBit_mod_two_pow,
    Nat.testBit_div_two_pow, Nat.testBit_div_two_pow]
  by_cases hlo : j < lo
  · simp [hlo]
  · by_cases hin : j < lo + len
    · simp [hlo, hin, show j - lo < len by omega, show lo ≤ j by omega]
    · simp [hlo, hin, show ¬j - lo < len by omega, show j - lo - len + len + lo = j by omega]

namespace State

/-! ### The flags of a port (NET_PSTAT) -/

/-- A register whose field was written has the value's bits inside it and the old ones outside. -/
theorem testBit_rd_setFld (s : State) (a lo len v : Nat) {j : Nat} (hj : j < 32) :
    ((s.setFld a lo len v).rd a).testBit j = if lo ≤ j ∧ j < lo + len then v.testBit (j - lo) else (s.rd a).testBit j := by
  rw [setFld, rd_wr_same, Nat.testBit_mod_two_pow, testBit_putBits, decide_eq_true hj, Bool.true_and]

/-- A bit of a register written reads back as written. -/
theorem testBit_rd_setBit_same (s : State) (a : Nat) {i : Nat} (b : Bool) (hi : i < 32) : ((s.setBit a i b).rd a).testBit i = b := by
  rw [setBit, testBit_rd_setFld s a i 1 _ hi, if_pos ⟨le_rfl, i.lt_succ_self⟩, Nat.sub_self, testBit_b2n]
  rfl

/-- The other bits of the register stay. -/
theorem testBit_rd_setBit_other (s : State) (a i : Nat) (b : Bool) {j : Nat} (hj : j < 32) (hne : j ≠ i) :
    ((s.setBit a i b).rd a).testBit j = (s.rd a).testBit j := by
  rw [setBit, testBit_rd_setFld s a i 1 _ hj, if_neg (by omega)]

/-- A one-bit field is its bit. -/
theorem fld_one_beq (s : State) (a i : Nat) : (s.fld a i 1 == 1) = (s.rd a).testBit i := by
  rw [Nat.testBit_eq_decide_div_mod_eq, fld, bits, Nat.shiftRight_eq_div_pow]
  rfl

theorem portEnabled_eq (s : State) (i : Nat) : s.portEnabled i = (s.rd (Reg.NET_PSTAT i)).testBit 2 := fld_one_beq _ _ _

theorem portLink_eq (s : State) (i : Nat) : s.portLink i = (s.rd (Reg.NET_PSTAT i)).testBit 0 := fld_one_beq _ _ _

/-! ### ARP, ICMP and NDP (R329) -/

section
variable {s : State} {i : Nat} (hip : s.ipPort i = true)
include hip

theorem arpRequest_heard (target sender : Nat) : let u := s.ipRx i 64
    s.arpRequest i target sender = if target ∈ u.portAddrs i false then u.ipSend i 3 [2, target, sender] else u := by
  simp only [← List.contains_iff_mem]
  unfold arpRequest
  exact if_neg (by simp [hip])

theorem icmpEcho_dropped {v6 echo : Bool} {dst : Nat} (h : echo = false ∨ dst ∉ (s.ipRx i 64).portAddrs i v6) (remote : Nat) :
    s.icmpEcho i v6 echo dst remote = (s.ipRx i 64).ipDrop i := by
  unfold icmpEcho
  rw [if_neg (by simp [hip])]
  exact if_pos (by simpa using h)

theorem icmpEcho_ofPort {v6 : Bool} {dst : Nat} (h : dst ∈ (s.ipRx i 64).portAddrs i v6) (remote : Nat) : let u := s.ipRx i 64
    let recent := (u.net.icmp.get [] i).filter (fun t => decide (u.mono < t + secU))
    s.icmpEcho i v6 true dst remote = if 100 ≤ recent.length then u
      else (u.setNet { u.net with icmp := u.net.icmp.set [] i (u.mono :: recent) }).ipSend i 4 [b2n v6, dst, remote] := by
  unfold icmpEcho
  rw [if_neg (by simp [hip])]
  exact if_neg (by simpa using h)

theorem ndp_other {kind : Nat} (hk : 2 ≤ kind) (target : Nat) : s.ndp i kind target = (s.ipRx i 64).ipDrop i := by
  unfold ndp
  rw [if_neg (by simp [hip])]
  exact if_pos hk

/-- Outside duplicate address detection no address is tentative. -/
theorem ndp_settled (hd : s.net.dad.find? i = none) {kind : Nat} (hk : kind < 2) (target : Nat) : let u := s.ipRx i 64
    s.ndp i kind target = if kind = 0 then if target ∈ u.portAddrs i true then u.ipSend i 5 [1, target] else u else s.nbrReply i true target := by
  simp only [← List.contains_iff_mem]
  unfold ndp
  rw [if_neg (by simp [hip]), hd]
  exact if_neg (Nat.not_le.2 hk)

theorem nbrReply_ofPort {v6 : Bool} {a : Nat} (ha : a ∈ (s.ipRx i 64).portAddrs i v6) :
    s.nbrReply i v6 a = (s.ipRx i 64).addrConflict i a := by
  unfold nbrReply
  rw [if_neg (by simp [hip])]
  exact if_pos (List.contains_iff_mem.2 ha)

/-- A reply of a neighbour the cache lists takes no room: it is resolved, and the datagram it held is sent. -/
theorem nbrReply_listed {v6 : Bool} {a : Nat} {x : Nbr} (ha : a ∉ (s.ipRx i 64).portAddrs i v6) (hx : (s.ipRx i 64).nbr i v6 a = some x) :
    let u := s.ipRx i 64
    let v := u.setNbr { port := i, v6 := v6, addr := a, resolved := true, tries := 0, at_ := u.mono, held := none }
    s.nbrReply i v6 a = match x.held with
      | some (n, e, f) => v.udpOut i n e f
      | none => v := by
  unfold nbrReply
  rw [if_neg (by simp [hip])]
  dsimp only
  rw [if_neg (mt List.contains_iff_mem.1 ha), hx]
  rfl

end

theorem ipRx_net (s : State) (i len : Nat) : (s.ipRx i len).net = s.net := by
  unfold ipRx
  split
  · rw [bump64_net, bump64_net]
  · rfl

theorem addrConflict_new {s : State} {i a : Nat} (h : (i, a) ∉ s.net.conflicts) :
    s.addrConflict i a = (s.setNet { s.net with conflicts := (i, a) :: s.net.conflicts }).raise 645 0xFFFF i :=
  if_neg (mt List.contains_iff_mem.1 h)

/-! ### Waits that end (R329, R332) -/

section
variable {s : State} {i a : Nat} {x : Nbr}

theorem arpRepeat_unresolved (hx : s.nbr i false a = some x) (hr : x.resolved = false) (ht : x.tries < 3) :
    let u := s.advanceMono (x.at_ + x.tries * msec 333)
    s.arpRepeat i a = (u.setNbr { x with tries := x.tries + 1 }).ipSend i 3 [1, a] := by
  unfold arpRepeat
  rw [hx]
  exact if_neg (by simp [hr, ht])

theorem nbrTimeout_unresolved {v6 : Bool} (hx : s.nbr i v6 a = some x) (hr : x.resolved = false) :
    let u := s.advanceMono (x.at_ + secU)
    let v := u.setNet { u.net with nbrs := u.net.nbrs.erase x }
    s.nbrTimeout i v6 a = match x.held with
      | some (n, e, _) => v.udpDrop n e
      | none => v := by
  unfold nbrTimeout
  rw [hx]
  exact if_neg (by simp [hr])

theorem arpAge_oldest (hx : (s.net.nbrs.filter (fun x => x.port == i && x.resolved && !x.v6)).getLast? = some x) :
    let u := s.advanceMono (x.at_ + 300 * secU)
    s.arpAge i = u.setNet { u.net with nbrs := u.net.nbrs.filter (fun y => !(y.port == i && y.resolved && !y.v6 &&
      decide (y.at_ + 300 * secU ≤ u.mono))) } := by
  unfold arpAge
  rw [hx]

theorem dadDone_running {t : Nat} (ht : s.net.dad.find? i = some t) : let u := s.advanceMono (t + secU)
    s.dadDone i = u.setNet { u.net with dad := s.net.dad.erase i } := by
  unfold dadDone
  rw [ht]
  rfl

end

/-! ### Endpoints (R331, R332) -/

/-- The module as a datagram for one of its endpoints finds it: counted, at the receive stamp. -/
def udpHeard (s : State) (i : Nat) (d : Udp) (stamp : Nat) : State := (s.ipRx i (d.data.length + 46)).advance stamp

/-- A datagram passes to the receive ring of its endpoint: heard on a port where IP runs, sound, for an address of the port, of a length both IP versions
take, on a member that is not the standby. -/
structure ForRing (s : State) (i : Nat) (d : Udp) (stamp n e : Nat) (c : EpRec) (q : Nat) : Prop where
  ip : s.ipPort i = true
  plain : d.plain = true
  sumOk : d.sumOk = true
  addr : d.laddr ∈ (s.udpHeard i d stamp).portAddrs i d.v6
  ep : (s.udpHeard i d stamp).udpEp i d = some (n, e, c)
  rx : c.rx = some q
  active : (s.udpHeard i d stamp).isStandby = false
  len : d.data.length ≤ 1452

/-- The datagram reaches its ring: dropped where the ring is closed or full, else its data and its entry are stored, where both can be. -/
def udpToRing (u : State) (i : Nat) (d : Udp) (stamp n e : Nat) (c : EpRec) (q : Nat) : State :=
  if !u.ringOpen q || u.ringFull q then (u.ringDrop q).udpDrop n e
  else match u.hwWriteBytes n ((u.cnst n).dataBase + c.rxbuf + u.ringP q % ringLen (u.ringCfg q) * 2048) d.data with
    | (false, v) => ((v.ringDrop q).setBit (Reg.RING_STAT q) 9 true).udpDrop n e
    | (true, v) => match v.hwEnq q (udpEntry (form64 stamp) d.data.length d.rport i e d.raddr d.laddr d.v6) with
      | (true, w) => w.bump (Reg.NET_UEPRX n e) 1
      | (false, w) => w.udpDrop n e

theorem udpRx_forRing {s : State} {i : Nat} {d : Udp} {stamp n e : Nat} {c : EpRec} {q : Nat} (h : s.ForRing i d stamp n e c q) :
    s.udpRx i d stamp = (s.udpHeard i d stamp).udpToRing i d stamp n e c q := by
  have hfits : ¬(if d.v6 then 1452 else 1472) < d.data.length := by
    have hlen := h.len
    split <;> omega
  have hsound : ¬(!d.plain || !d.sumOk || !((s.udpHeard i d stamp).portAddrs i d.v6).contains d.laddr) = true := by
    simp [h.plain, h.sumOk, h.addr]
  unfold udpRx
  rw [if_neg (by simp [h.ip])]
  refine (if_neg hsound).trans ?_
  rw [show ((s.ipRx i (d.data.length + 46)).advance stamp).udpEp i d = _ from h.ep]
  dsimp only
  rw [h.rx]
  exact (if_neg (Bool.eq_false_iff.1 h.active)).trans (if_neg hfits)

section
variable {u : State} {q : Nat}

theorem udpToRing_barred (h : u.ringOpen q = false ∨ u.ringFull q = true) (i : Nat) (d : Udp) (stamp n e : Nat) (c : EpRec) :
    u.udpToRing i d stamp n e c q = (u.ringDrop q).udpDrop n e := if_pos (by simpa using h)

theorem udpToRing_stored {v w : State} {i n e stamp : Nat} {d : Udp} {c : EpRec} (ho : u.ringOpen q = true) (hf : u.ringFull q = false)
    (hdata : u.hwWriteBytes n ((u.cnst n).dataBase + c.rxbuf + u.ringP q % ringLen (u.ringCfg q) * 2048) d.data = (true, v))
    (hentry : v.hwEnq q (udpEntry (form64 stamp) d.data.length d.rport i e d.raddr d.laddr d.v6) = (true, w)) :
    u.udpToRing i d stamp n e c q = w.bump (Reg.NET_UEPRX n e) 1 := by
  unfold udpToRing
  rw [if_neg (by simp [ho, hf]), hdata]
  dsimp only
  rw [hentry]

end

section
variable {s u : State} {n e q : Nat} {c : EpRec} (hc : s.cfg.eps.find? (n * 16 + e) = some c) (hq : c.tx = some q)
include hc hq

theorem udpTake_nothing (h : s.hwTake q = (none, u)) : s.udpTake n e = u := by
  simp only [udpTake, hc, hq, h]

theorem udpTake_standby {b : List Byte} (h : s.hwTake q = (some b, u)) (hs : u.isStandby = true) :
    s.udpTake n e = u.bump Reg.RED_CONSDISC 1 := by
  simp only [udpTake, hc, hq, h]
  exact if_pos hs

/-- An entry that names a port without IP sends nothing. -/
theorem udpTake_noIp {b : List Byte} (h : s.hwTake q = (some b, u)) (hs : u.isStandby = false) (hp : field b 12 1 < 96) :
    s.udpTake n e = u.udpDrop n e := by
  simp only [udpTake, hc, hq, h, hs, Bool.false_eq_true, if_false]
  exact if_pos (by simp [hp])

end

/-! ### Ports and links (R306, R335) -/

section
variable {h : RegHit} (hb : h.desc.base = Reg.NET_PCTL 0)
include hb

theorem sysWriteHook_pctl (s : State) (byO0 : Bool) (v : Nat) : s.sysWriteHook byO0 h v = none := by
  unfold sysWriteHook
  rw [hb]
  rfl

theorem ioWriteHook_pctl (s : State) (byO0 : Bool) (v : Nat) :
    s.ioWriteHook byO0 h v = some (if bit v 0 then s.portEnable h.i else s.portDisable h.i) := by
  unfold ioWriteHook
  rw [hb]
  rfl

end

/-- A write of NET_PCTL that is performed acts through EN alone. -/
theorem busSet_pctl {s : State} {r : Req} {i : Nat} (hw : s.writes r (Reg.NET_PCTL i) (Reg.NET_PCTL 0) i) (v : Nat) :
    s.busSet r (Reg.NET_PCTL i) v = if bit (v % 2 ^ 32) 0 then s.portEnable i else s.portDisable i := by
  obtain ⟨hit, hb, rfl, hset⟩ := busSet_writes hw
  rw [hset, sysWriteHook_pctl hb, ioWriteHook_pctl hb]

section
variable {s : State} {i : Nat} (hi : i < 124)
include hi

theorem portEnable_off (he : s.portEnabled i = false) (hm : (s.portRec i).mode ≠ 0) :
    s.portEnable i = (s.setBit (Reg.NET_PCTL i) 0 true).setBit (Reg.NET_PSTAT i) 2 true := if_neg (by simp [hi, he, hm])

/-- A port disabled stands neither enabled nor with its link up. -/
theorem portDisable_flags (he : s.portEnabled i = true) :
    (s.portDisable i).portEnabled i = false ∧ (s.portDisable i).portLink i = false := by
  unfold portDisable
  rw [if_neg (by simp [hi, he])]
  dsimp only
  generalize State.setNet _ _ = t
  have hoff : (t.setFld (Reg.NET_PSTAT i) 1 2 0).portEnabled i = false := by
    rw [portEnabled_eq, testBit_rd_setFld t _ 1 2 0 (by decide), if_pos (by decide), Nat.zero_testBit]
  by_cases hl : (t.setFld (Reg.NET_PSTAT i) 1 2 0).portLink i = true
  · rw [portEnabled_eq] at hoff
    rw [if_pos hl, portEnabled_eq, portLink_eq, testBit_rd_setBit_other _ _ 16 true (by decide) (by decide),
      testBit_rd_setBit_other _ _ 0 false (by decide) (by decide), testBit_rd_setBit_other _ _ 16 true (by decide) (by decide),
      testBit_rd_setBit_same _ _ false (by decide)]
    exact ⟨hoff, rfl⟩
  · rw [if_neg hl]
    exact ⟨hoff, Bool.eq_false_iff.2 hl⟩

/-- A lost link is shown, counted and reported; of a process-bus pair whose other port keeps its own, once more. -/
theorem netLinkDown_lost (he : s.portEnabled i = true) (hl : s.portLink i = true) :
    let u := (((s.setBit (Reg.NET_PSTAT i) 0 false).setBit (Reg.NET_PSTAT i) 16 true).bump (Reg.NET_PLINKDN i) 1).raise 640 0xFFFF i
    s.netLinkDown i = if 1 ≤ s.portRed i ∧ s.portRed i ≤ 4 ∧ u.portEnabled (twin i) = true ∧ u.portLink (twin i) = true then u.raise 641 0xFFFF i
      else u := by
  intro u
  have hcfg : u.cfg = s.cfg := by rw [raise_cfg, bump_cfg, setBit_cfg, setBit_cfg]
  have hred : u.portRed i = s.portRed i := by rw [portRed, portRec, hcfg, portRed, portRec]
  unfold netLinkDown
  rw [if_neg (by omega), ← hred]
  unfold linkDown
  exact if_neg (by simp [he, hl]; omega)

/-- On a process-bus port no address detection follows. -/
theorem netLinkUp_bus (hbus : i < 96) (hn : s.netUp = true) (he : s.portEnabled i = true) (hl : s.portLink i = false) :
    s.netLinkUp i = (s.setBit (Reg.NET_PSTAT i) 0 true).setBit (Reg.NET_PSTAT i) 16 true := by
  unfold netLinkUp
  rw [if_neg (by omega)]
  unfold linkUp
  rw [if_neg (by simp [hn, he, hl]; omega)]
  exact if_neg (by omega)

end

end State
end Sys2Proof.Machine

open Sys2Proof Sys2Proof.Machine Sys2Proof.Machine.State

/-- Settles O52, a clause per command: the command is its effect, and the effect where it acts is the lemma of its name above. -/
theorem networkStackAnswers : Obligations.NetworkStackAnswers := by
  unfold Obligations.NetworkStackAnswers
  refine ⟨?arp, ?icmp, ?ndp, ?reply, ?again, ?timeout, ?aging, ?detected, ?datagram, ?send, ?ports, ?links⟩
  case arp => exact fun s i target sender h => congrArg (done s) (arpRequest_heard h target sender)
  case icmp =>
    intro s i dst remote v6 echo h
    refine ⟨fun hd => congrArg (done s) (icmpEcho_dropped h hd remote), ?_⟩
    rintro rfl hd
    exact congrArg (done s) (icmpEcho_ofPort h hd remote)
  case ndp =>
    intro s i kind target h hd
    refine ⟨fun hk => congrArg (done s) (ndp_other h hk target), ?_, ?_⟩
    · rintro rfl
      exact congrArg (done s) (ndp_settled h hd (by decide) target)
    · rintro rfl
      exact congrArg (done s) (ndp_settled h hd (by decide) target)
  case reply =>
    intro s i a h u
    refine ⟨fun ha hnew => ?_, fun x ha hx => congrArg (done s) (nbrReply_listed h ha hx)⟩
    have hnew' : (i, a) ∉ u.net.conflicts := (ipRx_net s i 64).symm ▸ hnew
    exact congrArg (done s) ((nbrReply_ofPort h ha).trans (addrConflict_new hnew'))
  case again => exact fun s i a x hx hr ht => congrArg (done s) (arpRepeat_unresolved hx hr ht)
  case timeout => exact fun s i a v6 x hx hr => congrArg (done s) (nbrTimeout_unresolved hx hr)
  case aging => exact fun s i x hx => congrArg (done s) (arpAge_oldest hx)
  case detected => exact fun s i t ht => congrArg (done s) (dadDone_running ht)
  case datagram =>
    intro s v w i n e q stamp d c hip u hplain hsum haddr hep hrx hact hlen
    have hring : s.udpRx i d stamp = u.udpToRing i d stamp n e c q := udpRx_forRing ⟨hip, hplain, hsum, haddr, hep, hrx, hact, hlen⟩
    exact ⟨fun hq => congrArg (done s) (hring.trans (udpToRing_barred hq i d stamp n e c)),
      fun ho hf hdata hentry => congrArg (done s) (hring.trans (udpToRing_stored ho hf hdata hentry))⟩
  case send =>
    intro s u n e q c hc hq
    exact ⟨fun h => congrArg (done s) (udpTake_nothing hc hq h), fun b h hs => congrArg (done s) (udpTake_standby hc hq h hs),
      fun b h hs hp => congrArg (done s) (udpTake_noIp hc hq h hs hp)⟩
  case ports =>
    intro s r i hw hi
    exact ⟨fun he => ⟨congrArg (done s) (busSet_pctl hw 0), portDisable_flags hi he⟩,
      fun he hm => congrArg (done s) ((busSet_pctl hw 1).trans (portEnable_off hi he hm))⟩
  case links =>
    intro s i hi he
    exact ⟨fun hl => congrArg (done s) (netLinkDown_lost hi he hl), fun hb hn hl => congrArg (done s) (netLinkUp_bus hi hb hn he hl)⟩

end

section
/-! SUPPORT. What a session reads as after an update, and what ends with it; OPEN in each of its cases; how far a time-out takes OCXO time; where a
request datagram leads by its session, format, tag and SEQ; and O53, which says so. -/
namespace Sys2Proof.Machine
namespace State

/-! ### Sessions -/

@[simp] theorem sess_setSess_same (s : State) (k : Nat) (x : LorSess) : (s.setSess k x).sess k = x := get_set_same _ _ _ _

theorem sess_congr {s t : State} (h : t.lor = s.lor) (k : Nat) : t.sess k = s.sess k := congrArg (·.get {} k) h

/-! ### The end of a session (R341, R351, R353): a load dropped and a freeze released touch no session -/

@[simp] theorem setAlm_lor (s : State) (a : Alm) : (s.setAlm a).lor = s.lor := rfl

@[simp] theorem flushOne_lor (s : State) (share : Nat) : (s.flushOne share).lor = s.lor := by
  unfold flushOne
  split <;> rfl

@[simp] theorem makeRoom_lor (s : State) (share len k : Nat) : (s.makeRoom share len k).lor = s.lor := by
  induction k generalizing s with
  | zero => rfl
  | succ k ih =>
    unfold makeRoom
    split
    · rw [ih, flushOne_lor]
    · rfl

@[simp] theorem stage_lor (s : State) (share len : Nat) (w : StoWrite) : (s.stage share len w).lor = s.lor := by
  unfold stage
  dsimp only
  rw [maxReg_lor, wr_lor, bump64_lor]
  refine (makeRoom_lor _ _ _ _).trans ?_
  rw [apply_ite State.lor, raise_lor, setBit_lor, bump_lor, ite_self]

@[simp] theorem almWrite_lor (s : State) : s.almWrite.lor = s.lor := by
  unfold almWrite
  split
  · rfl
  · split
    · rfl
    · rw [wr_lor, wr_lor, setAlm_lor, stage_lor, apply_ite State.lor, wr_lor, ite_self]

@[simp] theorem almWriteAll_lor (s : State) (k : Nat) : (s.almWriteAll k).lor = s.lor := by
  induction k generalizing s with
  | zero => rfl
  | succ k ih => exact (ih _).trans (almWrite_lor s)

@[simp] theorem almRelease_lor (s : State) : s.almRelease.lor = s.lor := by
  unfold almRelease
  split
  · rfl
  · rw [almWriteAll_lor, setBit_lor, setAlm_lor]

theorem splDrop_lor (s : State) (n : Nat) : (s.splDrop n).lor = s.lor := setFld_lor _ _ _ _ _

theorem abandonLoads_lor (s : State) (k : Nat) : (s.abandonLoads k).lor = s.lor := by
  unfold abandonLoads
  rw [forEach_keeps _ State.lor (fun s n => by rw [apply_ite State.lor, splDrop_lor, ite_self])]
  split
  · split <;> rfl
  · rfl

theorem lorEnd_lor (s : State) (k : Nat) : (s.lorEnd k).lor = s.lor.erase k := by
  unfold lorEnd
  dsimp only
  rw [apply_ite State.lor, forEach_keeps _ State.lor (fun s a => clr_lor s a), ite_self]
  dsimp only
  rw [apply_ite State.lor, almRelease_lor, ite_self, abandonLoads_lor]

theorem sess_lorEnd_same (s : State) (k : Nat) : (s.lorEnd k).sess k = {} := by
  rw [sess, lorEnd_lor, SMap.get, find_erase_same, Option.getD_none]

theorem sess_lorEnd_other (s : State) {k j : Nat} (h : j ≠ k) : (s.lorEnd k).sess j = s.sess j := by
  rw [sess, lorEnd_lor, SMap.get, find_erase_other _ h]
  rfl

/-! ### OPEN (R339) -/

section
variable {s : State} {h : LorHead} (hs : s.lorServed = true) (hp : lorPort h.port = true) (hf : h.fmt = true) (h0 : h.session = 0)
variable {n serial : Nat}
include hs hp hf h0

theorem lorOpen_unowned (hn : 8 ≤ n ∨ (s.advance h.stamp).ownerDef n = false) :
    s.lorOpen h n serial = (s.advance h.stamp).openReject n 1 := by
  unfold lorOpen
  rw [if_neg (by simp [hs, hp]), if_neg (by simp [hf, h0]), if_pos (by simpa using hn)]

section
variable (hn : n < 8) (ho : (s.advance h.stamp).ownerDef n = true)
include hn ho

theorem lorOpen_unauthorised (ha : (s.advance h.stamp).curSlot.scn.auth.find? n ≠ some serial) :
    s.lorOpen h n serial = (s.advance h.stamp).openReject n 2 := by
  unfold lorOpen
  simp [hs, hp, hf, h0, Nat.not_le.2 hn, ho, ha]

variable (ha : (s.advance h.stamp).curSlot.scn.auth.find? n = some serial)
include ha

theorem lorOpen_full (hk : (s.advance h.stamp).freeSession = none) : s.lorOpen h n serial = (s.advance h.stamp).openReject n 3 := by
  unfold lorOpen
  simp [hs, hp, hf, h0, Nat.not_le.2 hn, ho, ha, hk]

theorem lorOpen_granted {k : Nat} (hk : (s.advance h.stamp).freeSession = some k)
    (hfew : ((s.advance h.stamp).lor.filter (fun e => e.2.owner == n && decide (e.1 ≤ 64))).length < 16) :
    let v := forEach ([Reg.NET_LSREQ k, Reg.NET_LSRETRY k, Reg.NET_LSBAD k] : List Nat) (fun s a => s.clr a) (s.advance h.stamp)
    s.lorOpen h n serial = (v.setSess k { half := true, owner := n, v6 := h.v6, port := h.port, lastAt := v.mono }).emit (.open_ k n) := by
  unfold lorOpen
  simp only [hs, hp, hf, h0, ho, ha, hk, Nat.not_le.2 hn, Nat.not_le.2 hfew, Bool.not_true, Bool.or_false, Bool.false_eq_true, bne_self_eq_false,
    ne_eq, not_true_eq_false, or_false, if_false]

end
end

/-! ### Time-outs (R341, R342) -/

/-- OCXO time has reached the instant it was let pass to. -/
theorem le_mono_advanceMono (s : State) (t : Nat) : t ≤ (s.advanceMono t).mono := by
  have hnow : (s.advanceMono t).now = s.now + s.stationIn (t - s.mono) := rfl
  by_cases ht : t ≤ s.mono
  · have hskew : (s.advanceMono t).skew = s.skew := if_pos ht
    rw [mono, hnow, hskew]
    rw [mono] at ht
    omega
  · have hskew : (s.advanceMono t).skew = ((s.now + s.stationIn (t - s.mono) : Nat) : Int) - t := if_neg ht
    rw [mono, hnow, hskew]
    omega

/-- The one request held out of order is dropped 500 ms after it came. -/
theorem heldTimeout_one {s : State} {k : Nat} {y : HeldReq} (hh : (s.sess k).held = [y]) (hy : y.seq ≠ (s.sess k).h + 1) :
    s.heldTimeout k = (s.advanceMono (y.at_ + msec 500)).setSess k { s.sess k with held := [] } := by
  have hlate : ¬(s.advanceMono (y.at_ + msec 500)).mono < y.at_ + msec 500 := Nat.not_lt.2 (le_mono_advanceMono s _)
  have hsess : (s.advanceMono (y.at_ + msec 500)).sess k = s.sess k := rfl
  unfold heldTimeout
  simp [hh, hy, hsess, hlate]

/-! ### A request datagram (R336, R337, R341) -/

theorem lorRun_served {s : State} {h : LorHead} (hs : s.lorServed = true) (hp : lorPort h.port = true) (c : LorCmd) :
    s.lorRun h c = s.lorRequest h c := by
  have hm : s.ms.mode ≠ .recovery := fun hm => by simp [lorServed, hm] at hs
  unfold lorRun
  rw [if_neg hm, if_pos (by rw [hs, hp]; rfl)]

theorem lorBad_inRange {k : Nat} (h1 : 1 ≤ k) (h64 : k ≤ 64) (s : State) : s.lorBad k = s.bump (Reg.NET_LSBAD k) 1 := by
  unfold lorBad
  rw [if_pos (by simp [h1, h64])]

/-- The session as a request that verifies leaves it: last heard at its receive stamp. -/
def sessHeard (s : State) (h : LorHead) : State :=
  let u := s.advance h.stamp
  u.setSess h.session { s.sess h.session with lastAt := u.mono }

@[simp] theorem sess_sessHeard (s : State) (h : LorHead) :
    (s.sessHeard h).sess h.session = { s.sess h.session with lastAt := (s.advance h.stamp).mono } := sess_setSess_same _ _ _

section
variable {s : State} {h : LorHead} (h1 : 1 ≤ h.session) (h64 : h.session ≤ 64) (hl : s.sessLive h.session = true) (c : LorCmd)
include h1 h64 hl

theorem sess_numbered : ¬(h.session = 0 ∨ 64 < h.session ∨ (!(s.advance h.stamp).sessLive h.session) = true) := by
  have hl' : (s.advance h.stamp).sessLive h.session = true := hl
  simp only [hl', Bool.not_true, Bool.false_eq_true, or_false]
  omega

theorem lorRequest_malformed (hf : h.fmt = false) : s.lorRequest h c = (s.advance h.stamp).bump (Reg.NET_LSBAD h.session) 1 := by
  unfold lorRequest
  rw [if_neg (sess_numbered h1 h64 hl), if_pos (by rw [hf]; rfl), lorBad_inRange h1 h64]

theorem lorRequest_unverified (hf : h.fmt = true) (ht : h.tag = false) :
    s.lorRequest h c = ((s.advance h.stamp).bump (Reg.NET_LSBAD h.session) 1).secEvent (s.sess h.session).owner := by
  unfold lorRequest
  rw [if_neg (sess_numbered h1 h64 hl), if_neg (by simp [hf]), if_pos (by rw [ht]; rfl), lorBad_inRange h1 h64]
  rfl

/-- A request that verifies is judged by its SEQ. -/
theorem lorRequest_verified (hf : h.fmt = true) (ht : h.tag = true) (ho : (s.sess h.session).isOpen = true)
    (hh : (s.sess h.session).half = false) :
    s.lorRequest h c = (s.sessHeard h).lorSeq h.session h c (fun s => s.lorExec h.session h.seq h.flags h.stamp c) := by
  have ho' : ((s.advance h.stamp).sess h.session).isOpen = true := ho
  have hh' : ((s.advance h.stamp).sess h.session).half = false := hh
  unfold lorRequest
  rw [if_neg (sess_numbered h1 h64 hl), if_neg (by simp [hf]), if_neg (by simp [ht])]
  dsimp only
  rw [if_neg (by simp [hh']), if_pos ho']
  rfl

end

/-! ### The window of SEQ (R342, Table 14.2) -/

section
variable {s : State} {k : Nat} {h : LorHead} (c : LorCmd) (run : State → State)

theorem lorSeq_outside (h1 : 1 ≤ k) (h64 : k ≤ 64) (hw : h.seq = 0 ∨ (s.sess k).h + 16 < h.seq ∨ h.seq + 16 ≤ (s.sess k).h) :
    s.lorSeq k h c run = s.bump (Reg.NET_LSBAD k) 1 :=
  (if_pos hw).trans (lorBad_inRange h1 h64 s)

theorem lorSeq_stored {r : Stored} (h64 : k ≤ 64) (h0 : 0 < h.seq) (hle : h.seq ≤ (s.sess k).h) (hlt : (s.sess k).h < h.seq + 16)
    (hr : (s.sess k).stored.find? h.seq = some r) :
    s.lorSeq k h c run = (s.emit (.lorat k h.seq r.cmd r.status r.detail r.body)).bump (Reg.NET_LSRETRY k) 1 := by
  unfold lorSeq
  rw [if_neg (by omega), if_pos hle, hr]
  exact if_pos h64

theorem lorSeq_next (hq : h.seq = (s.sess k).h + 1) (hr : s.lorReady k = true) : s.lorSeq k h c run = run s := by
  unfold lorSeq
  rw [if_neg (by omega), if_neg (by omega), if_pos ⟨hq, hr⟩]

end

/-! ### Executing a request (R342, R343) -/

/-- The execution of a request heard: the command finds the session as `serving` says, and its answer is finished. -/
theorem lorExec_serving {h : LorHead} (h64 : h.session ≤ 64) (s : State) (c : LorCmd) : ∃ d ≤ us 100,
    let v := s.serving h d
    let a := v.lorDo h.session (s.sess h.session).owner h.seq h.flags h.stamp c
    (s.sessHeard h).lorExec h.session h.seq h.flags h.stamp c = a.2.lorFinish h.session h.seq c a.1 := by
  have howner : ((s.sessHeard h).sess h.session).owner = (s.sess h.session).owner := by rw [sess_sessHeard]
  refine ⟨(s.sessHeard h).fresh.1 % (us 100 + 1), Nat.le_of_lt_succ (Nat.mod_lt _ (Nat.succ_pos _)), ?_⟩
  unfold lorExec
  dsimp only
  rw [if_pos h64, ← howner]
  rfl

/-- A request in order is executed. -/
theorem lorRun_inOrder {s : State} {h : LorHead} (ho : s.inOrder h) (c : LorCmd) : ∃ d ≤ us 100,
    let v := s.serving h d
    let a := v.lorDo h.session (s.sess h.session).owner h.seq h.flags h.stamp c
    s.lorRun h c = a.2.lorFinish h.session h.seq c a.1 := by
  obtain ⟨hs, hm, hp, h1, h64, hopen, hhalf, hw, hf, ht, hq⟩ := ho
  have hl : s.sessLive h.session = true := by rw [sessLive, hopen, Bool.or_true]
  have hready : (s.sessHeard h).lorReady h.session = true := by
    have hs' : (s.sessHeard h).lorServed = true := hs
    have hm' : (s.sessHeard h).ms.mode ≠ .handover := hm
    simp [lorReady, hs', hm', hw]
  have hnext : h.seq = ((s.sessHeard h).sess h.session).h + 1 := by rw [sess_sessHeard, hq]
  rw [lorRun_served hs hp, lorRequest_verified h1 h64 hl c hf ht hopen hhalf, lorSeq_next c _ hnext hready]
  exact lorExec_serving h64 s c

end State

/-- Every command that is `lorRun` of a request serves it. -/
theorem serves_of_lorRun {mk : LorHead → Instr} {c : LorCmd} (hm : ∀ h s, exec (mk h) s = done s (s.lorRun h c)) : Serves mk c := by
  intro s h ho
  obtain ⟨d, hd, hrun⟩ := State.lorRun_inOrder ho c
  exact ⟨d, hd, (hm h s).trans (congrArg (done s) hrun)⟩

end Sys2Proof.Machine

open Sys2Proof Sys2Proof.Machine Sys2Proof.Machine.State

/-- Settles O53, a clause per command and per case of it: each command is its effect, and the effect where it acts is the lemma of its name above. Which
security counter a bad datagram counts in is log entry 69, the execution's delay log entry 68. -/
theorem loratSessionsServeInOrder : Obligations.LoratSessionsServeInOrder := by
  unfold Obligations.LoratSessionsServeInOrder
  refine ⟨?opens, fun s k hh => congrArg (done s) (if_pos hh), ?idle, fun s k => ⟨sess_lorEnd_same s k, fun j => sess_lorEnd_other s⟩, ?held,
    serves_of_lorRun exec_status, serves_of_lorRun exec_close, fun a b c => serves_of_lorRun (exec_imgRead · a b c),
    fun l => serves_of_lorRun (exec_imgWrite · l), fun l => serves_of_lorRun (exec_imgForce · l),
    fun l => serves_of_lorRun (exec_regRead · l), fun l => serves_of_lorRun (exec_regWrite · l),
    fun a b c d => serves_of_lorRun (exec_nvsRead · a b c d), fun a b c d l => serves_of_lorRun (exec_nvsWrite · a b c d l),
    fun a b => serves_of_lorRun (exec_almRead · a b), fun a => serves_of_lorRun (exec_almFreeze · a),
    fun a b c d e => serves_of_lorRun (exec_arcRead · a b c d e), fun a b c => serves_of_lorRun (exec_arcTrig · a b c),
    fun a l => serves_of_lorRun (exec_splLoad · a l), fun a => serves_of_lorRun (exec_splApply · a),
    fun a => serves_of_lorRun (exec_splConfirm · a), fun a => serves_of_lorRun (exec_splRollback · a),
    fun a l b => serves_of_lorRun (exec_scnLoad · a l b), serves_of_lorRun exec_scnCommit,
    serves_of_lorRun exec_scnConfirm, serves_of_lorRun exec_scnRollback,
    fun a b c d => serves_of_lorRun (exec_modeSet · a b c d), fun a => serves_of_lorRun (exec_plumb · a), ?judged⟩
  case opens =>
    intro s h n serial hs hp hf h0 u
    exact ⟨fun hn => congrArg (done s) (lorOpen_unowned hs hp hf h0 hn),
      fun hn ho ha => congrArg (done s) (lorOpen_unauthorised hs hp hf h0 hn ho ha),
      fun hn ho ha hk => congrArg (done s) (lorOpen_full hs hp hf h0 hn ho ha hk),
      fun k hn ho ha hk hfew => congrArg (done s) (lorOpen_granted hs hp hf h0 hn ho ha hk hfew)⟩
  case idle =>
    intro s k ho h1 h64
    exact congrArg (done s) (if_pos (by simp [ho, h1, h64]))
  case held =>
    intro s k y hh hy
    refine ⟨_, congrArg (done s) (heldTimeout_one hh hy), ?_, le_mono_advanceMono s _⟩
    rw [sess_setSess_same]
  case judged =>
    intro s h hs hp h1 h64 hl u k
    have run {t : State} (ht : s.lorRequest h .status = t) : exec (.status h) s = done s t :=
      congrArg (done s) ((lorRun_served hs hp .status).trans ht)
    refine ⟨fun hf => run (lorRequest_malformed h1 h64 hl _ hf), fun hf ht => run (lorRequest_unverified h1 h64 hl _ hf ht), ?_⟩
    intro hf ht hopen hhalf v
    have hheard := lorRequest_verified h1 h64 hl .status hf ht hopen hhalf
    have hh : ((s.sessHeard h).sess h.session).h = (s.sess k).h := congrArg (·.h) (sess_sessHeard s h)
    have hstored : ((s.sessHeard h).sess h.session).stored = (s.sess k).stored := congrArg (·.stored) (sess_sessHeard s h)
    refine ⟨fun hw => run (hheard.trans (lorSeq_outside _ _ h1 h64 (hh ▸ hw))), fun r h0 hle hlt hr => run (hheard.trans ?_)⟩
    exact lorSeq_stored _ _ h64 h0 (hh ▸ hle) (hh ▸ hlt) (hstored ▸ hr)

end

section
/-! SUPPORT. Station time: PTP messages and sources (log entry 84), holdover, steps (log entry 20), the reference inputs, compare units, outputs, the
calendar (log entries 22 and 92) and leap seconds where they act; what station time gains in an OCXO time (log entry 103); and O55, which says so. -/
namespace Sys2Proof.Machine
namespace State

/-! ### PTP (R359, R361) -/

/-- A PTP message of the module's domain is counted, and acts at the instant it came. -/
def ptpHeard (s : State) (i rx : Nat) : State := (s.bump (Reg.TIM_PPRX i) 1).advance rx

/-- Is a message from the master that the slave port follows? -/
def fromMaster (s : State) (i src : Nat) : Bool :=
  s.fld (Reg.TIM_PPSTAT i) 0 4 == 9 && (match s.tim.anns.find? i with | some a => a.src == src | none => false)

/-- An Announce kept with its steps one more. -/
def annKept (s : State) (i : Nat) (a : Ann) : State := { s with tim := { s.tim with anns := s.tim.anns.insert i { a with steps := a.steps + 1 } } }

/-- What a Sync, a two-step Sync or a Follow_Up of the master brings. -/
def ptpTaken (s : State) (i kind seq origin corr rx : Nat) : State :=
  let key := i * 65536 + seq % 65536
  if kind = 1 then { s with tim := { s.tim with syncs := s.tim.syncs.insert key rx } }
  else if kind = 0 then s.srcSample 1 (s.ptpOffset i rx origin corr)
  else match s.tim.syncs.find? key with
    | some r =>
      let u : State := { s with tim := { s.tim with syncs := s.tim.syncs.erase key } }
      u.srcSample 1 (u.ptpOffset i r origin corr)
    | none => s

theorem fromMaster_slave {s : State} {i src : Nat} {a : Ann} (h9 : s.fld (Reg.TIM_PPSTAT i) 0 4 = 9) (ha : s.tim.anns.find? i = some a)
    (hs : a.src = src) : s.fromMaster i src = true := by
  unfold fromMaster
  rw [h9, ha, ← hs]
  exact beq_self_eq_true a.src

theorem fromMaster_notSlave {s : State} {i : Nat} (h : s.fld (Reg.TIM_PPSTAT i) 0 4 ≠ 9) (src : Nat) : s.fromMaster i src = false := by
  unfold fromMaster
  rw [beq_eq_false_iff_ne.2 h, Bool.false_and]

theorem ptpTaken_followUp {s : State} {i seq r : Nat} (hr : s.tim.syncs.find? (i * 65536 + seq % 65536) = some r) (o c rx : Nat) :
    let u : State := { s with tim := { s.tim with syncs := s.tim.syncs.erase (i * 65536 + seq % 65536) } }
    s.ptpTaken i 2 seq o c rx = u.srcSample 1 (u.ptpOffset i r o c) := by
  unfold ptpTaken
  simp only [hr]
  rfl

section
variable {s : State} {i dom : Nat} (hp : s.ptpPort i = true)
include hp

theorem ptpRx_otherDomain (hd : dom ≠ s.cfg.port.domain) : s.ptpRx i dom = (false, (s.bump (Reg.TIM_PPRX i) 1).bump (Reg.TIM_PPERR i) 1) := by
  unfold ptpRx
  rw [hp]
  exact if_pos hd

theorem ptpSync_otherDomain (hd : dom ≠ s.cfg.port.domain) (kind src seq o c rx : Nat) :
    s.ptpSync i dom kind src seq o c rx = (s.bump (Reg.TIM_PPRX i) 1).bump (Reg.TIM_PPERR i) 1 := by
  unfold ptpSync
  rw [ptpRx_otherDomain hp hd]

/-- A port whose master falls silent drops it; a slave port's source goes with it, and the UTC offset's. -/
theorem ptpTimeout_heard (ha : (s.tim.anns.find? i).isSome = true) :
    let u := ({ s with tim := { s.tim with anns := s.tim.anns.erase i } } : State).bmca
    s.ptpTimeout i = if s.fld (Reg.TIM_PPSTAT i) 0 4 = 9 then (u.setBit Reg.TIM_UTCOFF 20 false).srcInvalid 1 else u := by
  unfold ptpTimeout
  rw [hp, ha]
  simp only [Bool.and_self, if_true, beq_iff_eq]

theorem syncSend_active (hact : s.isStandby = false) (kind : Nat) :
    s.syncSend i kind = if s.fld (Reg.TIM_PPSTAT i) 0 4 = 6 then s.ptpSend i [kind, s.clockClass, form64 s.now] else s := by
  unfold syncSend
  simp only [hp, hact, Bool.true_and, Bool.not_false, Bool.and_true, beq_iff_eq]

variable (hd : dom = s.cfg.port.domain)
include hd

theorem ptpRx_ownDomain : s.ptpRx i dom = (true, s.bump (Reg.TIM_PPRX i) 1) := by
  unfold ptpRx
  rw [hp]
  exact if_neg (not_not_intro hd)

/-- A Sync or Follow_Up of the module's domain is taken where it is of the master followed, but on a standby. -/
theorem ptpSync_ownDomain (kind src seq o c rx : Nat) : let u := s.ptpHeard i rx
    s.ptpSync i dom kind src seq o c rx = if !u.fromMaster i src || u.isStandby then u else u.ptpTaken i kind seq o c rx := by
  unfold ptpSync
  rw [ptpRx_ownDomain hp hd]
  rfl

theorem ptpSync_unfollowed {rx : Nat} (h : (s.ptpHeard i rx).fld (Reg.TIM_PPSTAT i) 0 4 ≠ 9 ∨ (s.ptpHeard i rx).isStandby = true)
    (kind src seq o c : Nat) : s.ptpSync i dom kind src seq o c rx = s.ptpHeard i rx := by
  rw [ptpSync_ownDomain hp hd]
  rcases h with h | h
  · simp [fromMaster_notSlave h]
  · simp [h]

theorem ptpSync_followed {rx src : Nat} (hm : (s.ptpHeard i rx).fromMaster i src = true) (hact : (s.ptpHeard i rx).isStandby = false)
    (kind seq o c : Nat) : s.ptpSync i dom kind src seq o c rx = (s.ptpHeard i rx).ptpTaken i kind seq o c rx := by
  rw [ptpSync_ownDomain hp hd, hm, hact]
  rfl

theorem ptpAnnounce_unusable {a : Ann} (ha : a.gm = Config.clockId ∨ 255 ≤ a.steps) (off : Int) (ok : Bool) (leap : Nat) :
    s.ptpAnnounce i dom a off ok leap = s.bump (Reg.TIM_PPRX i) 1 := by
  unfold ptpAnnounce
  rw [ptpRx_ownDomain hp hd]
  exact if_pos ha

/-- The first Announce of a port is kept with its steps one more; where the port is not the slave after it, nothing else is taken of it. -/
theorem ptpAnnounce_first {a : Ann} (hg : a.gm ≠ Config.clockId) (hs : a.steps < 255) (hn : (s.bump (Reg.TIM_PPRX i) 1).tim.anns.find? i = none)
    (h9 : ((s.bump (Reg.TIM_PPRX i) 1).annKept i a).bmca.fld (Reg.TIM_PPSTAT i) 0 4 ≠ 9) (off : Int) (ok : Bool) (leap : Nat) :
    s.ptpAnnounce i dom a off ok leap = ((s.bump (Reg.TIM_PPRX i) 1).annKept i a).bmca := by
  unfold ptpAnnounce
  rw [ptpRx_ownDomain hp hd]
  simp only [hn, hg, Nat.not_le.2 hs, or_self, if_false, if_true]
  exact if_neg fun h => h9 (eq_of_beq (Bool.and_eq_true_iff.1 h).1)

theorem pdelayReq_ownDomain (seq : Nat) : s.pdelayReq i dom seq = (s.bump (Reg.TIM_PPRX i) 1).ptpSend i [3, seq] := by
  unfold pdelayReq
  rw [ptpRx_ownDomain hp hd]

theorem pdelayResp_ownDomain (t1 t2 t3 t4 : Nat) : s.pdelayResp i dom t1 t2 t3 t4 =
    (s.bump (Reg.TIM_PPRX i) 1).wr (Reg.TIM_PPDELAY i) ((((t4 : Int) - t1) - ((t3 : Int) - t2)) / 2).toNat := by
  unfold pdelayResp
  rw [ptpRx_ownDomain hp hd]

end

/-! ### Sources, holdover and steps (R358, R365, R366) -/

theorem holdDegrade_next {s : State} {h : Nat} (hh : s.timHold = true)
    (hn : ([60, 600, 3600, 21600, 86400] : List Nat).find? (fun h => decide (s.holds < h)) = some h) :
    let u := s.advance (s.tim.lostAt + h * secU)
    s.holdDegrade = u.setStep (max u.qStep (max u.tim.entryStep (holdStep u.holds))) := by
  unfold holdDegrade
  rw [if_pos hh, hn]

/-- A source valid for the qualification time is refused for an offset beyond 60 s at steps 0 to 5, else qualified. -/
theorem srcQualify_valid {s : State} {k t : Nat} (ht : (s.src k).since = some t) (hq : (s.src k).qual = false) :
    let u := s.advance (t + s.fld Reg.TIM_SRCCFG 16 6 * secU)
    s.srcQualify k = if 60 * secU < (s.src k).meas.natAbs ∧ u.qStep ≤ 5 then (u.setSrc k { s.src k with since := none, qual := false }).raise 772
      else (u.setSrc k { s.src k with qual := true }).reselect := by
  unfold srcQualify
  rw [ht, hq]
  rfl

theorem timeStep_due {s : State} {t : Nat} {x : Int} (h : s.tim.stepDue = some (t, x)) : s.timeStep = (s.advance t).applyStep x := by
  unfold timeStep
  rw [h]

theorem timeStep_none {s : State} (h : s.tim.stepDue = none) : s.timeStep = s := by
  unfold timeStep
  rw [h]

/-! ### Reference inputs (R358, R362, R363) -/

theorem inputLost_notPps {s : State} {b : Nat} (hb : b = 3 ∨ b = 2) : let u := s.setBit Reg.TIM_INSTAT b false
    let v := if s.inValid b && u.inUsed b then u.raise 775 else u
    s.inputLost b = if b = 2 then ((({ v with tim := { v.tim with irig := none } } : State).srcInvalid 3)).srcInvalid 2 else v := by
  unfold inputLost
  rcases hb with rfl | rfl
  · have hno : ¬(3 = 2) := by decide
    exact (if_neg fun h => h.elim (fun h => absurd h.1 (by decide)) hno).trans (if_neg hno).symm
  · exact (if_pos (.inr rfl)).trans ((congrArg (srcInvalid · 2) (if_pos rfl)).trans (if_pos rfl).symm)

/-- An edge of a PPS input noted, at the present. -/
def ppsNoted (s : State) (inp : Nat) : State := { s with tim := { s.tim with edges := s.tim.edges.insert inp s.now } }

/-- The sample of a valid edge: the nearest second that the last IRIG-B frame counts. -/
def ppsSampled (s : State) : State :=
  match s.tim.irig with
  | some (m, sec) => s.srcSample 2 ((s.now : Int) - ((sec + (s.now - m + secU / 2) / secU) * secU : Nat))
  | none => s

theorem ppsSampled_timed {s : State} {m sec : Nat} (h : s.tim.irig = some (m, sec)) :
    s.ppsSampled = s.srcSample 2 ((s.now : Int) - ((sec + (s.now - m + secU / 2) / secU) * secU : Nat)) := by
  unfold ppsSampled
  rw [h]

theorem ppsSampled_untimed {s : State} (h : s.tim.irig = none) : s.ppsSampled = s := by
  unfold ppsSampled
  rw [h]

section
variable {s : State} {inp t : Nat}

theorem ppsEdge_first (he : (s.advance t).tim.edges.find? inp = none) : let v := (s.advance t).ppsNoted inp
    s.ppsEdge inp t = if v.inValid inp then v.inputLost inp else v := by
  unfold ppsEdge
  simp only [he]
  rfl

variable {e : Nat} (he : (s.advance t).tim.edges.find? inp = some e) (hlo : secU ≤ (s.advance t).now - e + us 100)
  (hhi : (s.advance t).now - e ≤ secU + us 100)
include he hlo hhi

/-- A second after the one before, an edge validates its input. -/
theorem ppsEdge_inTime : let w := ((s.advance t).ppsNoted inp).setBit Reg.TIM_INSTAT inp true
    s.ppsEdge inp t = if (inp = 1 ∧ w.inValid 0) ∨ w.isStandby then w else w.ppsSampled := by
  unfold ppsEdge
  simp only [he, hlo, hhi, decide_true, Bool.and_self, Bool.not_true, Bool.false_eq_true, if_false]
  rfl

end

theorem irigFrame_bad (s : State) (t year doy hour min_ sec x : Nat) (hasYear am : Bool) : let u := s.advance t
    s.irigFrame t false hasYear year doy hour min_ sec x am =
      ({ u with tim := { u.tim with irigBad := u.mono + 2 * secU } } : State).inputLost 2 := rfl

/-- Without a valid UTC offset a good frame validates its input and is no sample. -/
theorem irigFrame_noOffset {s : State} {t x : Nat} {am : Bool} (hb : (s.advance t).tim.irigBad ≤ (s.advance t).mono)
    (year doy hour min_ sec : Nat) (hasYear : Bool) :
    let v := (((s.advance t).setBit Reg.TIM_INSTAT 2 true).setFld Reg.TIM_INSTAT 4 3 x).setBit Reg.TIM_INSTAT 7 am
    v.fld Reg.TIM_UTCOFF 16 1 = 0 → s.irigFrame t true hasYear year doy hour min_ sec x am = v := by
  intro v hv
  unfold irigFrame
  dsimp only
  rw [if_neg (by decide), if_neg (Nat.not_lt.2 hb)]
  exact if_pos hv

/-! ### Compare units and outputs (R370, R371, R374) -/

/-- An armed unit fires at the instant its target stands for, and reloads from its target or disarms. (The target's instant is rewritten with nothing
unfolded: the kernel must not compute with it.) -/
theorem compareFire_armed {s : State} {u t : Nat} {late : Bool} (h : s.cuArmed u = true)
    (ht : s.targetInstant (s.rd64 (Reg.TIM_CUTGT u)) = (t, late)) : s.compareFire u = (s.advance t).cuFire u t false
      (if (s.advance t).cuReload u = 0 then none else some ((s.rd64 (Reg.TIM_CUTGT u) + (s.advance t).cuReload u * 1000) % 2 ^ 64)) := by
  unfold compareFire
  rewrite [h, if_neg (by decide)]
  extract_lets tgt
  change s.targetInstant tgt = _ at ht
  rewrite [ht]
  rfl

theorem compareFire_idle {s : State} {u : Nat} (h : s.cuArmed u = false) : s.compareFire u = s := by
  unfold compareFire
  rw [h]
  rfl

theorem cuArmed_setArm (s : State) (u : Nat) (arm : Bool) : (s.setArm u arm).cuArmed u = arm := by
  have hne : Reg.TIM_CUCTL u ≠ Reg.TIM_CUSTAT u := by
    simp only [Reg.TIM_CUCTL, Reg.TIM_CUSTAT]
    omega
  rw [cuArmed, fld_one_beq, setArm, setBit, setFld, rd_wr_other _ _ hne, testBit_rd_setBit_same _ _ _ (by decide)]

/-- A write of TIM_CUCTL that is performed arms or disarms. -/
theorem busSet_cuctl {s : State} {r : Req} {u : Nat} (hw : s.writes r (Reg.TIM_CUCTL u) (Reg.TIM_CUCTL 0) u) (arm : Bool) :
    s.busSet r (Reg.TIM_CUCTL u) (b2n arm) = s.setArm u arm := by
  obtain ⟨hit, hb, rfl, hset⟩ := busSet_writes hw
  have hsys (v : Nat) : s.sysWriteHook (s.reqOwner r == 0) hit v = none := by
    unfold sysWriteHook
    rw [hb]
    rfl
  have hio (v : Nat) : s.ioWriteHook (s.reqOwner r == 0) hit v = some (s.setArm hit.i (bit v 0)) := by
    unfold ioWriteHook
    rw [hb]
    rfl
  rw [hset, hsys, hio]
  cases arm <;> rfl

theorem ppsOutput_off {s : State} (h : s.tim.outOn = false) : s.ppsOutput = s := by
  unfold ppsOutput
  rw [h]
  rfl

/-- JUMPSTOP in Stop takes an offset beyond 1 ms at once, for a second without a pulse. -/
theorem ppsOutput_jumps {s : State} (h : s.tim.outOn = true) :
    let v := s.advance (((nextSec ((s.now : Int) + s.tim.outOff).toNat : Nat) : Int) - s.tim.outOff).toNat
    v.fld Reg.TIM_CFG 31 1 = 1 → v.ms.mode = .stop → msec 1 < v.tim.outOff.natAbs →
    s.ppsOutput = ({ v with tim := { v.tim with outOff := 0 } } : State).wr Reg.TIM_OUTOFF 0 := by
  intro v hj hm ho
  unfold ppsOutput
  rw [h]
  exact if_pos (And.intro hj (And.intro hm ho))

/-! ### The calendar (R378 to R380) and leap seconds (R355) -/

/-- AUTO's write at the next second takes station time and its UTC offset over. -/
theorem calAutoWrite_auto {s : State} (ha : s.calAuto = true) (hq : s.qStep ≤ 4) :
    let u := (s.advance (nextSec s.now)).wr Reg.TIM_CALOFF ((s.advance (nextSec s.now)).fld Reg.TIM_UTCOFF 0 16)
    let secs : Int := (u.now / secU : Nat)
    s.calAutoWrite = (u.setCal ((if u.calMode then secs - u.calOff else secs).toNat * 32768)).setBit Reg.TIM_CALSTAT 0 false := by
  have ha' : (s.advance (nextSec s.now)).calAuto = true := ha
  have hq' : (s.advance (nextSec s.now)).qStep ≤ 4 := hq
  unfold calAutoWrite
  dsimp only
  rw [if_pos (by rw [ha', decide_eq_true hq']; rfl)]

/-- A write of TIM_CALCTL that is performed acts by its value. -/
theorem busSet_calctl {s : State} {r : Req} (hw : s.writes r Reg.TIM_CALCTL Reg.TIM_CALCTL 0) {v : Nat} (hv : v < 2 ^ 32) :
    s.busSet r Reg.TIM_CALCTL v = s.calCtlWrite v := by
  obtain ⟨hit, hb, -, hset⟩ := busSet_writes hw
  have hsys : s.sysWriteHook (s.reqOwner r == 0) hit v = none := by
    unfold sysWriteHook
    rw [hb]
    rfl
  have hio : s.ioWriteHook (s.reqOwner r == 0) hit v = some (s.calCtlWrite v) := by
    unfold ioWriteHook
    rw [hb]
    rfl
  rw [hset, Nat.mod_eq_of_lt hv, hsys, hio]

/-- MODE, AUTO and HOLD as bits of one word. -/
theorem calCtl_word : ∀ m a h : Bool, let v := b2n m + b2n a * 2 + b2n h * 4
    v < 8 ∧ v.testBit 0 = m ∧ v.testBit 1 = a ∧ v.testBit 2 = h := by decide

/-- One field of TIM_CALCTL changed, the others as they stand, is a word of 32 bits. -/
theorem putBits_calCtl_lt (s : State) {i : Nat} (b : Bool) (hi : i < 3) : putBits s.calCtl i 1 (b2n b) < 2 ^ 32 := by
  have hc : s.calCtl < 8 := (calCtl_word s.calMode s.calAuto s.calHold).1
  refine Nat.lt_pow_two_of_testBit _ fun j hj => ?_
  rw [testBit_putBits, if_neg (by omega)]
  exact Nat.testBit_lt_two_pow (hc.trans_le (Nat.pow_le_pow_right (n := 2) (by decide) (show 3 ≤ j by omega)))

theorem testBit_putBits_calCtl (s : State) (i j : Nat) (b : Bool) :
    (putBits s.calCtl i 1 (b2n b)).testBit j = if j = i then b else s.calCtl.testBit j := by
  rw [testBit_putBits]
  by_cases h : j = i
  · rw [if_pos (by omega), if_pos h, testBit_b2n, h, Nat.sub_self]
    rfl
  · rw [if_neg (by omega), if_neg h]

/-- TIM_CALCTL holds what was written to it. -/
theorem testBit_calCtlWrite (s : State) (v : Nat) {j : Nat} (hj : j < 3) : ((s.calCtlWrite v).rd Reg.TIM_CALCTL).testBit j = v.testBit j := by
  have hset : ((s.calCtlWrite v).rd Reg.TIM_CALCTL).testBit j = (bits v 0 3).testBit j :=
    (testBit_rd_setFld s _ 0 3 (bits v 0 3) (by omega)).trans (if_pos (by omega))
  rw [hset, bits, Nat.shiftRight_zero, Nat.testBit_mod_two_pow, decide_eq_true hj, Bool.true_and]

/-- After one field of TIM_CALCTL is written, it alone has changed. -/
theorem calCtlWrite_field (s : State) (i : Nat) (b : Bool) : let t := s.calCtlWrite (putBits s.calCtl i 1 (b2n b))
    t.calMode = (if 0 = i then b else s.calMode) ∧ t.calAuto = (if 1 = i then b else s.calAuto) ∧ t.calHold = (if 2 = i then b else s.calHold) := by
  obtain ⟨-, hm, ha, hh⟩ := calCtl_word s.calMode s.calAuto s.calHold
  have hfield {j : Nat} {old : Bool} (h : s.calCtl.testBit j = old) (hj : j < 3) :
      ((s.calCtlWrite (putBits s.calCtl i 1 (b2n b))).fld Reg.TIM_CALCTL j 1 == 1) = if j = i then b else old := by
    rw [fld_one_beq, testBit_calCtlWrite s _ hj, testBit_putBits_calCtl, h]
  exact ⟨hfield hm (by decide), hfield ha (by decide), hfield hh (by decide)⟩

theorem osf_oscStopped (s : State) : s.oscStopped.fld Reg.TIM_CALSTAT 0 1 = 1 := by
  have h : (s.oscStopped.fld Reg.TIM_CALSTAT 0 1 == 1) = true :=
    (fld_one_beq _ _ _).trans (testBit_rd_setBit_same _ _ true (by decide))
  exact eq_of_beq h

section
variable {s : State}

theorem leapSecond_none (h : s.fld Reg.TIM_UTCOFF 18 2 = 0) : s.leapSecond = s := by
  unfold leapSecond
  dsimp only
  rw [h]
  exact if_neg (by decide)

/-- A leap second ends the UTC day: at its midnight where one is inserted, a second before where one is left out. -/
theorem leapSecond_due (h : s.fld Reg.TIM_UTCOFF 18 2 = 1 ∨ s.fld Reg.TIM_UTCOFF 18 2 = 2) : let off : Int := signed 16 (s.rd Reg.TIM_UTCOFF)
    let utc := ((s.now / secU : Nat) - off : Int).toNat
    let midnight := (((utc / 86400 + 1) * 86400 : Nat) + off : Int).toNat
    s.leapSecond = ((s.advance ((if s.fld Reg.TIM_UTCOFF 18 2 = 1 then midnight else midnight - 1) * secU)).setFld Reg.TIM_UTCOFF 0 16
      (unsigned 16 (if s.fld Reg.TIM_UTCOFF 18 2 = 1 then off + 1 else off - 1))).setFld Reg.TIM_UTCOFF 18 2 0 := if_pos h

end

/-! ### The pace of station time (R367) -/

/-- What a slew takes or gives while an OCXO time passes, until its offset is gone. -/
def slewGone (s : State) (e : Nat) : Nat := min s.slewLeft (e * s.slewRate / 1000000)

theorem slewLeft_slewing {s : State} {t0 : Nat} {x : Int} (h : s.tim.slew = some (t0, x)) :
    s.slewLeft = x.natAbs - (s.mono - t0) * s.slewRate / 1000000 := by
  unfold slewLeft
  rw [h]

theorem stationIn_steady {s : State} (h : s.tim.slew = none) (e : Nat) : s.stationIn e = e * s.basePace / 1000000000 := by
  unfold stationIn
  rw [h]

theorem stationIn_slewing {s : State} {t0 : Nat} {x : Int} (h : s.tim.slew = some (t0, x)) (e : Nat) : s.stationIn e =
    if 0 < x then e * s.basePace / 1000000000 - s.slewGone e else e * s.basePace / 1000000000 + s.slewGone e := by
  unfold stationIn
  rw [h]
  rfl

theorem stationIn_zero (s : State) : s.stationIn 0 = 0 := by
  have hgone : s.slewGone 0 = 0 := by simp [slewGone]
  cases h : s.tim.slew with
  | none => simp [stationIn_steady h]
  | some p => simp [stationIn_slewing h, hgone]

/-- A slew's rate stays below the pace that f leaves: at most 1023 of 10^6 against at least 999 of 1000. -/
theorem slewRate_le_basePace (s : State) : s.slewRate * 1000 ≤ s.basePace := by
  have hr : s.slewRate < 2 ^ 10 := Nat.mod_lt _ (by decide)
  have hf : -1000000 ≤ s.rateAdj := le_max_left _ _
  unfold basePace
  omega

/-- So a slew never takes more than station time gains. -/
theorem slewGone_le (s : State) (e : Nat) : s.slewGone e ≤ e * s.basePace / 1000000000 := by
  refine (min_le_right _ _).trans ((Nat.le_div_iff_mul_le (by decide)).2 ?_)
  calc e * s.slewRate / 1000000 * 1000000000 = e * s.slewRate / 1000000 * 1000000 * 1000 := by rw [Nat.mul_assoc]
    _ ≤ e * s.slewRate * 1000 := Nat.mul_le_mul_right _ (Nat.div_mul_le_self _ _)
    _ = e * (s.slewRate * 1000) := Nat.mul_assoc _ _ _
    _ ≤ e * s.basePace := Nat.mul_le_mul_left _ s.slewRate_le_basePace

/-- OCXO time passes to the instant given. -/
theorem mono_advanceMono {s : State} {t : Nat} (ht : s.mono ≤ t) : (s.advanceMono t).mono = t := by
  have hnow : (s.advanceMono t).now = s.now + s.stationIn (t - s.mono) := rfl
  by_cases h : t ≤ s.mono
  · have hskew : (s.advanceMono t).skew = s.skew := if_pos h
    rw [mono, hnow, hskew, Nat.sub_eq_zero_of_le h, stationIn_zero]
    exact le_antisymm ht h
  · have hskew : (s.advanceMono t).skew = ((s.now + s.stationIn (t - s.mono) : Nat) : Int) - t := if_neg h
    rw [mono, hnow, hskew]
    omega

end State
end Sys2Proof.Machine

open Sys2Proof Sys2Proof.Machine Sys2Proof.Machine.State

/-- Settles O55, a clause per command: the command is its effect, and the effect where it acts is the lemma of its name above. -/
theorem stationTimeIsKept : Obligations.StationTimeIsKept := by
  unfold Obligations.StationTimeIsKept
  refine ⟨?sync, ?announce, ?pdelayReq, ?pdelayResp, fun s => rfl, ?syncSend, ?timeout, ?holdover, ?qualified,
    fun s t x h => congrArg (done s) (timeStep_due h), fun s h => congrArg (done s) (timeStep_none h), ?pps, ?irig, ?fire, ?arm,
    fun s h => congrArg (done s) (ppsOutput_off h), ?jump, ?auto, ?hold, ?mode, fun s => ⟨rfl, osf_oscStopped s⟩,
    fun s b hb => congrArg (done s) (inputLost_notPps hb), fun s => rfl, fun s => rfl, ?leap, ?pace⟩
  case sync =>
    intro s i dom kind src seq o c rx hp
    refine ⟨fun hd => congrArg (done s) (ptpSync_otherDomain hp hd kind src seq o c rx), fun hd => ?_⟩
    intro u
    refine ⟨fun h => congrArg (done s) (ptpSync_unfollowed hp hd h kind src seq o c), fun a h9 ha hs hact => ?_⟩
    intro key
    have htaken : s.ptpSync i dom kind src seq o c rx = u.ptpTaken i kind seq o c rx :=
      ptpSync_followed hp hd (fromMaster_slave h9 ha hs) hact kind seq o c
    refine ⟨?_, ?_, ?_⟩
    · rintro rfl
      exact congrArg (done s) htaken
    · rintro rfl
      exact congrArg (done s) htaken
    · rintro r rfl hr
      exact congrArg (done s) (htaken.trans (ptpTaken_followUp hr o c rx))
  case announce =>
    intro s i dom a off ok leap hp hd u
    refine ⟨fun ha => congrArg (done s) (ptpAnnounce_unusable hp hd ha off ok leap), fun hg hs hn => ?_⟩
    exact fun h9 => congrArg (done s) (ptpAnnounce_first hp hd hg hs hn h9 off ok leap)
  case pdelayReq => exact fun s i dom seq hp hd => congrArg (done s) (pdelayReq_ownDomain hp hd seq)
  case pdelayResp => exact fun s i dom t1 t2 t3 t4 hp hd => congrArg (done s) (pdelayResp_ownDomain hp hd t1 t2 t3 t4)
  case syncSend =>
    intro s i kind hp hact
    exact ⟨fun h => congrArg (done s) ((syncSend_active hp hact kind).trans (if_pos h)),
      fun h => congrArg (done s) ((syncSend_active hp hact kind).trans (if_neg h))⟩
  case timeout =>
    intro s i hp ha u
    exact ⟨fun h => congrArg (done s) ((ptpTimeout_heard hp ha).trans (if_pos h)),
      fun h => congrArg (done s) ((ptpTimeout_heard hp ha).trans (if_neg h))⟩
  case holdover => exact fun s h hh hn => congrArg (done s) (holdDegrade_next hh hn)
  case qualified =>
    intro s k t ht hq u
    exact ⟨fun hfar hstep => congrArg (done s) ((srcQualify_valid ht hq).trans (if_pos ⟨hfar, hstep⟩)),
      fun h => congrArg (done s) ((srcQualify_valid ht hq).trans (if_neg fun hfar => h.elim (Nat.not_le.2 hfar.1)
        fun h6 => absurd (h6.trans hfar.2) (by decide)))⟩
  case pps =>
    intro s inp t u v
    refine ⟨fun he => congrArg (done s) (ppsEdge_first he), fun e he hlo hhi => ?_⟩
    intro w
    have hedge : s.ppsEdge inp t = if (inp = 1 ∧ w.inValid 0 = true) ∨ w.isStandby = true then w else w.ppsSampled := ppsEdge_inTime he hlo hhi
    refine ⟨fun hi => congrArg (done s) (hedge.trans ?_), fun m sec hi hfirst hact => congrArg (done s) (hedge.trans ?_)⟩
    · rw [ppsSampled_untimed hi, ite_self]
    · exact (if_neg (by simp [hact, hfirst])).trans (ppsSampled_timed hi)
  case irig =>
    intro s t year doy hour min_ sec x hasYear am u
    exact ⟨congrArg (done s) (irigFrame_bad s t year doy hour min_ sec x hasYear am),
      fun hb hv => congrArg (done s) (irigFrame_noOffset hb year doy hour min_ sec hasYear hv)⟩
  case fire => exact fun s u => ⟨fun h => congrArg (done s) (compareFire_idle h), fun h => congrArg (done s) (compareFire_armed h Prod.mk.eta.symm)⟩
  case arm => exact fun s r u arm hw => ⟨congrArg (done s) (busSet_cuctl hw arm), cuArmed_setArm s u arm⟩
  case jump => exact fun s h hj hm ho => congrArg (done s) (ppsOutput_jumps h hj hm ho)
  case auto => exact fun s ha hq => congrArg (done s) (calAutoWrite_auto ha hq)
  case hold =>
    intro s r hold hw v
    obtain ⟨hm, ha, hh⟩ := calCtlWrite_field s 2 hold
    exact ⟨congrArg (done s) (busSet_calctl hw (putBits_calCtl_lt s hold (by decide))), hh, hm, ha⟩
  case mode =>
    intro s r hw v
    obtain ⟨hm, ha, hh⟩ := calCtlWrite_field s 0 (!s.calMode)
    exact ⟨congrArg (done s) (busSet_calctl hw (putBits_calCtl_lt s _ (by decide))), hm, hh, ha⟩
  case leap =>
    intro s off utc midnight
    refine ⟨fun h => congrArg (done s) ((leapSecond_due (.inl h)).trans ?_), fun h => congrArg (done s) ((leapSecond_due (.inr h)).trans ?_),
      fun h => congrArg (done s) (leapSecond_none h)⟩
    · rw [if_pos h, if_pos h]
    · rw [h]
      rfl
  case pace =>
    intro s t ht u f base gone
    have hnow : u.now = s.now + s.stationIn (t - s.mono) := rfl
    refine ⟨mono_advanceMono ht, fun h => hnow.trans (congrArg (s.now + ·) (stationIn_steady h _)), fun t0 x h => ⟨slewLeft_slewing h, ?_⟩⟩
    have hle : gone ≤ base := slewGone_le s (t - s.mono)
    rw [hnow, stationIn_slewing h]
    refine ⟨fun hx => ?_, fun hx => ?_⟩
    · rw [if_pos hx]
      exact (Nat.add_assoc _ _ _).trans (congrArg (s.now + ·) (Nat.sub_add_cancel hle))
    · rw [if_neg (not_lt.2 hx)]
      exact (Nat.add_assoc _ _ _).symm

end

section
/-! SUPPORT. The CAN controllers: a frame received, a frame sent, an error and bus-off (log entry 86), rejoining, what is staged and starts at once (log
entry 17), writes of CAN_CTL (log entry 87), captures and disabling where they act; and O56, which says so. -/
namespace Sys2Proof.Machine

/-! ### The register map -/

/-- A multiple of one stride below another splits off its index, in range. -/
theorem splitStride_mul_add {stride count i r : Nat} (hr : r < stride) (hi : i < count) :
    splitStride (i * stride + r) stride count = some (i, r) := by
  have hdiv : (i * stride + r) / stride = i := by
    rw [Nat.add_comm, Nat.add_mul_div_right _ _ (Nat.zero_lt_of_lt hr), Nat.div_eq_of_lt hr, Nat.zero_add]
  have hmod : (i * stride + r) % stride = r := by rw [Nat.mul_add_mod', Nat.mod_eq_of_lt hr]
  unfold splitStride
  rw [if_neg (Nat.ne_zero_of_lt hr), hdiv, hmod, if_pos hi]

/-- A family of two strides sits at the addresses of its members. -/
theorem matchStrides_two {base s1 n1 s2 n2 i j : Nat} (hi : i < n1) (hj : j < n2) (h1 : j * s2 < s1) (h2 : 0 < s2) :
    matchStrides base s1 n1 s2 n2 0 1 (base + i * s1 + j * s2) = some (i, j, 0) := by
  have hsub : base + i * s1 + j * s2 - base = i * s1 + j * s2 := by omega
  have hsplit : splitStride (j * s2) s2 n2 = some (j, 0) := splitStride_mul_add (r := 0) h2 hj
  unfold matchStrides
  rw [if_neg (by omega), hsub, splitStride_mul_add h1 hi]
  simp only [hsplit]
  rfl

theorem tableCAN_objTxreq : ∀ d ∈ Reg.tableCAN, d.base = Reg.OBJTXREQ 0 0 →
    d = { base := 0x401020, s1 := 0x8000, n1 := 32, s2 := 0x80, n2 := 128, wo := 0x1, scope := .can } := by decide

theorem regHit?_desc {d : RegDesc} {a : Nat} {h : RegHit} (hh : regHit? d a = some h) : h.desc = d := by
  unfold regHit? at hh
  split at hh
  · cases hh; rfl
  · split at hh
    · cases hh
    · split at hh <;> cases hh
      rfl

theorem regTable_objTxreq {k j : Nat} (hk : k < 32) (hj : j < 128) : regTable (Reg.OBJTXREQ k j) = Reg.tableCAN := by
  have hlo : 0x400000 ≤ Reg.OBJTXREQ k j := by simp only [Reg.OBJTXREQ]; omega
  have hhi : Reg.OBJTXREQ k j < 0x1000000 := by simp only [Reg.OBJTXREQ]; omega
  have hblock (b : Nat) (hb : b ≤ 0x400000) : ¬Reg.OBJTXREQ k j < b := Nat.not_lt.2 (hb.trans hlo)
  unfold regTable
  simp only [hblock, hhi, Nat.reduceLeDiff, if_true, if_false]

/-- What is found at an object's OBJTXREQ, where it is an OBJTXREQ, is that object's. -/
theorem findReg_objTxreq {k j : Nat} {h : RegHit} (hk : k < 32) (hj : j < 128) (hf : findReg (Reg.OBJTXREQ k j) = some h)
    (hb : h.desc.base = Reg.OBJTXREQ 0 0) : h.j = j := by
  rw [findReg, regTable_objTxreq hk hj] at hf
  obtain ⟨d, hd, hhit⟩ := List.exists_of_findSome?_eq_some hf
  have hdesc := regHit?_desc hhit
  rw [tableCAN_objTxreq d hd (hdesc ▸ hb), regHit?] at hhit
  dsimp only at hhit
  rw [matchStrides_two hk hj (by omega) (by decide)] at hhit
  cases hhit
  rfl

namespace State

theorem busFind_of_busCheck {s : State} {r : Req} {a : Nat} {w : Bool} {h : RegHit} (hc : s.busCheck r a w = .ok h) : busFind a = some h := by
  unfold busCheck at hc
  dsimp only at hc
  cases hf : busFind a with
  | none =>
    rw [hf] at hc
    split_ifs at hc
  | some g =>
    rw [hf] at hc
    dsimp only at hc
    split_ifs at hc
    cases hc
    rfl

theorem findReg_of_busFind {a : Nat} {h : RegHit} (hb : busFind a = some h) : findReg a = some h := by
  unfold busFind at hb
  split at hb
  · rename_i heq
    split_ifs at hb
    exact heq.trans hb
  · cases hb

/-- A write that is performed acts on the register found at its address. -/
theorem busSet_found {s : State} {r : Req} {a base i : Nat} (h : s.writes r a base i) :
    ∃ hit : RegHit, findReg a = some hit ∧ hit.desc.base = base ∧ hit.i = i ∧ hit.desc.pair = .one ∧ hit.shadow = false ∧
      s.itemDefined a hit = true ∧ ∀ v, s.busSet r a v = s.writeNow r a hit (v % 2 ^ 32) := by
  obtain ⟨hl, hit, hc, hb, hi, hs, hp, hd, hw⟩ := h
  refine ⟨hit, findReg_of_busFind (busFind_of_busCheck hc), hb, hi, hp, hs, hd, fun v => ?_⟩
  have hawake : s.busWake a hit = s := if_neg (by simpa using hw)
  rw [busSet, if_pos hl, busWrite, hc]
  exact congrArg (fun t => writeNow t r a hit (v % 2 ^ 32)) hawake

/-- A write of 1 to OBJTXREQ that is performed requests its object's transmission. -/
theorem busSet_objTxreq {s : State} {r : Req} {k j : Nat} (hw : s.writes r (Reg.OBJTXREQ k j) (Reg.OBJTXREQ 0 0) k) (hk : k < 32) (hj : j < 128) :
    s.busSet r (Reg.OBJTXREQ k j) 1 = s.canTxReq k j := by
  obtain ⟨hit, hf, hb, rfl, hp, hs, hd, hset⟩ := busSet_found hw
  have hsys : s.sysWriteHook (s.reqOwner r == 0) hit 1 = none := by
    unfold sysWriteHook
    rw [hb]
    rfl
  have hio : s.ioWriteHook (s.reqOwner r == 0) hit 1 = some (s.canTxReq hit.i hit.j) := by
    unfold ioWriteHook
    rw [hb]
    rfl
  obtain rfl := findReg_objTxreq hk hj hf hb
  rw [hset, writeNow, hs, hd, hp]
  simp only [Bool.not_true, Bool.or_false, Bool.false_eq_true, if_false, Nat.reduceMod, Nat.reducePow, hsys, hio]

/-! ### Frames received (R387 to R389) -/

/-- A frame stored into object `j` is, as the object says, acted on at high priority, installed and put on the ring. -/
def canStored (v : State) (k j : Nat) (f : CanFrame) (stamp : Nat) (lost : Bool) : State :=
  let c := v.objCfg k j
  let w := if bit c 5 then v.canHp k j f stamp else v
  let x := if bit c 6 then w.canInstall k j f stamp else w
  if bit c 7 && !x.isStandby then x.canRing k j f stamp lost else x

/-- A matched frame is counted, stored and acted on. -/
def canDeliver (s : State) (k j : Nat) (f : CanFrame) : State :=
  let stamp := s.sofStamp k f.sof
  let r := (s.bump64 (Reg.CAN_RXCNT k) 1).canStore k (Reg.OBJCFG k j) f stamp
  r.2.canStored k j f stamp r.1

theorem canDeliver_stored {s v : State} {k j : Nat} {f : CanFrame} {lost : Bool}
    (h : (s.bump64 (Reg.CAN_RXCNT k) 1).canStore k (Reg.OBJCFG k j) f (s.sofStamp k f.sof) = (lost, v)) :
    s.canDeliver k j f = v.canStored k j f (s.sofStamp k f.sof) lost := by
  unfold canDeliver
  dsimp only
  rw [h]

/-- What a valid frame brings: a count, or its delivery to the lowest object that matches. -/
def canTaken (s : State) (k : Nat) (f : CanFrame) : State :=
  if f.rtr then s.bump (Reg.CAN_REMOTE k) 1 else
  match (s.canObjs k).find? (fun j => s.canMatch k j f) with
  | none => s.bump (Reg.CAN_RXNOMATCH k) 1
  | some j => s.canDeliver k j f

theorem canTaken_remote {f : CanFrame} (hf : f.rtr = true) (s : State) (k : Nat) : s.canTaken k f = s.bump (Reg.CAN_REMOTE k) 1 := if_pos hf

section
variable {s : State} {k : Nat} {f : CanFrame}

theorem canTaken_unmatched (hf : f.rtr = false) (hm : (s.canObjs k).find? (fun j => s.canMatch k j f) = none) :
    s.canTaken k f = s.bump (Reg.CAN_RXNOMATCH k) 1 := by
  unfold canTaken
  simp only [hf, hm, Bool.false_eq_true, if_false]

theorem canTaken_matched {j : Nat} (hf : f.rtr = false) (hm : (s.canObjs k).find? (fun j => s.canMatch k j f) = some j) :
    s.canTaken k f = s.canDeliver k j f := by
  unfold canTaken
  simp only [hf, hm, Bool.false_eq_true, if_false]

theorem canReceive_unheard (h : s.canOwner k = none ∨ s.canEnabled k = false) (arb : Bool) : s.canReceive k f arb = s := by
  unfold canReceive
  split
  · rfl
  · rename_i n hn
    have he : s.canEnabled k = false := h.resolve_left (by rw [hn]; exact Option.some_ne_none n)
    rw [he]
    rfl

/-- With no frame of its own on the bus an enabled controller counts a success and takes the frame. -/
theorem canReceive_heard (ho : (s.canOwner k).isSome = true) (he : s.canEnabled k = true) (hb : (s.canCtl k).bus = none) (arb : Bool) :
    s.canReceive k f arb = (((s.canRecOk k).canErrState k).canTaken k f).canAfter k := by
  obtain ⟨n, hn⟩ := Option.isSome_iff_exists.1 ho
  unfold canReceive
  rw [hn, he, hb]
  rfl

/-! ### Frames sent (R390) -/

theorem canSent_idle (hb : (s.canCtl k).bus = none) (sof tdcv : Nat) : s.canSent k sof tdcv = s := by
  unfold canSent
  rw [hb]

/-- OBJSTAT after a frame sent: its DLC, its format and TXOK. -/
def sentStat (old c dlc : Nat) : Nat := putBits (putBits (putBits (putBits old 8 4 dlc) 13 1 (bits c 3 1)) 14 1 (bits c 4 1)) 18 1 1

/-- The frame on the bus goes out, is counted, and is stamped at its object. -/
def canCompleted (s : State) (k j sof dlc : Nat) (data : List Byte) : State :=
  let u := ((s.emit (.can k j data)).bump64 (Reg.CAN_TXCNT k) 1).bump (Reg.OBJCNT k j) 1
  ((u.wr (Reg.OBJSTAT k j) (sentStat (u.rd (Reg.OBJSTAT k j)) (s.objCfg k j) dlc)).wr (Reg.OBJSOF k j) sof).wr64 (Reg.OBJTIME k j) (u.sofStamp k sof)

/-- Without a loop delay to measure the frame on the bus completes. -/
theorem canSent_completes {j dlc : Nat} {data : List Byte} (hb : (s.canCtl k).bus = some j) (ht : s.fld (Reg.CAN_CFG k) 3 1 = 0)
    (hc : (s.canTx k j).cur = some (dlc, data)) (sof tdcv : Nat) : let w := s.canCompleted k j sof dlc data
    s.canSent k sof tdcv = (((w.setCanCtl k { w.canCtl k with tec := (w.canCtl k).tec - 1 }).canRelease k j).canErrState k).canAfter k := by
  unfold canSent
  rw [hb]
  simp only [ht, Nat.reduceBEq, Bool.false_and, Bool.false_eq_true, if_false, hc, Option.getD_some]
  rfl

/-! ### Errors, bus-off and rejoining (R393) -/

theorem canError_idle (ho : (s.canOwner k).isSome = true) (he : s.canEnabled k = true) (hb : (s.canCtl k).bus = none) (dTec dRec : Nat) (ours : Bool) :
    let u := s.bump (Reg.CAN_ERRFRM k) 1
    let v := u.setCanCtl k { u.canCtl k with tec := (u.canCtl k).tec + dTec, recv := min 255 ((u.canCtl k).recv + dRec) }
    s.canError k dTec dRec ours = (v.canErrState k).canAfter k := by
  have hown : (s.canOwner k).isNone = false := by rw [← Option.not_isSome, ho]; rfl
  have hbus : ((s.bump (Reg.CAN_ERRFRM k) 1).canCtl k).bus = none := hb
  unfold canError
  rw [hown, he]
  simp only [hbus]
  rfl

theorem canErrState_busOff (hs : s.fld (Reg.CAN_STAT k) 4 2 ≠ 2) (hb : (s.canCtl k).bus = none) (ht : 255 < (s.canCtl k).tec) :
    let u := (s.setFld (Reg.CAN_ERR k) 0 16 (255 + min (s.canCtl k).recv 255 * 256)).setFld (Reg.CAN_STAT k) 4 2 2
    s.canErrState k = (((u.bump (Reg.CAN_BUSOFF k) 1).setBit (Reg.CAN_STAT k) 16 true).raise (896 + k) 0xFFFF k).canIdle k := by
  unfold canErrState
  simp only [hs, hb, ht, if_true, if_false, min_eq_right ht.le, ne_eq, not_false_eq_true, and_self]

theorem canRejoin_on (h : s.canOff k = false) : s.canRejoin k = s := by
  unfold canRejoin
  rw [h]
  rfl

theorem canRejoin_off (h : s.canOff k = true) (hr : s.fld (Reg.CAN_CFG k) 1 1 = 1 ∨ (s.canCtl k).recovering = true) :
    let u := s.setCanCtl k { s.canCtl k with tec := 0, recv := 0, recovering := false }
    s.canRejoin k = ((u.setFld (Reg.CAN_STAT k) 4 2 0).setFld (Reg.CAN_ERR k) 0 16 0).canIdle k := by
  unfold canRejoin
  exact if_pos (by simpa [h] using hr)

/-! ### Staging (R390) -/

section
variable {j : Nat} (hdef : bit (s.objCfg k j) 0 = true) (htx : bit (s.objCfg k j) 1 = true)
include hdef htx

theorem canTxReq_mode0 (hm : bits (s.objCfg k j) 10 2 = 0) : let dlc := bits (s.objCfg k j) 12 4
    s.canTxReq k j = s.canStage k j dlc (((List.range 16).flatMap (fun w => leBytes 4 (s.rd (Reg.OBJDATA k j w)))).take
      (dlcLen (bit (s.objCfg k j) 3) dlc)) := by
  unfold canTxReq
  exact if_pos (by rw [hdef, htx, hm]; rfl)

theorem canPeriodic_mode2 (hm : bits (s.objCfg k j) 10 2 = 2) (he : s.canEnabled k = true) :
    s.canPeriodic k j = (s.advanceMono ((s.canTx k j).lastAt + msec (bits (s.objCfg k j) 16 16))).canStageRows k j := by
  unfold canPeriodic
  exact if_pos (by rw [hdef, htx, hm, he]; rfl)

end

theorem canXcvr_owned (ho : (s.canOwner k).isSome = true) : s.canXcvr k = (s.setBit (Reg.CAN_STAT k) 20 true).raise (992 + k) 0xFFFF k := if_pos ho

end

/-! ### Captures (R391) -/

theorem rd_capCnt_canCapture (s : State) (k : Nat) : (s.canCapture k).rd (Reg.CAN_CAPCNT k) = s.canCount := by
  have hlt : s.canCount < 2 ^ 32 := Nat.mod_lt _ (by decide)
  rw [canCapture, wr64, rd_wr_other _ _ (by simp only [Reg.CAN_CAPCNT, Reg.CAN_CAPTIME]; omega),
    rd_wr_other _ _ (by simp only [Reg.CAN_CAPCNT, Reg.CAN_CAPTIME]; omega), rd_wr_same, Nat.mod_eq_of_lt hlt]

/-- A 64-bit quantity reads back as written. -/
theorem rd64_wr64_same (s : State) (a : Nat) {v : Nat} (hv : v < 2 ^ 64) : (s.wr64 a v).rd64 a = v := by
  rw [rd64, wr64, rd_wr_other _ _ (by omega), rd_wr_same, rd_wr_same]
  omega

theorem rd64_capTime_canCapture (s : State) (k : Nat) : (s.canCapture k).rd64 (Reg.CAN_CAPTIME k) = form64 s.now :=
  rd64_wr64_same _ _ (Nat.mod_lt _ (by decide))

/-! ### Disabling (R395) -/

/-- A controller that has left the bus is not enabled. -/
theorem canEnabled_canLeave (s : State) (k : Nat) : (s.canLeave k).canEnabled k = false := by
  unfold canLeave
  dsimp only
  rw [canEnabled, fld_one_beq, testBit_rd_setFld _ _ 1 6 0 (by decide), if_pos (by decide), Nat.zero_testBit]

/-- A controller that a disabling leaves on the bus drains. -/
theorem canDraining_canDisable {s : State} {k : Nat} (h : (s.canDisable k).canEnabled k = true) : (s.canDisable k).canDraining k = true := by
  unfold canDisable at h ⊢
  dsimp only at h ⊢
  split_ifs at h ⊢ with hoff hbus
  · rw [h] at hoff
    exact absurd hoff (by decide)
  · rw [canDraining, fld_one_beq, testBit_rd_setBit_same _ _ _ (by decide)]
  · rw [canEnabled_canLeave] at h
    exact absurd h (by decide)

/-! ### Writes of CAN_CTL (Table 16.7) -/

/-- CAN_CTL's EN. -/
def canEn (s : State) (k : Nat) : Bool := s.fld (Reg.CAN_CTL k) 0 1 == 1

theorem canEn_eq (s : State) (k : Nat) : s.canEn k = bit (s.canCtlNow k) 0 := by
  simp only [canEn, canCtlNow, fld, bit, bits, Nat.shiftRight_zero]
  rw [Nat.mod_mod_of_dvd _ (by decide), Nat.pow_one]

/-- At bus idle only the states of the controller and of its objects change among the registers. -/
theorem rd_canIdle (s : State) {k a : Nat} (hs : a ≠ Reg.CAN_STAT k) (ho : ∀ j, a ≠ Reg.OBJSTAT k j) : (s.canIdle k).rd a = s.rd a := by
  have hstat (t : State) (i : Nat) (b : Bool) : (t.setBit (Reg.CAN_STAT k) i b).rd a = t.rd a := rd_wr_other _ _ hs
  have hobj (t : State) (c : CanCtl) (j : Nat) : ((t.setCanCtl k c).setBit (Reg.OBJSTAT k j) 1 true).rd a = t.rd a := rd_wr_other _ _ (ho j)
  unfold canIdle
  dsimp only
  split
  · split_ifs <;> simp only [hobj, hstat]
  · split_ifs <;> simp only [hstat]

theorem canEn_canCapture (s : State) (k : Nat) : (s.canCapture k).canEn k = s.canEn k := by
  rw [canEn, fld, canCapture, wr64, rd_wr_other _ _ (by simp only [Reg.CAN_CTL, Reg.CAN_CAPTIME]; omega),
    rd_wr_other _ _ (by simp only [Reg.CAN_CTL, Reg.CAN_CAPTIME]; omega), rd_wr_other _ _ (by simp only [Reg.CAN_CTL, Reg.CAN_CAPCNT]; omega)]
  rfl

theorem canEn_canMode (s : State) (k m : Nat) : (s.canMode k m).canEn k = s.canEn k := by
  unfold canMode
  split_ifs
  · rw [canEn, fld_one_beq, rd_canIdle _ (by simp only [Reg.CAN_CTL, Reg.CAN_STAT]; omega) (fun j => by simp only [Reg.CAN_CTL, Reg.OBJSTAT]; omega),
      testBit_rd_setFld _ _ 1 2 m (by decide), if_neg (by decide), ← fld_one_beq]
    rfl
  · rfl

theorem canEn_canRecover (s : State) (k : Nat) : (s.canRecover k).canEn k = s.canEn k := by
  unfold canRecover
  split_ifs <;> rfl

/-- EN, MODE, RECOVER and CAPREQ as a word of CAN_CTL. -/
def canWord (en : Bool) (m : Nat) (rec cap : Bool) : Nat := b2n en + m * 2 + b2n rec * 256 + b2n cap * 512

theorem canWord_fields : ∀ m < 2, ∀ en rec cap : Bool, let v := canWord en m rec cap
    v % 2 ^ 32 = v ∧ bit v 0 = en ∧ bits v 1 2 = m ∧ bit v 8 = rec ∧ bit v 9 = cap := by decide

/-- CAN_CTL's fields act in the order CAPREQ, MODE, RECOVER; then EN, where it changes. -/
def canCtlActs (s : State) (k : Nat) (en : Bool) (m : Nat) (rec cap : Bool) : State :=
  let t := (if cap then s.canCapture k else s).canMode k m
  let u := if rec && en then t.canRecover k else t
  if en = s.canEn k then u else if en then u.canEnable k else u.canDisable k

/-- EN is judged as it stood before the write: nothing that acts before it changes it. -/
theorem canCtlWrite_canWord (s : State) (k : Nat) {m : Nat} (hm : m < 2) (en rec cap : Bool) :
    s.canCtlWrite k (canWord en m rec cap) = s.canCtlActs k en m rec cap := by
  obtain ⟨-, hen, hmode, hrec, hcap⟩ := canWord_fields m hm en rec cap
  have hen1 (t : State) (p : Bool) : (if p then t.canRecover k else t).canEn k = t.canEn k := by
    cases p
    · rfl
    · exact canEn_canRecover t k
  have hen2 : (if cap then s.canCapture k else s).canEn k = s.canEn k := by
    cases cap
    · rfl
    · exact canEn_canCapture s k
  unfold canCtlWrite canCtlActs
  dsimp only
  rw [hen, hmode, hrec, hcap]
  generalize hu : (if (rec && en) = true then _ else _ : State) = u
  have hwas : (u.fld (Reg.CAN_CTL k) 0 1 == 1) = s.canEn k := by rw [← canEn, ← hu, hen1, canEn_canMode, hen2]
  rw [hwas]
  cases en <;> cases s.canEn k <;> rfl

/-- A write of CAN_CTL that is performed acts by its fields. -/
theorem busSet_canCtl {s : State} {r : Req} {k : Nat} (hw : s.writes r (Reg.CAN_CTL k) (Reg.CAN_CTL 0) k) {m : Nat} (hm : m < 2)
    (en rec cap : Bool) : s.busSet r (Reg.CAN_CTL k) (canWord en m rec cap) = s.canCtlActs k en m rec cap := by
  obtain ⟨hit, hb, rfl, hset⟩ := busSet_writes hw
  have hsys (v : Nat) : s.sysWriteHook (s.reqOwner r == 0) hit v = none := by
    unfold sysWriteHook
    rw [hb]
    rfl
  have hio (v : Nat) : s.ioWriteHook (s.reqOwner r == 0) hit v = some (s.canCtlWrite hit.i v) := by
    unfold ioWriteHook
    rw [hb]
    rfl
  rw [hset, (canWord_fields m hm en rec cap).1, hsys, hio]
  exact canCtlWrite_canWord s hit.i hm en rec cap

/-- The words that RECOVER, CAPREQ, MODE and EN alone make of EN and MODE as they stand. -/
theorem canWord_of_now : ∀ c < 4, c / 2 < 2 ∧ c + 256 = canWord (bit c 0) (c / 2) true false ∧ c + 512 = canWord (bit c 0) (c / 2) false true ∧
    (∀ m < 2, putBits c 1 2 m = canWord (bit c 0) m false false) ∧ putBits c 0 1 0 = canWord false (c / 2) false false ∧
    putBits c 0 1 1 = canWord true (c / 2) false false := by decide

theorem canEn_on {s : State} {k : Nat} (h : s.canCtlNow k = 1 ∨ s.canCtlNow k = 3) : s.canEn k = true := by
  rw [canEn_eq]
  rcases h with h | h <;> rw [h] <;> rfl

theorem canEn_off {s : State} {k : Nat} (h : s.canCtlNow k = 0 ∨ s.canCtlNow k = 2) : s.canEn k = false := by
  rw [canEn_eq]
  rcases h with h | h <;> rw [h] <;> rfl

section
variable {s : State} {r : Req} {k : Nat} (hw : s.writes r (Reg.CAN_CTL k) (Reg.CAN_CTL 0) k)
include hw

theorem busSet_recover (h : s.canCtlNow k = 1 ∨ s.canCtlNow k = 3) :
    s.busSet r (Reg.CAN_CTL k) (s.canCtlNow k + 256) = (s.canMode k (s.canCtlNow k / 2)).canRecover k := by
  obtain ⟨hm, hword, -⟩ := canWord_of_now (s.canCtlNow k) (by omega)
  rw [hword, busSet_canCtl hw hm, ← canEn_eq, canEn_on h, canCtlActs, canEn_on h]
  rfl

theorem busSet_capreq (h : s.canCtlNow k < 4) :
    s.busSet r (Reg.CAN_CTL k) (s.canCtlNow k + 512) = (s.canCapture k).canMode k (s.canCtlNow k / 2) := by
  obtain ⟨hm, -, hword, -⟩ := canWord_of_now (s.canCtlNow k) h
  rw [hword, busSet_canCtl hw hm, ← canEn_eq]
  exact if_pos rfl

theorem busSet_mode (h : s.canCtlNow k < 4) {m : Nat} (hm : m < 2) :
    s.busSet r (Reg.CAN_CTL k) (putBits (s.canCtlNow k) 1 2 m) = s.canMode k m := by
  obtain ⟨-, -, -, hword, -⟩ := canWord_of_now (s.canCtlNow k) h
  rw [hword m hm, busSet_canCtl hw hm, ← canEn_eq]
  exact if_pos rfl

theorem busSet_disable (h : s.canCtlNow k = 1 ∨ s.canCtlNow k = 3) :
    s.busSet r (Reg.CAN_CTL k) (putBits (s.canCtlNow k) 0 1 0) = (s.canMode k (s.canCtlNow k / 2)).canDisable k := by
  obtain ⟨hm, -, -, -, hword, -⟩ := canWord_of_now (s.canCtlNow k) (by omega)
  rw [hword, busSet_canCtl hw hm, canCtlActs, canEn_on h]
  rfl

theorem busSet_enable (h : s.canCtlNow k = 0 ∨ s.canCtlNow k = 2) :
    s.busSet r (Reg.CAN_CTL k) (putBits (s.canCtlNow k) 0 1 1) = (s.canMode k (s.canCtlNow k / 2)).canEnable k := by
  obtain ⟨hm, -, -, -, -, hword⟩ := canWord_of_now (s.canCtlNow k) (by omega)
  rw [hword, busSet_canCtl hw hm, canCtlActs, canEn_off h]
  rfl

end

end State
end Sys2Proof.Machine

open Sys2Proof Sys2Proof.Machine Sys2Proof.Machine.State

/-- Settles O56, a clause per command: the command is its effect, and the effect where it acts is the lemma of its name above. -/
theorem canSendsReceivesAndRecovers : Obligations.CanSendsReceivesAndRecovers := by
  unfold Obligations.CanSendsReceivesAndRecovers
  refine ⟨fun s k f arb h => congrArg (done s) (canReceive_unheard h arb), ?received,
    fun s k sof tdcv hb => congrArg (done s) (canSent_idle hb sof tdcv), ?sent, ?error, fun s k => canErrState_busOff, ?rejoin,
    fun s r k j hw hk hj => congrArg (done s) (busSet_objTxreq hw hk hj), ?staged, ?control,
    fun s k => ⟨rd_capCnt_canCapture s k, rd64_capTime_canCapture s k⟩, fun s k => canDraining_canDisable, fun s => rfl,
    fun s k ho => congrArg (done s) (canXcvr_owned ho)⟩
  case received =>
    intro s k f arb ho he hb u
    have heard : s.canReceive k f arb = (u.canTaken k f).canAfter k := canReceive_heard ho he hb arb
    refine ⟨fun hf => ?_, fun hf hm => ?_, fun j lost v hf hm => ?_⟩
    · exact congrArg (done s) (heard.trans (congrArg (canAfter · k) (canTaken_remote hf u k)))
    · exact congrArg (done s) (heard.trans (congrArg (canAfter · k) (canTaken_unmatched hf hm)))
    · intro stamp hstored c w x
      exact congrArg (done s) (heard.trans (congrArg (canAfter · k) ((canTaken_matched hf hm).trans (canDeliver_stored hstored))))
  case sent => exact fun s k sof tdcv j dlc data hb ht hc => congrArg (done s) (canSent_completes hb ht hc sof tdcv)
  case error => exact fun s k dTec dRec ours ho he hb => congrArg (done s) (canError_idle ho he hb dTec dRec ours)
  case rejoin => exact fun s k => ⟨fun h => congrArg (done s) (canRejoin_on h), fun h hr => congrArg (done s) (canRejoin_off h hr)⟩
  case staged =>
    exact fun s k j hdef htx => ⟨fun hm => canTxReq_mode0 hdef htx hm, fun hm he => congrArg (done s) (canPeriodic_mode2 hdef htx hm he)⟩
  case control =>
    intro s r k hw
    exact ⟨fun h => congrArg (done s) (busSet_recover hw h), fun h => congrArg (done s) (busSet_capreq hw h),
      fun h m hm => congrArg (done s) (busSet_mode hw h hm), fun h => congrArg (done s) (busSet_disable hw h),
      fun h => congrArg (done s) (busSet_enable hw h)⟩

end

section
/-! SUPPORT. Every command is an effect and what follows from it at once; the integer instructions of R129, with the zero divisors of the divisions; and
O1, O2, O3, O7, O8 and O9, which say so. -/
namespace Sys2Proof.Machine

/-- Every command carries out an effect of its own and then what follows from it: none faults, none is refused. -/
theorem exec_acts (c : Instr) : ∃ f : State → State, ∀ s, exec c s = act f s := by
  cases c <;> exact ⟨_, fun _ => rfl⟩

theorem exec_completes (c : Instr) (s : State) : completes c s := by
  obtain ⟨f, hf⟩ := exec_acts c
  exact ⟨_, hf s⟩

theorem exec_pending {c : Instr} {s t : State} (h : exec c s = .next t) : t.pending = s.pending := by
  obtain ⟨f, hf⟩ := exec_acts c
  exact act_pending ((hf s).symm.trans h)

theorem step_idle {s : State} (h : s.pending = []) : step s = .next s := by
  unfold step
  rw [h]

/-! ### Products (R129) -/

theorem sscalar_emod (r : Row) : sscalar r % 2 ^ 64 = scalar r := by
  have h := scalar_lt r
  unfold sscalar signed
  split <;> omega

/-- The low 64 bits of a product are the same whether the factors are taken signed or unsigned. -/
theorem ofInt_mul (a b : Row) : ofInt (sscalar a * sscalar b) = ofScalar (scalar a * scalar b % 2 ^ 64) := by
  have h : sscalar a * sscalar b % 2 ^ 64 = ((scalar a * scalar b % 2 ^ 64 : Nat) : Int) := by
    rw [Int.mul_emod, sscalar_emod, sscalar_emod]
    norm_cast
  rw [ofInt, ofScalar, unsigned, Nat.mod_mod]
  exact congrArg (fun i : Int => BitVec.ofNat 256 i.toNat) h

theorem mulHigh_lt (a b : Row) : scalar a * scalar b / 2 ^ 64 < 2 ^ 64 :=
  Nat.div_lt_of_lt_mul (Nat.mul_lt_mul'' (scalar_lt a) (scalar_lt b))

/-! ### Shifts and saturation (R129) -/

theorem ofScalar_shl (a b : Row) : Scalar (scalar a * 2 ^ (scalar b % 64) % 2 ^ 64) [ofScalar (scalar a <<< shCount b)] := by
  have h : ofScalar (scalar a <<< shCount b) = ofScalar (scalar a * 2 ^ (scalar b % 64) % 2 ^ 64) := by
    rw [ofScalar, ofScalar, Nat.mod_mod, Nat.shiftLeft_eq, shCount]
  exact h ▸ scalar_ofScalar (Nat.mod_lt _ (Nat.two_pow_pos 64))

theorem ofScalar_shr (a b : Row) : Scalar (scalar a / 2 ^ (scalar b % 64)) [ofScalar (scalar a >>> shCount b)] := by
  rw [Nat.shiftRight_eq_div_pow, shCount]
  exact scalar_ofScalar (Nat.lt_of_le_of_lt (Nat.div_le_self _ _) (scalar_lt a))

theorem satInt_eq (i : Int) : satInt i = max (-2 ^ 63) (min (2 ^ 63 - 1) i) := by
  unfold satInt
  split
  · omega
  · split <;> omega

/-! ### Divisions (R129) -/

section
variable {mk : Issue → Instr} {word : Nat} {f : Row → Row → Row} {a b : Row}

/-- A division with its two entries on the stack passes the checks of stages 2 to 4. -/
theorem div_decodes {s : State} {q : Issue} {rest : List Row} (h : s.runs q.eng = true) (hs : s.stk q.eng = b :: a :: rest)
    (hl : rest.length + 1 ≤ 16) : s.decodeExc q.eng { word := word, nin := 2, nout := 1, base := 36 } = none := by
  have hlen : (s.stk q.eng).length = rest.length + 2 := by rw [hs]; rfl
  exact State.runs_decode rfl (.inl rfl) rfl (show 2 ≤ _ by omega) (show _ - 2 + 1 ≤ 16 by omega) (Nat.zero_le _) (State.runs_rstack h)

/-- A division by another divisor than 0 leaves its result. -/
theorem takes_div {P : List Row → Prop} (hm : ∀ q s, exec (mk q) s = compDiv q word f s) (hb : scalar b ≠ 0) (hP : P [f a b]) :
    Takes mk [b, a] 1 36 P := by
  intro q s rest hr hs hl
  refine ⟨[f a b], hP, rfl, ?_⟩
  rw [hm]
  unfold compDiv
  refine congrArg (done s) (State.runOp_completes (t := s.issued q) (d := { outs := [f a b], base := 36 }) hr (div_decodes hr hs hl) rfl ?_
    (State.runs_lean hr) rfl rfl rfl)
  rw [State.issued_stk, hs]
  exact if_neg hb

/-- A division by 0 takes ARITH. -/
theorem traps_div (hm : ∀ q s, exec (mk q) s = compDiv q word f s) (hb : scalar b = 0) : Traps mk word [b, a] 0x0C := by
  intro q s rest hr hs hl
  obtain ⟨hsk, e⟩ := State.runOp_excepts (u := s.issued q) (t := s.issued q) (code := 0x0C) (kind := 0) (addr := 0)
    (body := fun ins s => if scalar (inp ins 0) = 0 then (.exc 0x0C 0 0, s) else (.ok { outs := [f (inp ins 1) (inp ins 0)], base := 36 }, s))
    hr (div_decodes (word := word) hr hs hl) rfl (by rw [State.issued_stk, hs]; exact if_pos hb)
  refine ⟨hsk, ?_⟩
  rw [hm]
  exact congrArg (done s) e

end

end Sys2Proof.Machine

open Sys2Proof Sys2Proof.Machine Sys2Proof.Machine.State

/-- Settles O1: a step is `exec` of the command at the front. -/
theorem stepRunsFrontCommand : Obligations.StepRunsFrontCommand := by
  unfold Obligations.StepRunsFrontCommand
  exact fun _ _ => rfl

/-- Settles O2: every command is an effect and what follows from it, which put the queue back. -/
theorem commandLeavesQueue : Obligations.CommandLeavesQueue := by
  unfold Obligations.CommandLeavesQueue
  exact fun c s => ⟨exec_completes c s, fun _ h => exec_pending h⟩

/-- Settles O3: nothing follows from a calm state. -/
theorem calmEffectStands : Obligations.CalmEffectStands := by
  unfold Obligations.CalmEffectStands
  exact ⟨fun _ _ h => done_calm h, fun _ h => step_idle h⟩

/-- Settles O7: each result is left in two's complement, and the low 64 bits of a product do not depend on the factors' signs. -/
theorem integerArithmeticWraps : Obligations.IntegerArithmeticWraps := by
  unfold Obligations.IntegerArithmeticWraps
  simp only [sval_eq_sscalar]
  exact ⟨fun _ _ => takes_comp2 exec_add (wrapped_ofInt _), fun _ _ => takes_comp2 exec_sub (wrapped_ofInt _),
    fun _ => takes_comp1 exec_neg (wrapped_ofInt _), fun _ => takes_comp1 exec_inc (wrapped_ofInt _),
    fun _ => takes_comp1 exec_dec (wrapped_ofInt _),
    fun a b => takes_comp2 exec_mul (ofInt_mul a b ▸ scalar_ofScalar (Nat.mod_lt _ (Nat.two_pow_pos 64))),
    fun _ _ => takes_comp2 exec_mulh (wrapped_ofInt _), fun a b => takes_comp2 exec_mulhu (scalar_ofScalar (mulHigh_lt a b))⟩

/-- Settles O8: each division's body decides on its divisor. -/
theorem divisionTruncatesOrTraps : Obligations.DivisionTruncatesOrTraps := by
  unfold Obligations.DivisionTruncatesOrTraps
  simp only [sval_eq_sscalar]
  exact ⟨fun _ _ hb => takes_div exec_div hb (wrapped_ofInt _),
    fun a _ hb => takes_div exec_divu hb (scalar_ofScalar (Nat.lt_of_le_of_lt (Nat.div_le_self _ _) (scalar_lt a))),
    fun _ _ hb => takes_div exec_rem hb (wrapped_ofInt _),
    fun a _ hb => takes_div exec_remu hb (scalar_ofScalar (Nat.lt_of_le_of_lt (Nat.mod_le _ _) (scalar_lt a))),
    fun _ _ hb => ⟨traps_div exec_div hb, traps_div exec_divu hb, traps_div exec_rem hb, traps_div exec_remu hb⟩⟩

/-- Settles O9: shifts are powers of 2, the bounds are the order's own, and `satInt` holds its operand within the signed range. -/
theorem shiftsAndBoundsOfIntegers : Obligations.ShiftsAndBoundsOfIntegers := by
  unfold Obligations.ShiftsAndBoundsOfIntegers
  simp only [sval_eq_sscalar, ← satInt_eq]
  exact ⟨fun a b => takes_comp2 exec_shl (ofScalar_shl a b), fun a b => takes_comp2 exec_shr (ofScalar_shr a b),
    fun _ _ => takes_comp2 exec_sar (wrapped_ofInt _), fun _ _ => takes_comp2 exec_min (wrapped_ofInt _),
    fun _ _ => takes_comp2 exec_max (wrapped_ofInt _),
    fun a b => takes_comp2 exec_minu (scalar_ofScalar (Nat.lt_of_le_of_lt (Nat.min_le_left _ _) (scalar_lt a))),
    fun a b => takes_comp2 exec_maxu (scalar_ofScalar (Nat.max_lt.2 ⟨scalar_lt a, scalar_lt b⟩)),
    fun _ => takes_comp1 exec_abs (wrapped_ofInt _), fun _ _ => takes_comp2 exec_addsat (wrapped_ofInt _),
    fun _ _ => takes_comp2 exec_subsat (wrapped_ofInt _)⟩

end

section
/-! SUPPORT. Where a flow, task or event instruction is refused, how an instruction with a drain ends, and the tasks it ends, hands over to or has wait
(Tables 5.3, 5.15 and 5.16); and O16, O17 and O18, which say so. -/
namespace Sys2Proof.Machine
namespace State

/-! ### Forbidden in a delay slot (R107), out of the program range (R91) -/

/-- A legal instruction that R107 forbids in a delay slot is refused there before it executes. -/
theorem runOp_slot {s : State} {q : Issue} {i : OpInfo} {body : List Row → State → Res × State} (h : s.runs q.eng = true)
    (hi : i.illegal = false) (hb : i.slotBad = true) (hf : (s.eng q.eng).ctx.flow ≠ none) :
    s.runOp q i body = (s.advance q.at_).takeExc q.eng 1 ((s.advance q.at_).excHere q.eng { word := i.word } 0x06 0 0) := by
  have hs : (s.eng q.eng).ctx.flow.isSome = true := Option.isSome_iff_ne_none.2 hf
  have hd : s.decodeExc q.eng i = some (0x06, 0) := by
    unfold decodeExc
    simp [hi, hb, hs]
  rw [runOp_refused h hd]
  rfl

/-- In the self-timed regime a target at or below line 0, or at or beyond the end of the range, fails the check. -/
theorem flowBad_outOfRange {s : State} {e : Nat} {t : Int} (hl : s.leanRegime e = false) (h : t < 9 ∨ (s.progLen e * 9 : Nat) ≤ t) :
    s.flowBad e t = true := by
  unfold flowBad
  rw [hl]
  simpa using h

/-- A branch or call whose target is out of range takes PROGRANGE, with its entry there and room for what it pushes. -/
theorem flowOp_outOfRange {s : State} {q : Issue} {nin rout off : Nat} (word : Nat) (taken : Row → Bool) (call : Bool)
    (h : s.runs q.eng = true) (hf : (s.eng q.eng).ctx.flow = none) (hn : nin ≤ (s.stk q.eng).length) (ho : (s.stk q.eng).length ≤ 16)
    (hr : (s.eng q.eng).ctx.rstack.length + rout ≤ 32)
    (ht : ((s.eng q.eng).ctx.pc : Int) + 1 + signed 10 off < 9 ∨
      (s.progLen q.eng * 9 : Nat) ≤ ((s.eng q.eng).ctx.pc : Int) + 1 + signed 10 off) :
    ∃ hs, s.flowOp q word nin rout off taken call = (s.issued q).takeExc q.eng hs ((s.issued q).excHere q.eng { word := word } 0x08 0
      (unsigned 64 (((s.eng q.eng).ctx.pc : Int) + 1 + signed 10 off))) := by
  have hd : s.decodeExc q.eng { word := word, slotBad := true, nin := nin, rout := rout } = none :=
    runs_decode rfl (.inr hf) rfl hn (show _ - nin + 0 ≤ 16 by omega) (Nat.zero_le _) hr
  have hbad : (s.issued q).flowBad q.eng (((s.eng q.eng).ctx.pc : Int) + 1 + signed 10 off) = true := flowBad_outOfRange (runs_lean h) ht
  unfold flowOp
  refine runOp_excepts (u := s.issued q) (t := s.issued q) h hd rfl ?_
  dsimp only
  rw [issued_eng, if_pos hbad]

/-! ### An instruction that drains the store buffer first (R101) -/

section
variable {s u t : State} {q : Issue} {i : OpInfo} {body : List Row → State → Res × State}

/-- After the drain, a body that answers outputs in an engine of the self-timed regime completes its instruction. -/
theorem runOp_drained {d : Done} (h : s.runs q.eng = true) (hd : s.decodeExc q.eng i = none) (hi : i.drains = true)
    (hu : s.afterDrain q = (none, u)) (hb : body ((s.stk q.eng).take i.nin) u = (.ok d, t)) (ht : t.standing = u.standing)
    (hg : d.goto = none) (hp : d.rpush = none) (hr : d.rpop = false) :
    s.runOp q i body = d.post (t.ran q.eng i.nin d.outs (t.hsCost q.eng d.base (s.waitOf q i.worst))) :=
  runOp_completes h hd (by rw [hi]; exact hu) (by rw [afterDrain_stk hu]; exact hb)
    ((KeepsRegime.of_standing ht).leanRegime (afterDrain_lean h hu)) hg hp hr

/-- After the drain, a body that answers an exception has its instruction take it. -/
theorem runOp_drained_excepts {code kind addr : Nat} (h : s.runs q.eng = true) (hd : s.decodeExc q.eng i = none) (hi : i.drains = true)
    (hu : s.afterDrain q = (none, u)) (hb : body ((s.stk q.eng).take i.nin) u = (.exc code kind addr, t)) :
    ∃ hs, s.runOp q i body = t.takeExc q.eng hs (t.excHere q.eng i code kind addr) :=
  runOp_excepts h hd (by rw [hi]; exact hu) (by rw [afterDrain_stk hu]; exact hb)

end

/-! ### Ends of waits and tokens (R134, R135) -/

@[simp] theorem setOwner_standing (s : State) (n : Nat) (o : Owner) : (s.setOwner n o).standing = s.standing := (rfl)

@[simp] theorem wakeWhere_standing (s : State) (n : Nat) (p : WaitDesc → Bool) : (s.wakeWhere n p).standing = s.standing := by
  refine forEach_standing (fun s k => ?_) _ _
  dsimp only
  split
  · split <;> simp
  · rfl

/-- SIGNAL sets the token or ends waits: the engines stand. -/
theorem signalToken_standing (s : State) (n tok : Nat) : (s.signalToken n tok).standing = s.standing := by
  unfold signalToken
  dsimp only
  split
  · exact wakeWhere_standing _ _ _
  · exact setOwner_standing _ _ _

/-! ### What END, YIELD and WAIT do once complete (R133) -/

theorem endPost_unstaged {s : State} {e k : Nat} (h : (s.task k).staged = []) :
    endPost e k s = ((s.endRelease k).pendAfter k).dispatch (s.taskCfg k).owner := by
  unfold endPost
  simp only [h, List.isEmpty_nil, if_true]

theorem endPost_staged {s : State} {e k : Nat} (h : (s.task k).staged ≠ []) :
    endPost e k s = (({ s with img := { s.img with commits := s.img.commits ++
      [{ owner := (s.taskCfg k).owner, task := k, epoch := (s.task k).relAt, rows := (s.task k).staged, endAt := s.now, eng := e }] } } :
        State).endRelease k).dispatch (s.taskCfg k).owner := by
  have hs : (s.task k).staged.isEmpty = false := by simpa using h
  unfold endPost
  simp only [hs, Bool.false_eq_true, if_false]

/-- With no task promised and none of its priority ready, a YIELD goes on. -/
theorem yieldPost_goesOn {s : State} {e k : Nat} (hp : (s.eng e).preempt = none) (hy : s.yieldTo (s.engOwner e) k = none) :
    yieldPost e k s = s := by
  unfold yieldPost
  simp only [hp, hy]

theorem yieldPost_handsOver {s : State} {e k j : Nat}
    (h : (s.eng e).preempt = some j ∨ ((s.eng e).preempt = none ∧ s.yieldTo (s.engOwner e) k = some j)) :
    yieldPost e k s = (((s.bump64 (Reg.ENG_HSCNT e) 20).saveCtx e k .ready).startOn e j).dispatch (s.engOwner e) := by
  unfold yieldPost
  rcases h with hp | ⟨hp, hy⟩
  · simp only [hp]
  · simp only [hp, hy]

theorem setTask_taskCfg (s : State) (k : Nat) (x : Task) (j : Nat) : (s.setTask k x).taskCfg j = s.taskCfg j := rfl

theorem waitPost_eq (s : State) (e k : Nat) (w : WaitDesc) :
    let v := (s.bump64 (Reg.ENG_HSCNT e) 20).saveCtx e k .waiting
    waitPost e k w s = (v.setTask k { v.task k with wait := some w, wstat := none }).dispatch (v.taskCfg k).owner := by
  unfold waitPost
  dsimp only
  rw [setTask_taskCfg]

/-! ### The status a WAIT gives at once (R134) -/

section
variable {s : State} {n : Nat} {w : WaitDesc}

theorem waitNow_deadline (hk : w.kind = 2) (h : s.deadlinePassed w.deadline = true) : s.waitNow n w = (some 0, s) := by
  unfold waitNow
  simp only [hk, h, if_true]

theorem waitNow_event (hk : w.kind ≠ 2) (h : s.waitHolds n w = true) :
    s.waitNow n w = (some 0, if w.kind = 1 then s.takeToken n w.id else s) := by
  unfold waitNow
  simp only [hk, h, if_false, if_true]

theorem waitNow_timeout (hk : w.kind ≠ 2) (h : s.waitHolds n w = false) (ht : w.tmo = true) (hd : s.deadlinePassed w.deadline = true) :
    s.waitNow n w = (some 1, s) := by
  unfold waitNow
  simp [hk, h, ht, hd]

theorem waitNow_waits
    (h : (if w.kind = 2 then s.deadlinePassed w.deadline else s.waitHolds n w || (w.tmo && s.deadlinePassed w.deadline)) = false) :
    s.waitNow n w = (none, s) := by
  unfold waitNow
  by_cases hk : w.kind = 2
  · rw [if_pos hk] at h
    simp [hk, h]
  · rw [if_neg hk, Bool.or_eq_false_iff] at h
    simp [hk, h]

end

theorem takeTokenIf_standing (s : State) (n tok : Nat) (c : Prop) [Decidable c] :
    (if c then s.takeToken n tok else s).standing = s.standing := by
  rw [apply_ite standing, takeToken, setOwner_standing, ite_self]

end State

/-! ### The instructions -/

section
variable {s u : State} {q : Issue}

theorem exec_trap_traps {w : Row} {rest : List Row} (h : s.runs q.eng = true) (hf : (s.eng q.eng).ctx.flow = none)
    (hs : s.stk q.eng = w :: rest) (hl : rest.length ≤ 16) :
    ∃ hs, exec (.trap q) s = done s ((s.issued q).takeExc q.eng hs ((s.issued q).excHere q.eng { word := 0x0805 } 0x14 0 (scalar w))) := by
  have hlen : (s.stk q.eng).length = rest.length + 1 := by rw [hs, List.length_cons]
  have hd : s.decodeExc q.eng { word := 0x0805, slotBad := true, nin := 1 } = none :=
    State.runs_decode rfl (.inr hf) rfl (show 1 ≤ _ by omega) (show _ - 1 + 0 ≤ 16 by omega) (Nat.zero_le _) (State.runs_rstack h)
  rw [exec_trap]
  unfold execTrap
  refine (State.runOp_excepts (u := s.issued q) (t := s.issued q) h hd rfl ?_).imp fun _ e => congrArg (done s) e
  rw [State.issued_stk, hs]
  rfl

/-- The flow, task and event instructions are marked as forbidden in a delay slot (R107). -/
theorem slotBad_runs {off word : Nat} {c : Instr} (he : q.eng ≠ 256)
    (hc : (c, word) ∈ [(.br q off, 0x2000 + off % 1024), (.bz q off, 0x2400 + off % 1024), (.bnz q off, 0x2800 + off % 1024),
      (.call q off, 0x2C00 + off % 1024), (.ret q, 0x0804), (.yield q, 0x0800), (.wait q, 0x0801), (.signal q, 0x0802), (.end_ q, 0x0803),
      (.trap q, 0x0805)]) :
    ∃ i body, exec c s = done s (s.runOp q i body) ∧ i.illegal = false ∧ i.slotBad = true ∧ i.word = word := by
  have hi : (q.eng == 256) = false := by simpa using he
  simp only [List.mem_cons, Prod.mk.injEq, List.not_mem_nil, or_false] at hc
  rcases hc with ⟨rfl, rfl⟩ | ⟨rfl, rfl⟩ | ⟨rfl, rfl⟩ | ⟨rfl, rfl⟩ | ⟨rfl, rfl⟩ | ⟨rfl, rfl⟩ | ⟨rfl, rfl⟩ | ⟨rfl, rfl⟩ | ⟨rfl, rfl⟩ | ⟨rfl, rfl⟩
  case inr.inr.inr.inr.inr.inl | inr.inr.inr.inr.inr.inr.inl | inr.inr.inr.inr.inr.inr.inr.inl => exact ⟨_, _, rfl, hi, rfl, rfl⟩
  all_goals exact ⟨_, _, rfl, rfl, rfl, rfl⟩

/-- A task instruction without entries passes the checks of stages 2 to 4 outside a delay slot. -/
theorem taskInfo_decodes {word : Nat} {ill : Bool} (h : s.runs q.eng = true) (hf : (s.eng q.eng).ctx.flow = none) (hl : (s.stk q.eng).length ≤ 16)
    (hi : ill = false) :
    s.decodeExc q.eng { word := word, slotBad := true, illegal := ill, base := 2, worst := 12800000, drains := true } = none :=
  State.runs_decode hi (.inr hf) rfl (Nat.zero_le _) hl (Nat.zero_le _) (State.runs_rstack h)

/-- END completes, and then its post-condition's work is done. -/
theorem exec_end_posts (h : s.runs q.eng = true) (hf : (s.eng q.eng).ctx.flow = none) (hl : (s.stk q.eng).length ≤ 16)
    (hu : s.afterDrain q = (none, u)) :
    exec (.end_ q) s = done s ((if q.eng = 256 then State.mgtEnd else match (u.eng q.eng).task with
      | some k => State.endPost q.eng k
      | none => id) (u.ran q.eng 0 [] (u.hsCost q.eng 2 (s.waitOf q 12800000)))) := by
  rw [exec_end_]
  unfold execEnd
  exact congrArg (done s) (State.runOp_drained (d := { base := 2, post := if q.eng = 256 then State.mgtEnd else match (u.eng q.eng).task with
    | some k => State.endPost q.eng k
    | none => id }) h (taskInfo_decodes h hf hl rfl) rfl hu rfl rfl rfl rfl rfl)

theorem exec_yield_posts {k : Nat} (h : s.runs q.eng = true) (hf : (s.eng q.eng).ctx.flow = none) (hl : (s.stk q.eng).length ≤ 16)
    (he : q.eng ≠ 256) (hu : s.afterDrain q = (none, u)) (hk : (u.eng q.eng).task = some k) :
    exec (.yield q) s = done s (State.yieldPost q.eng k (u.ran q.eng 0 [] (u.hsCost q.eng 2 (s.waitOf q 12800000)))) := by
  rw [exec_yield]
  unfold execYield
  refine congrArg (done s) (State.runOp_drained (d := { base := 2, post := State.yieldPost q.eng k }) h
    (taskInfo_decodes h hf hl (by simpa using he)) rfl hu ?_ rfl rfl rfl rfl)
  rw [hk]

/-- SIGNAL with its entry passes the checks of stages 2 to 4. -/
theorem signal_decodes {d : Row} {rest : List Row} (h : s.runs q.eng = true) (hf : (s.eng q.eng).ctx.flow = none) (he : q.eng ≠ 256)
    (hs : s.stk q.eng = d :: rest) (hl : rest.length ≤ 16) :
    s.decodeExc q.eng { word := 0x0802, slotBad := true, illegal := q.eng == 256, nin := 1, base := 3, worst := 12800000,
                        drains := true } = none := by
  have hlen : (s.stk q.eng).length = rest.length + 1 := by rw [hs, List.length_cons]
  exact State.runs_decode (by simpa using he) (.inr hf) rfl (show 1 ≤ _ by omega) (show _ - 1 + 0 ≤ 16 by omega) (Nat.zero_le _)
    (State.runs_rstack h)

theorem exec_signal_signals {d : Row} {rest : List Row} (h : s.runs q.eng = true) (hf : (s.eng q.eng).ctx.flow = none) (he : q.eng ≠ 256)
    (hs : s.stk q.eng = d :: rest) (hl : rest.length ≤ 16) (hu : s.afterDrain q = (none, u)) (hd : scalar d ≤ 255) :
    exec (.signal q) s = done s ((u.signalToken (u.engOwner q.eng) (scalar d)).ran q.eng 1 []
      ((u.signalToken (u.engOwner q.eng) (scalar d)).hsCost q.eng 3 (s.waitOf q 12800000))) := by
  rw [exec_signal]
  unfold execSignal
  refine congrArg (done s) (State.runOp_drained (d := { base := 3 }) h (signal_decodes h hf he hs hl) rfl hu ?_
    (State.signalToken_standing u _ _) rfl rfl rfl)
  rw [hs]
  exact if_neg (Nat.not_lt.2 hd)

theorem exec_signal_traps {d : Row} {rest : List Row} (h : s.runs q.eng = true) (hf : (s.eng q.eng).ctx.flow = none) (he : q.eng ≠ 256)
    (hs : s.stk q.eng = d :: rest) (hl : rest.length ≤ 16) (hu : s.afterDrain q = (none, u)) (hd : 255 < scalar d) :
    ∃ hs, exec (.signal q) s = done s (u.takeExc q.eng hs (u.excHere q.eng { word := 0x0802 } 0x0C 0 0)) := by
  rw [exec_signal]
  unfold execSignal
  refine (State.runOp_drained_excepts (t := u) h (signal_decodes h hf he hs hl) rfl hu ?_).imp fun _ e => congrArg (done s) e
  rw [hs]
  exact if_pos hd

/-- The descriptor a WAIT finds on its stack (Table 5.16). -/
def waitDesc (d t : Row) : WaitDesc :=
  { kind := bits (scalar d) 60 4, tmo := bit (scalar d) 59 && bits (scalar d) 60 4 != 2, id := bits (scalar d) 0 29, deadline := bits (scalar t) 0 40 }

section
variable {d t : Row} {rest : List Row}

/-- WAIT with its entries passes the checks of stages 2 to 4. -/
theorem wait_decodes (h : s.runs q.eng = true) (hf : (s.eng q.eng).ctx.flow = none) (he : q.eng ≠ 256)
    (hs : s.stk q.eng = d :: t :: rest) (hl : rest.length ≤ 14) :
    s.decodeExc q.eng { word := 0x0801, slotBad := true, illegal := q.eng == 256, space := 4, nin := 2, nout := 1, base := 4,
                        worst := 14400000, drains := true } = none := by
  have hlen : (s.stk q.eng).length = rest.length + 2 := by rw [hs, List.length_cons, List.length_cons]
  exact State.runs_decode (by simpa using he) (.inr hf) rfl (show 2 ≤ _ by omega) (show _ - 2 + 1 ≤ 16 by omega) (Nat.zero_le _)
    (State.runs_rstack h)

theorem exec_wait_answers {st : Nat} {v : State} (h : s.runs q.eng = true) (hf : (s.eng q.eng).ctx.flow = none) (he : q.eng ≠ 256)
    (hs : s.stk q.eng = d :: t :: rest) (hl : rest.length ≤ 14) (hu : s.afterDrain q = (none, u)) (hc : u.waitCheck q.eng (scalar d) = none)
    (hw : u.waitNow (u.engOwner q.eng) (waitDesc d t) = (some st, v)) (hv : v.standing = u.standing) :
    exec (.wait q) s = done s (v.ran q.eng 2 [ofScalar st] (v.hsCost q.eng 4 (s.waitOf q 14400000))) := by
  unfold waitDesc at hw
  rw [exec_wait]
  unfold execWait
  refine congrArg (done s) (State.runOp_drained (d := { outs := [ofScalar st], base := 4 }) h (wait_decodes h hf he hs hl) rfl hu ?_ hv rfl rfl rfl)
  rw [hs]
  simp only [List.take_succ_cons, List.take_zero, inp_tos, inp_below, hc, hw]

theorem exec_wait_waits {k : Nat} (h : s.runs q.eng = true) (hf : (s.eng q.eng).ctx.flow = none) (he : q.eng ≠ 256)
    (hs : s.stk q.eng = d :: t :: rest) (hl : rest.length ≤ 14) (hu : s.afterDrain q = (none, u)) (hc : u.waitCheck q.eng (scalar d) = none)
    (hw : u.waitNow (u.engOwner q.eng) (waitDesc d t) = (none, u)) (hk : (u.eng q.eng).task = some k) :
    exec (.wait q) s =
      done s (State.waitPost q.eng k (waitDesc d t) (u.ran q.eng 2 [d, t] (u.hsCost q.eng 4 (s.waitOf q 14400000)))) := by
  unfold waitDesc at hw
  rw [exec_wait]
  unfold execWait
  refine congrArg (done s) (State.runOp_drained (d := { outs := [d, t], base := 4, post := State.waitPost q.eng k (waitDesc d t) }) h
    (wait_decodes h hf he hs hl) rfl hu ?_ rfl rfl rfl rfl)
  rw [hs]
  simp only [List.take_succ_cons, List.take_zero, inp_tos, inp_below, hc, hw, hk]
  rfl

end

end

end Sys2Proof.Machine

open Sys2Proof Sys2Proof.Machine Sys2Proof.Machine.State

/-- Settles O16: a target out of range fails the flow instruction's check, and each of the ten words is marked as forbidden in a delay slot. -/
theorem flowOutsideProgramTraps : Obligations.FlowOutsideProgramTraps := by
  unfold Obligations.FlowOutsideProgramTraps
  refine ⟨?range, ?slot⟩
  case range =>
    intro q s off mk word h hf hn ho hr t ht hmk
    have hr' : (s.eng q.eng).ctx.rstack.length + 0 ≤ 32 := Nat.le_succ_of_le hr
    rcases hmk with e | e | e | e <;> obtain ⟨rfl, rfl⟩ := Prod.mk.inj e
    · exact (flowOp_outOfRange _ _ false h hf (Nat.zero_le _) ho hr' ht).imp fun _ e => congrArg (done s) e
    · exact (flowOp_outOfRange _ _ false h hf hn ho hr' ht).imp fun _ e => congrArg (done s) e
    · exact (flowOp_outOfRange _ _ false h hf hn ho hr' ht).imp fun _ e => congrArg (done s) e
    · exact (flowOp_outOfRange _ _ true h hf (Nat.zero_le _) ho (Nat.succ_le_succ hr) ht).imp fun _ e => congrArg (done s) e
  case slot =>
    intro q s off c word h hf he hc
    obtain ⟨i, body, e, hill, hb, rfl⟩ := slotBad_runs (s := s) he hc
    exact e.trans (congrArg (done s) (runOp_slot h hill hb hf))

/-- Settles O17: each instruction completes, and what it does then is the lemma of its name above. -/
theorem taskInstructionsEndAndHandOver : Obligations.TaskInstructionsEndAndHandOver := by
  unfold Obligations.TaskInstructionsEndAndHandOver
  refine ⟨fun q s w rest h hf hs hl => exec_trap_traps h hf hs hl, ?task, ?engine⟩
  case task =>
    intro q s u k h hf hl he hu hk r n
    have hend : exec (.end_ q) s = done s (endPost q.eng k r) := by
      rw [exec_end_posts h hf hl hu, if_neg he, hk]
    have hyield : exec (.yield q) s = done s (yieldPost q.eng k r) := exec_yield_posts h hf hl he hu hk
    exact ⟨fun hst => hend.trans (congrArg (done s) (endPost_unstaged hst)), fun hst => hend.trans (congrArg (done s) (endPost_staged hst)),
      fun hp hy => hyield.trans (congrArg (done s) (yieldPost_goesOn hp hy)),
      fun j hj => hyield.trans (congrArg (done s) (yieldPost_handsOver hj))⟩
  case engine =>
    intro q s h he hf hl
    rw [← he] at h hf hl
    have hu : s.afterDrain q = (none, s.issued q) := if_pos he
    rw [exec_end_posts h hf hl hu, if_pos he, ← he]
    rfl

/-- Settles O18: SIGNAL and WAIT complete after the drain, and the effect of each case is the lemma of its name above. -/
theorem signalsAndWaits : Obligations.SignalsAndWaits := by
  unfold Obligations.SignalsAndWaits
  refine ⟨?signal, ?wait⟩
  case signal =>
    intro q s u d rest h hf he hs hl hu n waiting fin
    refine ⟨fun hd hw => ?_, fun hd hw => ?_, fun hd => exec_signal_traps h hf he hs hl hu hd⟩
    · have hnone : ¬(u.tasksOf n).any waiting = true := ne_of_eq_of_ne hw Bool.false_ne_true
      have e : u.signalToken n (scalar d) = _ := if_neg hnone
      rw [exec_signal_signals h hf he hs hl hu hd, e]
    · have e : u.signalToken n (scalar d) = _ := if_pos hw
      rw [exec_signal_signals h hf he hs hl hu hd, e]
  case wait =>
    intro q s u d t rest h hf he hs hl hu hc n kind w fin
    exact ⟨fun hk hd => exec_wait_answers h hf he hs hl hu hc (waitNow_deadline hk hd) rfl,
      fun hk hw => exec_wait_answers h hf he hs hl hu hc (waitNow_event hk hw) (takeTokenIf_standing _ _ _ _),
      fun hk hw ht hd => exec_wait_answers h hf he hs hl hu hc (waitNow_timeout hk hw ht hd) rfl,
      fun k hk hw => (exec_wait_waits h hf he hs hl hu hc (waitNow_waits hw) hk).trans (congrArg (done s) (waitPost_eq _ _ _ _))⟩

end

section
/-! SUPPORT. What a ring instruction finds on its ring and leaves (Table 5.17, R137); and O19, which says so. -/
namespace Sys2Proof.Machine
namespace State

/-! ### Rings leave every engine as it stands -/

@[simp] theorem postBound_standing (s : State) (kind id t : Nat) : (s.postBound kind id t).standing = s.standing :=
  forEach_standing (fun s k => setTask_standing s k _) _ _

@[simp] theorem ringWake_standing (s : State) (r : Nat) : (s.ringWake r).standing = s.standing := by
  have ends (n : Nat) : (if s.ringOpen r then (s.endEntryWaits n r).endRoomWaits n r else s).standing = s.standing := by
    unfold endRoomWaits endEntryWaits
    split
    · split <;> split <;> simp
    · rfl
  cases h : s.ringOwner r with
  | none =>
    unfold ringWake
    rw [h]
  | some n =>
    rw [ringWake_of_owner h]
    exact ends n

@[simp] theorem ringSet_standing (s : State) (r p c : Nat) : (s.ringSet r p c).standing = s.standing :=
  (setBit_standing _ _ _ _).trans ((wr_standing _ _ _).trans (wr_standing _ _ _))

@[simp] theorem ringAdvance_standing (s : State) (r : Nat) : (s.ringAdvance r).standing = s.standing := by
  unfold ringAdvance
  dsimp only
  rw [ringWake_standing, apply_ite standing, postBound_standing, ite_self, maxReg_standing, bump64_standing, ringSet_standing]

@[simp] theorem ringConsume_standing (s : State) (r : Nat) : (s.ringConsume r).standing = s.standing := by
  unfold ringConsume
  dsimp only
  rw [ringWake_standing, bump64_standing, ringSet_standing]

@[simp] theorem hwWrite_standing (s : State) (n va : Nat) (bs : List Byte) : (s.hwWrite n va bs).2.standing = s.standing := by
  have hw := walkAccess_standing s n va 0xFFFF
  unfold hwWrite
  dsimp only
  split <;> rename_i t h
  · exact (mergeLine_standing ..).trans (standing_snd h hw)
  · have ha := (allocPage_standing t n va false true).trans (standing_snd h hw)
    split <;> rename_i h2
    · exact (mergeLine_standing ..).trans (standing_snd h2 ha)
    · exact standing_snd h2 ha
  · exact standing_snd h hw

@[simp] theorem hwRead_standing (s : State) (n va len : Nat) : (s.hwRead n va len).2.standing = s.standing := by
  have hw := walkAccess_standing s n va 0xFFFF
  unfold hwRead
  split <;> rename_i t h
  · exact standing_snd h hw
  · rename_i f _
    have hl := (readLine_standing t n f va 0xFFFF).trans (standing_snd h hw)
    split <;> rename_i h2 <;> exact standing_snd h2 hl
  · exact standing_snd h hw

/-! ### The status before a transfer (R137) -/

/-- The first status that applies on a side of a ring: it is hardware's, the ring takes no requests, it is full or empty. -/
theorem ringStatus_eq (s : State) (r : Nat) (enq : Bool) :
    s.ringStatus r enq = if (s.ringCfg r).defined = true ∧ (if enq then (s.ringCfg r).prod ≠ 0 else (s.ringCfg r).cons ≠ 0) then 3
      else if (s.ringCfg r).defined = false ∨ s.ringOpen r = false then 2
      else if (if enq then s.ringCount r = ringLen (s.ringCfg r) else s.ringCount r = 0) then 1 else 0 := by
  unfold ringStatus ringFull
  cases enq <;> simp

theorem ringBad_own {s : State} {e r : Nat} (hr : r < 4096) (ho : s.ringOwner r = some (s.engOwner e)) : s.ringBad e r = false := by
  unfold ringBad
  simp [ho, Nat.not_le.2 hr]

end State

/-! ### The ring instructions -/

section
variable {s u : State} {q : Issue} {ins rest : List Row} {a : Row}

/-- A ring instruction of an engine, with its entries and room, passes the checks of stages 2 to 4. -/
theorem ringInfo_decodes {i : OpInfo} (h : s.runs q.eng = true) (he : q.eng ≠ 256) (hs : s.stk q.eng = ins ++ rest)
    (hi : i.illegal = (q.eng == 256)) (hb : i.slotBad = false) (hd : i.denied = false) (hn : i.nin = ins.length)
    (ho : rest.length + i.nout ≤ 16) (hr : i.rin = 0) (hR : i.rout = 0) : s.decodeExc q.eng i = none := by
  have hlen : (s.stk q.eng).length = ins.length + rest.length := by rw [hs, List.length_append]
  have hrs := State.runs_rstack h
  exact State.runs_decode (hi.trans (by simpa using he)) (.inl hb) hd (by omega) (by omega) (by omega) (by omega)

theorem take_entries {e nin : Nat} (hs : s.stk e = ins ++ rest) (hn : nin = ins.length) : (s.stk e).take nin = ins := by
  rw [hs, hn, List.take_left]

section
variable (h : s.runs q.eng = true) (he : q.eng ≠ 256) (hu : s.afterDrain q = (none, u)) (hr : scalar a < 4096)
  (ho : u.ringOwner (scalar a) = some (u.engOwner q.eng)) (hs : s.stk q.eng = ins ++ rest) (ha : inp ins 0 = a)
include h he hu hr ho hs ha

theorem rcnt_counts (hn : ins.length = 1) (hl : rest.length ≤ 15) :
    exec (.rcnt q) s = done s (u.ran q.eng 1 [ofScalar (if (u.ringCfg (scalar a)).defined then u.ringCount (scalar a) else 0)]
      (u.hsCost q.eng 4 (s.waitOf q 14400000))) := by
  rw [exec_rcnt]
  unfold execRcnt
  refine congrArg (done s) (State.runOp_drained (t := u)
    (d := { outs := [ofScalar (if (u.ringCfg (scalar a)).defined then u.ringCount (scalar a) else 0)], base := 4 })
    h (ringInfo_decodes h he hs rfl rfl rfl hn.symm (Nat.succ_le_succ hl) rfl rfl) rfl hu ?_ rfl rfl rfl rfl)
  rw [take_entries hs hn.symm, ha]
  exact if_neg (by rw [State.ringBad_own hr ho]; exact Bool.false_ne_true)

section
variable {two : Bool} (hn : ins.length = if two then 3 else 2) (hl : rest.length ≤ 15) (hz : two = true → (u.ringCfg (scalar a)).esize = 2)
include hn hl hz

/-- An ENQ whose ring cannot take the entry answers the status, and counts a full ring. -/
theorem enqOp_answers {st : Nat} (hst : u.ringStatus (scalar a) true = st) (h0 : st ≠ 0) :
    s.enqOp q two = (if st = 1 then u.bump (Reg.RING_FULLCNT (scalar a)) 1 else u).ran q.eng (if two then 3 else 2) [ofScalar st]
      ((if st = 1 then u.bump (Reg.RING_FULLCNT (scalar a)) 1 else u).hsCost q.eng 6 (s.waitOf q 19200000)) := by
  obtain ⟨n, rfl⟩ := Nat.exists_eq_succ_of_ne_zero h0
  unfold State.enqOp
  refine State.runOp_drained (d := { outs := [ofScalar (n + 1)], base := 6 }) h
    (ringInfo_decodes h he hs rfl rfl rfl hn.symm (Nat.succ_le_succ hl) rfl rfl) rfl hu ?_ ?_ rfl rfl rfl
  · rw [take_entries hs hn.symm, ha]
    cases two <;> simp [State.ringBad_own hr ho, hst, hz]
  · rw [apply_ite State.standing, State.bump_standing, ite_self]

/-- An ENQ whose ring takes the entry writes it at the producer index and advances that. -/
theorem enqOp_transfers {x : Xlat} {y z : State} (hst : u.ringStatus (scalar a) true = 0)
    (hx : u.engXlat q.eng (u.ringSlot (scalar a) (u.ringP (scalar a))) = (x, y)) (hf : x = .zero ∨ ∃ f b, x = .frame f b)
    (hw : y.hwWrite (y.engOwner q.eng) (u.ringSlot (scalar a) (u.ringP (scalar a)))
      ((bytesOfRow (inp ins 1) ++ if two then bytesOfRow (inp ins 2) else List.replicate 32 0).take (ringEsize (u.ringCfg (scalar a)))) = (true, z)) :
    s.enqOp q two = ((z.loseResv (z.engOwner q.eng) (u.ringSlot (scalar a) (u.ringP (scalar a)))).ringAdvance (scalar a)).ran q.eng
      (if two then 3 else 2) [ofScalar 0]
      (((z.loseResv (z.engOwner q.eng) (u.ringSlot (scalar a) (u.ringP (scalar a)))).ringAdvance (scalar a)).hsCost q.eng 6
        (s.waitOf q 19200000)) := by
  unfold State.enqOp
  refine State.runOp_drained (d := { outs := [ofScalar 0], base := 6 }) h
    (ringInfo_decodes h he hs rfl rfl rfl hn.symm (Nat.succ_le_succ hl) rfl rfl) rfl hu ?_ ?_ rfl rfl rfl
  · rw [take_entries hs hn.symm, ha]
    rcases hf with rfl | ⟨f, b, rfl⟩ <;> cases two <;> simp_all [State.ringBad_own hr ho]
  · rw [State.ringAdvance_standing, State.loseResv_standing, State.standing_snd hw (State.hwWrite_standing ..),
      State.standing_snd hx (State.engXlat_standing ..)]

end

section
variable {two : Bool} (hn : ins.length = 1) (hl : rest.length ≤ 13) (hz : two = true → (u.ringCfg (scalar a)).esize = 2)
include hn hl hz

/-- A DEQ whose ring has no entry for it answers the status and zeros. -/
theorem deqOp_answers {st : Nat} (hst : u.ringStatus (scalar a) false = st) (h0 : st ≠ 0) :
    s.deqOp q two = u.ran q.eng 1 (ofScalar st :: List.replicate (if two then 2 else 1) 0) (u.hsCost q.eng 6 (s.waitOf q 18400000)) := by
  obtain ⟨n, rfl⟩ := Nat.exists_eq_succ_of_ne_zero h0
  unfold State.deqOp
  refine State.runOp_drained (t := u) (d := { outs := ofScalar (n + 1) :: List.replicate (if two then 2 else 1) 0, base := 6 }) h
    (ringInfo_decodes h he hs rfl rfl rfl hn.symm ?_ rfl rfl) rfl hu ?_ rfl rfl rfl rfl
  · show rest.length + (if two then 3 else 2) ≤ 16
    split <;> omega
  · rw [take_entries hs hn.symm, ha]
    cases two <;> simp [State.ringBad_own hr ho, hst, hz]

/-- A DEQ whose ring has an entry reads the one at the consumer index and advances that. -/
theorem deqOp_transfers {x : Xlat} {y z : State} {bs : List Byte} (hst : u.ringStatus (scalar a) false = 0)
    (hx : u.engXlat q.eng (u.ringSlot (scalar a) (u.ringC (scalar a))) = (x, y)) (hf : x = .zero ∨ ∃ f b, x = .frame f b)
    (hw : y.hwRead (y.engOwner q.eng) (u.ringSlot (scalar a) (u.ringC (scalar a))) (ringEsize (u.ringCfg (scalar a))) = (some bs, z)) :
    s.deqOp q two = (z.ringConsume (scalar a)).ran q.eng 1
      (if two then [ofScalar 0, rowOfBytes (bs.take 32), rowOfBytes ((bs.drop 32).take 32)] else [ofScalar 0, rowOfBytes (bs.take 32)])
      ((z.ringConsume (scalar a)).hsCost q.eng 6 (s.waitOf q 18400000)) := by
  unfold State.deqOp
  refine State.runOp_drained (d := { outs := if two then [ofScalar 0, rowOfBytes (bs.take 32), rowOfBytes ((bs.drop 32).take 32)]
    else [ofScalar 0, rowOfBytes (bs.take 32)], base := 6 }) h (ringInfo_decodes h he hs rfl rfl rfl hn.symm ?_ rfl rfl) rfl hu ?_ ?_ rfl rfl rfl
  · show rest.length + (if two then 3 else 2) ≤ 16
    split <;> omega
  · rw [take_entries hs hn.symm, ha]
    rcases hf with rfl | ⟨f, b, rfl⟩ <;> cases two <;> simp_all [State.ringBad_own hr ho]
  · rw [State.ringConsume_standing, State.standing_snd hw (State.hwRead_standing ..), State.standing_snd hx (State.engXlat_standing ..)]

end

end

end

end Sys2Proof.Machine

open Sys2Proof Sys2Proof.Machine Sys2Proof.Machine.State

/-- Settles O19: the status before the transfer decides, and each side of it is the lemma of its name above. -/
theorem ringInstructionsTransfer : Obligations.RingInstructionsTransfer := by
  unfold Obligations.RingInstructionsTransfer
  intro q s u a rest h he hu e r c hr ho fin st
  have hst (b : Bool) : u.ringStatus r b = st b := ringStatus_eq u r b
  refine ⟨fun hs hl => rcnt_counts (ins := [a]) h he hu hr ho hs rfl rfl hl, ?enq, ?enq2, ?deq⟩
  case enq =>
    intro v hs hl
    refine ⟨fun h0 => ?_, fun x y z h0 hx hf hw => ?_⟩
    · exact congrArg (done s) (enqOp_answers (ins := [a, v]) (two := false) h he hu hr ho hs rfl rfl hl nofun (hst true) h0)
    · exact congrArg (done s) (enqOp_transfers (ins := [a, v]) (two := false) h he hu hr ho hs rfl rfl hl nofun ((hst true).trans h0) hx hf hw)
  case enq2 =>
    intro v0 v1 hs hl hz
    refine ⟨fun h0 => ?_, fun x y z h0 hx hf hw => ?_⟩
    · exact congrArg (done s) (enqOp_answers (ins := [a, v0, v1]) (two := true) h he hu hr ho hs rfl rfl hl (fun _ => hz) (hst true) h0)
    · exact congrArg (done s)
        (enqOp_transfers (ins := [a, v0, v1]) (two := true) h he hu hr ho hs rfl rfl hl (fun _ => hz) ((hst true).trans h0) hx hf hw)
  case deq =>
    intro hs hl
    refine ⟨fun h0 => ⟨?_, fun hz => ?_⟩, fun x y z bs h0 hx hf hw => ⟨?_, fun hz => ?_⟩⟩
    · exact congrArg (done s) (deqOp_answers (ins := [a]) (two := false) h he hu hr ho hs rfl rfl hl nofun (hst false) h0)
    · exact congrArg (done s) (deqOp_answers (ins := [a]) (two := true) h he hu hr ho hs rfl rfl hl (fun _ => hz) (hst false) h0)
    · exact congrArg (done s) (deqOp_transfers (ins := [a]) (two := false) h he hu hr ho hs rfl rfl hl nofun ((hst false).trans h0) hx hf hw)
    · exact congrArg (done s)
        (deqOp_transfers (ins := [a]) (two := true) h he hu hr ho hs rfl rfl hl (fun _ => hz) ((hst false).trans h0) hx hf hw)

end

section
/-! SUPPORT. What an address check answers (R95 to R97), and where a store puts its bits (Tables 5.20 and 5.21); and O27 and O23, which say so. -/
namespace Sys2Proof.Machine
namespace State

/-! ### Element addresses (R95 to R97) -/

theorem elem_image (s : State) (e : Nat) (o : MemOp) {sp : Nat} (a : Nat) (h : sp < 5) :
    s.elem e o sp a = s.imageElem (s.engOwner e) sp o.size a := if_pos h

/-- A bit of a data space is checked in bits. -/
theorem elem_dataBit (s : State) (e : Nat) {o : MemOp} {sp : Nat} (a : Nat) (h : 5 ≤ sp) (ho : o.size = 1) :
    s.elem e o sp a = if a < 2 ^ 51 ∧ a < 8 * s.engSpaceSize e sp then .byte (a / 8) (a % 8) else .exc 0x09 := by
  unfold elem dataElem
  rw [if_neg (Nat.not_lt.2 h)]
  dsimp only
  rw [if_pos ho]
  by_cases ha : 2 ^ 51 ≤ a ∨ s.engSpaceSize e sp * 8 ≤ a
  · rw [if_pos ha, if_neg (by omega)]
  · rw [if_neg ha, if_pos (by omega)]

/-- Any other element of a data space is checked in bytes, its range first. -/
theorem elem_dataBytes (s : State) (e : Nat) {o : MemOp} {sp : Nat} (a : Nat) (h : 5 ≤ sp) (ho : o.size ≠ 1) :
    s.elem e o sp a = if a < 2 ^ 48 ∧ a + o.size / 8 ≤ s.engSpaceSize e sp then
      (if a % (o.size / 8) = 0 then .byte a 0 else .exc 0x0A) else .exc 0x09 := by
  unfold elem dataElem
  rw [if_neg (Nat.not_lt.2 h)]
  dsimp only
  rw [if_neg ho]
  by_cases ha : 2 ^ 48 ≤ a ∨ s.engSpaceSize e sp < a + o.size / 8
  · rw [if_pos ha, if_neg (by omega)]
  · rw [if_neg ha, if_pos (show a < 2 ^ 48 ∧ a + o.size / 8 ≤ s.engSpaceSize e sp by omega)]
    simp only [ne_eq, ite_not]

/-! ### The store that follows a checked address -/

theorem memEnd_fenced {v w : State} {e md base : Nat} {outs : List Row} (h : v.fenced e md = (none, w)) :
    v.memEnd e md base outs = (.ok { outs := outs, base := base }, w) := by
  unfold fenced at h
  unfold memEnd
  split at h
  case isTrue hc => rw [if_pos hc, h]
  case isFalse hc => rw [if_neg hc, (Prod.mk.inj h).2]

theorem fenced_standing {v w : State} {e md : Nat} (h : v.fenced e md = (none, w)) : w.standing = v.standing := by
  unfold fenced at h
  split at h
  · exact standing_snd h (drain_standing v e)
  · rw [(Prod.mk.inj h).2]

@[simp] theorem semWrite_standing (s : State) (n row : Nat) (val mask : Row) : (s.semWrite n row val mask).standing = s.standing :=
  wakeWhere_standing _ _ _

@[simp] theorem stageBits_standing (s : State) (k row : Nat) (val mask : Row) : (s.stageBits k row val mask).standing = s.standing :=
  (poolRegs_standing _ _).trans (setTask_standing _ _ _)

/-- The row and lane mask a store of an operation puts in an image row at a bit. -/
def rowStored (o : MemOp) (b : Nat) (v mask : Row) : Row × Row :=
  if o.size = 1 then (if v.getLsbD 0 then laneMask b else 0, laneMask b) else (v, mask)

/-- The value and mask, as numbers, a store of an operation puts in the store buffer at a bit. -/
def bytesStored (o : MemOp) (b : Nat) (v mask : Row) : Nat × Nat :=
  (if o.size = 1 then b2n (v.getLsbD 0) * 2 ^ b else v.toNat % 2 ^ o.size,
   if o.size = 1 then 2 ^ b else if o = .strm then mask.toNat else 2 ^ o.size - 1)

section
variable {s v w : State} {e : Nat} {o : MemOp} {sp md a : Nat} {x mask : Row} {outs rest : List Row}

theorem loadElem_exc {c : Nat} {k : Row → Nat → State → Res × State} (h : s.elem e o sp a = .exc c) :
    s.loadElem e o sp a k = (.exc c 0 a, s) := by
  unfold loadElem
  rw [h]

theorem storeElem_exc {c : Nat} (word : Nat) (h : s.elem e o sp a = .exc c) :
    s.storeElem e o sp md a word x mask outs rest = (.exc c 0 a, s) := by
  unfold storeElem
  rw [h]

/-- SEM is written at once; OUT and MRK are staged for the release where its quota has a row. -/
theorem storeElem_row {row b : Nat} (word : Nat) (h : s.elem e o sp a = .row row b)
    (hv : (sp = 4 ∧ v = s.semWrite (s.engOwner e) row (rowStored o b x mask).1 (rowStored o b x mask).2) ∨
      (sp ≠ 4 ∧ ∃ k, (s.eng e).task = some k ∧ s.poolFull k row = false ∧
        v = s.stageBits k row (rowStored o b x mask).1 (rowStored o b x mask).2))
    (hw : v.fenced e md = (none, w)) :
    s.storeElem e o sp md a word x mask outs rest = (.ok { outs := outs, base := if sp = 4 then 4 else 3 }, w) := by
  unfold rowStored at hv
  unfold storeElem
  rw [h]
  by_cases hb : o.size = 1 <;> simp only [hb, if_true, if_false] at hv ⊢ <;> rcases hv with ⟨rfl, rfl⟩ | ⟨hsp, k, hk, hp, rfl⟩
  · exact memEnd_fenced hw
  · simp only [hsp, hk, hp, Bool.false_eq_true, if_false]
    exact memEnd_fenced hw
  · exact memEnd_fenced hw
  · simp only [hsp, hk, hp, Bool.false_eq_true, if_false]
    exact memEnd_fenced hw

theorem storeElem_byte {off b word : Nat} {bs : List Byte} {buf : Bool} (h : s.elem e o sp a = .byte off b)
    (hv : s.storeBytes e sp off (leBytes ((o.size + 7) / 8) (bytesStored o b x mask).1) (bytesStored o b x mask).2 (s.eng e).ctx.pc word =
      (.ok bs buf, none, v)) (hw : v.fenced e md = (none, w)) :
    s.storeElem e o sp md a word x mask outs rest = (.ok { outs := outs, base := 1 }, w) := by
  unfold bytesStored at hv
  unfold storeElem
  rw [h]
  dsimp only
  rw [hv]
  exact memEnd_fenced hw

end

end State

/-! ### Memory instructions on an engine that runs them -/

section
variable {s u t : State} {q : Issue} {o : MemOp} {sp md nin vals base worst late : Nat} {drains : Bool} {ins rest : List Row}

/-- A memory instruction that Table 4.5 allows, with its entries and room, passes the checks of stages 2 to 4. -/
theorem memInfo_decodes (h : s.runs q.eng = true) (hu : usable q.eng o sp md = true) (hs : s.stk q.eng = ins ++ rest) (hn : nin = ins.length)
    (ho : rest.length + (vals + b2n (keeps md)) ≤ 16) : s.decodeExc q.eng (memInfo q.eng o sp md nin vals base worst late drains) = none := by
  have hlen : (s.stk q.eng).length = ins.length + rest.length := by rw [hs, List.length_append]
  unfold usable at hu
  simp only [Bool.and_eq_true, decide_eq_true_eq, beq_iff_eq, Bool.not_eq_true'] at hu
  obtain ⟨⟨hsp, hmd⟩, hden⟩ := hu
  have hill : (decide (8 ≤ sp) || md % 4 != 0) = false := by simp [hmd, hsp]
  exact State.runs_decode hill (.inl rfl) hden (show nin ≤ _ by omega) (show _ - nin + (vals + b2n (keeps md)) ≤ 16 by omega) (Nat.zero_le _)
    (State.runs_rstack h)

/-- A memory instruction whose address the check refuses takes the check's exception, with the address in its record. -/
theorem memOp_refused {c : Nat} {a : Row} {body : List Row → State → Res × State} (h : s.runs q.eng = true) (hu : usable q.eng o sp md = true)
    (hs : s.stk q.eng = ins ++ rest) (hn : nin = ins.length) (ho : rest.length + (vals + b2n (keeps md)) ≤ 16)
    (hd : (if drains then s.afterDrain q else (none, s.issued q)) = (none, u)) (hb : body ins u = (.exc c 0 (scalar a), u)) :
    ∃ hs, s.runOp q (memInfo q.eng o sp md nin vals base worst late drains) body =
      u.takeExc q.eng hs (u.excHere q.eng { word := o.word sp md, space := sp } c 0 (scalar a)) := by
  have hstk : u.stk q.eng = s.stk q.eng := by
    cases drains
    · cases hd; rfl
    · exact State.afterDrain_stk hd
  exact State.runOp_excepts h (memInfo_decodes h hu hs hn ho) hd ((congrArg (body · u) (by rw [hstk]; exact take_entries hs hn)).trans hb)

/-- A memory instruction without a drain whose body answers outputs completes. -/
theorem memOp_completes {d : Done} {body : List Row → State → Res × State} (h : s.runs q.eng = true) (hu : usable q.eng o sp md = true)
    (hs : s.stk q.eng = ins ++ rest) (hn : nin = ins.length) (ho : rest.length + (vals + b2n (keeps md)) ≤ 16)
    (hb : body ins (s.issued q) = (.ok d, t)) (ht : t.standing = (s.issued q).standing)
    (hg : d.goto = none) (hp : d.rpush = none) (hr : d.rpop = false) :
    s.runOp q (memInfo q.eng o sp md nin vals base worst late false) body =
      d.post (t.ran q.eng nin d.outs (t.hsCost q.eng d.base (s.waitOf q (worst + fenceWait md)))) :=
  State.runOp_completes h (memInfo_decodes h hu hs hn ho) rfl ((congrArg (body · _) (take_entries hs hn)).trans hb)
    ((State.KeepsRegime.of_standing ht).leanRegime (State.runs_lean h)) hg hp hr

end

section
variable {s u : State} {q : Issue} {o : MemOp} {sp md c : Nat} {a : Row} {ops rest : List Row} {mk : Issue → Nat → Nat → Instr}

/-- Every load and store runs a body that answers its address check's exception first, after the drain for LR, SC and TSET. -/
theorem memOp_checks
    (hmk : (((mk, o) ∈ [(Instr.ldb, MemOp.ldb), (.ldr, .ldr), (.ldw, .ldw), (.ldl, .ldl), (.ldc, .ldc)] ∧ ops = [] ∧ u = s.issued q) ∨
      ((mk, o) ∈ [(Instr.stb, MemOp.stb), (.str, .str), (.stw, .stw), (.stl, .stl)] ∧ ops.length = 1 ∧ u = s.issued q) ∨
      (mk = .strm ∧ o = .strm ∧ ops.length = 2 ∧ u = s.issued q) ∨
      ((mk, o) ∈ [(Instr.lr, MemOp.lr), (.tset, .tset)] ∧ ops = [] ∧ s.afterDrain q = (none, u)) ∨
      (mk = .sc ∧ o = .sc ∧ ops.length = 1 ∧ s.afterDrain q = (none, u))))
    (hl : rest.length + 1 + b2n (keeps md) ≤ 16) (he : u.elem q.eng o sp (scalar a) = .exc c) :
    ∃ nin vals base worst late drains body,
      exec (mk q sp md) s = done s (s.runOp q (memInfo q.eng o sp md nin vals base worst late drains) body) ∧ nin = (a :: ops).length ∧
      rest.length + (vals + b2n (keeps md)) ≤ 16 ∧ (if drains then s.afterDrain q else (none, s.issued q)) = (none, u) ∧
      body (a :: ops) u = (.exc c 0 (scalar a), u) := by
  have hl' : rest.length + (1 + b2n (keeps md)) ≤ 16 := by omega
  have hl0 : rest.length + (0 + b2n (keeps md)) ≤ 16 := by omega
  simp only [List.mem_cons, Prod.mk.injEq, List.not_mem_nil, or_false] at hmk
  rcases hmk with ⟨hmk, rfl, rfl⟩ | ⟨hmk, hops, rfl⟩ | ⟨rfl, rfl, hops, rfl⟩ | ⟨hmk, rfl, hu⟩ | ⟨rfl, rfl, hops, hu⟩
  · rcases hmk with ⟨rfl, rfl⟩ | ⟨rfl, rfl⟩ | ⟨rfl, rfl⟩ | ⟨rfl, rfl⟩ | ⟨rfl, rfl⟩
    case inr.inr.inr.inr =>
      refine ⟨_, _, _, _, _, false, _, rfl, rfl, hl', rfl, ?_⟩
      simp only [inp_tos, he]
    all_goals exact ⟨_, _, _, _, _, false, _, rfl, rfl, hl', rfl, State.loadElem_exc he⟩
  · rcases hmk with ⟨rfl, rfl⟩ | ⟨rfl, rfl⟩ | ⟨rfl, rfl⟩ | ⟨rfl, rfl⟩
    all_goals exact ⟨_, _, _, _, _, false, _, rfl, by rw [List.length_cons, hops]; rfl, hl0, rfl, State.storeElem_exc _ he⟩
  · exact ⟨_, _, _, _, _, false, _, rfl, by rw [List.length_cons, hops]; rfl, hl0, rfl, State.storeElem_exc _ he⟩
  · rcases hmk with ⟨rfl, rfl⟩ | ⟨rfl, rfl⟩
    · refine ⟨_, _, _, _, _, true, _, rfl, rfl, hl', hu, ?_⟩
      simp only [inp_tos, State.loadElem_exc he]
    · refine ⟨_, _, _, _, _, true, _, rfl, rfl, hl', hu, ?_⟩
      simp only [inp_tos, he]
  · refine ⟨_, _, _, _, _, true, _, rfl, by rw [List.length_cons, hops], hl', hu, ?_⟩
    simp only [inp_tos, he]

end

/-- The entries a store finds below its address: the value, and the mask of STRM. -/
def storeIns (o : MemOp) : Nat := if o = .strm then 2 else 1

/-- The lane mask a store finds: the one STRM is given, all lanes for any other. -/
def storeMask (o : MemOp) (ops : List Row) : Row := if o = .strm then inp ops 1 else BitVec.allOnes 256

section
variable {mk : Issue → Nat → Nat → Instr} {o : MemOp} (hm : ∀ q sp md s, exec (mk q sp md) s = done s (s.storeOp q o sp md))
include hm

/-- A store to an image space (Table 5.21). -/
theorem storesRow {vm : List Row → Nat → Row × Row} (hvm : ∀ ops b, vm ops b = State.rowStored o b (inp ops 0) (storeMask o ops)) :
    StoresRow mk o (storeIns o) vm := by
  intro q s v w sp md row b a ops rest h hu hs hops hl hsp he hv hw
  rw [hvm] at hv
  rw [hm]
  have hst : w.standing = (s.issued q).standing := by
    refine (State.fenced_standing hw).trans ?_
    rcases hv with ⟨-, rfl⟩ | ⟨-, k, -, -, rfl⟩
    · exact State.semWrite_standing ..
    · exact State.stageBits_standing ..
  have hnin : 1 + storeIns o = if o = .strm then 3 else 2 := by
    unfold storeIns
    split <;> rfl
  unfold State.storeOp
  rw [← hnin]
  refine congrArg (done s) ((memOp_completes (ins := a :: ops) (d := { outs := kept o sp md a, base := if sp = 4 then 4 else 3 })
    h hu hs (by rw [List.length_cons, hops, Nat.add_comm]) ?_ ?_ hst rfl rfl rfl).trans ?_)
  · unfold b2n
    split <;> omega
  · exact State.storeElem_row _ he hv hw
  · rw [if_pos hsp]
    rfl

/-- A store to a data space (Table 5.21). -/
theorem storesBytes {vm : List Row → Nat → Nat × Nat} (hvm : ∀ ops b, vm ops b = State.bytesStored o b (inp ops 0) (storeMask o ops)) :
    StoresBytes mk o (storeIns o) vm := by
  intro q s v w sp md off b a ops rest bs buf h hu hs hops hl hsp he hv hw
  rw [hvm] at hv
  rw [hm]
  have hst : w.standing = (s.issued q).standing :=
    (State.fenced_standing hw).trans (State.standing_snd (congrArg Prod.snd hv) (State.storeBytes_standing ..))
  have hnin : 1 + storeIns o = if o = .strm then 3 else 2 := by
    unfold storeIns
    split <;> rfl
  unfold State.storeOp
  rw [← hnin]
  refine congrArg (done s) ((memOp_completes (ins := a :: ops) (d := { outs := kept o sp md a, base := 1 })
    h hu hs (by rw [List.length_cons, hops, Nat.add_comm]) ?_ ?_ hst rfl rfl rfl).trans ?_)
  · unfold b2n
    split <;> omega
  · exact State.storeElem_byte he hv hw
  · rw [if_neg (Nat.not_lt.2 hsp)]
    rfl

end

/-! ### What each store puts (Table 5.20) -/

theorem laneMask_eq (b : Nat) : laneMask b = BitVec.ofNat 256 (2 ^ b) := by
  refine BitVec.eq_of_toNat_eq ?_
  rw [laneMask, BitVec.toNat_shiftLeft, BitVec.toNat_ofNat, Nat.shiftLeft_eq]
  simp

theorem rowStored_stb (b : Nat) (v mask : Row) :
    State.rowStored .stb b v mask = (if v.getLsbD 0 then BitVec.ofNat 256 (2 ^ b) else 0, BitVec.ofNat 256 (2 ^ b)) := by
  rw [← laneMask_eq]
  rfl

theorem bytesStored_stb (b : Nat) (v mask : Row) :
    State.bytesStored .stb b v mask = (if v.getLsbD 0 then 2 ^ b else 0, 2 ^ b) := by
  show (b2n (v.getLsbD 0) * 2 ^ b, 2 ^ b) = _
  cases v.getLsbD 0 <;> simp [b2n]

theorem bytesStored_row (b : Nat) (v mask : Row) : State.bytesStored .str b v mask = (v.toNat, 2 ^ 256 - 1) :=
  congrArg (·, 2 ^ 256 - 1) (Nat.mod_eq_of_lt v.isLt)

theorem bytesStored_masked (b : Nat) (v mask : Row) : State.bytesStored .strm b v mask = (v.toNat, mask.toNat) :=
  congrArg (·, mask.toNat) (Nat.mod_eq_of_lt v.isLt)

end Sys2Proof.Machine
open Sys2Proof Sys2Proof.Machine Sys2Proof.Machine.State

/-- Settles O23: every store is one operation, and what it puts in an image row or in the store buffer is its own. -/
theorem storesReachTheirSpace : Obligations.StoresReachTheirSpace := by
  unfold Obligations.StoresReachTheirSpace
  intro bitRow
  exact ⟨storesRow (mk := .stb) (fun _ _ _ _ => rfl) fun _ _ => (rowStored_stb _ _ _).symm,
    storesRow (mk := .str) (fun _ _ _ _ => rfl) fun _ _ => rfl,
    storesRow (mk := .strm) (fun _ _ _ _ => rfl) fun _ _ => rfl,
    storesBytes (mk := .stb) (fun _ _ _ _ => rfl) fun _ _ => (bytesStored_stb _ _ _).symm,
    storesBytes (mk := .str) (fun _ _ _ _ => rfl) fun _ _ => (bytesStored_row _ _ _).symm,
    storesBytes (mk := .strm) (fun _ _ _ _ => rfl) fun _ _ => (bytesStored_masked _ _ _).symm,
    storesBytes (mk := .stw) (fun _ _ _ _ => rfl) fun _ _ => rfl,
    storesBytes (mk := .stl) (fun _ _ _ _ => rfl) fun _ _ => rfl⟩

/-- Settles O27: the check is the one of the space's kind, and every load and store asks it before it accesses anything. -/
theorem addressChecksTrap : Obligations.AddressChecksTrap := by
  unfold Obligations.AddressChecksTrap
  refine ⟨fun s e o sp a => ⟨fun h => elem_image s e o a h, fun h ho => elem_dataBit s e a h ho, fun h ho => elem_dataBytes s e a h ho⟩, ?_⟩
  intro q s u mk o sp md c a ops rest h hu hs hl he hmk
  obtain ⟨nin, vals, base, worst, late, drains, body, e, hn, ho, hd, hb⟩ := memOp_checks hmk hl he
  rw [e]
  exact (memOp_refused h hu hs hn ho hd hb).imp fun _ e => congrArg (done s) e

end

section
/-! SUPPORT. The register bus: an access that is refused, one that is performed, the access types of a plain write, and the latches of 64-bit quantities
(R7 to R10, R26); and O28, O29, O30 and O31, which say so. -/
namespace Sys2Proof

/-- Of two entries put at one key the later stands. -/
theorem insert_insert {α : Type} (m : SMap α) (k : Nat) (v w : α) : (m.insert k v).insert k w = m.insert k w := by
  induction m with
  | nil => simp [SMap.insert]
  | cons p rest ih =>
    obtain ⟨j, x⟩ := p
    by_cases h1 : k < j
    · simp [SMap.insert, h1]
    · by_cases h2 : k = j
      · simp [SMap.insert, h2]
      · simp [SMap.insert, h1, h2, ih]

theorem erase_insert {α : Type} (m : SMap α) (k : Nat) (v : α) : (m.insert k v).erase k = m.erase k := by
  unfold SMap.erase
  induction m with
  | nil => simp [SMap.insert]
  | cons p rest ih =>
    obtain ⟨j, x⟩ := p
    by_cases h1 : k < j
    · simp [SMap.insert, h1]
    · by_cases h2 : k = j
      · simp [SMap.insert, h2]
      · simp [SMap.insert, h1, h2, ih, List.filter_cons]

/-- A value written over one that was not the default leaves what it would have left at once. -/
theorem set_set {α : Type} [DecidableEq α] {d : α} (m : SMap α) (k : Nat) {v : α} (w : α) (hv : v ≠ d) :
    (m.set d k v).set d k w = m.set d k w := by
  unfold SMap.set
  rw [if_neg hv]
  split
  · exact erase_insert m k v
  · exact insert_insert m k v w

namespace Machine
namespace State

/-! ### The three commands -/

theorem registerWrite_eq (s : State) (r : Req) (a v : Nat) : exec (.registerWrite r a v) s = done s (s.busPut r a v) := rfl

theorem rcRegisterRead_eq (s : State) (r : Req) (a : Nat) : exec (.rcRegisterRead r a) s = done s (s.busGet r a) := rfl

theorem rlLowRead_eq (s : State) (r : Req) (a : Nat) : exec (.rlLowRead r a) s = done s (s.busGet r a) := rfl

/-! ### Accesses that are refused (Table 1.8) -/

section
variable {s : State} {r : Req} {a k : Nat}

theorem busPut_refused (hl : s.reqLive r = true) (hc : s.busCheck r a true = .error k) (v : Nat) :
    s.busPut r a v = (if k = 4 then s.secEvent (s.reqOwner r) else s).emit (.reg a 0 k) := by
  unfold busPut busWrite
  rw [hl, hc]
  rfl

theorem busGet_refused (hl : s.reqLive r = true) (hc : s.busCheck r a false = .error k) :
    s.busGet r a = (if k = 4 then s.secEvent (s.reqOwner r) else s).emit (.reg a 0 k) := by
  unfold busGet busRead
  rw [hl, hc]
  rfl

end

/-- Row 1: the modes in which no access, or no write, is served. -/
theorem busCheck_notReady {s : State} (r : Req) (a : Nat) {w : Bool}
    (h : s.ms.mode ∈ [.backup, .recall, .lean, .recovery] ∨ (s.ms.mode = .drain ∧ w = true)) : s.busCheck r a w = .error 1 := by
  have h' : s.ms.mode = .backup ∨ s.ms.mode = .recall ∨ s.ms.mode = .lean ∨ s.ms.mode = .recovery ∨ (s.ms.mode = .drain ∧ w = true) := by
    simpa [or_assoc] using h
  unfold busCheck
  exact if_pos h'

section
variable {s : State} {a : Nat} (r : Req) (w : Bool) (hm : s.ms.mode ∉ [.backup, .recall, .lean, .recovery, .drain])
include hm

theorem mode_ready : ¬(s.ms.mode = .backup ∨ s.ms.mode = .recall ∨ s.ms.mode = .lean ∨ s.ms.mode = .recovery ∨ (s.ms.mode = .drain ∧ w = true)) := by
  simp only [List.mem_cons, List.not_mem_nil, or_false, not_or] at hm
  obtain ⟨h1, h2, h3, h4, h5⟩ := hm
  simp [h1, h2, h3, h4, h5]

theorem busCheck_misaligned (ha : a % 4 ≠ 0) : s.busCheck r a w = .error 2 := by
  unfold busCheck
  dsimp only
  rw [if_neg (mode_ready w hm), if_pos ha]

theorem busCheck_unmapped (ha : a % 4 = 0) (hu : 0x7000000 ≤ a ∨ busFind a = none) : s.busCheck r a w = .error 3 := by
  unfold busCheck
  dsimp only
  rw [if_neg (mode_ready w hm), if_neg (not_not.2 ha)]
  by_cases h : 0x7000000 ≤ a
  · rw [if_pos h]
  · rw [if_neg h, hu.resolve_left h]

theorem busCheck_denied {h : RegHit} (ha : a % 4 = 0) (hu : a < 0x7000000) (hf : busFind a = some h)
    (hd : s.blockPerm (s.reqOwner r) (blockOf a) = false ∨ s.instDenied (s.reqOwner r) a h w = true) : s.busCheck r a w = .error 4 := by
  have hd' : (!s.blockPerm (s.reqOwner r) (blockOf a) || s.instDenied (s.reqOwner r) a h w) = true := by simpa using hd
  unfold busCheck
  dsimp only
  rw [if_neg (mode_ready w hm), if_neg (not_not.2 ha), if_neg (Nat.not_le.2 hu), hf]
  exact if_pos hd'

end

/-- RED and MGT are O0's alone (R25). -/
theorem blockPerm_other (s : State) {n : Nat} (hn : 0 < n) : s.blockPerm n 10 = false ∧ s.blockPerm n 15 = false := by
  unfold blockPerm
  simp [Nat.ne_of_gt hn]

theorem blockPerm_o0 (s : State) (b : Nat) : s.blockPerm 0 b = true := rfl

/-! ### Accesses that are performed -/

section
variable {s : State} {r : Req} {a : Nat} {h : RegHit}

theorem busWake_awake (hw : ¬(blockOf a = 0 ∧ (s.bent (h.i / 4)).awake = false)) : s.busWake a h = s :=
  if_neg (by simpa using hw)

theorem busSet_performed (hl : s.reqLive r = true) (hc : s.busCheck r a true = .ok h) (hw : ¬(blockOf a = 0 ∧ (s.bent (h.i / 4)).awake = false))
    (v : Nat) : s.busSet r a v = s.writeNow r a h (v % 2 ^ 32) := by
  rw [busSet, if_pos hl, busWrite, hc]
  exact congrArg (fun t => writeNow t r a h (v % 2 ^ 32)) (busWake_awake hw)

theorem busPut_performed (hl : s.reqLive r = true) (hc : s.busCheck r a true = .ok h) (hw : ¬(blockOf a = 0 ∧ (s.bent (h.i / 4)).awake = false))
    (v : Nat) : s.busPut r a v = (s.writeNow r a h (v % 2 ^ 32)).emit (.reg a 0 0) := by
  unfold busPut busWrite
  rw [hl, hc]
  exact congrArg (fun t => (writeNow t r a h (v % 2 ^ 32)).emit (.reg a 0 0)) (busWake_awake hw)

theorem busGet_performed (hl : s.reqLive r = true) (hc : s.busCheck r a false = .ok h) (hw : ¬(blockOf a = 0 ∧ (s.bent (h.i / 4)).awake = false))
    (hf : s.foreignWord (s.reqOwner r) a h = false) : s.busGet r a = (s.readNow r a h).2.emit (.reg a (s.readNow r a h).1 0) := by
  unfold busGet busRead
  rw [hl, hc]
  dsimp only
  rw [busWake_awake hw, hf]
  rfl

/-! ### Reads (R9, R12) -/

theorem readNow_one (hn : h.desc.base ≠ Reg.NVS_PDATA 0) (hp : h.desc.pair = .one) : s.readNow r a h = (s.regValue a h, s.rcClear a h) := by
  unfold readNow
  rw [if_neg hn, hp]

/-- A read of a low word latches the high word. -/
theorem readNow_lo {h2 : RegHit} (hn : h.desc.base ≠ Reg.NVS_PDATA 0) (hp : h.desc.pair = .lo) (hf : busFind (a + 4) = some h2) :
    s.readNow r a h = (s.regValue a h, s.setReqLat r { s.reqLat r with hi := some (a, s.regValue (a + 4) h2) }) := by
  unfold readNow
  rw [if_neg hn, hp, hf]

/-- A read of a high word gives the latched value of the same quantity. -/
theorem readNow_hi_latched {b x : Nat} (hn : h.desc.base ≠ Reg.NVS_PDATA 0) (hp : h.desc.pair = .hi) (hl : (s.reqLat r).hi = some (b, x)) :
    s.readNow r a h = (if b + 4 = a then x else s.regValue a h, s) := by
  unfold readNow
  rw [if_neg hn, hp, hl]

theorem readNow_hi_unlatched (hn : h.desc.base ≠ Reg.NVS_PDATA 0) (hp : h.desc.pair = .hi) (hl : (s.reqLat r).hi = none) :
    s.readNow r a h = (s.regValue a h, s) := by
  unfold readNow
  rw [if_neg hn, hp, hl]

/-- But for the pace maximum, a read's RC bits are the register's own. -/
theorem rcClear_own (hn : h.desc.base ≠ Reg.ENG_PACEMAX 0) :
    s.rcClear a h = if h.shadow = true ∨ h.desc.rc = 0 then s else s.wr a (s.rd a &&& (0xFFFFFFFF ^^^ h.desc.rc)) := by
  unfold rcClear
  rw [if_neg hn]
  exact if_congr (by simp) rfl rfl

/-! ### Plain writes (R7, R8) -/

theorem sysWriteHook_plain (hb : h.desc.base ∉ actingRegs) (o0 : Bool) (v : Nat) : s.sysWriteHook o0 h v = none := by
  unfold actingRegs at hb
  simp only [List.mem_cons, List.not_mem_nil, or_false, not_or] at hb
  unfold sysWriteHook
  simp only [hb, if_false]

theorem ioWriteHook_plain (hb : h.desc.base ∉ actingRegs) (o0 : Bool) (v : Nat) : s.ioWriteHook o0 h v = none := by
  unfold actingRegs at hb
  simp only [List.mem_cons, List.not_mem_nil, or_false, not_or] at hb
  unfold ioWriteHook
  simp only [hb, if_false]

theorem writeNow_plain (hs : h.shadow = false) (hd : s.itemDefined a h = true) (hp : h.desc.pair = .one) (hb : h.desc.base ∉ actingRegs) (v : Nat) :
    s.writeNow r a h v = s.plainWrite a h v := by
  unfold writeNow
  simp only [hs, hd, hp, sysWriteHook_plain hb, ioWriteHook_plain hb, Bool.not_true, Bool.or_false, Bool.false_eq_true, if_false]

/-! ### 64-bit quantities (R9, R10) -/

/-- A write of a low word waits in the requester's latch. -/
theorem writeNow_lo (hs : h.shadow = false) (hd : s.itemDefined a h = true) (hp : h.desc.pair = .lo) (hw : h.desc.rw ||| h.desc.wo ≠ 0) (v : Nat) :
    s.writeNow r a h v = s.setReqLat r { s.reqLat r with lo := some (a, v &&& (h.desc.rw ||| h.desc.wo)) } := by
  unfold writeNow
  simp only [hs, hd, hp, hw, Bool.not_true, Bool.or_false, Bool.false_eq_true, if_false]

/-- A write of a high word takes the low word that waits. -/
theorem writeNow_hi_held {x : Nat} (hs : h.shadow = false) (hd : s.itemDefined (a + 4) h = true) (hp : h.desc.pair = .hi)
    (hw : h.desc.rw ||| h.desc.wo ≠ 0) (hl : (s.reqLat r).lo = some (a, x)) (v : Nat) :
    s.writeNow r (a + 4) h v =
      (s.setReqLat r { s.reqLat r with lo := none }).wideWrite (a + 4) h (x + (v &&& (h.desc.rw ||| h.desc.wo)) * 2 ^ 32) := by
  unfold writeNow
  simp only [hs, hd, hp, hw, hl, Bool.not_true, Bool.or_false, Bool.false_eq_true, if_false, if_true, Option.isSome_some, Option.getD_some]

/-- With no low word of its own waiting, a write of a high word keeps the low word. -/
theorem writeNow_hi_alone (hs : h.shadow = false) (hd : s.itemDefined (a + 4) h = true) (hp : h.desc.pair = .hi) (hb : h.desc.base ≠ Reg.TIM_CALSEC_H)
    (hw : h.desc.rw ||| h.desc.wo ≠ 0) (hl : ∀ x, (s.reqLat r).lo ≠ some (a, x)) (v : Nat) :
    s.writeNow r (a + 4) h v = s.wideWrite (a + 4) h (s.rd a + (v &&& (h.desc.rw ||| h.desc.wo)) * 2 ^ 32) := by
  unfold writeNow
  simp only [hs, hd, hp, hw, hb, Bool.not_true, Bool.or_false, Bool.false_eq_true, if_false, Nat.add_sub_cancel]
  cases hlo : (s.reqLat r).lo with
  | none => rfl
  | some p =>
    obtain ⟨b, x⟩ := p
    have hba : b ≠ a := fun hba => hl x (hba ▸ hlo)
    have hb4 : ¬b + 4 = a + 4 := by omega
    simp only [hb4, if_false]
    rfl

theorem wideWrite_plain (h1 : h.desc.base ≠ Reg.TIM_CALSEC_H) (h2 : h.desc.base ≠ Reg.NVS_PPWD_H 0) (v : Nat) :
    s.wideWrite (a + 4) h v = s.wr64 a v := by
  unfold wideWrite
  simp only [h1, h2, if_false, Nat.add_sub_cancel]

end

/-- A latch is no register. -/
theorem setReqLat_regs (s : State) (r : Req) (l : Latches) : (s.setReqLat r l).regs = s.regs := by
  cases r <;> rfl

/-- Masking with a mask that holds all 32 bits keeps a 32-bit value. -/
theorem and_full {v m : Nat} (hv : v < 2 ^ 32) (hm : ∀ i < 32, m.testBit i = true) : v &&& m = v := by
  refine Nat.eq_of_testBit_eq fun i => ?_
  rw [Nat.testBit_and]
  by_cases hi : i < 32
  · rw [hm i hi, Bool.and_true]
  · rw [Nat.testBit_lt_two_pow (hv.trans_le (Nat.pow_le_pow_right (by decide) (Nat.not_lt.1 hi))), Bool.false_and]

theorem testBit_full {i : Nat} (hi : i < 32) : (0xFFFFFFFF : Nat).testBit i = true := by
  rw [show (0xFFFFFFFF : Nat) = 2 ^ 32 - 1 from rfl, Nat.testBit_two_pow_sub_one]
  exact decide_eq_true hi

theorem testBit_full_or (m : Nat) {i : Nat} (hi : i < 32) : (0xFFFFFFFF ||| m).testBit i = true := by
  rw [Nat.testBit_or, testBit_full hi, Bool.true_or]

theorem full_or_ne_zero (m : Nat) : (0xFFFFFFFF ||| m) ≠ 0 := fun h => by
  have := testBit_full_or m (i := 0) (by decide)
  rw [h] at this
  cases this

/-- What a plain write stores, bit by bit: RW bits take the value, W1C bits written 1 clear, every other bit stays. -/
theorem plainWrite_bits {s : State} {a v : Nat} {h : RegHit} (ho : s.rd a < 2 ^ 32) :
    ∃ x < 2 ^ 32, s.plainWrite a h (v % 2 ^ 32) = s.wr a x ∧
      ∀ i < 32, x.testBit i = if h.desc.rw.testBit i = true ∧ ¬(v.testBit i = true ∧ h.desc.w1c.testBit i = true) then v.testBit i
        else if h.desc.w1c.testBit i = true ∧ v.testBit i = true then false else (s.rd a).testBit i := by
  have hv : v % 2 ^ 32 < 2 ^ 32 := Nat.mod_lt _ (Nat.two_pow_pos 32)
  refine ⟨_, ?_, rfl, fun i hi => ?_⟩
  · exact Nat.lt_of_le_of_lt Nat.and_le_left (Nat.or_lt_two_pow (Nat.lt_of_le_of_lt Nat.and_le_left ho) (Nat.lt_of_le_of_lt Nat.and_le_left hv))
  · simp only [Nat.testBit_and, Nat.testBit_or, Nat.testBit_xor, testBit_full hi, Nat.testBit_mod_two_pow, hi, decide_true, Bool.true_and]
    cases v.testBit i <;> cases h.desc.rw.testBit i <;> cases h.desc.w1c.testBit i <;> cases (s.rd a).testBit i <;> rfl

/-! ### Both halves written by MGT -/

theorem setReqLat_mgt_busCheck (s : State) (l : Latches) (a : Nat) (w : Bool) : (s.setReqLat .mgt l).busCheck .mgt a w = s.busCheck .mgt a w := rfl

theorem setReqLat_mgt_itemDefined (s : State) (l : Latches) (a : Nat) (h : RegHit) : (s.setReqLat .mgt l).itemDefined a h = s.itemDefined a h := rfl

theorem reqLat_setReqLat_mgt (s : State) (l : Latches) : (s.setReqLat .mgt l).reqLat .mgt = l := by
  unfold reqLat setReqLat setEngLat
  dsimp only
  rw [eng_setEng_same]

/-- Of two latches set the later stands, where the first held a low word. -/
theorem setReqLat_mgt_twice (s : State) {l : Latches} (m : Latches) (h : l.lo ≠ none) :
    (s.setReqLat .mgt l).setReqLat .mgt m = s.setReqLat .mgt m := by
  have hne : ({ s.eng 256 with ctx := { (s.eng 256).ctx with lat := l } } : Engine) ≠ {} := fun he => h (by rw [show l = {} from congrArg (·.ctx.lat) he])
  unfold setReqLat setEngLat
  dsimp only
  rw [eng_setEng_same]
  unfold setEng
  dsimp only
  rw [set_set _ _ _ hne]

/-- MGT writes both halves of a quantity: they take effect at the high word, at one instant. -/
theorem busSet_wide {s : State} {a v : Nat} {h h2 : RegHit} (hv : v < 2 ^ 64) (hc : s.busCheck .mgt a true = .ok h)
    (hc2 : s.busCheck .mgt (a + 4) true = .ok h2) (hs : h.shadow = false) (hs2 : h2.shadow = false) (hp : h.desc.pair = .lo) (hp2 : h2.desc.pair = .hi)
    (hw : h.desc.rw ||| h.desc.wo = 0xFFFFFFFF) (hw2 : h2.desc.rw ||| h2.desc.wo = 0xFFFFFFFF) (hd : s.itemDefined a h = true)
    (hd2 : s.itemDefined (a + 4) h2 = true) (hb : blockOf a ≠ 0) (hb2 : blockOf (a + 4) ≠ 0) :
    (s.busSet .mgt a v).busSet .mgt (a + 4) (v / 2 ^ 32) = (s.setReqLat .mgt { s.reqLat .mgt with lo := none }).wideWrite (a + 4) h2 v := by
  have hlow : s.busSet .mgt a v = s.setReqLat .mgt { s.reqLat .mgt with lo := some (a, v % 2 ^ 32) } := by
    rw [busSet_performed rfl hc (fun hg => hb hg.1), writeNow_lo hs hd hp (hw ▸ by decide), hw,
      and_full (Nat.mod_lt _ (Nat.two_pow_pos 32)) (fun i hi => testBit_full hi)]
  have hhi : v / 2 ^ 32 < 2 ^ 32 := Nat.div_lt_of_lt_mul hv
  rw [hlow, busSet_performed (s := s.setReqLat .mgt _) rfl ((setReqLat_mgt_busCheck s _ _ _).trans hc2) (fun hg => hb2 hg.1),
    writeNow_hi_held hs2 ((setReqLat_mgt_itemDefined s _ _ _).trans hd2) hp2 (hw2 ▸ by decide) (x := v % 2 ^ 32) (by rw [reqLat_setReqLat_mgt]),
    reqLat_setReqLat_mgt, setReqLat_mgt_twice s _ (by simp), hw2, Nat.mod_eq_of_lt hhi, and_full hhi (fun i hi => testBit_full hi), Nat.mod_add_div' v (2 ^ 32)]

/-- A compare unit's target in the register map (Table 15.11). -/
theorem findReg_cutgt : ∀ u < 64, findReg (Reg.TIM_CUTGT u) =
    some { desc := { base := 0x141000, s1 := 0x20, n1 := 64, rw := 0xFFFFFFFF, pair := .lo, scope := .cu }, i := u, j := 0, k := 0, shadow := false } := by
  decide

theorem findReg_cutgtHigh : ∀ u < 64, findReg (Reg.TIM_CUTGT u + 4) =
    some { desc := { base := 0x141004, s1 := 0x20, n1 := 64, rw := 0xFFFFFFFF, pair := .hi, scope := .cu }, i := u, j := 0, k := 0, shadow := false } := by
  decide

theorem blockOf_cutgt {u k : Nat} (hu : u < 64) (hk : k ≤ 4) : blockOf (Reg.TIM_CUTGT u + k) ≠ 0 := by
  have h1 : ¬Reg.TIM_CUTGT u + k < 0x140000 := by simp only [Reg.TIM_CUTGT]; omega
  have h2 : Reg.TIM_CUTGT u + k < 0x180000 := by simp only [Reg.TIM_CUTGT]; omega
  have h3 (b : Nat) (hb : b ≤ 0x140000) : ¬Reg.TIM_CUTGT u + k < b := by omega
  unfold blockOf
  simp only [h1, h2, h3, Nat.reduceLeDiff, if_true, if_false]
  decide

theorem busSet_compareTarget {s : State} {u v : Nat} {h h2 : RegHit} (hu : u < 64) (hv : v < 2 ^ 64)
    (hc : s.busCheck .mgt (Reg.TIM_CUTGT u) true = .ok h) (hc2 : s.busCheck .mgt (Reg.TIM_CUTGT_H u) true = .ok h2) :
    (s.busSet .mgt (Reg.TIM_CUTGT u) v).busSet .mgt (Reg.TIM_CUTGT_H u) (v / 2 ^ 32) =
      (s.setReqLat .mgt { s.reqLat .mgt with lo := none }).wr64 (Reg.TIM_CUTGT u) v := by
  have ha : Reg.TIM_CUTGT_H u = Reg.TIM_CUTGT u + 4 := by simp only [Reg.TIM_CUTGT, Reg.TIM_CUTGT_H]; omega
  rw [ha] at hc2 ⊢
  have hf := findReg_of_busFind (busFind_of_busCheck hc)
  have hf2 := findReg_of_busFind (busFind_of_busCheck hc2)
  rw [findReg_cutgt u hu, Option.some_inj] at hf
  rw [findReg_cutgtHigh u hu, Option.some_inj] at hf2
  subst hf hf2
  rw [busSet_wide hv hc hc2 rfl rfl rfl rfl (Nat.or_zero _) (Nat.or_zero _) rfl rfl (blockOf_cutgt (k := 0) hu (by decide)) (blockOf_cutgt hu (Nat.le_refl 4))]
  exact wideWrite_plain (show 0x141004 ≠ Reg.TIM_CALSEC_H by decide) (show 0x141004 ≠ Reg.NVS_PPWD_H 0 by decide) v

end State
end Machine
end Sys2Proof

open Sys2Proof Sys2Proof.Machine Sys2Proof.Machine.State

/-- Settles O28: a refused access answers its kind, and each row of the table is the lemma of its name above. -/
theorem refusedAccessTouchesNothing : Obligations.RefusedAccessTouchesNothing := by
  unfold Obligations.RefusedAccessTouchesNothing
  refine ⟨fun s r a v k hl hc => congrArg (done s) (busPut_refused hl hc v),
    fun s r a k hl hc => ⟨congrArg (done s) (busGet_refused hl hc), congrArg (done s) (busGet_refused hl hc)⟩, fun s r a w => ?_⟩
  exact ⟨fun h => busCheck_notReady r a h, fun hm ha => busCheck_misaligned r w hm ha, fun hm ha hu => busCheck_unmapped r w hm ha hu,
    fun h hm ha hu hf hd => busCheck_denied r w hm ha hu hf hd, fun n hn => blockPerm_other s hn, fun b => blockPerm_o0 s b⟩

/-- Settles O29: a write that starts nothing is the plain write, bit by bit. -/
theorem writeFollowsAccessTypes : Obligations.WriteFollowsAccessTypes := by
  unfold Obligations.WriteFollowsAccessTypes
  intro s r a v h hl hc hs hd hp hb hw ho
  obtain ⟨x, hx, e, hbits⟩ := plainWrite_bits (v := v) (h := h) ho
  refine ⟨x, ?_, (rd_wr_same s a x).trans (Nat.mod_eq_of_lt hx), hx, fun b hba => rd_wr_other s x hba, hbits⟩
  rw [registerWrite_eq, busPut_performed hl hc hw, writeNow_plain hs hd hp hb, e]

/-- Settles O30: a read that starts nothing answers the register's value, clears its RC bits and keeps to its requester's latch. -/
theorem readClearsAndLatches : Obligations.ReadClearsAndLatches := by
  unfold Obligations.ReadClearsAndLatches
  refine ⟨?rc, ?rl, fun s r a h hp hn => ⟨fun b x hl => readNow_hi_latched hn hp hl, fun hl => readNow_hi_unlatched hn hp hl⟩⟩
  case rc =>
    intro s r a h hl hc hw hf hn hm hp
    rw [rcRegisterRead_eq, busGet_performed hl hc hw hf, readNow_one hn hp, rcClear_own hm]
  case rl =>
    intro s r a h h2 hl hc hf2 hw hf hp hn
    rw [rlLowRead_eq, busGet_performed hl hc hw hf, readNow_lo hn hp hf2]

/-- Settles O31: a low word waits in the latch; the high word takes it along, or keeps the low word that stands. -/
theorem wideWriteAppliesBothHalves : Obligations.WideWriteAppliesBothHalves := by
  unfold Obligations.WideWriteAppliesBothHalves
  refine ⟨?low, ?high, fun s a v hv => rd64_wr64_same s a hv, fun s u v h h2 hu hv hc hc2 => congrArg (done s) (busSet_compareTarget hu hv hc hc2)⟩
  case low =>
    intro s r a v h hl hc hs hd hw hp hrw t
    have hv : v % 2 ^ 32 < 2 ^ 32 := Nat.mod_lt _ (Nat.two_pow_pos 32)
    refine ⟨?_, setReqLat_regs s r _⟩
    rw [registerWrite_eq, busPut_performed hl hc hw, writeNow_lo hs hd hp (hrw ▸ full_or_ne_zero _), hrw, and_full hv fun i hi => testBit_full_or _ hi]
  case high =>
    intro s r a v h hl hc hs hd hw hp hrw hb1 hb2 hv
    have hm : v % 2 ^ 32 &&& (h.desc.rw ||| h.desc.wo) = v := by
      rw [hrw, Nat.mod_eq_of_lt hv, and_full hv fun i hi => testBit_full_or _ hi]
    refine ⟨fun x hx => ?_, fun hx => ?_⟩
    · rw [registerWrite_eq, busPut_performed hl hc hw, writeNow_hi_held hs hd hp (hrw ▸ full_or_ne_zero _) hx, hm, wideWrite_plain hb1 hb2]
    · rw [registerWrite_eq, busPut_performed hl hc hw, writeNow_hi_alone hs hd hp hb1 (hrw ▸ full_or_ne_zero _) hx, hm, wideWrite_plain hb1 hb2]

end

section
/-! SUPPORT. The nine watchdogs (R453 to R457): what a key does in each state of the sequence, and the settings; and O32 and O33, which say so. -/
namespace Sys2Proof.Machine
namespace State

theorem wd_setWd (s : State) (w : Nat) (x : Wdg) : (s.setWd w x).wd w = x := get_set_same _ _ _ _

/-! ### The registers whose writes act -/

section
variable {s : State} {r : Req} {w : Nat}

theorem busSet_wdgKey (hw : s.writes r (Reg.WDG_KEY w) (Reg.WDG_KEY 0) w) (key : Nat) :
    s.busSet r (Reg.WDG_KEY w) key = s.wdgKey w (key % 2 ^ 32 % 65536) := by
  obtain ⟨hit, hb, rfl, hset⟩ := busSet_writes hw
  have hsys (b : Bool) (v : Nat) : s.sysWriteHook b hit v = some (s.wdgKey hit.i (v % 65536)) := by
    unfold sysWriteHook
    rw [hb]
    rfl
  rw [hset, hsys]

theorem busSet_wdgPeriod (hw : s.writes r (Reg.WDG_PERIOD w) (Reg.WDG_PERIOD 0) w) {v : Nat} (hv : v < 2 ^ 26) :
    s.busSet r (Reg.WDG_PERIOD w) v = s.wdgPeriod w v := by
  obtain ⟨hit, hb, rfl, hset⟩ := busSet_writes hw
  have hsys (b : Bool) (v : Nat) : s.sysWriteHook b hit v = some (s.wdgPeriod hit.i (v % 2 ^ 26)) := by
    unfold sysWriteHook
    rw [hb]
    rfl
  rw [hset, hsys, Nat.mod_eq_of_lt (hv.trans (by decide)), Nat.mod_eq_of_lt hv]

theorem busSet_wdgCtl (hw : s.writes r (Reg.WDG_CTL w) (Reg.WDG_CTL 0) w) (v : Nat) :
    s.busSet r (Reg.WDG_CTL w) v = s.wdgCtl w (v % 2 ^ 32) := by
  obtain ⟨hit, hb, rfl, hset⟩ := busSet_writes hw
  have hsys (b : Bool) (v : Nat) : s.sysWriteHook b hit v = some (s.wdgCtl hit.i v) := by
    unfold sysWriteHook
    rw [hb]
    rfl
  rw [hset, hsys]

end

/-! ### Keys (R455, R457) -/

section
variable {s : State} {w key : Nat} (hc : (s.wd w).counting = true)
include hc

theorem wdgElapsed_counting : s.wdgElapsed w = s.mono - (s.wd w).since := by
  unfold wdgElapsed
  exact if_pos hc

theorem wdgOpen_counting : s.wdgOpen w = decide (us (s.wd w).period ≤ 2 * (s.mono - (s.wd w).since)) := by
  rw [wdgOpen, wdgElapsed_counting hc]

/-- A service key in the instant of an expiry that met an armed one is void. -/
theorem wdgKey_void (hv : (s.wd w).lost = some s.mono) : s.wdgKey w 0xC3A5 = s.setWd w { s.wd w with lost := none } := by
  unfold wdgKey
  dsimp only
  rw [hc, if_neg (by decide), if_pos ⟨rfl, hv⟩]

/-- While the window is closed every key is a violation. -/
theorem wdgKey_closed (hv : ¬(key = 0xC3A5 ∧ (s.wd w).lost = some s.mono)) (ho : ¬us (s.wd w).period ≤ 2 * (s.mono - (s.wd w).since)) :
    s.wdgKey w key = s.wdgViolation w := by
  unfold wdgKey
  dsimp only
  rw [wdgOpen_counting hc, decide_eq_false ho, hc, if_neg (by decide), if_neg hv]
  rfl

section
variable (hv : ¬(key = 0xC3A5 ∧ (s.wd w).lost = some s.mono)) (ho : us (s.wd w).period ≤ 2 * (s.mono - (s.wd w).since))
include hv ho

/-- The first key of a sequence, in an open window. -/
theorem wdgKey_first (h1 : (s.wd w).armed ≠ 1) (h2 : (s.wd w).armed ≠ 2) : s.wdgKey w key =
    (let s1 := s.setWd w { s.wd w with winOpen := true }
     if key = 0x5A3C then (s1.setWd w { s1.wd w with armed := 1 }).wdgRegs w
     else if key = 0x96E1 ∧ !(s.wd w).lock then (s1.setWd w { s1.wd w with armed := 2 }).wdgRegs w
     else s1.wdgViolation w) := by
  unfold wdgKey
  dsimp only
  rw [wdgOpen_counting hc, decide_eq_true ho, hc, if_neg (by decide), if_neg hv, if_neg (by decide), if_neg h1, if_neg h2]

/-- The second key of a service: counted, and a full period of the next length starts. -/
theorem wdgKey_service (h1 : (s.wd w).armed = 1) (hk : key = 0xC3A5) : s.wdgKey w key =
    ((((s.setWd w { s.wd w with winOpen := true }).bump (Reg.WDG_SRVCNT w) 1).setWd w { s.wd w with winOpen := true, period := (s.wd w).next }).wr
      (Reg.WDG_PERIOD w) (s.wd w).next).wdgRestart w := by
  have hy : ((s.setWd w { s.wd w with winOpen := true }).bump (Reg.WDG_SRVCNT w) 1).wd w = { s.wd w with winOpen := true } := by
    rw [wd, bump_wdg]
    exact wd_setWd s w _
  unfold wdgKey
  refine (if_neg (by simp [hc])).trans ((if_neg hv).trans ((if_neg (by simp [wdgOpen_counting hc, ho])).trans ((if_pos h1).trans ((if_pos hk).trans ?_))))
  dsimp only at hy ⊢
  rw [hy]

theorem wdgKey_service_wrong (h1 : (s.wd w).armed = 1) (hk : key ≠ 0xC3A5) :
    s.wdgKey w key = (s.setWd w { s.wd w with winOpen := true }).wdgViolation w := by
  unfold wdgKey
  exact (if_neg (by simp [hc])).trans ((if_neg hv).trans ((if_neg (by simp [wdgOpen_counting hc, ho])).trans ((if_pos h1).trans (if_neg hk))))

/-- The second key of a disable. -/
theorem wdgKey_disable (h2 : (s.wd w).armed = 2) : s.wdgKey w key =
    (let s1 := s.setWd w { s.wd w with winOpen := true }
     if key = 0x691E then
       ((s1.setWd w { s1.wd w with en := false, counting := false, winOpen := false, armed := 0 }).setBit (Reg.WDG_CTL w) 0 false).wdgRegs w
     else s1.wdgViolation w) := by
  unfold wdgKey
  dsimp only
  rw [wdgOpen_counting hc, decide_eq_true ho, hc, if_neg (by decide), if_neg hv, if_neg (by decide), if_neg (h2 ▸ by decide), if_pos h2]

end
end

theorem wdgWindow_closed {s : State} {w : Nat} (hc : (s.wd w).counting = true) (hw : (s.wd w).winOpen = false) : s.wdgWindow w =
    ((s.advanceMono ((s.wd w).since + us (s.wd w).period / 2)).setWd w { s.wd w with winOpen := true }).wdgRegs w := by
  unfold wdgWindow
  exact if_pos (by rw [hc, hw]; rfl)

/-! ### Settings (R456) -/

theorem wdgPeriod_taken {s : State} {w v : Nat} (hc : (s.wd w).counting = true) (ho : us (s.wd w).period ≤ 2 * (s.mono - (s.wd w).since))
    (h1 : 100 ≤ v) (h2 : v ≤ 60000000) : s.wdgPeriod w v = (s.setWd w { s.wd w with next := v }).wr (Reg.WDG_PERIOD w) v := by
  unfold wdgPeriod
  exact if_pos (by simp [hc, wdgOpen_counting hc, ho, h1, h2])

theorem wdgPeriod_rejected {s : State} {w v : Nat}
    (h : (s.wd w).counting = false ∨ 2 * (s.mono - (s.wd w).since) < us (s.wd w).period ∨ v < 100 ∨ 60000000 < v) :
    s.wdgPeriod w v = s.setBit (Reg.WDG_STAT w) 18 true := by
  unfold wdgPeriod
  refine if_neg fun hn => ?_
  simp only [Bool.and_eq_true, decide_eq_true_eq] at hn
  obtain ⟨⟨⟨hc, ho⟩, h1⟩, h2⟩ := hn
  rw [wdgOpen_counting hc, decide_eq_true_eq] at ho
  simp only [hc, Bool.true_eq_false, false_or] at h
  omega

/-! ### Expiry and fall-back (R453, R457) -/

/-- A period that ends unserved, in the state of its instant: counted, flagged, its source fired with cause 1, and a full period starts. -/
def wdgExpired (s : State) (w : Nat) (x : Wdg) : State :=
  let u := (s.bump (Reg.WDG_EXPCNT w) 1).setBit (Reg.WDG_STAT w) 16 true
  ((u.setWd w { u.wd w with lost := if x.armed = 1 then some u.mono else none }).raise (wdgSource w) 0xFFFF 1).wdgRestart w

theorem wdgExpire_timeBase {s : State} {w : Nat} (hc : (s.wd w).counting = true) (hf : (s.wd w).fallback = false) :
    s.wdgExpire w = (s.advanceMono ((s.wd w).since + us (s.wd w).period)).wdgExpired w (s.wd w) := by
  unfold wdgExpire
  dsimp only
  rw [hc, hf]
  rfl

theorem wdgExpire_fallback {s : State} {w : Nat} (hc : (s.wd w).counting = true) (hf : (s.wd w).fallback = true) :
    let per := us (s.wd w).period
    let b := per / 10 + us 10
    s.wdgExpire w = (({ s with free := s.free + 1 } : State).advanceMono ((s.wd w).since + (per - b + s.fresh.1 % (2 * b + 1)))).wdgExpired w (s.wd w) := by
  unfold wdgExpire
  dsimp only
  rw [hc, hf]
  rfl

end State
end Sys2Proof.Machine

open Sys2Proof Sys2Proof.Machine Sys2Proof.Machine.State

/-- Settles O32: each key by what the sequence stands at, each clause by the lemma of its case. -/
theorem watchdogKeysServeOrViolate : Obligations.WatchdogKeysServeOrViolate := by
  unfold Obligations.WatchdogKeysServeOrViolate
  intro s r w hw hc x op void s1
  have harm : exec (.serviceArm r w) s = done s (s.wdgKey w 0x5A3C) := congrArg (done s) (busSet_wdgKey hw _)
  have hser : exec (.service r w) s = done s (s.wdgKey w 0xC3A5) := congrArg (done s) (busSet_wdgKey hw _)
  have hdarm : exec (.disableArm r w) s = done s (s.wdgKey w 0x96E1) := congrArg (done s) (busSet_wdgKey hw _)
  have hdis : exec (.wdgDisable r w) s = done s (s.wdgKey w 0x691E) := congrArg (done s) (busSet_wdgKey hw _)
  have hs1 : s1.wd w = { x with winOpen := true } := wd_setWd s w _
  have other {key : Nat} (hk : key ≠ 0xC3A5) : ¬(key = 0xC3A5 ∧ x.lost = some s.mono) := fun h => hk h.1
  have real {key : Nat} (hv : ¬void) : ¬(key = 0xC3A5 ∧ x.lost = some s.mono) := fun h => hv h.2
  rw [harm, hser, hdarm, hdis]
  refine ⟨fun ho ha => ?_, fun ho ha hl => ?_, fun ho ha hv => ?_, fun ho ha => ?_, fun ho => ?_, fun ho => ⟨fun h1 h2 => ?_, fun h1 => ?_, fun h2 => ?_⟩,
    fun hv => congrArg (done s) (wdgKey_void hc hv), fun h => congrArg (done s) (wdgWindow_closed hc h)⟩
  · rw [wdgKey_first hc (other (by decide)) ho (ha ▸ by decide) (ha ▸ by decide)]
    rfl
  · rw [wdgKey_first hc (other (by decide)) ho (ha ▸ by decide) (ha ▸ by decide)]
    dsimp only
    rw [if_neg (by decide), if_pos ⟨rfl, by rw [hl]; rfl⟩]
  · rw [wdgKey_service hc (real hv) ho ha rfl, hs1]
    rfl
  · rw [wdgKey_disable hc (other (by decide)) ho ha]
    rfl
  · exact ⟨congrArg (done s) (wdgKey_closed hc (other (by decide)) ho), fun hv => congrArg (done s) (wdgKey_closed hc (real hv) ho),
      congrArg (done s) (wdgKey_closed hc (other (by decide)) ho), congrArg (done s) (wdgKey_closed hc (other (by decide)) ho)⟩
  · have hf {key : Nat} (hv : ¬(key = 0xC3A5 ∧ x.lost = some s.mono)) := wdgKey_first hc hv ho h1 h2
    refine ⟨fun hv => ?_, ?_, fun hl => ?_⟩
    · rw [hf (real hv)]
      rfl
    · rw [hf (other (by decide))]
      rfl
    · rw [hf (other (by decide))]
      dsimp only
      rw [if_neg (by decide), if_neg fun h => by rw [hl] at h; exact absurd h.2 (by decide)]
  · have hf {key : Nat} (hk : key ≠ 0xC3A5) := congrArg (done s) (wdgKey_service_wrong hc (other hk) ho h1 hk)
    exact ⟨hf (by decide), hf (by decide), hf (by decide)⟩
  · have hf {key : Nat} (hv : ¬(key = 0xC3A5 ∧ x.lost = some s.mono)) := wdgKey_disable hc hv ho h2
    refine ⟨?_, fun hv => ?_, ?_⟩
    · rw [hf (other (by decide))]
      rfl
    · rw [hf (real hv)]
      rfl
    · rw [hf (other (by decide))]
      rfl

/-- Settles O33: the settings by what their registers' writes do, the expiry on each oscillator by the length of the period it ends. -/
theorem watchdogSettingsAndExpiry : Obligations.WatchdogSettingsAndExpiry := by
  unfold Obligations.WatchdogSettingsAndExpiry
  refine ⟨fun s r w v hw hv => ?period, fun s r w hw => ?ctl, fun s w => ?run⟩
  case period =>
    have he : exec (.wdgPeriod r w v) s = done s (s.wdgPeriod w v) := congrArg (done s) (busSet_wdgPeriod hw hv)
    rw [he]
    exact ⟨fun hc ho h1 h2 => congrArg (done s) (wdgPeriod_taken hc ho h1 h2), fun h => congrArg (done s) (wdgPeriod_rejected h)⟩
  case ctl =>
    have hl : exec (.wdgLock r w) s = done s (s.wdgLock w) := congrArg (done s) (busSet_wdgCtl hw _)
    have he : exec (.wdgEnable r w) s = done s (s.wdgEnable w) := congrArg (done s) (busSet_wdgCtl hw _)
    rw [hl, he]
    exact ⟨rfl, fun h => congrArg (done s) (if_pos h), fun h => congrArg (done s) (if_neg (by simp [h]))⟩
  case run =>
    refine ⟨fun hc hf => congrArg (done s) (wdgExpire_timeBase hc hf), rfl, fun hf => congrArg (done s) (if_neg (by simp [hf])),
      fun hf => congrArg (done s) (if_pos hf), fun hc hf hp => ?_⟩
    refine ⟨_, ?_, ?_, congrArg (done s) (wdgExpire_fallback hc hf)⟩
    · omega
    · have hm := Nat.mod_lt s.fresh.1 (show 0 < 2 * (us (s.wd w).period / 10 + us 10) + 1 by omega)
      have hb : us (s.wd w).period / 10 + us 10 ≤ us (s.wd w).period := by
        unfold us
        omega
      omega

end

section
/-! SUPPORT. Firings (R438 to R446): one firing is counted, captured and put in the intake, and nothing follows from it in a calm device; and O34, which
says so. -/
namespace Sys2Proof.Machine

/-- Register writes change the registers alone. -/
theorem forEach_wr {α : Type} (addr val : α → Nat) (l : List α) (s : State) :
    ∃ r, forEach l (fun s x => s.wr (addr x) (val x)) s = ({ s with regs := r } : State) := by
  unfold forEach
  induction l generalizing s with
  | nil => exact ⟨s.regs, rfl⟩
  | cons a l ih => exact ih (s.wr (addr a) (val a))

theorem forEach_one {α : Type} (f : State → α → State) (x : α) (s : State) : forEach [x] f s = f s x := rfl

namespace State

theorem wr_eq (s : State) (a v : Nat) : ∃ r, s.wr a v = ({ s with regs := r } : State) := ⟨_, rfl⟩

theorem setBit_eq (s : State) (a i : Nat) (b : Bool) : ∃ r, s.setBit a i b = ({ s with regs := r } : State) := wr_eq _ _ _

/-! ### Counting and capture -/

theorem scnt_ne_sstat (f : Nat) : Reg.FLT_SCNT f ≠ Reg.FLT_SSTAT f := by
  unfold Reg.FLT_SCNT Reg.FLT_SSTAT
  omega

theorem rd_setFlt (s : State) (x : Flt) (a : Nat) : (s.setFlt x).rd a = s.rd a := rfl

theorem rd_countFiring (s : State) (f : Firing) (a : Nat) : (s.countFiring f).rd a =
    (((s.bump (Reg.FLT_SCNT f.src) 1).setBit (Reg.FLT_SSTAT f.src) 16 true).setBit (Reg.FLT_SSTAT f.src) 0 true).rd a := by
  unfold countFiring
  exact rd_setFlt _ _ a

/-- Counting changes registers and the instants of the last firings, nothing else. -/
theorem countFiring_eq (s : State) (f : Firing) :
    ∃ r l, s.countFiring f = ({ s with regs := r, flt := { s.flt with lastFire := l } } : State) := by
  unfold countFiring
  obtain ⟨r1, h1⟩ := wr_eq s (Reg.FLT_SCNT f.src) (sat32 (s.rd (Reg.FLT_SCNT f.src) + 1))
  rw [bump, h1]
  obtain ⟨r2, h2⟩ := setBit_eq ({ s with regs := r1 } : State) (Reg.FLT_SSTAT f.src) 16 true
  dsimp only
  rw [h2]
  obtain ⟨r3, h3⟩ := setBit_eq ({ s with regs := r2 } : State) (Reg.FLT_SSTAT f.src) 0 true
  rw [h3]
  exact ⟨_, _, rfl⟩

theorem rd_countFiring_count (s : State) (f : Firing) :
    (s.countFiring f).rd (Reg.FLT_SCNT f.src) = min (s.rd (Reg.FLT_SCNT f.src) + 1) 0xFFFFFFFF := by
  have hne := scnt_ne_sstat f.src
  rw [rd_countFiring, setBit, setFld, rd_wr_other _ _ hne, setBit, setFld, rd_wr_other _ _ hne, bump, rd_wr_same]
  unfold sat32
  split <;> omega

/-- FIRED. -/
theorem countFiring_fired (s : State) (f : Firing) : ((s.countFiring f).rd (Reg.FLT_SSTAT f.src)).testBit 16 = true := by
  rw [rd_countFiring, testBit_rd_setBit_other _ _ 0 true (by decide) (by decide), testBit_rd_setBit_same _ _ true (by decide)]

/-- Active. -/
theorem countFiring_active (s : State) (f : Firing) : ((s.countFiring f).rd (Reg.FLT_SSTAT f.src)).testBit 0 = true := by
  rw [rd_countFiring, testBit_rd_setBit_same _ _ true (by decide)]

section
variable {s : State} {h : HistEnt}

theorem firstError_kept (hk : s.flt.first.isSome = true ∨ h.cls < 3) : s.firstError h = s := by
  unfold firstError
  exact if_pos (by simpa using hk)

theorem firstError_taken (hn : s.flt.first = none) (hc : 3 ≤ h.cls) : s.firstError h =
    (forEach (histWords h).zipIdx (fun s w => s.wr (Reg.FLT_FE w.2) w.1) (s.setFlt { s.flt with first := some h })).setBit Reg.FLT_STAT 1 true := by
  unfold firstError
  exact if_neg (by simp [hn, Nat.not_lt.2 hc])

theorem firstError_first (hn : s.flt.first = none) (hc : 3 ≤ h.cls) : (s.firstError h).flt.first = some h := by
  obtain ⟨r, hr⟩ := forEach_wr (fun w : Nat × Nat => Reg.FLT_FE w.2) (fun w => w.1) (histWords h).zipIdx (s.setFlt { s.flt with first := some h })
  rw [firstError_taken hn hc, setBit_flt, hr]
  rfl

end

/-- The capture changes registers and the first error, nothing else. -/
theorem firstError_eq (s : State) (h : HistEnt) : ∃ r x, s.firstError h = ({ s with regs := r, flt := { s.flt with first := x } } : State) := by
  unfold firstError
  split
  · exact ⟨s.regs, s.flt.first, rfl⟩
  · obtain ⟨r, hr⟩ := forEach_wr (fun w : Nat × Nat => Reg.FLT_FE w.2) (fun w => w.1) (histWords h).zipIdx (s.setFlt { s.flt with first := some h })
    dsimp only
    rw [hr]
    exact ⟨_, some h, rfl⟩

/-! ### One firing in a calm device -/

/-- The state after a firing's capture and its entry in the intake. -/
def firingLogged (s : State) (f : Firing) : State :=
  let t := s.countFiring f
  let h := t.histEntry f s.flt.lostBefore false
  (t.firstError h).setFlt { (t.firstError h).flt with intake := s.flt.intake ++ [h], lostBefore := false }

section
variable {s : State} {f : Firing}

theorem faultTriggers_none (h : s.cfg.trigs = []) (f : Firing) : s.faultTriggers f = s := by
  unfold faultTriggers
  dsimp only
  rw [h]
  rfl

theorem reactionAllowed_none (hr : (s.srcCfg f.src).react = 0) : s.reactionAllowed f = true := by
  unfold reactionAllowed
  dsimp only
  rw [hr]
  rfl

theorem reactBatch_none (hr : (s.srcCfg f.src).react = 0) (hm : s.ms.mode ≠ .hold) : s.reactBatch [f] = s := by
  unfold reactBatch
  simp [reactionAllowed_none hr, hr, hm, forEach]

theorem logFiring_room (hi : s.flt.intake.length < 16) (notDone : Bool) :
    let h := s.histEntry f s.flt.lostBefore notDone
    s.logFiring f notDone =
      (false, (s.firstError h).setFlt { (s.firstError h).flt with intake := s.flt.intake ++ [h], lostBefore := false }) := by
  intro h
  obtain ⟨r, x, he⟩ := firstError_eq s h
  have hin : (s.firstError h).flt.intake = s.flt.intake := by rw [he]
  unfold logFiring
  change (if (s.firstError h).flt.intake.length < 16 then _ else _) = _
  rw [hin]
  exact if_pos hi

theorem reactTask_none (hr : (s.srcCfg f.src).react = 0) (hi : s.flt.intake.length < 16) :
    s.reactTask f true = (s.logFiring f false).2 := by
  have hn : ¬((s.srcCfg f.src).react = 1) := by simp [hr]
  have hd : ¬(3 ≤ (s.srcCfg f.src).react) := by simp [hr]
  unfold reactTask
  dsimp only
  simp only [hn, hd, false_and, and_false, if_false, Bool.not_true, logFiring_room hi, Bool.false_eq_true]

/-- A firing without reaction or trigger is counted and logged. -/
theorem takeInstant_logs (hr : (s.srcCfg f.src).react = 0) (hm : s.ms.mode ≠ .hold) (ht : s.cfg.trigs = []) (hi : s.flt.intake.length < 16) :
    s.takeInstant [f] = s.firingLogged f := by
  obtain ⟨r, l, he⟩ := countFiring_eq s f
  have hr' : ((s.countFiring f).srcCfg f.src).react = 0 := by rw [he]; exact hr
  have hm' : (s.countFiring f).ms.mode ≠ .hold := by rw [he]; exact hm
  have hi' : (s.countFiring f).flt.intake.length < 16 := by rw [he]; exact hi
  have htr : (s.countFiring f).faultTriggers f = s.countFiring f := faultTriggers_none (by rw [he]; exact ht) f
  have hin : (s.countFiring f).flt.intake = s.flt.intake := by rw [he]
  have hlo : (s.countFiring f).flt.lostBefore = s.flt.lostBefore := by rw [he]
  unfold takeInstant
  dsimp only
  rw [forEach_one, htr, List.map_singleton, reactionAllowed_none hr', reactBatch_none hr' hm', List.zip_cons_cons, List.zip_nil_left, forEach_one]
  dsimp only
  rw [reactTask_none hr' hi', logFiring_room hi', hin, hlo]
  rfl

/-- It changes registers and the fault bookkeeping, nothing else. -/
theorem firingLogged_eq (s : State) (f : Firing) : ∃ r x, s.firingLogged f = ({ s with regs := r, flt := x } : State) := by
  obtain ⟨r, l, hc⟩ := countFiring_eq s f
  obtain ⟨r2, x, he⟩ := firstError_eq (s.countFiring f) ((s.countFiring f).histEntry f s.flt.lostBefore false)
  unfold firingLogged
  dsimp only
  rw [he, hc]
  exact ⟨_, _, rfl⟩

/-- Nothing follows from it. -/
theorem firingLogged_calm (hc : s.calm = true) : (s.firingLogged f).calm = true := by
  obtain ⟨r, x, he⟩ := firingLogged_eq s f
  rw [he]
  exact hc

theorem firingLogged_pending : (s.firingLogged f).pending = s.pending := by
  obtain ⟨r, x, he⟩ := firingLogged_eq s f
  rw [he]

end

theorem calm_raised {s : State} (h : s.calm = true) : s.raised = [] := by
  simp only [calm, Bool.and_eq_true, List.isEmpty_iff] at h
  exact h.1.1.1.1.1

/-- The one firing raised is what FLT takes. -/
theorem takeFirings_one {s : State} {f : Firing} (h : s.raised = []) : ({ s with raised := [f] } : State).takeFirings = s.takeInstant [f] := by
  have e : sameInstant f.at_ [f] = ([f], []) := by simp [sameInstant]
  unfold takeFirings
  change (let (now_, later) := sameInstant f.at_ [f]; ({ s with raised := later } : State).takeInstant now_) = _
  rw [e, ← h]

/-- A round that brings a calm state ends the rounds. -/
theorem settle_of_takeFirings {s u : State} (h : s.takeFirings = u) (hc : u.calm = true) : s.settle = u := by
  have ho : s.settleOnce = u := by
    have hu : u.settleOnce = u := settleOnce_calm hc
    rw [settleOnce, takeFirings_calm (calm_raised hc)] at hu
    rw [settleOnce, h, hu]
  show s.settleN (s.raised.length + 63 + 1) = u
  simp only [settleN, ho, calm_raised hc, List.isEmpty_nil, if_true]

theorem faultFiring_eq {s : State} {src : Nat} (ha : srcAssigned src = true) (task d1 d2 : Nat) :
    exec (.faultFiring src task d1 d2) s = done s (s.raise src task d1 d2) := by
  have h : exec (.faultFiring src task d1 d2) s = done s (s.firing src task d1 d2) := rfl
  rw [h, firing, if_pos ha]

/-- A firing in a calm device is the whole of its command. -/
theorem faultFiring_logs {s : State} {src task d1 d2 : Nat} (hc : s.calm = true) (ha : srcAssigned src = true) (hr : (s.srcCfg src).react = 0)
    (hm : s.ms.mode ≠ .hold) (ht : s.cfg.trigs = []) (hi : s.flt.intake.length < 16) :
    exec (.faultFiring src task d1 d2) s = .next (s.firingLogged { src := src, at_ := s.now, task := task, det1 := d1, det2 := d2 }) := by
  let f : Firing := { src := src, at_ := s.now, task := task, det1 := d1, det2 := d2 }
  have hs : s.raise src task d1 d2 = ({ s with raised := [f] } : State) := by
    rw [raise, calm_raised hc]
    rfl
  have hl : (s.raise src task d1 d2).takeFirings = s.firingLogged f := by
    rw [hs, takeFirings_one (calm_raised hc), takeInstant_logs hr hm ht hi]
  obtain ⟨r, x, he⟩ := firingLogged_eq s f
  rw [faultFiring_eq ha, done, settle_of_takeFirings hl (firingLogged_calm hc), he]

/-! ### The history queue, storms, activity -/

/-- The queue takes the oldest entry; an owner without a ring gets no copy. -/
theorem historyWrite_takes {s : State} {h : HistEnt} {rest : List HistEnt} (hi : s.flt.intake = h :: rest) (hn : s.cfg.hring.find? h.owner = none) :
    let t := s.advance (s.now + nsec 100)
    let slot := s.rd64 Reg.FLT_HCOUNT % 64
    let u := t.setFlt { t.flt with intake := rest, hist := t.flt.hist.insert slot h }
    s.historyWrite = (forEach (histWords h).zipIdx (fun s w => s.wr (Reg.FLT_HIST slot w.2) w.1) u).bump64 Reg.FLT_HCOUNT 1 := by
  intro t slot u
  obtain ⟨r, hr⟩ := forEach_wr (fun w : Nat × Nat => Reg.FLT_HIST slot w.2) (fun w => w.1) (histWords h).zipIdx u
  have hc : ((forEach (histWords h).zipIdx (fun s w => s.wr (Reg.FLT_HIST slot w.2) w.1) u).bump64 Reg.FLT_HCOUNT 1).cfg.hring.find? h.owner = none := by
    rw [bump64_cfg, hr]
    exact hn
  unfold historyWrite
  rw [hi]
  dsimp only
  split
  case h_1 q hq => exact absurd (hc.symm.trans hq) (by simp)
  case h_2 => rfl

theorem stormEnd_storm {s : State} (h : s.flt.storm = true) : s.stormEnd =
    (let t := s.advanceMono (s.flt.lastLoss + msec 10); (t.setFlt { t.flt with storm := false }).setBit Reg.FLT_STAT 2 false) := by
  unfold stormEnd
  exact if_pos h

theorem sourceInactive_found {s : State} {f at_ cls : Nat} (h : s.flt.lastFire.find? f = some (at_, cls)) : s.sourceInactive f =
    (let t := s.advanceMono (at_ + s.actAge)
     (t.setFlt { t.flt with lastFire := t.flt.lastFire.erase f }).setBit (Reg.FLT_SSTAT f) 0 (s.flt.force.contains f)) := by
  unfold sourceInactive
  rw [h]
  rfl

end State
end Sys2Proof.Machine

open Sys2Proof Sys2Proof.Machine Sys2Proof.Machine.State

/-- Settles O34: one firing through FLT, then the queue, the storm and the activity by the lemmas above. -/
theorem firingsAreCountedAndLogged : Obligations.FiringsAreCountedAndLogged := by
  unfold Obligations.FiringsAreCountedAndLogged
  refine ⟨?firing, ?write, ?storm, ?inactive⟩
  case write =>
    intro s h rest hi hn
    exact congrArg (done s) (historyWrite_takes hi hn)
  case storm =>
    intro s h
    exact congrArg (done s) (stormEnd_storm h)
  case inactive =>
    intro s f at_ cls h
    exact congrArg (done s) (sourceInactive_found h)
  case firing =>
    intro s src task d1 d2 hc ha hr hm ht hi f t h
    obtain ⟨r, l, he⟩ := countFiring_eq s f
    have hcls : h.cls = (s.srcCfg src).cls := by
      change ((s.countFiring f).srcCfg src).cls = _
      rw [he]
      rfl
    have hfirst : t.flt.first = s.flt.first := by
      change (s.countFiring f).flt.first = _
      rw [he]
    exact ⟨faultFiring_logs hc ha hr hm ht hi, rd_countFiring_count s f, countFiring_fired s f, countFiring_active s f,
      fun hk => firstError_kept (by rwa [hfirst, hcls]), fun hn h3 => firstError_first (hfirst.trans hn) (by rwa [hcls])⟩

end

section
/-! SUPPORT. Force bits, the first error's clear and plumbs (R443, R446, R451); and O35, which says what they do. -/
namespace Sys2Proof

/-- In a canonical map a listed entry is the one its key finds. -/
theorem find_of_mem {α : Type} {m : SMap α} {lo k : Nat} {v : α} (hs : m.sortedFrom lo = true) (h : (k, v) ∈ m) : SMap.find? m k = some v := by
  have low {m : SMap α} {lo : Nat} (hs : m.sortedFrom lo = true) : ∀ p ∈ m, lo ≤ p.1 := by
    induction m generalizing lo with
    | nil => simp
    | cons p rest ih =>
      simp only [SMap.sortedFrom, Bool.and_eq_true, decide_eq_true_eq] at hs
      intro q hq
      rcases List.mem_cons.1 hq with rfl | hq
      · exact hs.1
      · have := ih hs.2 q hq
        omega
  induction m generalizing lo with
  | nil => simp at h
  | cons p rest ih =>
    obtain ⟨j, w⟩ := p
    simp only [SMap.sortedFrom, Bool.and_eq_true, decide_eq_true_eq] at hs
    rcases List.mem_cons.1 h with he | hr
    · obtain ⟨rfl, rfl⟩ := Prod.mk.inj he
      exact if_pos rfl
    · have hlt : j + 1 ≤ k := low hs.2 _ hr
      exact (if_neg (by omega)).trans (ih hs.2 hr)

namespace Machine
namespace State

/-! ### The copy of the counters -/

/-- One register into its shadow. -/
def plumbOne (m : SMap Nat) (p : Nat × Nat) : SMap Nat :=
  match shadowOf p.1 with
  | some b => SMap.set (regReset b) m b p.2
  | none => m

theorem plumbOne_other {m : SMap Nat} {p : Nat × Nat} {c : Nat} (h : shadowOf p.1 ≠ some c) :
    (plumbOne m p).get (regReset c) c = m.get (regReset c) c := by
  unfold plumbOne
  split
  case h_1 b hb =>
    unfold SMap.get
    rw [find_set_other _ _ _ fun e => h (hb.trans (congrArg some e.symm))]
  case h_2 => rfl

theorem plumbOne_same {m : SMap Nat} {p : Nat × Nat} {b : Nat} (h : shadowOf p.1 = some b) : (plumbOne m p).get (regReset b) b = p.2 := by
  unfold plumbOne
  rw [h]
  exact get_set_same _ _ _ _

theorem foldl_plumbOne_other {l : List (Nat × Nat)} {c : Nat} (h : ∀ p ∈ l, shadowOf p.1 ≠ some c) (m : SMap Nat) :
    (l.foldl plumbOne m).get (regReset c) c = m.get (regReset c) c := by
  induction l generalizing m with
  | nil => rfl
  | cons p l ih => rw [List.foldl_cons, ih fun q hq => h q (List.mem_cons_of_mem _ hq), plumbOne_other (h p List.mem_cons_self)]

/-- Where all the registers of a shadow hold `v`, the shadow reads `v` after the copy. -/
theorem foldl_plumbOne_same {l : List (Nat × Nat)} {b v : Nat} (hex : ∃ p ∈ l, shadowOf p.1 = some b)
    (hall : ∀ p ∈ l, shadowOf p.1 = some b → p.2 = v) (m : SMap Nat) : (l.foldl plumbOne m).get (regReset b) b = v := by
  induction l generalizing m with
  | nil => simp at hex
  | cons p l ih =>
    have hall' : ∀ q ∈ l, shadowOf q.1 = some b → q.2 = v := fun q hq => hall q (List.mem_cons_of_mem _ hq)
    rw [List.foldl_cons]
    by_cases hl : ∃ q ∈ l, shadowOf q.1 = some b
    · exact ih hl hall' _
    · rw [foldl_plumbOne_other (by simpa using hl)]
      obtain ⟨q, hq, hqb⟩ := hex
      rcases List.mem_cons.1 hq with rfl | hq
      · rw [plumbOne_same hqb, hall q List.mem_cons_self hqb]
      · exact absurd ⟨q, hq, hqb⟩ hl

theorem rd_plumb (s : State) {c : Nat} (hc : c ∉ [Reg.FLT_PLUMBCNT, Reg.FLT_PLUMBAT, Reg.FLT_PLUMBAT + 4]) :
    s.plumb.rd c = ((s.regs.filter fun p => !isShadow p.1).foldl plumbOne (s.regs.filter fun p => !isShadow p.1)).get (regReset c) c := by
  simp only [List.mem_cons, List.not_mem_nil, or_false, not_or] at hc
  obtain ⟨hc1, hc2, hc3⟩ := hc
  unfold plumb
  rw [wr64, rd_wr_other _ _ hc3, rd_wr_other _ _ hc2, bump, rd_wr_other _ _ hc1]
  exact rd_eq _ c

/-- A shadow of one stored counter reads its value. -/
theorem rd_plumb_shadow {s : State} {a b v : Nat} (hwf : s.regsWf = true) (ha : s.regs.find? a = some v) (hl : isShadow a = false)
    (hs : shadowOf a = some b) (hone : ∀ p ∈ s.regs, p.1 ≠ a → shadowOf p.1 ≠ some b)
    (hb : b ∉ [Reg.FLT_PLUMBCNT, Reg.FLT_PLUMBAT, Reg.FLT_PLUMBAT + 4]) : s.plumb.rd b = v := by
  simp only [regsWf, SMap.wf, Bool.and_eq_true] at hwf
  obtain ⟨⟨hsort, -⟩, -⟩ := hwf
  rw [rd_plumb s hb]
  refine foldl_plumbOne_same ⟨(a, v), List.mem_filter.2 ⟨find_mem ha, by simp [hl]⟩, hs⟩ (fun p hp hpb => ?_) _
  have hm := List.mem_of_mem_filter hp
  by_cases e : p.1 = a
  · have hf : s.regs.find? a = some p.2 := e ▸ find_of_mem hsort hm
    exact Option.some.inj (hf.symm.trans ha)
  · exact absurd hpb (hone p hm e)

theorem rd_plumb_other {s : State} {c : Nat} (hl : isShadow c = false) (hn : ∀ p ∈ s.regs, shadowOf p.1 ≠ some c)
    (hc : c ∉ [Reg.FLT_PLUMBCNT, Reg.FLT_PLUMBAT, Reg.FLT_PLUMBAT + 4]) : s.plumb.rd c = s.rd c := by
  rw [rd_plumb s hc, foldl_plumbOne_other fun p hp => hn p (List.mem_of_mem_filter hp), rd_eq, SMap.get, find_filter_key s.regs (fun a => !isShadow a), hl]
  rfl

/-! ### The registers whose writes act -/

section
variable {s : State} {r : Req}

theorem busSet_sforce {f : Nat} (hw : s.writes r (Reg.FLT_SFORCE f) (Reg.FLT_SFORCE 0) f) (v : Bool) :
    s.busSet r (Reg.FLT_SFORCE f) (b2n v) = s.forceWrite f v := by
  obtain ⟨hit, hb, rfl, hset⟩ := busSet_writes hw
  have hsys (b : Bool) (v : Nat) : s.sysWriteHook b hit v = some (s.forceWrite hit.i (bit v 0)) := by
    unfold sysWriteHook
    rw [hb]
    rfl
  rw [hset, hsys]
  cases v <;> rfl

theorem busSet_feclr (hw : s.writes r Reg.FLT_FECLR Reg.FLT_FECLR 0) : s.busSet r Reg.FLT_FECLR 1 = s.clearFirst := by
  obtain ⟨hit, hb, -, hset⟩ := busSet_writes hw
  have hsys (b : Bool) (v : Nat) : s.sysWriteHook b hit v = some (if bit v 0 then s.clearFirst else s) := by
    unfold sysWriteHook
    rw [hb]
    rfl
  rw [hset, hsys]
  rfl

theorem busSet_plumbctl (hw : s.writes r Reg.FLT_PLUMBCTL Reg.FLT_PLUMBCTL 0) (v : Nat) :
    s.busSet r Reg.FLT_PLUMBCTL v = s.plumbCtl (v % 2 ^ 32) := by
  obtain ⟨hit, hb, -, hset⟩ := busSet_writes hw
  have hsys (b : Bool) (v : Nat) : s.sysWriteHook b hit v = some (s.plumbCtl v) := by
    unfold sysWriteHook
    rw [hb]
    rfl
  rw [hset, hsys]

end

/-! ### The commands of FLT_PLUMBCTL (R451) -/

theorem plumbCtl_now (s : State) : s.plumbCtl 1 = s.plumbNow := rfl

theorem plumbCtl_arm (s : State) : s.plumbCtl 2 = s.plumbArm := rfl

theorem plumbCtl_cancel (s : State) : s.plumbCtl 4 = s.plumbCancel := rfl

theorem plumbNow_within (s : State) : ∃ d, d ≤ us 1 ∧ s.plumbNow = (({ s with free := s.free + 1 } : State).advance (s.now + d)).plumb := by
  have hd (m v : Nat) : v % (m + 1) ≤ m := Nat.lt_succ_iff.1 (Nat.mod_lt v (Nat.succ_pos m))
  unfold plumbNow fresh
  exact ⟨_, hd _ _, rfl⟩

/-- A scheduled plumb copies at the instant its target stands for. (A lemma of its own takes that instant as a variable: the kernel must not compute
with it.) -/
theorem plumbDue_at {s : State} {t at_ : Nat} {late : Bool} (h : s.flt.plumb = some t) (ht : s.targetInstant t = (at_, late)) :
    s.plumbDue = (s.advance at_).plumb.plumbCancel := by
  unfold plumbDue
  revert ht
  generalize s.targetInstant = f
  as_aux_lemma =>
    intro ht
    rw [h]
    dsimp only
    rw [ht]

/-! ### Force bits (R443) -/

section
variable {s : State} {f : Nat}

theorem forceWrite_ignored (h : s.ms.mode ≠ .test ∨ srcAssigned f = false) (v : Bool) : s.forceWrite f v = s.setBit Reg.FLT_STAT 17 true := by
  unfold forceWrite
  exact if_pos h

/-- In Test, for an assigned source: the bit is set; 1 over 0 fires the source, forced. -/
theorem forceWrite_test (hm : s.ms.mode = .test) (ha : srcAssigned f = true) (v : Bool) :
    let rest := s.flt.force.filter (· != f)
    let t := (s.setFlt { s.flt with force := if v then f :: rest else rest }).setBit (Reg.FLT_SFORCE f) 0 v
    s.forceWrite f v = if v = true ∧ f ∉ s.flt.force then { t with raised := t.raised ++ [{ src := f, at_ := t.now, forced := true }] }
      else t.setBit (Reg.FLT_SSTAT f) 0 (t.srcActive f) := by
  intro rest t
  have hraised : t.raised = s.raised := setBit_raised _ _ _ _
  have hnow : t.now = s.now := setBit_now _ _ _ _
  unfold forceWrite
  rw [if_neg (by simp [hm, ha]), hraised, hnow]
  by_cases hv : v = true ∧ f ∉ s.flt.force
  · rw [if_pos hv]
    exact if_pos (by simpa using hv)
  · rw [if_neg hv]
    exact if_neg (by simpa using hv)

end

end State
end Machine
end Sys2Proof

open Sys2Proof Sys2Proof.Machine Sys2Proof.Machine.State

/-- Settles O35: each write by what its register does, the shadows by the copy of the counters. -/
theorem forcesAndPlumbs : Obligations.ForcesAndPlumbs := by
  unfold Obligations.ForcesAndPlumbs
  refine ⟨?force, ?clear, ?plumb, ?scheduled, fun s a b v hwf ha hl hs _ hone hb => rd_plumb_shadow hwf ha hl hs hone hb,
    fun s c hl hn hc => rd_plumb_other hl hn hc⟩
  case force =>
    intro s r f v hw
    have he : exec (.force r f v) s = done s (s.forceWrite f v) := congrArg (done s) (busSet_sforce hw v)
    rw [he]
    exact ⟨fun h => congrArg (done s) (forceWrite_ignored h v), fun hm ha => congrArg (done s) (forceWrite_test hm ha v)⟩
  case clear =>
    intro s r hw
    exact congrArg (done s) (busSet_feclr hw)
  case plumb =>
    intro s r hw
    have hset (v : Nat) (hv : v < 2 ^ 32) : s.busSet r Reg.FLT_PLUMBCTL v = s.plumbCtl v := by rw [busSet_plumbctl hw, Nat.mod_eq_of_lt hv]
    have hnow : exec (.nowPlumb r) s = done s (s.busSet r Reg.FLT_PLUMBCTL 1) := rfl
    have harm : exec (.armPlumb r) s = done s (s.busSet r Reg.FLT_PLUMBCTL 2) := rfl
    have hcancel : exec (.cancelPlumb r) s = done s (s.busSet r Reg.FLT_PLUMBCTL 4) := rfl
    rw [hnow, harm, hcancel, hset 1 (by decide), hset 2 (by decide), hset 4 (by decide), plumbCtl_now, plumbCtl_arm, plumbCtl_cancel]
    obtain ⟨d, hle, hd⟩ := plumbNow_within s
    exact ⟨⟨d, hle, congrArg (done s) hd⟩, rfl, rfl⟩
  case scheduled =>
    intro s t h u
    rcases ht : s.targetInstant t with ⟨at_, late⟩
    have hat : (s.targetInstant t).1 = at_ := by rw [ht]
    have hu : u = (s.advance at_).plumb := congrArg (fun x => (s.advance x).plumb) hat
    have he : exec .scheduledPlumb s = done s s.plumbDue := rfl
    rw [he, plumbDue_at h ht, hu]
    rfl

end

section
/-! SUPPORT. A scantling update (R489 to R495): streaming, the swap, the confirm window and the rollback, and loads that are abandoned; and O40, which says
so. -/
namespace Sys2Proof.Machine
namespace State

section
variable {s : State}

/-- The planes stream within 2 s of the commit. -/
theorem planeStreamed_within (h1 : s.mgt.upd.state = 1) (hb : s.curSlot.bad = 0) : ∃ d ≤ 2 * secU,
    let u := ({ s with free := s.free + 1 } : State).advanceMono (s.mgt.upd.lAt + d)
    let v := u.setStore { u.store with idle := some u.curSlot.scn }
    s.planeStreamed = (v.setMgt { v.mgt with upd := { v.mgt.upd with lAt := v.mono } }).setUpdState 2 := by
  have hd (m v : Nat) : v % (m + 1) ≤ m := Nat.lt_succ_iff.1 (Nat.mod_lt v (Nat.succ_pos m))
  unfold planeStreamed
  rw [if_neg (by simp [h1, hb])]
  exact ⟨_, hd _ _, rfl⟩

theorem updateFail_streaming (h : s.mgt.upd.state = 1) : s.updateFail = s.updFail 7 := by
  unfold updateFail
  exact if_pos h

theorem updateFail_seeking (h : s.mgt.upd.state = 2) : s.updateFail = (s.advanceMono (s.mgt.upd.lAt + 10 * secU)).updFail 2 := by
  unfold updateFail
  rw [if_neg (by simp [h]), if_pos h]

theorem setUpdState_store (s : State) (v : Nat) : (s.setUpdState v).store = s.store := wr_store _ _ _

/-- The slot a state of the update names is the slot its record names. -/
theorem almEvent_setUpdState (s : State) (m : Mgt) (n code block det : Nat) : ((s.setMgt m).setUpdState n).almEvent code block s.store.cur det =
    (let w := (s.setMgt m).setUpdState n; w.almEvent code block w.store.cur det) := by
  have h : ((s.setMgt m).setUpdState n).store = s.store := setUpdState_store _ n
  dsimp only
  rw [h]

/-- A swap at a quiet point within 10 s of L. -/
theorem planeSwap_quiet {x : Scn} (hx : s.store.idle = some x) (h2 : s.mgt.upd.state = 2) (hm : s.swapMode = true) (hq : s.quiet = true)
    (hl : s.mono ≤ s.mgt.upd.lAt + 10 * secU) :
    let u := s.swapNow (fun t => ((t.swapTo x t.curSlot s.mgt.upd.inStop).nvsPark (1 - s.store.cur) x.hdr.setfmt).nvsDropPw)
    let v := u.setStore { u.store with idle := none, prevPlane := some s.cfg }
    let w := (v.setMgt { v.mgt with upd := { v.mgt.upd with winEnd := s.mono + (if x.mode.uconfwin = 0 then 600 else x.mode.uconfwin) * secU } }).setUpdState 3
    s.planeSwap = w.almEvent 0x0100 15 w.store.cur x.hdr.buildid := by
  unfold planeSwap
  rw [hx]
  dsimp only
  rw [if_neg (by simp [h2, hm, hq, Nat.not_lt.2 hl])]
  exact almEvent_setUpdState _ _ 3 0x0100 15 x.hdr.buildid

theorem swapMode_iff : s.swapMode = true ↔ s.ms.mode ∈ [.stop, .run, .shadow, .test] := by
  unfold swapMode
  cases s.ms.mode <;> decide

theorem updateExpire_open (h : s.mgt.upd.state = 3) : s.updateExpire = ((s.advanceMono s.mgt.upd.winEnd).rollbackBegin 4).raise 1927 := by
  unfold updateExpire
  exact if_neg (not_not.2 h)

section
variable (h4 : s.mgt.upd.state = 4) (hf : s.mgt.upd.forced = false)
include h4 hf

theorem rollbackSwap_quiet (hq : s.quiet = true) (hm : s.swapMode = true) (hl : s.mono ≤ s.mgt.upd.rbFrom + 10 * secU) :
    s.rollbackSwap false = s.rollbackNow s.mgt.upd.rbCode := by
  unfold rollbackSwap
  rw [if_neg (not_not.2 h4), hq, hm, hf, decide_eq_true hl]
  rfl

theorem rollbackSwap_forced : s.rollbackSwap true =
    (let u := s.advanceMono (s.mgt.upd.rbFrom + 10 * secU)
     (u.setMgt { u.mgt with upd := { u.mgt.upd with forced := true } }).setBit Reg.MGT_UPDSTAT 17 true) := by
  unfold rollbackSwap
  rw [if_neg (not_not.2 h4), hf]
  rfl

end

theorem scnLoadTimeout_waiting {l : Load} (h : s.store.load = some l) (hv : l.verified = false) :
    s.scnLoadTimeout = (let u := s.advanceMono (l.lastAt + 10 * secU); u.setStore { u.store with load := none }) := by
  unfold scnLoadTimeout
  rw [h]
  dsimp only
  rw [hv]
  rfl

end

end State
end Sys2Proof.Machine

open Sys2Proof Sys2Proof.Machine Sys2Proof.Machine.State

/-- Settles O40: each step of an update by the lemma of its name. -/
theorem updatesSwapConfirmAndRollBack : Obligations.UpdatesSwapConfirmAndRollBack := by
  unfold Obligations.UpdatesSwapConfirmAndRollBack
  refine ⟨?stream, ?fail, ?swap, fun s => swapMode_iff, fun s h => congrArg (done s) (updateExpire_open h), ?rollback, ?load, ?splice⟩
  case stream =>
    intro s h1 hb
    obtain ⟨d, hd, he⟩ := planeStreamed_within h1 hb
    exact ⟨d, hd, congrArg (done s) he⟩
  case fail => exact fun s => ⟨fun h => congrArg (done s) (updateFail_streaming h), fun h => congrArg (done s) (updateFail_seeking h)⟩
  case swap => exact fun s x hx h2 hm hq hl => congrArg (done s) (planeSwap_quiet hx h2 hm hq hl)
  case rollback =>
    exact fun s h4 hf => ⟨fun hq hm hl => congrArg (done s) (rollbackSwap_quiet h4 hf hq hm hl), congrArg (done s) (rollbackSwap_forced h4 hf)⟩
  case load => exact fun s n l hn hl hv => congrArg (done s) ((if_neg (Nat.not_lt.2 hn)).trans (scnLoadTimeout_waiting hl hv))
  case splice => exact fun s n hn => congrArg (done s) (if_pos hn)

end

section
/-! SUPPORT. What every update of the state keeps: a property of the stored registers and of the field I/O state that a register write keeps is kept by every
operation that changes registers only through writes (the lemmas `foo_on`, one for each operation `foo`, in the order of the model). -/
namespace Sys2Proof.Machine

/-- A property of the stored registers and the field I/O state that every write of a register keeps. -/
structure RegProp where
  holds : SMap Nat → Fio → Prop
  write : ∀ {m : SMap Nat} {x : Fio} (a v : Nat), holds m x → holds (SMap.set (regReset a) m a (v % 2 ^ 32)) x

namespace RegProp
open State

/-- The property holds of a state. -/
def On (p : RegProp) (s : State) : Prop := p.holds s.regs s.fio

/-- The end of an instruction's work keeps the property: what follows its completion does. -/
def ResOn (p : RegProp) : Machine.Res → Prop
  | .ok d => ∀ t, p.On t → p.On (d.post t)
  | _ => True

/-- So do an instruction's work and its end. -/
def BodyOn (p : RegProp) (x : Machine.Res × State) : Prop := p.ResOn x.1 ∧ p.On x.2

/-- The state of an answer has the property, where there is one. -/
def OnSome (p : RegProp) (o : Option State) : Prop := ∀ t, o = some t → p.On t

/-- The next state of a command has the property. -/
def EndsOn (p : RegProp) (o : Host.Outcome State Fault Refusal) : Prop := ∀ t, o = .next t → p.On t

/-! ### Branches and loops -/

section
variable {p : RegProp}

/-- Other components do not matter. -/
theorem on_congr {s t : State} (h : p.On s) (hr : t.regs = s.regs) (hf : t.fio = s.fio) : p.On t := by
  unfold On
  rw [hr, hf]
  exact h

theorem on_ite {c : Prop} [Decidable c] {s t : State} (hs : p.On s) (ht : p.On t) : p.On (if c then s else t) := by
  split
  · exact hs
  · exact ht

theorem on_if {c : Prop} [Decidable c] {s t : State} (hs : p.On s) (ht : p.On s → p.On t) : p.On (if c then t else s) := on_ite (ht hs) hs

theorem on_unless {c : Prop} [Decidable c] {s t : State} (hs : p.On s) (ht : p.On s → p.On t) : p.On (if c then s else t) := on_ite hs (ht hs)

theorem on_ite_snd {α : Type} {c : Prop} [Decidable c] {x y : α × State} (hx : p.On x.2) (hy : p.On y.2) : p.On (if c then x else y).2 := by
  split
  · exact hx
  · exact hy

theorem on_ite_snd2 {α β : Type} {c : Prop} [Decidable c] {x y : α × β × State} (hx : p.On x.2.2) (hy : p.On y.2.2) : p.On (if c then x else y).2.2 := by
  split
  · exact hx
  · exact hy

theorem bodyOn_ite {c : Prop} [Decidable c] {x y : Machine.Res × State} (hx : p.BodyOn x) (hy : p.BodyOn y) : p.BodyOn (if c then x else y) := by
  split
  · exact hx
  · exact hy

theorem onSome_none : p.OnSome none := fun _ e => nomatch e

theorem onSome_ite {c : Prop} [Decidable c] {t : State} {o : Option State} (ht : p.On t) (ho : p.OnSome o) : p.OnSome (if c then some t else o) := by
  split
  · intro u e
    injection e with e
    exact e ▸ ht
  · exact ho

theorem snd_on {α : Type} {x : α × State} {a : α} {t : State} (e : x = (a, t)) (h : p.On x.2) : p.On t := by
  subst e
  exact h

theorem snd2_on {α β : Type} {x : α × β × State} {a : α} {b : β} {t : State} (e : x = (a, b, t)) (h : p.On x.2.2) : p.On t := by
  subst e
  exact h

/-- A loop whose every turn keeps the property keeps it. -/
theorem foldl_on {α : Type} {f : State → α → State} (hf : ∀ s x, p.On s → p.On (f s x)) {l : List α} {s : State} (h : p.On s) : p.On (l.foldl f s) := by
  induction l generalizing s with
  | nil => exact h
  | cons x l ih => exact ih (hf s x h)

theorem forEach_on {α : Type} {f : State → α → State} (hf : ∀ s x, p.On s → p.On (f s x)) {l : List α} {s : State} (h : p.On s) :
    p.On (forEach l f s) := foldl_on hf h

theorem foldl_snd_on {α β : Type} {f : β × State → α → β × State} (hf : ∀ y x, p.On y.2 → p.On (f y x).2) {l : List α} {y : β × State} (h : p.On y.2) :
    p.On (l.foldl f y).2 := by
  induction l generalizing y with
  | nil => exact h
  | cons x l ih => exact ih (hf y x h)

end

/-! ### Updates of other components -/

section
variable {p : RegProp} {s : State} (h : p.On s)
include h

theorem with_pending_on {x : List Instr} : p.On ({ s with pending := x } : State) := h

theorem with_free_on {x : Nat} : p.On ({ s with free := x } : State) := h

theorem with_raised_on {x : List Firing} : p.On ({ s with raised := x } : State) := h

theorem with_ms_on {x : ModeSt} : p.On ({ s with ms := x } : State) := h

theorem with_pw_on {x : Power} : p.On ({ s with pw := x } : State) := h

theorem with_cfg_on {x : Scn} : p.On ({ s with cfg := x } : State) := h

theorem with_owners_on {x : SMap Owner} : p.On ({ s with owners := x } : State) := h

theorem with_engines_on {x : SMap Engine} : p.On ({ s with engines := x } : State) := h

theorem with_bents_on {x : SMap Bent} : p.On ({ s with bents := x } : State) := h

theorem with_tasks_on {x : SMap Task} : p.On ({ s with tasks := x } : State) := h

theorem with_progWeak_on {x : List Nat} : p.On ({ s with progWeak := x } : State) := h

theorem with_relHold_on {x : Bool} : p.On ({ s with relHold := x } : State) := h

theorem with_epochMax_on {x : Nat} : p.On ({ s with epochMax := x } : State) := h

theorem with_img_on {x : Img} : p.On ({ s with img := x } : State) := h

theorem with_mmu_on {x : Mmu} : p.On ({ s with mmu := x } : State) := h

theorem with_sto_on {x : Sto} : p.On ({ s with sto := x } : State) := h

theorem with_flt_on {x : Flt} : p.On ({ s with flt := x } : State) := h

theorem with_wdg_on {x : SMap Wdg} : p.On ({ s with wdg := x } : State) := h

theorem with_nvs_on {x : Nvs} : p.On ({ s with nvs := x } : State) := h

theorem with_alm_on {x : Alm} : p.On ({ s with alm := x } : State) := h

theorem with_mgt_on {x : Mgt} : p.On ({ s with mgt := x } : State) := h

theorem with_loops_on {x : SMap Loop} : p.On ({ s with loops := x } : State) := h

theorem with_net_on {x : Net} : p.On ({ s with net := x } : State) := h

theorem with_red_on {x : Red} : p.On ({ s with red := x } : State) := h

theorem with_tim_on {x : Tim} : p.On ({ s with tim := x } : State) := h

theorem with_can_on {x : Can} : p.On ({ s with can := x } : State) := h

theorem with_store_on {x : Store} : p.On ({ s with store := x } : State) := h

theorem with_spl_on {x : SMap Splice} : p.On ({ s with spl := x } : State) := h

theorem with_lor_on {x : SMap LorSess} : p.On ({ s with lor := x } : State) := h

theorem with_now_skew_on {t : Nat} {d : Int} : p.On ({ s with now := t, skew := d } : State) := h

theorem with_mmu_sto_on {x : Mmu} {y : Sto} : p.On ({ s with mmu := x, sto := y } : State) := h

end

/-! ### The registers' canonical form -/

/-- Addresses strictly rising, no entry equal to its reset value, every value of 32 bits. -/
def regForm : RegProp where
  holds m _ := (m.wf regReset && m.all fun e => decide (e.2 < 2 ^ 32)) = true
  write {m x} a v h := by
    simp only [Bool.and_eq_true] at h ⊢
    exact ⟨wf_set h.1, all_set (P := fun v => decide (v < 2 ^ 32)) h.2 (decide_eq_true (Nat.mod_lt v (Nat.two_pow_pos 32)))⟩

theorem regForm_on_iff (s : State) : regForm.On s ↔ s.regsWf = true := Iff.rfl

theorem with_fio_on {s : State} (h : regForm.On s) {x : Fio} : regForm.On ({ s with fio := x } : State) := h


/-! ### Ops -/

section
variable {p : RegProp} {s : State} (h : p.On s)
include h

theorem wr_on {a v : Nat} : p.On (s.wr a v) := p.write a v h

theorem wr64_on {a v : Nat} : p.On (s.wr64 a v) := wr_on (wr_on h)

theorem setFld_on {a lo len v : Nat} : p.On (s.setFld a lo len v) := wr_on h

theorem setBit_on {a i : Nat} {b : Bool} : p.On (s.setBit a i b) := setFld_on h

theorem bump_on {a n : Nat} : p.On (s.bump a n) := wr_on h

theorem bump64_on {a n : Nat} : p.On (s.bump64 a n) := wr64_on h

theorem maxReg_on {a v : Nat} : p.On (s.maxReg a v) := wr_on h

theorem clr_on {a : Nat} : p.On (s.clr a) := wr_on h

theorem advance_on {t : Nat} : p.On (s.advance t) := on_congr h rfl rfl

theorem advanceMono_on {t : Nat} : p.On (s.advanceMono t) := on_congr h rfl rfl

theorem fresh_on : p.On (s.fresh).2 := with_free_on h

theorem freshRow_on : p.On (s.freshRow).2 := with_free_on h

theorem raise_on {src : Nat} {task : optParam Nat 65535} {det1 det2 : optParam Nat 0} : p.On (s.raise src task det1 det2) := with_raised_on h

theorem emit_on {e : Emit} : p.On (s.emit e) := on_congr h rfl rfl

theorem setOwner_on {n : Nat} {o : Owner} : p.On (s.setOwner n o) := with_owners_on h

theorem setEng_on {e : Nat} {x : Engine} : p.On (s.setEng e x) := with_engines_on h

theorem setBent_on {m : Nat} {x : Bent} : p.On (s.setBent m x) := with_bents_on h

theorem setTask_on {k : Nat} {x : Task} : p.On (s.setTask k x) := with_tasks_on h

theorem almEvent_on {code block arg det : Nat} : p.On (s.almEvent code block arg det) :=
  on_ite h (on_ite (maxReg_on (wr_on (with_alm_on h))) (raise_on (setBit_on (bump_on (with_alm_on h)))))

theorem mgtLog_on {code arg det : Nat} : p.On (s.mgtLog code arg det) := wr_on (with_sto_on h)

end

/-! ### Sto -/

section
variable {p : RegProp} {s : State} (h : p.On s)
include h

theorem flushOne_on {share : Nat} : p.On (s.flushOne share) := by
  unfold State.flushOne
  split
  · exact h
  · exact wr_on (with_sto_on h)

theorem flushShare_on {share n : Nat} : p.On (s.flushShare share n) := by
  induction n generalizing s with
  | zero => exact h
  | succ n ih => exact ih (flushOne_on h)

theorem flushAll_on : p.On s.flushAll := flushShare_on (flushShare_on (flushShare_on h))

theorem makeRoom_on {share len n : Nat} : p.On (s.makeRoom share len n) := by
  induction n generalizing s with
  | zero => exact h
  | succ n ih =>
    unfold makeRoom
    exact on_ite (ih (flushOne_on h)) h

theorem stage_on {share len : Nat} {w : StoWrite} : p.On (s.stage share len w) :=
  maxReg_on (wr_on (bump64_on (with_sto_on (makeRoom_on (on_ite (raise_on (setBit_on (bump_on h))) h)))))

theorem stoRead_on {region sector len : Nat} : p.On (s.stoRead region sector len).2 :=
  on_ite_snd (raise_on (setBit_on (bump_on (bump64_on h)))) (on_ite_snd (bump_on (with_sto_on (bump64_on h))) (bump64_on h))

theorem winRegs_on : p.On s.winRegs := forEach_on (fun _ _ h1 => wr_on (wr_on h1)) (wr_on (wr_on h))

theorem releaseWins_on {n : Nat} : p.On (s.releaseWins n) := by
  induction n generalizing s with
  | zero => exact h
  | succ n ih =>
    unfold releaseWins
    refine on_ite ?_ h
    split
    · exact h
    · exact ih (raise_on (setBit_on (bump_on (with_sto_on h))))

theorem trigger_on {n t p' q : Nat} : p.On (s.trigger n t p' q) := on_ite (winRegs_on (releaseWins_on (with_sto_on (bump_on h)))) h

omit h in
/-- A recursion on a count that passes a state on keeps what its base and each turn keep. -/
theorem brecOn_on {F : (n : Nat) → Nat.below (motive := fun _ => State → State) n → State → State} (zero : ∀ s, p.On s → p.On (F 0 PUnit.unit s))
    (succ : ∀ n b, (∀ s, p.On s → p.On (b.1 s)) → ∀ s, p.On s → p.On (F (n + 1) b s)) {n : Nat} (h : p.On s) :
    p.On (Nat.brecOn (motive := fun _ => State → State) n F s) := by
  induction n generalizing s with
  | zero => exact zero s h
  | succ n ih => exact succ n _ (fun _ => ih) s h

/-- The choice of a record to drop is a variable here (`id` keeps it one in the proof): the kernel would count out the 2^30 bytes of its unit. -/
theorem arcRoll_on {n : Nat} : p.On (s.arcRoll n) := by
  delta State.arcRoll State.arcRoll._f
  generalize @ite (Option ArcRec) = pick
  revert pick
  refine id fun pick => ?_
  refine brecOn_on (fun _ hz => hz) (fun n b ih s h => ?_) h
  dsimp only
  split
  · exact ih _ (with_sto_on h)
  · exact wr64_on h

theorem archive_on {r : ArcRec} : p.On (s.archive r) := by
  unfold State.archive
  split
  · exact h
  · refine on_ite ?_ ?_
    · refine on_ite ?_ ?_
      · exact raise_on (setBit_on (bump_on (with_sto_on h)))
      · exact winRegs_on (releaseWins_on (arcRoll_on (bump64_on (stage_on (with_sto_on h)))))
    · exact on_ite (bump_on h) h

theorem arcStop_on : p.On s.arcStop := winRegs_on (setBit_on (setBit_on (with_sto_on h)))

theorem dropWins_on {n : Nat} : p.On (s.dropWins n) := winRegs_on (with_sto_on h)

end

/-! ### Mmu -/

section
variable {p : RegProp} {s : State} (h : p.On s)
include h

theorem setEntry_on {key e : Nat} : p.On (s.setEntry key e) := with_mmu_on h

theorem putLine_on {f va : Nat} {l : Line} : p.On (s.putLine f va l) := with_mmu_on h

theorem invalidate_on {n page : Nat} : p.On (s.invalidate n page) := forEach_on (fun _ _ h1 => on_ite h1 (bump_on (with_mmu_on h1))) h

theorem emptyTlb_on {m : Nat} : p.On (s.emptyTlb m) := with_mmu_on h

theorem memRegs_on : p.On s.memRegs := setBit_on (wr_on (wr_on (wr_on h)))

theorem prepareOne_on : p.On s.prepareOne := by
  unfold State.prepareOne
  refine on_ite ?_ ?_
  · exact h
  · split
    · exact memRegs_on (with_mmu_on h)
    · exact on_ite h (memRegs_on (with_mmu_on h))

theorem takeFrame_on : p.On (s.takeFrame).2 := by
  unfold State.takeFrame
  split
  · exact memRegs_on (with_mmu_on h)
  · exact memRegs_on h

theorem takeFrameNow_on : p.On (s.takeFrameNow).2 := on_ite_snd (takeFrame_on (prepareOne_on h)) (takeFrame_on h)

theorem freeFrame_on {f : Nat} : p.On (s.freeFrame f) := memRegs_on (with_mmu_on h)

theorem newTable_on : p.On (s.newTable).2 := by
  unfold State.newTable
  split
  · exact memRegs_on (with_mmu_on h)
  · exact memRegs_on (with_mmu_on h)

theorem ensureRoot_on {n : Nat} : p.On (s.ensureRoot n) := by
  unfold State.ensureRoot
  split
  · exact h
  · exact wr64_on (with_mmu_on (newTable_on h))

theorem ensureFrom_on {va fuel level addr : Nat} : p.On (s.ensureFrom va fuel level addr).2 := by
  induction fuel generalizing s level addr with
  | zero => exact h
  | succ fuel ih =>
    unfold ensureFrom
    exact on_ite_snd h (on_ite_snd (ih h) (ih (setEntry_on (newTable_on h))))

theorem ensureEntry_on {n va : Nat} : p.On (s.ensureEntry n va).2 := ensureFrom_on (ensureRoot_on h)

theorem addResident_on {n : Nat} : p.On (s.addResident n) := maxReg_on (wr_on h)

theorem evict_on {n page key e : Nat} : p.On (s.evict n page key e) :=
  on_ite (with_mmu_on (setEntry_on (invalidate_on h))) (wr_on (freeFrame_on (setEntry_on (invalidate_on h))))

theorem sweep_on {n : Nat} {l : List (Nat × Nat × Nat)} : p.On (s.sweep n l) := by
  induction l generalizing s with
  | nil => exact h
  | cons x l ih =>
    unfold sweep
    exact on_ite (ih (setEntry_on (invalidate_on (with_mmu_on h)))) (evict_on (with_mmu_on h))

theorem pageOutIfNeeded_on {n : Nat} : p.On (s.pageOutIfNeeded n) := on_ite (sweep_on h) h

theorem allocPage_on {n va : Nat} {pin now_ : Bool} : p.On (s.allocPage n va pin now_).2 := by
  unfold State.allocPage
  dsimp only
  split
  · exact on_ite_snd (takeFrameNow_on h) (takeFrame_on h)
  · refine pageOutIfNeeded_on ?_
    refine on_if ?_ fun h1 => ?_
    · exact addResident_on (bump_on (setEntry_on (ensureEntry_on (invalidate_on (on_ite_snd (takeFrameNow_on h) (takeFrame_on h))))))
    · exact wr_on h1

theorem startPageIn_on {n page : Nat} : p.On (s.startPageIn n page) := on_ite h (with_mmu_on h)

theorem cancelOut_on {n page key e : Nat} : p.On (s.cancelOut n page key e) := with_mmu_on (setEntry_on h)

theorem walkEvent_on {n va code task : Nat} : p.On (s.walkEvent n va code task) :=
  on_ite (raise_on (setBit_on (bump_on (wr64_on h)))) (raise_on (setBit_on (bump_on (wr64_on h))))

theorem walkAccess_on {n va task : Nat} : p.On (s.walkAccess n va task).2 := by
  unfold State.walkAccess
  split
  · exact walkEvent_on h
  · exact walkEvent_on h
  · exact h
  · refine on_ite_snd ?_ ?_
    · exact setEntry_on h
    · exact on_ite_snd (setEntry_on h) (on_ite_snd (cancelOut_on (setEntry_on h)) (startPageIn_on (setEntry_on h)))

theorem translate_on {m n va task : Nat} : p.On (s.translate m n va task).2 := by
  unfold State.translate
  dsimp only
  split
  · exact with_mmu_on (bump64_on h)
  · split
    · exact with_mmu_on (walkAccess_on (maxReg_on (bump_on (fresh_on h))))
    · exact with_mmu_on (walkAccess_on (maxReg_on (bump_on (fresh_on h))))
    · exact walkAccess_on (maxReg_on (bump_on (fresh_on h)))

theorem tagEvent_on {n f va task : Nat} : p.On (s.tagEvent n f va task) :=
  on_unless (wr64_on (setBit_on (bump_on (putLine_on (on_ite (raise_on (setBit_on (bump_on h))) h))))) fun h1 => raise_on h1

theorem poisonEvent_on {n f va task : Nat} : p.On (s.poisonEvent n f va task) :=
  raise_on (wr64_on (setBit_on (bump_on (putLine_on (on_ite (raise_on (setBit_on (bump_on h))) h)))))

theorem correctLine_on {f va : Nat} : p.On (s.correctLine f va) := on_ite (bump_on (putLine_on h)) h

theorem readLine_on {n f va task : Nat} : p.On (s.readLine n f va task).2 := by
  unfold State.readLine
  refine on_ite_snd ?_ ?_
  · exact tagEvent_on (correctLine_on h)
  · exact on_ite_snd (correctLine_on h) (on_ite_snd (correctLine_on h) (tagEvent_on (correctLine_on h)))

theorem markDirty_on {n va : Nat} : p.On (s.markDirty n va) := by
  unfold State.markDirty
  split
  · exact setEntry_on h
  · exact h

theorem writeLine_on {n f va : Nat} {data : Line64} : p.On (s.writeLine n f va data) :=
  on_if (markDirty_on (putLine_on (with_mmu_on h))) fun h1 => stage_on h1

theorem mergeLine_on {n f va : Nat} {data mask : Line64} {task : Nat} : p.On (s.mergeLine n f va data mask task).2 := by
  unfold State.mergeLine
  refine on_ite_snd ?_ ?_
  · exact writeLine_on (correctLine_on h)
  · refine on_ite_snd ?_ ?_
    · exact poisonEvent_on (correctLine_on h)
    · refine on_ite_snd ?_ ?_
      · exact writeLine_on (correctLine_on h)
      · exact on_ite_snd (writeLine_on (correctLine_on h)) (poisonEvent_on (correctLine_on h))

theorem ownWrite_on {n va : Nat} {data mask : Line64} {pin : Bool} : p.On (s.ownWrite n va data mask pin) := by
  unfold State.ownWrite
  split
  · refine on_ite ?_ ?_
    · exact mergeLine_on (on_ite (wr_on (setEntry_on h)) h)
    · refine on_ite ?_ ?_
      · split
        case h_1 _ t1 e2 =>
          have h3 : p.On t1 := snd_on e2 (allocPage_on h)
          exact mergeLine_on h3
        case h_2 t4 e5 =>
          have h6 : p.On t4 := snd_on e5 (allocPage_on h)
          exact h6
      · exact h
  · split
    case h_1 _ t7 e8 =>
      have h9 : p.On t7 := snd_on e8 (allocPage_on h)
      exact mergeLine_on h9
    case h_2 t10 e11 =>
      have h12 : p.On t10 := snd_on e11 (allocPage_on h)
      exact h12
  · exact h

theorem ownWriteBytes_on {n va : Nat} {bs : List Byte} {pin : Bool} : p.On (s.ownWriteBytes n va bs pin) :=
  forEach_on (fun _ _ h1 => ownWrite_on h1) h

theorem freshPage_on {n page key e : Nat} : p.On (s.freshPage n page key e) :=
  setEntry_on (with_mmu_on (on_if (invalidate_on h) fun h1 => on_if (wr_on (freeFrame_on h1)) fun h2 => wr_on h2))

theorem freshSpace_on {n : Nat} {spaces : List Nat} : p.On (s.freshSpace n spaces) := forEach_on (fun _ _ h1 => freshPage_on h1) h

theorem pinPage_on {n va : Nat} : p.On (s.pinPage n va) := by
  unfold State.pinPage
  split
  · exact on_ite h (on_ite (wr_on (cancelOut_on h)) (on_ite (allocPage_on h) (startPageIn_on (setEntry_on h))))
  · exact allocPage_on h
  · exact h

theorem recordPage_on {n f page : Nat} : p.On (s.recordPage n f page).2 := by
  unfold recordPage
  extract_lets fr old
  split
  next e =>
    refine snd_on e (foldl_snd_on ?_ h)
    intro y x h1
    exact on_ite_snd h1 (on_ite_snd h1 (tagEvent_on h1))

theorem pageOutDone_on {n page : Nat} : p.On (s.pageOutDone n page) := by
  unfold State.pageOutDone
  refine on_ite ?_ ?_
  · split
    · exact bump64_on (wr_on (freeFrame_on (setEntry_on (with_mmu_on (stage_on (recordPage_on h))))))
    · exact h
  · exact h

theorem installSectors_on {n f page : Nat} {bp : BackPage} {k : Nat} : p.On (s.installSectors n f page bp k) := by
  induction k generalizing s with
  | zero => exact h
  | succ k ih =>
    have hr : p.On ((s.installSectors n f page bp k).stoRead 6 ((n * 2 ^ 32 + page) * 16 + k) 4096).2 := stoRead_on (ih h)
    unfold installSectors
    refine on_ite ?_ ?_
    · refine forEach_on ?_ hr
      intro _ _ h1
      split
      · exact h1
      · exact putLine_on (with_mmu_on h1)
    · exact raise_on (setBit_on (bump_on (forEach_on (fun _ _ h1 => putLine_on h1) hr)))

theorem pageInDone_on {n page : Nat} : p.On (s.pageInDone n page) := by
  unfold State.pageInDone
  refine on_ite ?_ ?_
  · split
    · split
      case h_1 t1 e2 =>
        have h3 : p.On t1 := snd_on e2 (takeFrame_on h)
        exact h3
      case h_2 _ t4 e5 =>
        have h6 : p.On t4 := snd_on e5 (takeFrame_on h)
        exact pageOutIfNeeded_on (bump64_on (addResident_on (on_if (setEntry_on (with_mmu_on (installSectors_on h6))) fun h7 => wr_on h7)))
    · exact h
  · exact h

theorem detPage_on {n va task : Nat} : p.On (s.detPage n va task) := raise_on (wr64_on (setBit_on (bump_on h)))

theorem eraseOwner_on {n : Nat} : p.On (s.eraseOwner n) := by
  unfold State.eraseOwner
  exact stage_on (dropWins_on (wr_on (with_mmu_sto_on (freshSpace_on h))))

theorem hwRead_on {n va len : Nat} : p.On (s.hwRead n va len).2 := by
  unfold State.hwRead
  split
  case h_1 t1 e2 =>
    have h3 : p.On t1 := snd_on e2 (walkAccess_on h)
    exact h3
  case h_2 _ _ t4 e5 =>
    have h6 : p.On t4 := snd_on e5 (walkAccess_on h)
    split
    case h_1 _ t7 e8 =>
      have h9 : p.On t7 := snd_on e8 (readLine_on h6)
      exact h9
    case h_2 t10 e11 =>
      have h12 : p.On t10 := snd_on e11 (readLine_on h6)
      exact h12
  case h_3 _ t13 _ _ e14 =>
    have h15 : p.On t13 := snd_on e14 (walkAccess_on h)
    exact h15

theorem hwWrite_on {n va : Nat} {bs : List Byte} : p.On (s.hwWrite n va bs).2 := by
  unfold State.hwWrite
  split
  case h_1 _ _ t1 e2 =>
    have h3 : p.On t1 := snd_on e2 (walkAccess_on h)
    exact mergeLine_on h3
  case h_2 t4 e5 =>
    have h6 : p.On t4 := snd_on e5 (walkAccess_on h)
    split
    case h_1 _ t7 e8 =>
      have h9 : p.On t7 := snd_on e8 (allocPage_on h6)
      exact mergeLine_on h9
    case h_2 t10 e11 =>
      have h12 : p.On t10 := snd_on e11 (allocPage_on h6)
      exact h12
  case h_3 _ t13 _ _ e14 =>
    have h15 : p.On t13 := snd_on e14 (walkAccess_on h)
    exact h15

theorem hwWriteBytes_on {n va : Nat} {bs : List Byte} : p.On (s.hwWriteBytes n va bs).2 := by
  unfold hwWriteBytes
  refine foldl_snd_on ?_ h
  intro y x h1
  extract_lets here
  split
  next e => exact snd_on e (hwWrite_on h1)

theorem hwReadBytes_on {n fuel va len : Nat} : p.On (s.hwReadBytes n fuel va len).2 := by
  induction fuel generalizing s va len with
  | zero => exact h
  | succ fuel ih =>
    unfold hwReadBytes
    refine on_ite_snd h ?_
    dsimp only
    split
    case h_1 t e => exact snd_on e (hwRead_on h)
    case h_2 _ t e =>
      have ht : p.On t := snd_on e (hwRead_on h)
      split
      case h_1 t' e' => exact snd_on e' (ih ht)
      case h_2 _ t' e' => exact snd_on e' (ih ht)

end

/-! ### SeqBase -/

section
variable {p : RegProp} {s : State} (h : p.On s)
include h

theorem postEvent_on {k t : Nat} : p.On (s.postEvent k t) := setTask_on h

theorem postBound_on {kind id t : Nat} : p.On (s.postBound kind id t) := forEach_on (fun _ _ h1 => postEvent_on h1) h

theorem wakeWhere_on {n : Nat} {p' : WaitDesc → Bool} : p.On (s.wakeWhere n p') := by
  unfold State.wakeWhere
  dsimp only
  refine forEach_on ?_ ?_
  · intro _ _ h1
    split
    · exact on_ite (setTask_on h1) h1
    · exact h1
  · exact h

end

/-! ### Rings -/

section
variable {p : RegProp} {s : State} (h : p.On s)
include h

theorem ringSet_on {q p' c : Nat} : p.On (s.ringSet q p' c) := setBit_on (wr_on (wr_on h))

theorem ringWake_on {q : Nat} : p.On (s.ringWake q) := by
  unfold State.ringWake
  split
  · exact h
  · exact on_ite (on_unless (on_ite (wakeWhere_on h) h) fun h1 => wakeWhere_on h1) h

theorem ringAdvance_on {q : Nat} : p.On (s.ringAdvance q) := ringWake_on (on_if (maxReg_on (bump64_on (ringSet_on h))) fun h1 => postBound_on h1)

theorem ringConsume_on {q : Nat} : p.On (s.ringConsume q) := ringWake_on (bump64_on (ringSet_on h))

theorem ringDrop_on {q : Nat} : p.On (s.ringDrop q) := setBit_on (bump_on h)

theorem hwEnq_on {q : Nat} {entry : List Byte} : p.On (s.hwEnq q entry).2 := by
  unfold State.hwEnq
  dsimp only
  split
  · exact h
  · refine on_ite_snd ?_ ?_
    · exact h
    · refine on_ite_snd ?_ ?_
      · exact ringDrop_on h
      · split
        case h_1 t1 e2 =>
          have h3 : p.On t1 := snd_on e2 (hwWrite_on h)
          exact on_if (ringAdvance_on h3) fun h4 => emit_on h4
        case h_2 t5 e6 =>
          have h7 : p.On t5 := snd_on e6 (hwWrite_on h)
          exact setBit_on (ringDrop_on h7)

theorem hwTake_on {q : Nat} : p.On (s.hwTake q).2 := by
  unfold State.hwTake
  dsimp only
  split
  · exact h
  · refine on_ite_snd ?_ ?_
    · exact h
    · split
      case h_1 _ t1 e2 =>
        have h3 : p.On t1 := snd_on e2 (hwRead_on h)
        exact ringConsume_on h3
      case h_2 t4 e5 =>
        have h6 : p.On t4 := snd_on e5 (hwRead_on h)
        exact setBit_on (ringDrop_on (ringConsume_on h6))

theorem ringDisable_on {q : Nat} : p.On (s.ringDisable q) := on_ite h (on_ite (setBit_on h) (on_ite (setBit_on (setBit_on h)) h))

theorem ringDisableDone_on {q : Nat} : p.On (s.ringDisableDone q) := on_ite (setBit_on (setBit_on (ringSet_on (bump_on h)))) h

theorem ringZero_on {n : Nat} {c : RingRec} : p.On (s.ringZero n c) := forEach_on (fun _ _ h1 => ownWrite_on h1) h

theorem ringEnable_on {q : Nat} : p.On (s.ringEnable q) := on_ite h (setBit_on (setBit_on h))

theorem ringEnableDone_on {q : Nat} : p.On (s.ringEnableDone q) := by
  unfold State.ringEnableDone
  split
  · exact h
  · refine on_ite ?_ ?_
    · refine on_ite ?_ ?_
      · exact ringWake_on (setBit_on (setBit_on (ringSet_on (ringZero_on h))))
      · exact setBit_on (setBit_on (ringSet_on (ringZero_on h)))
    · exact h

theorem ringStart_on {q : Nat} {cold : Bool} : p.On (s.ringStart q cold) :=
  on_if (clr_on (clr_on (wr64_on (wr64_on (setFld_on (wr_on (ringSet_on h))))))) fun h1 => clr_on (clr_on h1)

end

/-! ### Img -/

section
variable {p : RegProp} {s : State} (h : p.On s)
include h

theorem setRow_on {row : Nat} {h' : RowHist} : p.On (s.setRow row h') := with_img_on h

theorem retire_on {n : Nat} : p.On (s.retire n) := with_img_on h

theorem poolRegs_on {n : Nat} : p.On (s.poolRegs n) := maxReg_on h

theorem soe_on {n space rel : Nat} {old new : Row} {writer stamp : Nat} {clamped : Bool} : p.On (s.soe n space rel old new writer stamp clamped) := by
  refine on_ite h (forEach_on (fun s _ h1 => on_ite h1 ?_) h)
  split
  · exact h1
  · split
    next e =>
      have h2 : p.On _ := snd_on e (on_ite_snd h1 (fresh_on h1))
      split
      next e' => exact bump_on (snd_on e' (hwEnq_on h2))
      next e' => exact raise_on (setBit_on (bump_on (snd_on e' (hwEnq_on h2))))

theorem bitEvents_on {n space rel : Nat} {old new : Row} {stamp : Nat} : p.On (s.bitEvents n space rel old new stamp) := by
  unfold State.bitEvents
  dsimp only
  refine forEach_on ?_ ?_
  · intro _ _ h1
    split
    · exact on_ite (postEvent_on h1) h1
    · exact h1
  · exact h

theorem bitTriggers_on {n space rel : Nat} {old new : Row} {stamp : Nat} : p.On (s.bitTriggers n space rel old new stamp) :=
  forEach_on (fun _ _ h1 => on_ite (trigger_on h1) h1) h

theorem supersede_on {n space rel : Nat} {h' : RowHist} {new : Version} {staged : Bool} : p.On (s.supersede n space rel h' new staged).2 := by
  unfold State.supersede
  refine on_ite_snd ?_ ?_
  · exact h
  · refine on_ite_snd ?_ ?_
    · exact on_ite_snd (raise_on (setBit_on (bump_on h))) h
    · refine on_ite_snd ?_ ?_
      · exact on_ite_snd (raise_on (setBit_on (bump_on h))) h
      · exact on_ite_snd (on_ite_snd (raise_on (setBit_on (bump_on h))) h) (raise_on (setBit_on (bump_on (raise_on h))))

theorem rowChanged_on {n space rel : Nat} {old new : Row} {writer src stamp : Nat} {clamped : Bool} : p.On
  (s.rowChanged n space rel old new writer src stamp clamped) :=
  on_if (bitEvents_on (on_ite (soe_on h) h)) fun h1 => bitTriggers_on h1

theorem install_on {n space row : Nat} {val mask : Row} {stamp writer : Nat} {staged : Bool} : p.On
  (s.install n space row val mask stamp writer staged).2 := by
  unfold State.install
  refine on_ite_snd ?_ ?_
  · exact h
  · exact rowChanged_on (on_if (poolRegs_on (bump64_on (setRow_on (supersede_on (on_ite (bump_on h) h))))) fun h1 => raise_on (setBit_on
      (bump_on h1)))

theorem healWords_on {row : Nat} {mask : Row} : p.On (s.healWords row mask) := with_img_on h

theorem keepOwn_on {rows : List (Nat × Row × Row)} {stamp writer : Nat} : p.On (s.keepOwn rows stamp writer) :=
  forEach_on (fun _ _ h1 => with_red_on h1) h

theorem sourceWrite_on {n : Nat} {rows : List (Nat × Row × Row)} {stamp writer : Nat} : p.On (s.sourceWrite n rows stamp writer) := by
  unfold State.sourceWrite
  refine on_ite ?_ ?_
  · exact keepOwn_on h
  · exact forEach_on (fun _ _ h1 => on_if (install_on (healWords_on h1)) fun h2 => bump64_on (emit_on h2)) h

theorem sourceBits_on {n addr len val stamp writer : Nat} : p.On (s.sourceBits n addr len val stamp writer) := by
  unfold State.sourceBits
  split
  · exact sourceWrite_on h
  · exact h

theorem eccRead_on {row task : Nat} : p.On (s.eccRead row task) :=
  on_unless (on_ite h (bump_on (with_img_on h))) fun h1 => raise_on (setBit_on (bump_on h1))

theorem sysWrite_on {n rel : Nat} {val : Row} : p.On (s.sysWrite n rel val) := on_ite (install_on h) h

theorem initRows_on {n : Nat} {spaces : List Nat} {writer : Nat} : p.On (s.initRows n spaces writer) :=
  forEach_on (fun _ _ h1 => forEach_on (fun _ _ h2 => on_if (setRow_on h2) fun h3 => rowChanged_on h3) (bump64_on (with_img_on h1))) h

end

/-! ### Eng -/

section
variable {p : RegProp} {s : State} (h : p.On s)
include h

theorem loseResv_on {n va : Nat} : p.On (s.loseResv n va) := with_engines_on h

theorem writeVa_on {n va : Nat} {data mask : Line64} {task : Nat} : p.On (s.writeVa n va data mask task).2 := by
  unfold State.writeVa
  dsimp only
  split
  case h_1 _ _ t1 e2 =>
    have h9 : p.On t1 := by
      refine snd_on e2 ?_
      refine walkAccess_on ?_
      split
      case h_1 t3 e4 =>
        have h5 : p.On t3 := snd_on e4 (walkAccess_on (loseResv_on h))
        exact pageInDone_on (on_ite (prepareOne_on h5) h5)
      case h_2 _ t6 _ e7 =>
        have h8 : p.On t6 := snd_on e7 (walkAccess_on (loseResv_on h))
        exact h8
    exact mergeLine_on h9
  case h_2 t10 e11 =>
    have h18 : p.On t10 := by
      refine snd_on e11 ?_
      refine walkAccess_on ?_
      split
      case h_1 t12 e13 =>
        have h14 : p.On t12 := snd_on e13 (walkAccess_on (loseResv_on h))
        exact pageInDone_on (on_ite (prepareOne_on h14) h14)
      case h_2 _ t15 _ e16 =>
        have h17 : p.On t15 := snd_on e16 (walkAccess_on (loseResv_on h))
        exact h17
    split
    case h_1 _ t19 e20 =>
      have h21 : p.On t19 := snd_on e20 (allocPage_on h18)
      exact mergeLine_on h21
    case h_2 t22 e23 =>
      have h24 : p.On t22 := snd_on e23 (allocPage_on h18)
      exact h24
  case h_3 _ t25 _ _ e26 =>
    have h33 : p.On t25 := by
      refine snd_on e26 ?_
      refine walkAccess_on ?_
      split
      case h_1 t27 e28 =>
        have h29 : p.On t27 := snd_on e28 (walkAccess_on (loseResv_on h))
        exact pageInDone_on (on_ite (prepareOne_on h29) h29)
      case h_2 _ t30 _ e31 =>
        have h32 : p.On t30 := snd_on e31 (walkAccess_on (loseResv_on h))
        exact h32
    exact h33

theorem lineOut_on {e : Nat} : p.On (s.lineOut e).2 := by
  unfold State.lineOut
  dsimp only
  split
  · exact h
  · split
    case h_1 t1 e2 =>
      have h3 : p.On t1 := snd_on e2 (writeVa_on (setEng_on h))
      exact h3
    case h_2 t4 e5 =>
      have h6 : p.On t4 := snd_on e5 (writeVa_on (setEng_on h))
      exact h6

theorem drainSb_on {e n : Nat} : p.On (s.drainSb e n).2 := by
  induction n generalizing s with
  | zero => exact h
  | succ n ih =>
    unfold drainSb
    exact ih (lineOut_on h)

theorem drain_on {e : Nat} : p.On (s.drain e).2 := drainSb_on h

theorem bufStore_on {e va : Nat} {data mask : Line64} {pc word space : Nat} : p.On (s.bufStore e va data mask pc word space).2 :=
  on_ite_snd (setEng_on h) (setEng_on (on_ite_snd (lineOut_on (bump_on h)) h))

theorem freeEng_on {e : Nat} : p.On (s.freeEng e) := setEng_on h

end

section
variable {s : State} (h : regForm.On s)
include h

/-- Some of the entries are in form where all are. -/
theorem formFilter_on (q : Nat × Nat → Bool) : regForm.On ({ s with regs := s.regs.filter q } : State) := by
  simp only [regForm_on_iff, regsWf, Bool.and_eq_true] at h ⊢
  exact ⟨wf_filter q h.1, List.all_eq_true.2 fun e he => List.all_eq_true.1 h.2 e (List.mem_of_mem_filter he)⟩

theorem resetBentRegs_on {m : Nat} : regForm.On (s.resetBentRegs m) := formFilter_on h _

theorem gateBent_on {m : Nat} : regForm.On (s.gateBent m) := emptyTlb_on (forEach_on (fun _ _ h1 => setEng_on h1) (resetBentRegs_on (setBent_on h)))

end

/-! ### Seq -/

section
variable {p : RegProp} {s : State} (h : p.On s)
include h

theorem endStats_on {k : Nat} : p.On (s.endStats k) := maxReg_on (wr_on (maxReg_on (wr_on h)))

theorem endRelease_on {k : Nat} : p.On (s.endRelease k) := by
  unfold State.endRelease
  dsimp only
  refine poolRegs_on ?_
  refine retire_on ?_
  split
  · refine setBent_on ?_
    refine setTask_on ?_
    split
    · split
      · exact on_if (on_ite (freeEng_on (endStats_on h)) (on_if (endStats_on h) fun h2 => setEng_on h2)) fun h1 => setTask_on h1
      · exact on_ite (freeEng_on (endStats_on h)) (on_if (endStats_on h) fun h3 => setEng_on h3)
    · exact endStats_on h
  · refine setTask_on ?_
    split
    · split
      · exact on_if (on_ite (freeEng_on (endStats_on h)) (on_if (endStats_on h) fun h5 => setEng_on h5)) fun h4 => setTask_on h4
      · exact on_ite (freeEng_on (endStats_on h)) (on_if (endStats_on h) fun h6 => setEng_on h6)
    · exact endStats_on h

theorem startOn_on {e k : Nat} : p.On (s.startOn e k) := by
  unfold State.startOn
  refine on_ite ?_ ?_
  · exact raise_on (setBit_on (setBit_on (bump_on (endRelease_on (setTask_on (on_ite (bump_on (setTask_on h)) h))))))
  · exact setEng_on (setTask_on (maxReg_on (fresh_on (on_ite (bump_on (setTask_on h)) h))))

theorem serve_on {n k : Nat} : p.On (s.serve n k) := by
  unfold State.serve
  split
  · exact startOn_on h
  · split
    · exact setTask_on (setEng_on h)
    · split
      · exact setTask_on (setEng_on h)
      · split
        · exact setTask_on (setEng_on (setBent_on h))
        · exact h

theorem dispatch_on {n : Nat} : p.On (s.dispatch n) := foldl_on (fun _ _ h1 => on_ite (serve_on h1) h1) h

theorem release_on {k t : Nat} : p.On (s.release k t) := wr64_on (with_epochMax_on (wr64_on (bump64_on (setTask_on h))))

theorem overrun_on {k : Nat} : p.On (s.overrun k) := on_if (setBit_on (bump_on (setTask_on h))) fun h1 => raise_on h1

theorem noRelease_on {k : Nat} : p.On (s.noRelease k) := bump_on h

theorem boundary_on {k t : Nat} : p.On (s.boundary k t) := on_ite (noRelease_on h) (on_ite (overrun_on h) (release_on h))

theorem eventAt_on {k t : Nat} : p.On (s.eventAt k t) :=
  on_ite (noRelease_on h) (on_ite (bump_on h) (on_ite (setTask_on h) (on_ite (overrun_on (setTask_on h)) (release_on h))))

theorem pendDue_on {k : Nat} : p.On (s.pendDue k) := by
  unfold State.pendDue
  dsimp only
  split
  · exact h
  · exact on_ite h (on_ite (on_ite h (overrun_on (setTask_on h))) (release_on h))

theorem pendAfter_on {k : Nat} : p.On (s.pendAfter k) := by
  unfold State.pendAfter
  dsimp only
  split
  · exact on_ite (release_on h) h
  · exact h

theorem finishWait_on {k status : Nat} : p.On (s.finishWait k status) := setTask_on h

theorem semWake_on {n : Nat} : p.On (s.semWake n) := wakeWhere_on h

theorem stopRelease_on {k : Nat} : p.On (s.stopRelease k) := by
  unfold State.stopRelease
  refine on_ite ?_ ?_
  · exact h
  · refine endRelease_on ?_
    split
    · exact on_ite (drain_on h) h
    · exact h

theorem discardEvents_on {n : Nat} : p.On (s.discardEvents n) := forEach_on (fun _ _ h1 => bump_on (setTask_on h1)) h

theorem stopTasks_on {n : Nat} : p.On (s.stopTasks n) := discardEvents_on (forEach_on (fun _ _ h1 => stopRelease_on h1) h)

theorem stopWaits_on {n : Nat} : p.On (s.stopWaits n) := forEach_on (fun _ _ h1 => on_ite (stopRelease_on h1) h1) h

theorem drainTasks_on {n : Nat} : p.On (s.drainTasks n) := setOwner_on (discardEvents_on (stopWaits_on h))

theorem clearConsec_on {n : Nat} : p.On (s.clearConsec n) := forEach_on (fun _ _ h1 => setTask_on h1) h

end

/-! ### Tim -/

section
variable {p : RegProp} {s : State} (h : p.On s)
include h

theorem setCal_on {c : Nat} : p.On (s.setCal c) := with_tim_on h

theorem calBad_on : p.On s.calBad := setBit_on h

theorem calSecWrite_on {v : Nat} : p.On (s.calSecWrite v) := on_ite h (on_ite (calBad_on h) (setCal_on h))

theorem calDateWrite_on {v : Nat} : p.On (s.calDateWrite v) := on_ite h (on_unless (calBad_on h) fun h1 => on_ite h1 (setCal_on h))

theorem calTimeWrite_on {v : Nat} : p.On (s.calTimeWrite v) := on_ite h (on_unless (calBad_on h) fun h1 => on_ite h1 (setCal_on h))

theorem calCtlWrite_on {v : Nat} : p.On (s.calCtlWrite v) := setCal_on (setFld_on h)

theorem calAutoWrite_on : p.On s.calAutoWrite := on_if (advance_on h) fun h1 => setBit_on (setCal_on (wr_on h1))

theorem calError_on : p.On (s.calError).2 := fresh_on h

theorem timSeed_on : p.On s.timSeed := on_if (setBit_on (setFld_on (setCal_on (with_now_skew_on (calError_on h))))) fun h1 => raise_on h1

theorem setStep_on {n : Nat} : p.On (s.setStep n) := on_if (setFld_on h) fun h1 => raise_on (setBit_on (bump_on h1))

theorem timUpdate_on : p.On s.timUpdate := on_ite h (setStep_on (on_if (on_if (setBit_on h) fun h2 => setBit_on h2) fun h1 => with_tim_on h1))

theorem newFreq_on : p.On s.newFreq := wr_on (fresh_on h)

theorem showOffset_on {x : Int} : p.On (s.showOffset x) := on_ite (wr_on h) (wr_on (fresh_on h))

theorem stepTask_on {new : Nat} {forward : Bool} {k : Nat} : p.On (s.stepTask new forward k) := by
  unfold State.stepTask
  dsimp only
  split
  · exact h
  · exact on_ite (on_ite (bump_on (setTask_on h)) h) (setTask_on h)

theorem stepLoop_on {new : Nat} {forward : Bool} {i : Nat} : p.On (s.stepLoop new forward i) := by
  unfold State.stepLoop
  dsimp only
  split
  · exact h
  · exact on_ite (on_ite (bump_on (with_loops_on h)) h) (with_loops_on h)

theorem setArm_on {u : Nat} {a : Bool} : p.On (s.setArm u a) := setBit_on (setBit_on h)

theorem cuFire_on {u event : Nat} {stepFire : Bool} {next : Option Nat} : p.On (s.cuFire u event stepFire next) := by
  unfold State.cuFire
  dsimp only
  split
  · exact wr64_on (postBound_on (on_if (bump_on (setBit_on h)) fun h1 => setBit_on h1))
  · exact setArm_on (postBound_on (on_if (bump_on (setBit_on h)) fun h2 => setBit_on h2))

theorem stepUnit_on {old new u : Nat} : p.On (s.stepUnit old new u) := on_ite h (on_ite (cuFire_on h) h)

theorem applyStep_on {x : Int} : p.On (s.applyStep x) := by
  unfold State.applyStep
  refine timUpdate_on ?_
  refine on_if ?_ fun h1 => ?_
  · refine on_if ?_ fun h2 => ?_
    · exact forEach_on (fun _ _ h4 => stepLoop_on h4) (forEach_on (fun _ _ h3 => stepTask_on h3) (with_tim_on (setCal_on (with_now_skew_on
        (almEvent_on (raise_on (setBit_on (wr64_on (wr64_on (bump_on h))))))))))
    · exact forEach_on (fun _ _ h5 => stepUnit_on h5) h2
  · exact raise_on (setBit_on (with_relHold_on h1))

theorem setSrc_on {k : Nat} {x : TimSrc} : p.On (s.setSrc k x) := with_tim_on h

theorem removeOffset_on {x : Int} : p.On (s.removeOffset x) := on_ite (with_tim_on h) (on_ite (raise_on (setBit_on (with_tim_on h))) (with_tim_on h))

theorem useSource_on {k : Nat} : p.On (s.useSource k) := timUpdate_on (removeOffset_on (setBit_on (setBit_on (bump_on (setFld_on h)))))

theorem holdover_on : p.On s.holdover := raise_on (setBit_on (setBit_on (setBit_on (setBit_on (setFld_on (with_tim_on (timUpdate_on h)))))))

theorem reselect_on : p.On s.reselect := by
  unfold State.reselect
  split
  · exact on_ite h (useSource_on h)
  · exact on_ite h (holdover_on h)

theorem srcInvalid_on {k : Nat} : p.On (s.srcInvalid k) := reselect_on (setSrc_on h)

theorem srcSample_on {k : Nat} {x : Int} : p.On (s.srcSample k x) :=
  on_if (showOffset_on (setSrc_on h)) fun h1 => timUpdate_on (newFreq_on (on_ite h1 (with_tim_on h1)))

theorem srcQualify_on {k : Nat} : p.On (s.srcQualify k) := by
  unfold State.srcQualify
  split
  · exact h
  · exact on_ite h (on_ite (raise_on (setSrc_on (advance_on h))) (reselect_on (setSrc_on (advance_on h))))

theorem holdDegrade_on : p.On s.holdDegrade := by
  unfold State.holdDegrade
  refine on_ite ?_ ?_
  · split
    · exact setStep_on (advance_on h)
    · exact h
  · exact h

theorem bmca_on : p.On s.bmca := by
  unfold State.bmca
  refine on_if ?_ fun h1 => ?_
  · refine setFld_on ?_
    refine wr64_on ?_
    split
    · exact setBit_on (setFld_on (forEach_on (fun _ _ h2 => setFld_on h2) h))
    · exact setBit_on (forEach_on (fun _ _ h3 => setFld_on h3) h)
  · exact srcInvalid_on h1

theorem ptpRx_on {i dom : Nat} : p.On (s.ptpRx i dom).2 := on_ite_snd h (on_ite_snd (bump_on (bump_on h)) (bump_on h))

theorem ptpSync_on {i dom kind srcId seq origin corr rx : Nat} : p.On (s.ptpSync i dom kind srcId seq origin corr rx) := by
  unfold State.ptpSync
  split
  case h_1 t1 e2 =>
    have h3 : p.On t1 := snd_on e2 (ptpRx_on h)
    exact h3
  case h_2 t4 e5 =>
    have h6 : p.On t4 := snd_on e5 (ptpRx_on h)
    refine on_unless ?_ fun h7 => ?_
    · exact advance_on h6
    · refine on_ite ?_ ?_
      · exact with_tim_on h7
      · refine on_ite ?_ ?_
        · exact srcSample_on h7
        · split
          · exact srcSample_on (with_tim_on h7)
          · exact h7

theorem ptpAnnounce_on {i dom : Nat} {a : Ann} {utcOff : Int} {utcValid : Bool} {leap : Nat} : p.On (s.ptpAnnounce i dom a utcOff utcValid leap) := by
  unfold State.ptpAnnounce
  split
  case h_1 t1 e2 =>
    have h3 : p.On t1 := snd_on e2 (ptpRx_on h)
    exact h3
  case h_2 t4 e5 =>
    have h6 : p.On t4 := snd_on e5 (ptpRx_on h)
    exact on_ite h6 (on_if (bmca_on (on_ite (with_tim_on h6) h6)) fun h7 => wr_on h7)

theorem ptpTimeout_on {i : Nat} : p.On (s.ptpTimeout i) := on_ite (on_if (bmca_on (with_tim_on h)) fun h1 => srcInvalid_on (setBit_on h1)) h

theorem ptpSend_on {i : Nat} {fields : List Nat} : p.On (s.ptpSend i fields) := emit_on (bump_on h)

theorem pdelayReq_on {i dom seq : Nat} : p.On (s.pdelayReq i dom seq) := by
  unfold State.pdelayReq
  split
  case h_1 t1 e2 =>
    have h3 : p.On t1 := snd_on e2 (ptpRx_on h)
    exact h3
  case h_2 t4 e5 =>
    have h6 : p.On t4 := snd_on e5 (ptpRx_on h)
    exact ptpSend_on h6

theorem pdelaySend_on : p.On s.pdelaySend := on_ite h (forEach_on (fun _ _ h1 => ptpSend_on h1) h)

theorem pdelayResp_on {i dom t1 t2 t3 t4 : Nat} : p.On (s.pdelayResp i dom t1 t2 t3 t4) := by
  unfold State.pdelayResp
  split
  case h_1 t1 e2 =>
    have h3 : p.On t1 := snd_on e2 (ptpRx_on h)
    exact h3
  case h_2 t4 e5 =>
    have h6 : p.On t4 := snd_on e5 (ptpRx_on h)
    exact wr_on h6

theorem syncSend_on {i kind : Nat} : p.On (s.syncSend i kind) := on_ite (ptpSend_on h) h

theorem inputLost_on {b : Nat} : p.On (s.inputLost b) :=
  on_if (on_if (on_if (setBit_on h) fun h3 => raise_on h3) fun h2 => srcInvalid_on (with_tim_on h2)) fun h1 => srcInvalid_on h1

theorem inputReturn_on : p.On s.inputReturn := setBit_on h

theorem ppsEdge_on {inp at_ : Nat} : p.On (s.ppsEdge inp at_) := by
  unfold State.ppsEdge
  refine on_ite ?_ ?_
  · exact on_if (with_tim_on (advance_on h)) fun h1 => inputLost_on h1
  · refine on_unless ?_ fun h2 => ?_
    · exact setBit_on (with_tim_on (advance_on h))
    · split
      · exact srcSample_on h2
      · exact h2

theorem irigFrame_on {at_ : Nat} {ok hasYear : Bool} {year doy hour min_ sec x : Nat} {am : Bool} : p.On
  (s.irigFrame at_ ok hasYear year doy hour min_ sec x am) := by
  unfold State.irigFrame
  refine on_ite ?_ ?_
  · exact inputLost_on (with_tim_on (advance_on h))
  · refine on_unless ?_ fun h1 => ?_
    · exact advance_on h
    · exact on_unless (setBit_on (setFld_on (setBit_on h1))) fun h2 => on_unless (with_tim_on h2) fun h3 => srcSample_on h3

theorem ocxoFault_on : p.On s.ocxoFault := raise_on (setBit_on h)

theorem leapSecond_on : p.On s.leapSecond := on_ite (setFld_on (setFld_on (advance_on h))) h

theorem timeStep_on : p.On s.timeStep := by
  unfold State.timeStep
  split
  · exact applyStep_on (advance_on h)
  · exact h

theorem compareFire_on {u : Nat} : p.On (s.compareFire u) := by
  refine on_ite h ?_
  extract_lets tgt
  split
  exact cuFire_on (advance_on h)

theorem ppsOutput_on : p.On s.ppsOutput := by
  unfold State.ppsOutput
  refine on_ite ?_ ?_
  · exact h
  · refine on_ite ?_ ?_
    · exact wr_on (with_tim_on (advance_on h))
    · exact wr_on (wr_on (with_tim_on (fresh_on (on_unless (advance_on h) fun h1 => emit_on h1))))

theorem timPlane_on {old : Scn} : p.On (s.timPlane old) :=
  forEach_on (fun _ _ h3 => on_ite (setFld_on h3) h3) (forEach_on (fun _ _ h2 => setFld_on h2) (forEach_on (fun _ _ h1 => on_ite (wr_on (wr_on h1))
    (wr_on h1)) (wr_on (wr_on (wr_on (wr_on h))))))

theorem timConfigure_on : p.On s.timConfigure := setBit_on (with_tim_on (wr_on (timPlane_on h)))

end

/-! ### Can -/

section
variable {p : RegProp} {s : State} (h : p.On s)
include h

theorem setCanCtl_on {k : Nat} {c : CanCtl} : p.On (s.setCanCtl k c) := with_can_on h

theorem setCanTx_on {k j : Nat} {x : CanTx} : p.On (s.setCanTx k j x) := with_can_on h

theorem canCapture_on {k : Nat} : p.On (s.canCapture k) := wr64_on (wr_on h)

theorem canIdle_on {k : Nat} : p.On (s.canIdle k) := by
  unfold State.canIdle
  dsimp only
  split
  · exact on_if (setBit_on (on_ite (setBit_on h) h)) fun h1 => setBit_on (setCanCtl_on h1)
  · exact setBit_on (on_ite (setBit_on h) h)

theorem canDrop_on {k j : Nat} : p.On (s.canDrop k j) := setBit_on (setBit_on (bump_on h))

theorem canStage_on {k j dlc : Nat} {data : List Byte} : p.On (s.canStage k j dlc data) :=
  on_ite (setCanTx_on (on_ite (bump_on h) h)) (canIdle_on (setBit_on (setCanTx_on (on_ite (bump_on h) h))))

theorem canStageRows_on {k j : Nat} : p.On (s.canStageRows k j) := canStage_on h

theorem canOutHook_on {n : Nat} {rows : List Nat} : p.On (s.canOutHook n rows) := by
  unfold State.canOutHook
  refine forEach_on ?_ ?_
  · intro _ _ h1
    refine on_ite ?_ ?_
    · split
      · exact on_ite (canStageRows_on h1) h1
      · exact h1
    · exact h1
  · exact h

theorem canStore_on {k a : Nat} {f : CanFrame} {stamp : Nat} : p.On (s.canStore k a f stamp).2 :=
  on_if (forEach_on (fun _ _ h2 => wr_on h2) (bump_on (wr64_on (wr_on (wr_on h))))) fun h1 => raise_on (setBit_on (bump_on h1))

theorem canRing_on {k j : Nat} {f : CanFrame} {stamp : Nat} {lost : Bool} : p.On (s.canRing k j f stamp lost) :=
  on_ite h (on_unless (hwEnq_on h) fun h1 => on_ite (hwEnq_on h1) (ringDrop_on (ringDrop_on h)))

theorem canInstall_on {k j : Nat} {f : CanFrame} {stamp : Nat} : p.On (s.canInstall k j f stamp) := by
  unfold State.canInstall
  split
  · exact h
  · split
    · exact h
    · exact sourceWrite_on h

theorem canHp_on {k j : Nat} {f : CanFrame} {stamp : Nat} : p.On (s.canHp k j f stamp) := by
  unfold State.canHp
  split
  · exact h
  · exact on_unless (wr_on (wr_on (canStore_on h))) fun h1 => on_if (postBound_on h1) fun h2 => emit_on h2

theorem canRecOk_on {k : Nat} : p.On (s.canRecOk k) := on_ite (setCanCtl_on (fresh_on h)) (setCanCtl_on h)

theorem canErrState_on {k : Nat} : p.On (s.canErrState k) := by
  unfold State.canErrState
  refine on_ite ?_ ?_
  · refine canIdle_on ?_
    refine raise_on ?_
    refine setBit_on ?_
    refine bump_on ?_
    split
    · exact setBit_on (setCanCtl_on (setFld_on (setFld_on h)))
    · exact setFld_on (setFld_on h)
  · exact on_if (setFld_on (setFld_on h)) fun h1 => raise_on (setBit_on h1)

theorem canLeave_on {k : Nat} : p.On (s.canLeave k) :=
  setFld_on (setCanCtl_on (forEach_on (fun _ _ h1 => setFld_on (setCanTx_on (on_if (on_ite (canDrop_on h1) h1) fun h2 => canDrop_on h2))) h))

theorem canAfter_on {k : Nat} : p.On (s.canAfter k) := on_ite (canLeave_on h) (canIdle_on h)

theorem canRelease_on {k j : Nat} : p.On (s.canRelease k j) := setCanCtl_on (setFld_on (setCanTx_on h))

theorem canReceive_on {k : Nat} {f : CanFrame} {arb : Bool} : p.On (s.canReceive k f arb) := by
  unfold State.canReceive
  split
  · exact h
  · refine on_ite ?_ ?_
    · exact h
    · refine canAfter_on ?_
      refine on_ite ?_ ?_
      · refine bump_on ?_
        refine canErrState_on ?_
        refine canRecOk_on ?_
        split
        · exact on_ite (on_ite (canRelease_on (canDrop_on (bump_on h))) (setBit_on (setCanCtl_on (bump_on h)))) h
        · exact h
      · split
        · refine bump_on ?_
          refine canErrState_on ?_
          refine canRecOk_on ?_
          split
          · exact on_ite (on_ite (canRelease_on (canDrop_on (bump_on h))) (setBit_on (setCanCtl_on (bump_on h)))) h
          · exact h
        · refine on_if ?_ fun h1 => ?_
          · refine on_if ?_ fun h2 => ?_
            · refine on_if ?_ fun h3 => ?_
              · refine canStore_on ?_
                refine bump64_on ?_
                refine canErrState_on ?_
                refine canRecOk_on ?_
                split
                · exact on_ite (on_ite (canRelease_on (canDrop_on (bump_on h))) (setBit_on (setCanCtl_on (bump_on h)))) h
                · exact h
              · exact canHp_on h3
            · exact canInstall_on h2
          · exact canRing_on h1

theorem canSent_on {k sof tdcv : Nat} : p.On (s.canSent k sof tdcv) := by
  unfold State.canSent
  split
  · exact h
  · refine on_ite ?_ ?_
    · refine canAfter_on ?_
      refine canErrState_on ?_
      refine on_ite ?_ ?_
      · exact canRelease_on (canDrop_on (setCanCtl_on (bump_on (raise_on (setBit_on (on_ite (setFld_on h) h))))))
      · exact setBit_on (setCanCtl_on (setCanCtl_on (bump_on (raise_on (setBit_on (on_ite (setFld_on h) h))))))
    · exact canAfter_on (canErrState_on (canRelease_on (setCanCtl_on (wr64_on (wr_on (wr_on (bump_on (bump64_on (emit_on (on_ite
        (setFld_on h) h))))))))))

theorem canError_on {k dTec dRec : Nat} {ours : Bool} : p.On (s.canError k dTec dRec ours) := by
  unfold State.canError
  refine on_ite ?_ ?_
  · exact h
  · refine canAfter_on ?_
    refine canErrState_on ?_
    split
    · exact on_if (setCanCtl_on (bump_on h)) fun h1 => on_ite (canRelease_on (canDrop_on h1)) (setBit_on (setCanCtl_on h1))
    · exact setCanCtl_on (bump_on h)

theorem canRejoin_on {k : Nat} : p.On (s.canRejoin k) := on_ite (canIdle_on (setFld_on (setFld_on (setCanCtl_on h)))) h

theorem canRecover_on {k : Nat} : p.On (s.canRecover k) := on_ite (setCanCtl_on h) h

theorem canMode_on {k m : Nat} : p.On (s.canMode k m) := on_ite (canIdle_on (setFld_on h)) h

theorem canDisable_on {k : Nat} : p.On (s.canDisable k) := on_unless (setBit_on h) fun h1 => on_unless (setBit_on h1) fun h2 => canLeave_on h2

theorem canEnable_on {k : Nat} : p.On (s.canEnable k) :=
  on_unless (setBit_on h) fun h1 => canIdle_on (setBit_on (setFld_on (setFld_on (setCanCtl_on h1))))

theorem canCtlWrite_on {k v : Nat} : p.On (s.canCtlWrite k v) := by
  unfold State.canCtlWrite
  refine on_ite ?_ ?_
  · exact canEnable_on (on_if (canMode_on (on_ite (canCapture_on h) h)) fun h1 => canRecover_on h1)
  · exact on_if (on_if (canMode_on (on_ite (canCapture_on h) h)) fun h3 => canRecover_on h3) fun h2 => canDisable_on h2

theorem canTxReq_on {k j : Nat} : p.On (s.canTxReq k j) := on_ite (canStage_on h) h

theorem canPeriodic_on {k j : Nat} : p.On (s.canPeriodic k j) := on_ite (canStageRows_on (advanceMono_on h)) h

theorem canTake_on {k : Nat} : p.On (s.canTake k) := by
  unfold State.canTake
  refine on_ite ?_ ?_
  · exact h
  · refine on_ite ?_ ?_
    · split
      case h_1 _ t1 e2 =>
        have h3 : p.On t1 := snd_on e2 (hwTake_on h)
        exact bump_on h3
      case h_2 t4 e5 =>
        have h6 : p.On t4 := snd_on e5 (hwTake_on h)
        exact h6
    · refine on_ite ?_ ?_
      · exact h
      · refine on_ite ?_ ?_
        · exact h
        · split
          case h_1 t7 e8 =>
            have h9 : p.On t7 := snd_on e8 (hwTake_on h)
            exact h9
          case h_2 _ t10 e11 =>
            have h12 : p.On t10 := snd_on e11 (hwTake_on h)
            refine on_ite ?_ ?_
            · refine setBit_on ?_
              refine bump_on ?_
              refine on_ite_snd ?_ ?_
              · split
                case h_1 _ t13 e14 =>
                  have h15 : p.On t13 := snd_on e14 (hwTake_on h12)
                  exact h15
                case h_2 t16 e17 =>
                  have h18 : p.On t16 := snd_on e17 (hwTake_on h12)
                  exact h18
              · exact h12
            · refine canStage_on ?_
              refine on_ite_snd ?_ ?_
              · split
                case h_1 _ t19 e20 =>
                  have h21 : p.On t19 := snd_on e20 (hwTake_on h12)
                  exact h21
                case h_2 t22 e23 =>
                  have h24 : p.On t22 := snd_on e23 (hwTake_on h12)
                  exact h24
              · exact h12

theorem canXcvr_on {k : Nat} : p.On (s.canXcvr k) := on_ite (raise_on (setBit_on h)) h

theorem canConfigure_on {old : Scn} : p.On (s.canConfigure old) :=
  forEach_on (fun _ _ h4 => wr_on (wr_on (wr_on (wr_on (on_ite h4 (setCanTx_on h4)))))) (forEach_on (fun _ _ h3 => setCanTx_on (wr_on h3))
    (forEach_on (fun _ _ h2 => setBit_on (wr_on (wr_on (wr_on (wr_on h2))))) (forEach_on (fun _ _ h1 => setCanCtl_on (setBit_on (setFld_on h1))) h)))

theorem canStart_on {n : Nat} : p.On (s.canStart n) := by
  unfold State.canStart
  refine forEach_on ?_ ?_
  · intro _ _ h1
    refine on_ite ?_ ?_
    · exact canIdle_on (forEach_on (fun _ _ h3 => clr_on h3) (forEach_on (fun _ _ h2 => clr_on h2) (wr64_on (wr64_on (setFld_on h1)))))
    · exact h1
  · exact h

theorem canTakeover_on : p.On s.canTakeover :=
  forEach_on (fun _ _ h1 => canIdle_on (forEach_on (fun _ _ h2 => on_ite h2 (setBit_on (setCanTx_on h2))) h1)) h

end

/-! ### Fio -/

section
variable {s : State} (h : regForm.On s)
include h

theorem setFio_on {f : Fio} : regForm.On (s.setFio f) := with_fio_on h

end

section
variable {p : RegProp} {s : State} (h : p.On s)
include h

theorem drivenRegs_on : p.On s.drivenRegs := by
  unfold State.drivenRegs
  refine on_if ?_ fun h1 => ?_
  · exact setBit_on (setBit_on (forEach_on (fun _ _ h3 => setBit_on h3) (forEach_on (fun _ _ h2 => on_ite (setBit_on h2) h2) h)))
  · exact setBit_on (setBit_on h1)

theorem linkReg_on : p.On s.linkReg := setBit_on h

theorem fioCrc_on : p.On s.fioCrc := raise_on (setBit_on (bump_on h))

theorem dCommanded_on {k : Nat} {new : Bool} : p.On (s.dCommanded k new) := on_ite h (wr64_on (bump_on (setBit_on (setBit_on h))))

end

section
variable {s : State} (h : regForm.On s)
include h

theorem downlinkNow_on {kind : Nat} : regForm.On (s.downlinkNow kind) := by
  unfold State.downlinkNow
  refine on_ite ?_ ?_
  · refine on_if ?_ fun h1 => ?_
    · exact drivenRegs_on (linkReg_on (setFio_on (emit_on (forEach_on (fun _ _ h3 => on_if (wr_on h3) fun h4 => setBit_on h4) (forEach_on
        (fun _ _ h2 => on_ite (dCommanded_on h2) h2) (advance_on h))))))
    · exact setBit_on h1
  · refine linkReg_on ?_
    refine on_if ?_ fun h5 => ?_
    · exact bump_on (setFio_on (emit_on (forEach_on (fun _ _ h7 => on_if (wr_on h7) fun h8 => setBit_on h8) (forEach_on (fun _ _ h6 => on_ite
        (dCommanded_on h6) h6) (advance_on h)))))
    · exact fioCrc_on h5

theorem downlink_on {kind : Nat} : regForm.On (s.downlink kind) := on_ite (downlinkNow_on h) h

theorem sillRefreshLost_on : regForm.On s.sillRefreshLost :=
  on_ite (on_unless (on_if (advance_on h) fun h2 => on_ite h h2) fun h1 => drivenRegs_on (linkReg_on (setFio_on h1))) h

end

section
variable {p : RegProp} {s : State} (h : p.On s)
include h

theorem sillStamp_on : p.On (s.sillStamp).2.2 := on_ite_snd2 (fresh_on h) (on_ite_snd2 h (fresh_on h))

end

section
variable {s : State} (h : regForm.On s)
include h

theorem inputChange_on {k : Nat} {new : Bool} {at_ : Nat} : regForm.On (s.inputChange k new at_) := by
  unfold State.inputChange
  split
  · exact h
  · refine on_ite ?_ ?_
    · exact h
    · refine on_ite ?_ ?_
      · exact setFio_on (sillStamp_on (advance_on h))
      · exact raise_on (setBit_on (bump_on (setFio_on (sillStamp_on (advance_on h)))))

end

section
variable {p : RegProp} {s : State} (h : p.On s)
include h

theorem fioRecord_on {k stamp : Nat} {new lost free : Bool} : p.On (s.fioRecord k stamp new lost free) := by
  unfold State.fioRecord
  split
  · exact h
  · refine on_ite ?_ ?_
    · exact h
    · split
      · exact h
      · exact hwEnq_on h

theorem dChanged_on {k stamp : Nat} {new : Bool} : p.On (s.dChanged k stamp new) := wr64_on (bump_on (setBit_on (setBit_on h)))

end

section
variable {s : State} (h : regForm.On s)
include h

theorem installInputs_on {chs : List (Nat × Bool)} {stamp : Nat} : regForm.On (s.installInputs chs stamp) :=
  setFio_on (forEach_on (fun _ _ h2 => setBit_on h2) (forEach_on (fun _ _ h1 => sourceWrite_on h1) h))

theorem installChanges_on {fuel : Nat} {l : List FioChg} : regForm.On (s.installChanges fuel l) := by
  induction fuel generalizing s l with
  | zero => exact h
  | succ fuel ih =>
    unfold installChanges
    split
    · exact h
    · exact ih (installInputs_on h)

end

section
variable {p : RegProp} {s : State} (h : p.On s)
include h

theorem readback_on {k : Nat} : p.On (s.readback k) := by
  unfold State.readback
  split
  · exact h
  · split
    · exact h
    · exact sourceBits_on h

end

section
variable {s : State} (h : regForm.On s)
include h

theorem fioResync_on {stamp : Nat} {resync : Bool} : regForm.On (s.fioResync stamp resync) :=
  forEach_on (fun _ _ h1 => on_if (fioRecord_on (dChanged_on h1)) fun h2 => raise_on (setBit_on (bump_on h2))) (installInputs_on h)

theorem uplink_on {kind term codeA codeB : Nat} : regForm.On (s.uplink kind term codeA codeB) := by
  unfold State.uplink
  refine on_ite ?_ ?_
  · exact h
  · refine on_ite ?_ ?_
    · exact linkReg_on (on_if (bump_on (setFio_on (advance_on h))) fun h1 => fioCrc_on h1)
    · exact drivenRegs_on (linkReg_on (forEach_on (fun _ _ h5 => readback_on h5) (forEach_on (fun _ _ h4 => on_ite (wr_on h4) h4) (forEach_on
        (fun _ _ h3 => setBit_on h3) (setFld_on (setFld_on (setFld_on (setFio_on (fioResync_on (forEach_on (fun _ _ h2 => fioRecord_on (dChanged_on
        (bump64_on h2))) (installChanges_on (setFio_on (advance_on h)))))))))))))

theorem logicRefreshLost_on : regForm.On s.logicRefreshLost := by
  unfold State.logicRefreshLost
  refine on_ite ?_ ?_
  · exact h
  · exact forEach_on (fun _ _ h1 => on_ite (raise_on (bump_on (on_unless (setBit_on (setBit_on h1)) fun h2 => setFio_on h2))) h1) h

theorem complLost_on {k : Nat} : regForm.On (s.complLost k) := on_ite h (raise_on (bump_on (setBit_on (setBit_on (setFio_on h)))))

theorem complianceLost_on {k : Nat} : regForm.On (s.complianceLost k) := on_ite (complLost_on h) h

theorem complianceBack_on {k : Nat} : regForm.On (s.complianceBack k) := on_ite (setBit_on (setFio_on h)) h

theorem sillOff_on : regForm.On s.sillOff := setFio_on h

theorem supplyFault_on {g volt : Nat} : regForm.On (s.supplyFault g volt) := by
  unfold State.supplyFault
  refine on_ite ?_ ?_
  · exact h
  · refine on_unless ?_ fun h1 => ?_
    · exact wr_on h
    · exact drivenRegs_on (linkReg_on (on_if (forEach_on (fun _ _ h3 => complLost_on h3) (raise_on (setFio_on h1))) fun h2 => sillOff_on h2))

theorem supplyReturn_on {g volt : Nat} : regForm.On (s.supplyReturn g volt) := on_ite h (on_unless (wr_on h) fun h1 => drivenRegs_on (setFio_on h1))

theorem outputFault_on {k kind : Nat} : regForm.On (s.outputFault k kind) := by
  unfold State.outputFault
  split
  · exact h
  · exact on_ite h (on_ite (raise_on (setFio_on (setBit_on (setBit_on h)))) (raise_on (setBit_on h)))

theorem outputRetry_on {k : Nat} {still : Bool} : regForm.On (s.outputRetry k still) := by
  unfold State.outputRetry
  split
  · exact h
  · exact on_ite (setFio_on (advanceMono_on h)) (setBit_on (setFio_on (advanceMono_on h)))

end

section
variable {p : RegProp} {s : State} (h : p.On s)
include h

theorem calReject_on : p.On s.calReject := setBit_on h

theorem dthrWrite_on {g v : Nat} {byO0 : Bool} : p.On (s.dthrWrite g v byO0) := on_ite (wr_on (with_nvs_on h)) (calReject_on h)

theorem trimWrite_on {k v : Nat} {gain byO0 : Bool} : p.On (s.trimWrite k v gain byO0) := on_ite (wr_on (with_nvs_on h)) (calReject_on h)

end

section
variable {s : State} (h : regForm.On s)
include h

theorem claimCycle_on {other : Nat} {bad : Bool} : regForm.On (s.claimCycle other bad) :=
  on_ite h (drivenRegs_on (on_if (wr_on (setFio_on (advance_on h))) fun h1 => raise_on h1))

theorem fioStart_on {n : Nat} : regForm.On (s.fioStart n) := on_ite h (installInputs_on h)

theorem fioCatchUp_on : regForm.On s.fioCatchUp := installInputs_on h

end

section
variable {p : RegProp} {s : State} (h : p.On s)
include h

theorem fioConfigure_on {old : Scn} : p.On (s.fioConfigure old) :=
  setFld_on (forEach_on (fun _ _ h5 => wr_on h5) (forEach_on (fun _ _ h4 => wr_on (wr_on (wr_on (wr_on (wr_on h4))))) (forEach_on
    (fun _ _ h3 => wr_on (wr_on h3)) (forEach_on (fun _ _ h2 => wr_on (wr_on (wr_on h2))) (forEach_on (fun _ _ h1 => wr_on (wr_on h1)) h)))))

end

/-! ### Net -/

section
variable {p : RegProp} {s : State} (h : p.On s)
include h

theorem setNet_on {x : Net} : p.On (s.setNet x) := with_net_on h

theorem netFilt_on {i : Nat} : p.On (s.netFilt i) := bump_on h

theorem dupRegs_on : p.On s.dupRegs := setBit_on (wr_on h)

theorem dupCheck_on {h' : NetHead} {seq : Nat} : p.On (s.dupCheck h' seq).2 := by
  unfold State.dupCheck
  dsimp only
  split
  · exact on_ite_snd (dupRegs_on (setNet_on h)) (raise_on (dupRegs_on (setBit_on (bump_on h))))
  · refine on_ite_snd ?_ ?_
    · exact on_ite_snd (bump_on (dupRegs_on (setNet_on h))) (dupRegs_on (setNet_on h))
    · exact on_ite_snd (dupRegs_on (setNet_on h)) (bump_on (dupRegs_on (setNet_on h)))

theorem netRx_on {h' : NetHead} : p.On (s.netRx h').2 := by
  unfold State.netRx
  dsimp only
  refine on_ite_snd ?_ ?_
  · exact h
  · refine on_ite_snd ?_ ?_
    · exact raise_on (setBit_on (setBit_on (bump_on (bump_on (bump64_on (bump64_on (advance_on h)))))))
    · refine on_ite_snd ?_ ?_
      · exact bump_on (bump64_on (bump64_on (advance_on h)))
      · refine on_ite_snd ?_ ?_
        · exact netFilt_on (bump64_on (bump64_on (advance_on h)))
        · split
          · exact bump64_on (bump64_on (advance_on h))
          · refine on_ite_snd ?_ ?_
            · exact bump64_on (bump64_on (advance_on h))
            · refine on_ite_snd ?_ ?_
              · exact bump64_on (bump64_on (advance_on h))
              · split
                case h_1 t1 e2 =>
                  have h4 : p.On t1 := snd_on e2 (dupCheck_on (on_if (bump64_on (bump64_on (advance_on h))) fun h3 => raise_on (bump_on h3)))
                  exact h4
                case h_2 t5 e6 =>
                  have h8 : p.On t5 := snd_on e6 (dupCheck_on (on_if (bump64_on (bump64_on (advance_on h))) fun h7 => raise_on (bump_on h7)))
                  exact on_ite_snd (on_ite h8 (emit_on (bump64_on (bump64_on (bump_on h8))))) h8

theorem dupAge_on : p.On s.dupAge := by
  unfold State.dupAge
  split
  · exact h
  · exact dupRegs_on (setNet_on (advanceMono_on h))

theorem setGs_on {k : Nat} {g : GsSub} : p.On (s.setGs k g) := setNet_on h

theorem gsInvalid_on {k reason stamp : Nat} : p.On (s.gsInvalid k reason stamp) := by
  unfold State.gsInvalid
  split
  · exact h
  · exact on_unless (setGs_on h) fun h1 => raise_on (sourceWrite_on (bump_on (setBit_on (setFld_on (setBit_on h1)))))

theorem gooseFor_on {h' : NetHead} {p' : GoosePdu} {k : Nat} {c : SubRec} : p.On (s.gooseFor h' p' k c) := by
  unfold State.gooseFor
  dsimp only
  refine on_ite ?_ ?_
  · exact netFilt_on h
  · refine on_ite ?_ ?_
    · exact bump_on h
    · refine on_ite ?_ ?_
      · exact gsInvalid_on h
      · split
        · exact gsInvalid_on h
        · refine on_ite ?_ ?_
          · exact gsInvalid_on h
          · refine on_unless ?_ fun h1 => ?_
            · exact sourceWrite_on (setGs_on (setBit_on (setBit_on (wr_on (wr64_on (bump_on (wr_on (wr_on h))))))))
            · exact forEach_on (fun _ _ h2 => on_ite (postEvent_on h2) h2) h1

theorem gooseRx_on {h' : NetHead} {p' : GoosePdu} : p.On (s.gooseRx h' p') := by
  unfold State.gooseRx
  split
  case h_1 t1 e2 =>
    have h3 : p.On t1 := snd_on e2 (netRx_on h)
    exact h3
  case h_2 t4 e5 =>
    have h6 : p.On t4 := snd_on e5 (netRx_on h)
    exact on_ite (netFilt_on h6) (forEach_on (fun _ _ h7 => gooseFor_on h7) (bump64_on h6))

theorem gsExpire_on {k : Nat} : p.On (s.gsExpire k) := by
  unfold State.gsExpire
  split
  · exact h
  · exact gsInvalid_on (advance_on h)

theorem setStrm_on {v : Nat} {x : Strm} : p.On (s.setStrm v x) := setNet_on h

theorem svInvalid_on {v reason stamp : Nat} : p.On (s.svInvalid v reason stamp) := by
  unfold State.svInvalid
  split
  · exact h
  · exact on_ite h (raise_on (sourceWrite_on (bump_on (setBit_on (setFld_on (setBit_on h))))))

theorem svDeliver_on {v : Nat} {c : StreamRec} {a : Asdu} {stamp : Nat} : p.On (s.svDeliver v c a stamp) :=
  on_ite h (sourceWrite_on (setBit_on (wr64_on (wr_on (setStrm_on (on_ite (bump_on h) h))))))

theorem svFor_on {h' : NetHead} {p' : SvPdu} {v : Nat} {c : StreamRec} : p.On (s.svFor h' p' v c) := by
  unfold State.svFor
  dsimp only
  refine on_ite ?_ ?_
  · exact netFilt_on h
  · split
    · refine svInvalid_on ?_
      split
      · exact setFld_on (archive_on (bump_on h))
      · exact archive_on (bump_on h)
    · refine forEach_on ?_ ?_
      · exact fun _ _ h1 => svDeliver_on h1
      · split
        · exact setFld_on (archive_on (bump_on h))
        · exact archive_on (bump_on h)

theorem svRx_on {h' : NetHead} {p' : SvPdu} : p.On (s.svRx h' p') := by
  unfold State.svRx
  split
  case h_1 t1 e2 =>
    have h3 : p.On t1 := snd_on e2 (netRx_on h)
    exact h3
  case h_2 t4 e5 =>
    have h6 : p.On t4 := snd_on e5 (netRx_on h)
    exact on_ite (netFilt_on h6) (forEach_on (fun _ _ h7 => svFor_on h7) (bump64_on h6))

theorem svExpire_on {v : Nat} : p.On (s.svExpire v) := by
  unfold State.svExpire
  split
  · exact h
  · exact on_ite (svInvalid_on (advance_on h)) h

theorem setPub_on {p' : Nat} {x : Pub} : p.On (s.setPub p' x) := setNet_on h

theorem pubSend_on {p' : Nat} {c : PubRec} {interval k : Nat} {data : List Nat} : p.On (s.pubSend p' c interval k data) :=
  emit_on (wr_on (bump_on (forEach_on (fun _ _ h3 => bump64_on h3) (on_if (setNet_on h) fun h1 => on_if (setNet_on h1) fun h2 => emit_on h2))))

theorem pubNew_on {p' : Nat} {c : PubRec} {data : List Nat} : p.On (s.pubNew p' c data) := pubSend_on (wr64_on (wr_on (wr_on h)))

theorem pubHook_on {n : Nat} {chg : List (Nat × Row)} : p.On (s.pubHook n chg) := forEach_on (fun _ _ h1 => on_ite (on_ite (pubNew_on h1) h1) h1) h

theorem pubBegin_on {p' : Nat} {c : PubRec} : p.On (s.pubBegin p' c) := pubSend_on (wr64_on (setFld_on (clr_on (clr_on (wr_on (wr_on h))))))

theorem pubStart_on {n : Nat} : p.On (s.pubStart n) := forEach_on (fun _ _ h1 => on_ite (pubBegin_on h1) h1) h

theorem pubToStop_on {p' : Nat} {c : PubRec} : p.On (s.pubToStop p' c) :=
  on_ite (on_unless (setFld_on h) fun h1 => pubSend_on (wr64_on (wr_on (wr_on h1)))) (setFld_on h)

theorem pubStop_on {n : Nat} : p.On (s.pubStop n) := forEach_on (fun _ _ h1 => on_ite (pubToStop_on h1) h1) h

theorem pubRetransmit_on {p' : Nat} : p.On (s.pubRetransmit p') := by
  unfold State.pubRetransmit
  split
  · exact h
  · exact on_ite h (pubSend_on (wr_on (advanceMono_on h)))

theorem supervisionRx_on {h' : NetHead} : p.On (s.supervisionRx h') := by
  unfold State.supervisionRx
  split
  case h_1 t1 e2 =>
    have h3 : p.On t1 := snd_on e2 (netRx_on h)
    exact h3
  case h_2 t4 e5 =>
    have h6 : p.On t4 := snd_on e5 (netRx_on h)
    exact bump_on h6

theorem supervisionTx_on : p.On s.supervisionTx := on_ite h (forEach_on (fun _ _ h1 => forEach_on (fun _ _ h2 => emit_on (bump64_on h2)) h1) h)

theorem ipDrop_on {i : Nat} : p.On (s.ipDrop i) := on_ite (bump_on h) h

theorem ipSend_on {i purpose : Nat} {fields : List Nat} : p.On (s.ipSend i purpose fields) := emit_on (on_ite (bump64_on h) h)

theorem ipRx_on {i len : Nat} : p.On (s.ipRx i len) := on_ite (bump64_on (bump64_on h)) h

theorem addrConflict_on {i a : Nat} : p.On (s.addrConflict i a) := on_ite h (raise_on (setNet_on h))

theorem arpRequest_on {i target sender : Nat} : p.On (s.arpRequest i target sender) := on_ite h (on_if (ipRx_on h) fun h1 => ipSend_on h1)

theorem setNbr_on {x : Nbr} : p.On (s.setNbr x) := setNet_on h

theorem udpOut_on {i n e : Nat} {fields : List Nat} : p.On (s.udpOut i n e fields) := bump_on (ipSend_on h)

theorem nbrReply_on {i : Nat} {v6 : Bool} {a : Nat} : p.On (s.nbrReply i v6 a) := by
  unfold State.nbrReply
  dsimp only
  refine on_ite ?_ ?_
  · exact h
  · refine on_ite ?_ ?_
    · exact addrConflict_on (ipRx_on h)
    · split
      · split
        · exact udpOut_on (setNbr_on (on_if (ipRx_on h) fun h1 => setNet_on h1))
        · exact setNbr_on (on_if (ipRx_on h) fun h2 => setNet_on h2)
      · exact setNbr_on (on_if (ipRx_on h) fun h3 => setNet_on h3)

theorem arpRepeat_on {i a : Nat} : p.On (s.arpRepeat i a) := by
  unfold State.arpRepeat
  split
  · exact h
  · exact on_ite h (ipSend_on (setNbr_on (advanceMono_on h)))

theorem udpDrop_on {n e : Nat} : p.On (s.udpDrop n e) := raise_on (bump_on h)

theorem nbrTimeout_on {i : Nat} {v6 : Bool} {a : Nat} : p.On (s.nbrTimeout i v6 a) := by
  unfold State.nbrTimeout
  split
  · exact h
  · refine on_ite ?_ ?_
    · exact h
    · split
      · exact udpDrop_on (setNet_on (advanceMono_on h))
      · exact setNet_on (advanceMono_on h)

theorem arpAge_on {i : Nat} : p.On (s.arpAge i) := by
  unfold State.arpAge
  split
  · exact h
  · exact setNet_on (advanceMono_on h)

theorem icmpEcho_on {i : Nat} {v6 echo : Bool} {dst remote : Nat} : p.On (s.icmpEcho i v6 echo dst remote) :=
  on_ite h (on_ite (ipDrop_on (ipRx_on h)) (on_unless (ipRx_on h) fun h1 => ipSend_on (setNet_on h1)))

theorem ndp_on {i kind target : Nat} : p.On (s.ndp i kind target) := by
  unfold State.ndp
  refine on_ite ?_ ?_
  · exact h
  · refine on_ite ?_ ?_
    · exact ipDrop_on (ipRx_on h)
    · exact on_ite (addrConflict_on (ipRx_on h)) (on_ite (on_if (ipRx_on h) fun h1 => ipSend_on h1) (nbrReply_on h))

theorem dadDone_on {i : Nat} : p.On (s.dadDone i) := by
  unfold State.dadDone
  split
  · exact h
  · exact setNet_on (advanceMono_on h)

theorem udpRx_on {i : Nat} {u : Udp} {stamp : Nat} : p.On (s.udpRx i u stamp) := by
  unfold State.udpRx
  dsimp only
  refine on_ite ?_ ?_
  · exact h
  · refine on_unless ?_ fun h1 => ?_
    · exact ipDrop_on (advance_on (ipRx_on h))
    · split
      · exact on_unless (advance_on (ipRx_on h)) fun h2 => h1
      · split
        · exact h1
        · refine on_unless ?_ fun h3 => ?_
          · exact advance_on (ipRx_on h)
          · refine on_ite ?_ ?_
            · exact udpDrop_on h3
            · refine on_ite ?_ ?_
              · exact udpDrop_on (ringDrop_on h3)
              · split
                case h_1 t4 e5 =>
                  have h6 : p.On t4 := snd_on e5 (hwWriteBytes_on h3)
                  exact udpDrop_on (setBit_on (ringDrop_on h6))
                case h_2 t7 e8 =>
                  have h9 : p.On t7 := snd_on e8 (hwWriteBytes_on h3)
                  split
                  case h_1 t10 e11 =>
                    have h12 : p.On t10 := snd_on e11 (hwEnq_on h9)
                    exact bump_on h12
                  case h_2 t13 e14 =>
                    have h15 : p.On t13 := snd_on e14 (hwEnq_on h9)
                    exact udpDrop_on h15

theorem udpTake_on {n e : Nat} : p.On (s.udpTake n e) := by
  unfold State.udpTake
  dsimp only
  split
  · exact h
  · split
    · exact h
    · split
      case h_1 t1 e2 =>
        have h3 : p.On t1 := snd_on e2 (hwTake_on h)
        exact h3
      case h_2 _ t4 e5 =>
        have h6 : p.On t4 := snd_on e5 (hwTake_on h)
        refine on_ite ?_ ?_
        · exact bump_on h6
        · refine on_ite ?_ ?_
          · exact udpDrop_on h6
          · split
            case h_1 t7 e8 =>
              have h9 : p.On t7 := snd_on e8 (hwReadBytes_on h6)
              exact udpDrop_on h9
            case h_2 _ t10 e11 =>
              have h12 : p.On t10 := snd_on e11 (hwReadBytes_on h6)
              refine on_unless ?_ fun h13 => ?_
              · exact udpDrop_on h12
              · split
                · exact on_ite (udpOut_on h12) (on_ite h13 (setNbr_on h12))
                · exact ipSend_on (setNbr_on h12)

theorem portDisable_on {i : Nat} : p.On (s.portDisable i) :=
  on_ite h (on_if (setFld_on (setNet_on (bump_on (setBit_on h)))) fun h1 => setBit_on (setBit_on h1))

theorem portEnable_on {i : Nat} : p.On (s.portEnable i) := on_ite h (setBit_on (setBit_on h))

theorem linkDown_on {i : Nat} : p.On (s.linkDown i) := on_ite h (on_if (raise_on (bump_on (setBit_on (setBit_on h)))) fun h1 => raise_on h1)

theorem linkUp_on {i : Nat} : p.On (s.linkUp i) :=
  on_ite h (on_if (setBit_on (setBit_on h)) fun h1 => forEach_on (fun _ _ h2 => ipSend_on h2) (setNet_on h1))

theorem announceShared_on : p.On s.announceShared :=
  forEach_on (fun _ _ h1 => on_ite (forEach_on (fun _ _ h3 => ipSend_on h3) (forEach_on (fun _ _ h2 => ipSend_on h2) h1)) h1) h

theorem seqJump_on : p.On s.seqJump := setNet_on h

theorem netStart_on {n : Nat} : p.On (s.netStart n) :=
  forEach_on (fun _ _ h3 => on_ite (clr_on (clr_on (clr_on h3))) h3) (forEach_on (fun _ _ h2 => on_ite (clr_on (clr_on (clr_on (setBit_on h2)))) h2)
    (forEach_on (fun _ _ h1 => on_ite (clr_on (clr_on (setGs_on (setBit_on h1)))) h1) h))

theorem netConfigure_on {old : Scn} : p.On (s.netConfigure old) :=
  setBit_on (forEach_on (fun _ _ h11 => wr_on h11) (forEach_on (fun _ _ h10 => setPub_on (wr_on h10)) (forEach_on (fun _ _ h9 => setStrm_on
    (wr_on h9)) (forEach_on (fun _ _ h8 => setGs_on (wr_on h8)) (forEach_on (fun _ _ h7 => wr_on h7) (forEach_on (fun _ _ h6 => setPub_on
    (wr_on h6)) (forEach_on (fun _ _ h5 => setStrm_on (wr_on h5)) (forEach_on (fun _ _ h4 => setGs_on (wr_on h4)) (forEach_on
    (fun _ _ h2 => on_unless (wr_on h2) fun h3 => setBit_on (setBit_on (wr_on h3))) (forEach_on (fun _ _ h1 => setBit_on (setBit_on (wr_on
    (wr_on h1)))) h))))))))))

end

/-! ### Commit -/

section
variable {p : RegProp} {s : State} (h : p.On s)
include h

theorem sendDigest_on {n kind num epoch : Nat} {rows : SMap (Row × Row)} : p.On (s.sendDigest n kind num epoch rows) :=
  on_ite h (on_if (bump64_on (emit_on h)) fun h1 => with_red_on h1)

theorem commitRows_on {n kind num epoch task : Nat} {rows : SMap (Row × Row)} : p.On (s.commitRows n kind num epoch task rows) := by
  unfold commitRows
  extract_lets s1 x s2 place ovl s3 flagged s4
  have h3 : p.On s3 := on_unless (with_img_on (advance_on h)) fun h2 => setBit_on (bump_on h2)
  have h4 : p.On s4 := on_if h3 fun h3 => raise_on h3
  clear_value s4 place
  split
  next chg t e =>
    have h5 : p.On t := by
      refine snd_on e (foldl_snd_on ?_ h4)
      intro y r h1
      extract_lets s5
      split
      next e1 => exact snd_on e1 (install_on (healWords_on h1))
    exact sendDigest_on (canOutHook_on (pubHook_on (poolRegs_on (bump64_on h5))))

theorem commitNext_on {n : Nat} : p.On (s.commitNext n) := by
  unfold State.commitNext
  split
  · exact h
  · exact dispatch_on (pendAfter_on (poolRegs_on (retire_on (commitRows_on (with_img_on (advance_on (fresh_on h)))))))

end

/-! ### Lop -/

section
variable {p : RegProp} {s : State} (h : p.On s)
include h

theorem setLoop_on {i : Nat} {x : Loop} : p.On (s.setLoop i x) := with_loops_on h

theorem loopCommit_on {i sample value : Nat} : p.On (s.loopCommit i sample value) := by
  unfold State.loopCommit
  dsimp only
  split
  · exact commitRows_on h
  · exact h

theorem loopOut_on {i : Nat} : p.On (s.loopOut i) := by
  unfold State.loopOut
  split
  · exact loopCommit_on (setLoop_on h)
  · exact h

theorem oscCheck_on {i : Nat} {c : LoopCfg} {e : Int} : p.On (s.oscCheck i c e) := by
  unfold State.oscCheck
  refine on_ite ?_ ?_
  · exact h
  · exact on_ite (raise_on (bump_on (setBit_on (setBit_on (setLoop_on h))))) (on_if (setLoop_on h) fun h1 => setBit_on h1)

theorem plCheck_on {i : Nat} {c : LoopCfg} {pv up : Nat} : p.On (s.plCheck i c pv up).2 := by
  unfold State.plCheck
  refine on_ite_snd ?_ ?_
  · exact h
  · refine on_ite_snd ?_ ?_
    · exact raise_on (bump_on (setBit_on (setBit_on (setLoop_on (wr_on (setLoop_on (wr_on h)))))))
    · exact on_if (setLoop_on (wr_on h)) fun h1 => setBit_on h1

theorem loopStatus_on {i t : Nat} {c : LoopCfg} {held ovf : Bool} {res : Nat} : p.On (s.loopStatus i t c held ovf res) :=
  on_ite h (on_ite h (sourceBits_on (setLoop_on h)))

theorem loopCompute_on {i t : Nat} : p.On (s.loopCompute i t) := by
  unfold State.loopCompute
  extract_lets c x s1 x1 s2 s3 s4 pv sp w s5 init r0 r chg s6 s7 ucur f0 i0 x2 s8 frozen
  have h4 : p.On s4 := wr64_on (on_if (on_ite (bump_on (setLoop_on h)) h) fun h1 => raise_on (setBit_on (bump_on (setLoop_on h1))))
  have h8 : p.On s8 := on_if (on_if (setFld_on h4) fun h7 => setBit_on (bump_on h7)) fun h7 => setLoop_on (wr_on h7)
  clear_value s4
  refine on_ite (loopStatus_on (raise_on (setBit_on h4))) ?_
  clear_value s7 s8 frozen ucur f0 i0 r init
  iterate 9 split
  extract_lets xprev uprev up
  clear_value uprev up
  iterate 11 split
  extract_lets hi u1 lo u2 ovf s9 s10 s11 s12 s13 was s14 s15
  have h12 : p.On s12 := on_if (setBit_on (setBit_on (bump64_on (wr_on (wr_on (wr_on (wr_on h8))))))) fun h => setBit_on (bump_on h)
  have h15 : p.On s15 :=
    on_if (setBit_on (on_if h12 fun h => raise_on (setBit_on (bump_on h)))) fun h => raise_on (setBit_on (bump_on h))
  clear_value s15
  split
  next e => exact loopStatus_on (snd_on e (plCheck_on (oscCheck_on (setLoop_on h15))))

theorem loopDrained_on {i : Nat} : p.On (s.loopDrained i) := setFld_on h

theorem loopSample_on : p.On s.loopSample := by
  unfold State.loopSample
  dsimp only
  split
  · exact h
  · exact forEach_on (fun _ _ h3 => on_ite (on_ite (loopDrained_on h3) (bump_on h3)) (on_ite h3 (on_ite (loopCompute_on h3) (bump_on h3))))
      (forEach_on (fun _ _ h2 => on_ite (loopOut_on h2) h2) (forEach_on (fun _ _ h1 => setLoop_on h1) (advance_on h)))

theorem loopDisable_on {i : Nat} : p.On (s.loopDisable i) := on_unless (setBit_on h) fun h1 => on_ite (setBit_on h1) (loopDrained_on h1)

theorem loopEnable_on {i : Nat} : p.On (s.loopEnable i) := on_ite h (setLoop_on (setFld_on (setBit_on h)))

theorem loopStart_on {n : Nat} {cold : Bool} : p.On (s.loopStart n cold) :=
  forEach_on (fun _ _ h1 => on_ite (forEach_on (fun _ _ h2 => clr_on h2) (clr_on (wr64_on (setLoop_on (setFld_on (setBit_on h1)))))) h1) h

theorem loopStop_on {n : Nat} : p.On (s.loopStop n) := forEach_on (fun _ _ h1 => on_ite (loopCommit_on (setLoop_on h1)) h1) h

theorem lopConfigure_on {old : Scn} : p.On (s.lopConfigure old) :=
  setBit_on (forEach_on (fun _ _ h3 => on_ite h3 (setLoop_on (forEach_on (fun _ _ h4 => wr_on h4) h3))) (forEach_on (fun _ _ h1 => setLoop_on
    (forEach_on (fun _ _ h2 => wr_on h2) h1)) h))

end

/-! ### Wdg -/

section
variable {p : RegProp} {s : State} (h : p.On s)
include h

theorem setWd_on {w : Nat} {x : Wdg} : p.On (s.setWd w x) := with_wdg_on h

theorem wdgRegs_on {w : Nat} : p.On (s.wdgRegs w) := setFld_on (setFld_on h)

theorem wdgRestart_on {w : Nat} : p.On (s.wdgRestart w) := wdgRegs_on (setWd_on h)

theorem wdgModes_on : p.On s.wdgModes :=
  forEach_on (fun _ _ h1 => on_ite h1 (on_ite (on_ite (wdgRegs_on (setWd_on h1)) (wdgRestart_on (setWd_on h1))) (wdgRegs_on (setWd_on h1)))) h

theorem wdgWindow_on {w : Nat} : p.On (s.wdgWindow w) := on_ite (wdgRegs_on (setWd_on (advanceMono_on h))) h

theorem wdgViolation_on {w : Nat} : p.On (s.wdgViolation w) := wdgRestart_on (raise_on (setBit_on (bump_on h)))

theorem wdgExpire_on {w : Nat} : p.On (s.wdgExpire w) := by
  unfold wdgExpire
  extract_lets x per
  refine on_ite h ?_
  split
  next d t e =>
    have h1 : p.On t := by
      refine snd_on e ?_
      split
      · split
        next e1 => exact snd_on e1 (fresh_on h)
      · exact h
    exact wdgRestart_on (raise_on (setWd_on (setBit_on (bump_on (advanceMono_on h1)))))

theorem wdgKey_on {w key : Nat} : p.On (s.wdgKey w key) := by
  unfold State.wdgKey
  refine on_ite ?_ ?_
  · exact h
  · refine on_ite ?_ ?_
    · exact setWd_on h
    · refine on_ite ?_ ?_
      · exact wdgViolation_on h
      · refine on_ite ?_ ?_
        · exact on_ite (wdgRestart_on (wr_on (setWd_on (bump_on (setWd_on h))))) (wdgViolation_on (setWd_on h))
        · refine on_ite ?_ ?_
          · exact on_ite (wdgRegs_on (setBit_on (setWd_on (setWd_on h)))) (wdgViolation_on (setWd_on h))
          · exact on_ite (wdgRegs_on (setWd_on (setWd_on h))) (on_ite (wdgRegs_on (setWd_on (setWd_on h))) (wdgViolation_on (setWd_on h)))

theorem wdgPeriod_on {w v : Nat} : p.On (s.wdgPeriod w v) := on_ite (wr_on (setWd_on h)) (setBit_on h)

theorem wdgEnable_on {w : Nat} : p.On (s.wdgEnable w) := on_ite h (wdgModes_on (setBit_on (setWd_on h)))

theorem wdgLock_on {w : Nat} : p.On (s.wdgLock w) := setBit_on (setWd_on h)

theorem wdgCtl_on {w v : Nat} : p.On (s.wdgCtl w v) := on_if (on_ite (wdgLock_on h) h) fun h1 => wdgEnable_on h1

theorem wdgFallback_on {w : Nat} : p.On (s.wdgFallback w) := on_ite h (raise_on (setBit_on (setBit_on (setWd_on h))))

theorem wdgReturn_on {w : Nat} : p.On (s.wdgReturn w) := on_ite (setBit_on (setWd_on h)) h

theorem wdgConfigure_on : p.On s.wdgConfigure := forEach_on (fun _ _ h1 => wdgRegs_on (wr_on (wr_on (setWd_on h1)))) h

end

/-! ### FltBase -/

section
variable {p : RegProp} {s : State} (h : p.On s)
include h

theorem setFlt_on {f : Flt} : p.On (s.setFlt f) := with_flt_on h

theorem countFiring_on {f : Firing} : p.On (s.countFiring f) := setFlt_on (setBit_on (setBit_on (bump_on h)))

theorem firstError_on {h' : HistEnt} : p.On (s.firstError h') := on_ite h (setBit_on (forEach_on (fun _ _ h1 => wr_on h1) (setFlt_on h)))

theorem logFiring_on {f : Firing} {notDone : Bool} : p.On (s.logFiring f notDone).2 :=
  on_ite_snd (setFlt_on (firstError_on h)) (setBit_on (setFlt_on (setBit_on (bump_on (firstError_on h)))))

theorem historyWrite_on : p.On s.historyWrite := by
  unfold State.historyWrite
  dsimp only
  split
  · exact h
  · split
    · exact hwEnq_on (bump64_on (forEach_on (fun _ _ h1 => wr_on h1) (setFlt_on (advance_on h))))
    · exact bump64_on (forEach_on (fun _ _ h2 => wr_on h2) (setFlt_on (advance_on h)))

theorem stormEnd_on : p.On s.stormEnd := on_ite (setBit_on (setFlt_on (advanceMono_on h))) h

theorem sourceInactive_on {f : Nat} : p.On (s.sourceInactive f) := by
  unfold State.sourceInactive
  split
  · exact h
  · exact setBit_on (setFlt_on (advanceMono_on h))

theorem forceWrite_on {f : Nat} {v : Bool} : p.On (s.forceWrite f v) :=
  on_ite (setBit_on h) (on_ite (with_raised_on (setBit_on (setFlt_on h))) (setBit_on (setBit_on (setFlt_on h))))

theorem clearForces_on : p.On s.clearForces := forEach_on (fun _ _ h1 => setBit_on (setBit_on h1)) (setFlt_on h)

theorem clearFirst_on : p.On s.clearFirst := setBit_on (forEach_on (fun _ _ h1 => clr_on h1) (setFlt_on h))

theorem secEvent_on {n : Nat} : p.On (s.secEvent n) := by
  unfold State.secEvent
  dsimp only
  split
  · exact on_unless (bump_on h) fun h1 => raise_on (setFlt_on h1)
  · exact raise_on (setFlt_on (bump_on h))

end

section
variable {s : State} (h : regForm.On s)
include h

/-- What a counter puts into its shadow. -/
def shadowSet (m : SMap Nat) (e : Nat × Nat) : SMap Nat :=
  match shadowOf e.1 with
  | some b => SMap.set (regReset b) m b e.2
  | none => m

omit h in
theorem form_shadowSet {m : SMap Nat} {e : Nat × Nat} (hm : m.wf regReset = true ∧ (m.all fun e => decide (e.2 < 2 ^ 32)) = true)
    (he : decide (e.2 < 2 ^ 32) = true) : (shadowSet m e).wf regReset = true ∧ ((shadowSet m e).all fun e => decide (e.2 < 2 ^ 32)) = true := by
  unfold shadowSet
  split
  · exact ⟨wf_set hm.1, all_set (P := fun v => decide (v < 2 ^ 32)) hm.2 he⟩
  · exact hm

omit h in
theorem form_shadows {l : List (Nat × Nat)} (hl : ∀ e ∈ l, decide (e.2 < 2 ^ 32) = true) {m : SMap Nat}
    (hm : m.wf regReset = true ∧ (m.all fun e => decide (e.2 < 2 ^ 32)) = true) :
    (l.foldl shadowSet m).wf regReset = true ∧ ((l.foldl shadowSet m).all fun e => decide (e.2 < 2 ^ 32)) = true := by
  induction l generalizing m with
  | nil => exact hm
  | cons e l ih => exact ih (fun x hx => hl x (List.mem_cons_of_mem e hx)) (form_shadowSet hm (hl e List.mem_cons_self))

theorem plumb_on : regForm.On s.plumb := by
  have hf := formFilter_on h (fun e => !isShadow e.1)
  simp only [regForm_on_iff, regsWf, Bool.and_eq_true] at hf
  have hs := form_shadows (List.all_eq_true.1 hf.2) hf
  exact wr64_on (bump_on (s := ({ s with regs := (s.regs.filter fun e => !isShadow e.1).foldl shadowSet (s.regs.filter fun e => !isShadow e.1) } : State))
    ((regForm_on_iff _).2 (Bool.and_eq_true_iff.2 hs)))

theorem plumbNow_on : regForm.On s.plumbNow := plumb_on (advance_on (fresh_on h))

end

section
variable {p : RegProp} {s : State} (h : p.On s)
include h

theorem plumbCancel_on : p.On s.plumbCancel := setBit_on (setFlt_on h)

theorem plumbArm_on : p.On s.plumbArm := setBit_on (setFlt_on h)

end

section
variable {s : State} (h : regForm.On s)
include h

theorem plumbCtl_on {v : Nat} : regForm.On (s.plumbCtl v) := on_if (on_if (on_ite (plumbCancel_on h) h) fun h2 => plumbArm_on h2) fun h1 => plumbNow_on h1

theorem plumbDue_on : regForm.On s.plumbDue := by
  cases hp : s.flt.plumb with
  | none =>
    unfold plumbDue
    rw [hp]
    exact h
  | some t =>
    rcases ht : s.targetInstant t with ⟨a, late⟩
    rw [plumbDue_at hp ht]
    exact plumbCancel_on (plumb_on (advance_on h))

end

section
variable {p : RegProp} {s : State} (h : p.On s)
include h

theorem fltConfigure_on : p.On s.fltConfigure := setBit_on (setFlt_on (forEach_on (fun _ _ h1 => wr_on h1) (wr_on (wr_on h))))

end

/-! ### Alm -/

section
variable {p : RegProp} {s : State} (h : p.On s)
include h

theorem setAlm_on {a : Alm} : p.On (s.setAlm a) := with_alm_on h

theorem almWrite_on : p.On s.almWrite := by
  unfold State.almWrite
  split
  · exact h
  · exact on_ite h (wr_on (wr_on (setAlm_on (stage_on (on_ite (wr_on (with_sto_on h)) h)))))

theorem almWriteAll_on {n : Nat} : p.On (s.almWriteAll n) := by
  induction n generalizing s with
  | zero => exact h
  | succ n ih => exact ih (almWrite_on h)

theorem almCheckpointNow_on : p.On s.almCheckpointNow := by
  unfold State.almCheckpointNow
  exact stage_on (setAlm_on h)

theorem almCheckpoint_on : p.On s.almCheckpoint := on_ite h (almCheckpointNow_on (advanceMono_on h))

theorem almPowerUp_on {newBad : Bool} : p.On (s.almPowerUp newBad) := on_if (wr_on (setAlm_on h)) fun h1 => raise_on h1

theorem almBegin_on : p.On s.almBegin := setBit_on (almWriteAll_on (setAlm_on h))

theorem almFreeze_on {session : Nat} : p.On (s.almFreeze session) := setBit_on (setAlm_on h)

theorem almRelease_on : p.On s.almRelease := on_ite h (almWriteAll_on (setBit_on (setAlm_on h)))

theorem almCorrupt_on : p.On (s.almCorrupt).2 := setBit_on (bump_on (freshRow_on h))

theorem almReadOne_on {n : Nat} : p.On (s.almReadOne n).2 := by
  unfold State.almReadOne
  split
  case h_1 t1 e2 =>
    have h3 : p.On t1 := snd_on e2 (stoRead_on h)
    split
    · exact on_ite_snd (almCorrupt_on h3) h3
    · exact h3
  case h_2 t4 e5 =>
    have h6 : p.On t4 := snd_on e5 (stoRead_on h)
    exact raise_on (setBit_on (bump_on h6))

theorem almRead_on {first count : Nat} : p.On (s.almRead first count).2.2.2 := by
  unfold almRead
  extract_lets oldest held
  split
  extract_lets k
  split
  next e =>
    refine snd_on e (foldl_snd_on ?_ h)
    intro y x h1
    split
    next e1 => exact snd_on e1 (almReadOne_on h1)

end

/-! ### Nvs -/

section
variable {p : RegProp} {s : State} (h : p.On s)
include h

theorem setNvs_on {x : Nvs} : p.On (s.setNvs x) := with_nvs_on h

theorem nvsRegs_on {r : Nat} : p.On (s.nvsRegs r) := on_ite (setFld_on h) h

theorem nvsWord_on {w : Nat} : p.On (s.nvsWord w).2 := on_ite_snd (raise_on (setBit_on (bump_on h))) (on_ite_snd (bump_on (setNvs_on h)) h)

theorem nvsRead_on {r off len : Nat} : p.On (s.nvsRead r off len).2.2 := by
  unfold nvsRead
  extract_lets as
  split
  next e =>
    refine snd_on e (foldl_snd_on ?_ h)
    intro y x h1
    split
    next e1 => exact snd_on e1 (nvsWord_on h1)

theorem nvsWrite_on {r off : Nat} {bs : List Byte} : p.On (s.nvsWrite r off bs) := bump_on (setNvs_on h)

theorem nvsDefault_on {r : Nat} : p.On (s.nvsDefault r) := on_ite h (setNvs_on h)

theorem nvsDefaults_on : p.On s.nvsDefaults := forEach_on (fun _ _ h1 => nvsDefault_on h1) h

theorem nvsDropPw_on : p.On s.nvsDropPw := setNvs_on h

theorem pwWrong_on {r : Nat} : p.On (s.pwWrong r) :=
  nvsRegs_on (on_if (setBit_on (setNvs_on h)) fun h1 => almEvent_on (raise_on (setBit_on (setNvs_on h1))))

theorem pwTry_on {r : Nat} {write : Bool} {pw : Nat} : p.On (s.pwTry r write pw).2 := on_ite_snd (nvsRegs_on (setNvs_on h)) (pwWrong_on h)

theorem nvsCheck_on {r off len : Nat} {write : Bool} {pw : Nat} : p.On (s.nvsCheck r off len write pw).2 := by
  unfold State.nvsCheck
  refine on_ite_snd ?_ ?_
  · exact h
  · refine on_ite_snd ?_ ?_
    · exact h
    · split
      case h_1 t1 e2 =>
        have h3 : p.On t1 := snd_on e2 (pwTry_on h)
        exact h3
      case h_2 t4 e5 =>
        have h6 : p.On t4 := snd_on e5 (pwTry_on h)
        exact h6

theorem portBad_on {n : Nat} : p.On (s.portBad n) := setBit_on h

theorem portLockReg_on {n : Nat} : p.On (s.portLockReg n) := setBit_on h

theorem portSelect_on {n v : Nat} : p.On (s.portSelect n v) := by
  unfold State.portSelect
  refine on_ite ?_ ?_
  · exact portBad_on (portLockReg_on (setBit_on (wr_on h)))
  · exact on_unless (portLockReg_on (setBit_on (wr_on h))) fun h1 => on_ite (setBit_on h1) h1

theorem portPassword_on {n pw : Nat} : p.On (s.portPassword n pw) := by
  unfold State.portPassword
  refine on_ite ?_ ?_
  · exact portBad_on h
  · split
    case h_1 t1 e2 =>
      have h3 : p.On t1 := snd_on e2 (pwTry_on h)
      exact setBit_on h3
    case h_2 t4 e5 =>
      have h6 : p.On t4 := snd_on e5 (pwTry_on h)
      exact portLockReg_on (setBit_on h6)

theorem portStep_on {n : Nat} : p.On (s.portStep n) := wr_on h

theorem portRead_on {n : Nat} : p.On (s.portRead n).2 := on_ite_snd (portStep_on (on_if (nvsRead_on h) fun h1 => setBit_on h1)) (portBad_on h)

theorem portWrite_on {n v : Nat} : p.On (s.portWrite n v) := on_ite (portStep_on (nvsWrite_on h)) (portBad_on h)

theorem portSetRd_on {n : Nat} : p.On (s.portSetRd n) := on_ite (nvsRegs_on (setNvs_on h)) (portBad_on h)

theorem portSetWr_on {n : Nat} : p.On (s.portSetWr n) := on_ite (nvsRegs_on (setNvs_on h)) (portBad_on h)

theorem portCmd_on {n v : Nat} : p.On (s.portCmd n v) := on_if (on_ite (portSetRd_on h) h) fun h1 => portSetWr_on h1

theorem loopsRecall_on : p.On s.loopsRecall :=
  on_ite h (forEach_on (fun _ _ h1 => on_ite (setLoop_on (wr_on (setFld_on (wr_on (wr_on (wr_on (wr_on h1))))))) h1) h)

theorem nvsSave_on {ok : Bool} : p.On (s.nvsSave ok) := by
  unfold State.nvsSave
  refine on_ite ?_ ?_
  · exact wr64_on (bump_on (on_ite (setNvs_on (setNvs_on h)) (setNvs_on (setNvs_on h))))
  · exact on_if (on_ite (setNvs_on (setNvs_on h)) (setNvs_on (setNvs_on h))) fun h1 => raise_on (setBit_on h1)

theorem nvsTake_on {x : NvsImage} : p.On (s.nvsTake x) := wr64_on (setNvs_on h)

theorem nvsRecall_on {newBad : Bool} : p.On (s.nvsRecall newBad).2 := by
  unfold State.nvsRecall
  refine on_ite_snd ?_ ?_
  · exact nvsTake_on (setNvs_on h)
  · refine on_ite_snd ?_ ?_
    · exact almEvent_on (raise_on (setNvs_on (setBit_on (nvsTake_on (setNvs_on h)))))
    · exact almEvent_on (raise_on (setBit_on (setNvs_on (setNvs_on h))))

theorem nvsPlane_on : p.On s.nvsPlane := forEach_on (fun _ _ h1 => on_ite (wr_on (wr_on (wr_on h1))) (nvsRegs_on (wr_on (wr_on (wr_on h1))))) h

theorem nvsConfigure_on : p.On s.nvsConfigure := loopsRecall_on (setBit_on (setNvs_on h))

end

/-! ### Operands -/

section
variable {p : RegProp} {s : State} (h : p.On s)
include h

theorem engXlat_on {e va : Nat} : p.On (s.engXlat e va).2 := on_if (translate_on h) fun h1 => wr64_on (wr_on h1)

theorem pageWait_on {e va : Nat} : p.On (s.pageWait e va).2 := on_ite_snd (detPage_on h) h

theorem mgtStore_on {off : Nat} {bs : List Byte} : p.On (s.mgtStore off bs) := with_mgt_on h

theorem loadBytes_on {e space off len : Nat} : p.On (s.loadBytes e space off len).2 := by
  unfold State.loadBytes
  refine on_ite_snd ?_ ?_
  · exact h
  · refine on_ite_snd ?_ ?_
    · exact h
    · split
      case h_1 t1 e2 =>
        have h3 : p.On t1 := snd_on e2 (engXlat_on h)
        exact h3
      case h_2 _ _ t4 e5 =>
        have h6 : p.On t4 := snd_on e5 (engXlat_on h)
        split
        case h_1 _ t7 e8 =>
          have h9 : p.On t7 := snd_on e8 (readLine_on h6)
          exact h9
        case h_2 t10 e11 =>
          have h12 : p.On t10 := snd_on e11 (readLine_on h6)
          exact h12
      case h_3 _ _ t13 e14 =>
        have h15 : p.On t13 := snd_on e14 (engXlat_on h)
        exact h15
      case h_4 t16 e17 =>
        have h18 : p.On t16 := snd_on e17 (engXlat_on h)
        exact pageWait_on h18

theorem storeBytes_on {e space off : Nat} {bs : List Byte} {mask pc word : Nat} : p.On (s.storeBytes e space off bs mask pc word).2.2 := by
  unfold State.storeBytes
  dsimp only
  refine on_ite_snd2 ?_ ?_
  · exact mgtStore_on h
  · split
    case h_1 t1 e2 =>
      have h3 : p.On t1 := snd_on e2 (engXlat_on h)
      exact bufStore_on h3
    case h_2 _ _ t4 e5 =>
      have h6 : p.On t4 := snd_on e5 (engXlat_on h)
      exact bufStore_on h6
    case h_3 _ _ t7 e8 =>
      have h9 : p.On t7 := snd_on e8 (engXlat_on h)
      exact h9
    case h_4 t10 e11 =>
      have h12 : p.On t10 := snd_on e11 (engXlat_on h)
      exact pageWait_on h12

theorem lineFrame_on {e va : Nat} : p.On (s.lineFrame e va).2 := by
  unfold State.lineFrame
  split
  case h_1 _ _ t1 e2 =>
    have h3 : p.On t1 := snd_on e2 (engXlat_on h)
    exact h3
  case h_2 t4 e5 =>
    have h6 : p.On t4 := snd_on e5 (engXlat_on h)
    split
    case h_1 _ t7 e8 =>
      have h9 : p.On t7 := snd_on e8 (allocPage_on h6)
      exact h9
    case h_2 t10 e11 =>
      have h12 : p.On t10 := snd_on e11 (allocPage_on h6)
      exact h12
  case h_3 _ _ t13 e14 =>
    have h15 : p.On t13 := snd_on e14 (engXlat_on h)
    exact h15
  case h_4 t16 e17 =>
    have h18 : p.On t16 := snd_on e17 (engXlat_on h)
    exact pageWait_on h18

theorem loadInit_on {e space off : Nat} : p.On (s.loadInit e space off).2 := by
  unfold State.loadInit
  dsimp only
  split
  · exact walkEvent_on h
  · exact on_ite_snd (raise_on (fresh_on (setBit_on (bump_on h)))) h

theorem imageRead_on {e space row : Nat} : p.On (s.imageRead e space row).2 := by
  unfold State.imageRead
  refine on_ite_snd ?_ ?_
  · exact h
  · split
    · exact h
    · exact eccRead_on h

theorem semWrite_on {n row : Nat} {val mask : Row} : p.On (s.semWrite n row val mask) := semWake_on (with_img_on h)

theorem stageBits_on {k row : Nat} {val mask : Row} : p.On (s.stageBits k row val mask) := poolRegs_on (setTask_on h)

end

/-! ### Run -/

section
variable {p : RegProp} {s : State} (h : p.On s)
include h

theorem fetch_on {e pc : Nat} : p.On (s.fetch e pc).2 := by
  unfold State.fetch
  refine on_ite_snd ?_ ?_
  · exact h
  · refine on_ite_snd ?_ ?_
    · exact h
    · exact on_ite_snd h (on_ite_snd (on_ite (bump_on (with_progWeak_on h)) h) (on_ite (bump_on (with_progWeak_on h)) h))

theorem addHs_on {e n : Nat} : p.On (s.addHs e n) := by
  unfold State.addHs
  dsimp only
  refine on_ite ?_ ?_
  · exact with_mgt_on h
  · split
    · exact setTask_on (bump64_on h)
    · exact bump64_on h

theorem excRegs_on {e : Nat} {r : ExcRec} : p.On (s.excRegs e r) := bump_on (wr64_on (wr_on (wr_on (wr_on (wr_on h)))))

theorem takeExc_on {e hs : Nat} {r : ExcRec} : p.On (s.takeExc e hs r) := by
  unfold State.takeExc
  dsimp only
  refine on_ite ?_ ?_
  · exact raise_on (mgtLog_on (fresh_on (setBit_on (setBit_on (wr_on (wr_on (setEng_on (with_mgt_on h))))))))
  · split
    · exact raise_on (excRegs_on (setEng_on (addHs_on (drain_on h))))
    · exact dispatch_on (pendAfter_on (endRelease_on (setTask_on (raise_on (excRegs_on (setEng_on (addHs_on (drain_on h))))))))

theorem complete_on {e : Nat} {i : OpInfo} {d : Done} {waitPs : Nat} (hd : ∀ t, p.On t → p.On (d.post t)) : p.On (s.complete e i d waitPs) := by
  unfold complete
  extract_lets lean x c
  split
  next e => exact hd _ (addHs_on (setEng_on (snd_on e (on_ite_snd (freshRow_on h) h))))

theorem runOp_on {q : Issue} {i : OpInfo} {body : List Row → State → Machine.Res × State} (hbody : ∀ ins t, p.On t → p.BodyOn (body ins t)) :
    p.On (s.runOp q i body) := by
  unfold runOp
  extract_lets e s1 pc
  refine on_ite h ?_
  have h1 : p.On s1 := advance_on h
  clear_value s1
  split
  next e => exact takeExc_on (fresh_on (snd_on e (fetch_on h1)))
  next t e =>
    have h2 : p.On t := snd_on e (fetch_on h1)
    split
    · exact takeExc_on h2
    · extract_lets waitPs
      clear_value waitPs
      split
      next w t3 e3 =>
        have h3 : p.On t3 := snd_on e3 (fresh_on h2)
        extract_lets late
        clear_value late
        split
        next bad t4 e4 =>
          have h4 : p.On t4 := snd_on e4 (on_ite_snd (drain_on h3) h3)
          split
          · exact takeExc_on h4
          · have hb := hbody ((t4.eng q.eng).ctx.stack.take i.nin) t4 h4
            unfold BodyOn at hb
            split
            next d t5 e5 =>
              rw [e5] at hb
              exact complete_on hb.2 hb.1
            next e5 =>
              rw [e5] at hb
              exact takeExc_on hb.2
            next e5 =>
              rw [e5] at hb
              exact takeExc_on hb.2
            next e5 =>
              rw [e5] at hb
              exact setEng_on hb.2

theorem pureBody_on {base : Nat} {f : List Row → List Row} {ins : List Row} : p.BodyOn (pureBody base f ins s) := ⟨fun _ h => h, h⟩

end

/-! ### Spl -/

section
variable {p : RegProp} {s : State} (h : p.On s)
include h

theorem setStore_on {x : Store} : p.On (s.setStore x) := with_store_on h

theorem setSlot_on {k : Nat} {x : Slot} : p.On (s.setSlot k x) := setStore_on h

theorem setCurSlot_on {x : Slot} : p.On (s.setCurSlot x) := setSlot_on h

theorem annexRegs_on {n : Nat} : p.On (s.annexRegs n) := setFld_on (wr_on h)

theorem setAnnex_on {n : Nat} {l : List AnnexRec} : p.On (s.setAnnex n l) := annexRegs_on (setCurSlot_on h)

theorem unpinPage_on {n page : Nat} : p.On (s.unpinPage n page) := by
  unfold State.unpinPage
  split
  · exact on_ite (wr_on (setEntry_on h)) h
  · exact h

theorem setLine_on {a v : Nat} : p.On (s.setLine a v) := on_congr h rfl rfl

theorem setSplice_on {n : Nat} {x : Splice} : p.On (s.setSplice n x) := with_spl_on h

theorem setSplSt_on {n v : Nat} : p.On (s.setSplSt n v) := setFld_on h

theorem splRefuse_on {n code : Nat} : p.On (s.splRefuse n code) := bump_on (setBit_on (setFld_on h))

theorem splNone_on {n : Nat} : p.On (s.splNone n) := annexRegs_on (wr_on (setFld_on (setSplSt_on (setSplice_on h))))

theorem splDrop_on {n : Nat} : p.On (s.splDrop n) := setSplSt_on (setSplice_on h)

theorem withSizes_on {n : Nat} {c : Cnst} : p.On (s.withSizes n c) := with_cfg_on h

theorem splAccept_on {n : Nat} {b : List Byte} : p.On (s.splAccept n b) :=
  wr_on (setFld_on (setSplSt_on (stage_on (setAnnex_on (setSplice_on (withSizes_on (forEach_on (fun _ _ h3 => pinPage_on h3) (forEach_on
    (fun _ _ h2 => ownWriteBytes_on h2) (withSizes_on (forEach_on (fun _ _ h1 => setLine_on h1) h))))))))))

theorem splUnpin_on {n : Nat} {ps : List Nat} : p.On (s.splUnpin n ps) := forEach_on (fun _ _ h1 => unpinPage_on h1) h

theorem splUndo_on {n : Nat} : p.On (s.splUndo n) :=
  splNone_on (forEach_on (fun _ _ h2 => freshPage_on h2) (splUnpin_on (setAnnex_on (withSizes_on (forEach_on (fun _ _ h1 => setLine_on h1) h)))))

theorem splDiscard_on {n : Nat} : p.On (s.splDiscard n) := on_ite (splUndo_on h) h

theorem poisonLine_on {n va : Nat} : p.On (s.poisonLine n va) := by
  unfold State.poisonLine
  split
  case h_1 _ _ t1 e2 =>
    have h3 : p.On t1 := snd_on e2 (walkAccess_on h)
    exact putLine_on h3
  case h_2 _ t4 _ e5 =>
    have h6 : p.On t4 := snd_on e5 (walkAccess_on h)
    exact h6

theorem copyBytes_on {n dst src len : Nat} : p.On (s.copyBytes n dst src len) := by
  unfold State.copyBytes
  dsimp only
  refine forEach_on ?_ ?_
  · intro _ _ h1
    split
    case h_1 _ t2 e3 =>
      have h4 : p.On t2 := snd_on e3 (hwReadBytes_on h1)
      exact hwWrite_on h4
    case h_2 t5 e6 =>
      have h7 : p.On t5 := snd_on e6 (hwReadBytes_on h1)
      exact poisonLine_on h7
  · exact h

theorem copyEntry_on {n : Nat} {c : SplCopy} : p.On (s.copyEntry n c) := on_ite (copyBytes_on h) (on_ite (hwWriteBytes_on h) (hwWriteBytes_on h))

theorem copyBack_on {n : Nat} {p' : SplPkg} {spaces : List Nat} : p.On (s.copyBack n p' spaces) := forEach_on (fun _ _ h1 => copyBytes_on h1) h

theorem splTry_on {n : Nat} : p.On (s.splTry n) := wr_on h

theorem splSpend_on {n bound : Nat} : p.On (s.splSpend n bound) := advance_on (wr_on (fresh_on h))

theorem splDo_on {n : Nat} : p.On (s.splDo n) := by
  unfold State.splDo
  exact almEvent_on (bump_on (setBit_on (setSplSt_on (wr64_on (stage_on (setAnnex_on (splSpend_on (forEach_on (fun _ _ h1 => copyEntry_on h1)
    (withSizes_on (with_cfg_on (setSplice_on h)))))))))))

theorem splBack_on {n cause : Nat} : p.On (s.splBack n cause) := by
  unfold State.splBack
  refine almEvent_on ?_
  refine on_if ?_ fun h1 => ?_
  · exact on_if (bump_on (setBit_on (splUndo_on (splSpend_on (copyBack_on (with_cfg_on h)))))) fun h2 => setBit_on h2
  · exact setBit_on h1

theorem splStart_on {n : Nat} : p.On (s.splStart n) := on_ite (splBack_on h) (splDiscard_on h)

theorem splHold_on {n cause : Nat} : p.On (s.splHold n cause) := on_ite (splBack_on h) (splDiscard_on h)

theorem splSeek_on {n cause : Nat} : p.On (s.splSeek n cause) := wr_on (setSplSt_on (setSplice_on h))

theorem splConfirmNow_on {n : Nat} : p.On (s.splConfirmNow n) :=
  setBit_on (splNone_on (splUnpin_on (stage_on (setAnnex_on (setCurSlot_on (forEach_on (fun _ _ h1 => forEach_on
    (fun _ _ h2 => setLine_on h2) h1) h))))))

theorem splReplay_on {n : Nat} {p' : SplPkg} : p.On (s.splReplay n p') :=
  with_cfg_on (withSizes_on (forEach_on (fun _ _ h2 => forEach_on (fun _ _ h3 => setLine_on h3) h2) (forEach_on (fun _ _ h1 => setLine_on h1) h)))

theorem splConfigure_on {n : Nat} : p.On (s.splConfigure n).2 := by
  unfold State.splConfigure
  refine on_ite_snd ?_ ?_
  · exact h
  · exact splNone_on (setAnnex_on (forEach_on (fun _ _ h2 => almEvent_on (setBit_on (withSizes_on (copyBack_on (withSizes_on h2))))) (forEach_on
      (fun _ _ h1 => splReplay_on h1) h)))

end

/-! ### LorBase -/

section
variable {p : RegProp} {s : State} (h : p.On s)
include h

theorem setSess_on {k : Nat} {x : LorSess} : p.On (s.setSess k x) := with_lor_on h

theorem lorBad_on {k : Nat} : p.On (s.lorBad k) := on_ite (bump_on h) h

theorem lorAnswer_on {k seq cmd status detail : Nat} {body : List Byte} : p.On (s.lorAnswer k seq cmd status detail body) := emit_on (setSess_on h)

theorem abandonLoads_on {k : Nat} : p.On (s.abandonLoads k) := by
  unfold State.abandonLoads
  refine forEach_on ?_ ?_
  · exact fun _ _ h1 => on_ite (splDrop_on h1) h1
  · split
    · exact on_ite (setStore_on h) h
    · exact h

theorem lorEnd_on {k : Nat} : p.On (s.lorEnd k) :=
  on_if (with_lor_on (on_if (abandonLoads_on h) fun h2 => almRelease_on h2)) fun h1 => forEach_on (fun _ _ h3 => clr_on h3) h1

theorem lorEndAll_on {p' : Nat → LorSess → Bool} : p.On (s.lorEndAll p') := forEach_on (fun _ _ h1 => lorEnd_on h1) h

end

/-! ### RedBase -/

section
variable {p : RegProp} {s : State} (h : p.On s)
include h

theorem setMs_on {m : ModeSt} : p.On (s.setMs m) := with_ms_on h

theorem setRed_on {r : Red} : p.On (s.setRed r) := with_red_on h

theorem redFlag_on {i : Nat} {b : Bool} : p.On (s.redFlag i b) := on_ite (setBit_on h) h

theorem setActive_on {b : Bool} : p.On (s.setActive b) := redFlag_on (setMs_on h)

theorem setPaired_on {b : Bool} : p.On (s.setPaired b) := redFlag_on (setMs_on h)

theorem redSend_on {kind : Nat} {fields : List Nat} : p.On (s.redSend kind fields) := on_ite (emit_on h) h

theorem redUnpair_on : p.On s.redUnpair := wr64_on (setRed_on (setPaired_on h))

theorem sendLeave_on {cause : Nat} : p.On (s.sendLeave cause) := on_ite (setMs_on (redSend_on h)) h

theorem markSuspect_on {cause : Nat} : p.On (s.markSuspect cause) := on_ite (setFld_on (setBit_on h)) h

theorem redReject_on : p.On s.redReject := redFlag_on h

end

/-! ### Start -/

section
variable {p : RegProp} {s : State} (h : p.On s)
include h

theorem loadProgram_on {n : Nat} {lines : List Nat} : p.On (s.loadProgram n lines) := on_congr h rfl rfl

theorem writeInits_on {n target space : Nat} : p.On (s.writeInits n target space) := forEach_on (fun _ _ h1 => ownWriteBytes_on h1) h

theorem loadConst_on {n : Nat} : p.On (s.loadConst n) := writeInits_on (freshSpace_on h)

theorem coldRetain_on {n : Nat} : p.On (s.coldRetain n) := writeInits_on (forEach_on (fun _ _ h1 => ownWrite_on h1) h)

theorem takeSections_on {n : Nat} : p.On (s.takeSections n).2 := by
  unfold State.takeSections
  refine on_ite_snd ?_ ?_
  · exact h
  · exact loadConst_on (on_if (setOwner_on (loadProgram_on (with_cfg_on (on_ite (with_sto_on (freshSpace_on h)) h)))) fun h1 => almEvent_on h1)

theorem clearCounters_on {n : Nat} : p.On (s.clearCounters n) :=
  forEach_on (fun _ _ h2 => forEach_on (fun _ _ h3 => clr_on h3) (wr64_on h2)) (forEach_on (fun _ _ h1 => clr_on h1) (wr64_on (wr64_on h)))

theorem clearSem_on {n : Nat} : p.On (s.clearSem n) := with_img_on h

theorem resetTasks_on {n : Nat} : p.On (s.resetTasks n) := setOwner_on (forEach_on (fun _ _ h1 => setTask_on h1) h)

theorem pinHeld_on {n : Nat} : p.On (s.pinHeld n) := forEach_on (fun _ _ h1 => pinPage_on h1) h

theorem dropForces_on {n : Nat} : p.On (s.dropForces n) := with_img_on h

theorem ownerPrepare_on {n : Nat} {cold : Bool} : p.On (s.ownerPrepare n cold) := by
  unfold State.ownerPrepare
  refine poolRegs_on ?_
  refine pinHeld_on ?_
  refine setOwner_on ?_
  refine loopStart_on ?_
  refine clearCounters_on ?_
  refine initRows_on ?_
  refine clearSem_on ?_
  refine forEach_on ?_ ?_
  · exact fun _ _ h2 => ringStart_on h2
  · refine on_if ?_ fun h1 => ?_
    · exact writeInits_on (freshSpace_on (resetTasks_on (takeSections_on (dropForces_on (splStart_on h)))))
    · exact coldRetain_on h1

theorem ownerResume_on {n : Nat} : p.On (s.ownerResume n) := forEach_on (fun _ _ h1 => on_ite h1 (setTask_on h1)) h

end

section
variable {s : State} (h : regForm.On s)
include h

theorem ownerRun_on {n : Nat} : regForm.On (s.ownerRun n) :=
  dispatch_on (forEach_on (fun _ _ h2 => on_ite (noRelease_on h2) (release_on h2)) (ownerResume_on (on_if (fioStart_on (netStart_on
    (canStart_on h))) fun h1 => pubStart_on h1)))

end

/-! ### UpdBase -/

section
variable {p : RegProp} {s : State} (h : p.On s)
include h

theorem mgtNote_on {code arg : Nat} : p.On (s.mgtNote code arg) := mgtLog_on (fresh_on h)

theorem mgtNote2_on {code : Nat} : p.On (s.mgtNote2 code) := mgtNote_on (fresh_on h)

theorem setMgt_on {m : Mgt} : p.On (s.setMgt m) := with_mgt_on h

theorem setUpdState_on {v : Nat} : p.On (s.setUpdState v) := mgtNote_on (setFld_on (setMgt_on h))

theorem updOutcome_on {code : Nat} : p.On (s.updOutcome code) := setBit_on (setFld_on h)

theorem followKeys_on : p.On s.followKeys := setStore_on h

theorem annexAll_on : p.On s.annexAll := forEach_on (fun _ _ h1 => annexRegs_on h1) h

theorem revertTo_on {k : Nat} : p.On (s.revertTo k) := by
  unfold State.revertTo
  exact almEvent_on (annexAll_on (followKeys_on (stage_on (setStore_on h))))

theorem updFail_on {code : Nat} : p.On (s.updFail code) := raise_on (setUpdState_on (updOutcome_on (revertTo_on (almEvent_on (setStore_on h)))))

theorem nvsPark_on {prev fmt : Nat} : p.On (s.nvsPark prev fmt) := on_ite h (almEvent_on (setNvs_on (nvsDefaults_on (setSlot_on h))))

theorem nvsUnpark_on : p.On s.nvsUnpark := by
  unfold State.nvsUnpark
  dsimp only
  split
  · exact setCurSlot_on (setNvs_on (setNvs_on h))
  · exact on_ite h (almEvent_on (raise_on (setNvs_on (nvsDefaults_on h))))

theorem dropVerified_on : p.On s.dropVerified := by
  unfold State.dropVerified
  split
  · exact on_ite (setStore_on h) h
  · exact h

end

/-! ### Mode -/

section
variable {p : RegProp} {s : State} (h : p.On s)
include h

theorem leaveTest_on : p.On s.leaveTest := clearForces_on (with_img_on h)

theorem mgtEngAt_on {t : Nat} : p.On (s.mgtEngAt t) := on_ite (bump_on h) (setBit_on (setEng_on (setMgt_on h)))

theorem mgtEngCatch_on : p.On s.mgtEngCatch := by
  unfold State.mgtEngCatch
  split
  · exact on_ite (mgtEngAt_on h) h
  · exact h

theorem mgtEngBoundary_on : p.On s.mgtEngBoundary := by
  unfold State.mgtEngBoundary
  split
  · exact on_ite h (mgtEngAt_on (setMgt_on (advance_on h)))
  · exact h

theorem enterMode_on {m : Mode} {cause : Nat} : p.On (s.enterMode m cause) := by
  unfold State.enterMode
  refine drivenRegs_on ?_
  refine wdgModes_on ?_
  refine on_ite ?_ ?_
  · exact setMs_on (on_if (on_if (emit_on (almEvent_on (setMs_on h))) fun h2 => leaveTest_on h2) fun h1 => setFlt_on (setBit_on h1))
  · refine on_if ?_ fun h3 => ?_
    · exact on_if (on_if (emit_on (almEvent_on (setMs_on h))) fun h5 => leaveTest_on h5) fun h4 => setFlt_on (setBit_on h4)
    · exact mgtEngCatch_on h3

theorem setOwnerSt_on {n : Nat} {st : OwnSt} : p.On (s.setOwnerSt n st) :=
  on_ite h (drivenRegs_on (wdgModes_on (setBit_on (almEvent_on (setOwner_on h)))))

theorem beginDrain_on {n : Nat} : p.On (s.beginDrain n) := setOwner_on (drainTasks_on h)

theorem endDrain_on {n : Nat} : p.On (s.endDrain n) := pubStop_on (loopStop_on (setOwner_on h))

end

section
variable {s : State} (h : regForm.On s)
include h

theorem stopHandOver_on : regForm.On s.stopHandOver := setFio_on (setMs_on (setActive_on (sendLeave_on h)))

theorem settleDrains_on : regForm.On s.settleDrains := on_if (forEach_on (fun _ _ h2 => on_ite (endDrain_on h2) h2) h) fun h1 => stopHandOver_on h1

end

section
variable {p : RegProp} {s : State} (h : p.On s)
include h

theorem ownerStop_on {n : Nat} : p.On (s.ownerStop n) := on_ite (beginDrain_on (setOwner_on (setOwnerSt_on (splDiscard_on h)))) h

theorem ownerHeld_on {n : Nat} : p.On (s.ownerHeld n) := setFlt_on (setOwner_on (stopTasks_on (setOwnerSt_on (splHold_on h))))

theorem dropStart_on : p.On s.dropStart := setRed_on (setMs_on h)

theorem deviceStop_on {cause : Nat} : p.On (s.deviceStop cause) := by
  unfold State.deviceStop
  refine on_ite ?_ ?_
  · exact setMs_on (forEach_on (fun _ _ h1 => beginDrain_on h1) (enterMode_on (dropStart_on h)))
  · exact setActive_on (forEach_on (fun _ _ h2 => beginDrain_on h2) (enterMode_on (dropStart_on h)))

end

section
variable {s : State} (h : regForm.On s)
include h

theorem suspectStop_on {cause : Nat} : regForm.On (s.suspectStop cause) :=
  setFio_on (on_unless (dropStart_on (setActive_on (markSuspect_on h))) fun h1 => forEach_on (fun _ _ h2 => beginDrain_on h2) (enterMode_on h1))

end

section
variable {p : RegProp} {s : State} (h : p.On s)
include h

theorem deviceHold_on : p.On s.deviceHold :=
  setBit_on (setBit_on (setFlt_on (forEach_on (fun _ _ h2 => stopTasks_on h2) (setMs_on (enterMode_on (forEach_on
    (fun _ _ h1 => splHold_on h1) h))))))

theorem resumeAll_on : p.On s.resumeAll := forEach_on (fun _ _ h1 => ownerResume_on (clearConsec_on h1)) h

theorem policyOwners_on : p.On s.policyOwners := forEach_on (fun _ _ h1 => on_ite (setOwner_on h1) (setOwner_on h1)) h

theorem mgtEngReset_on : p.On s.mgtEngReset := setFld_on (setMgt_on (setEng_on h))

theorem startDevice_on {cold policy : Bool} : p.On (s.startDevice cold policy) := by
  unfold State.startDevice
  dsimp only
  split
  · exact setRed_on (setMs_on h)
  · exact setMs_on h

theorem startPolicy_on {pol : Nat} : p.On (s.startPolicy pol) := on_ite h (on_ite (startDevice_on h) (on_ite (startDevice_on h) h))

end

section
variable {s : State} (h : regForm.On s)
include h

theorem runStart_on {cold : Bool} : regForm.On (s.runStart cold) := by
  unfold State.runStart
  refine forEach_on ?_ ?_
  · exact fun _ _ h4 => ownerRun_on h4
  · refine on_if ?_ fun h1 => ?_
    · exact setMs_on (enterMode_on (dropStart_on (mgtEngReset_on (forEach_on (fun _ _ h3 => on_ite h3 (setOwnerSt_on h3)) (forEach_on
        (fun _ _ h2 => ownerPrepare_on h2) h)))))
    · exact setActive_on h1

theorem ownerStartNow_on {n : Nat} {cold : Bool} : regForm.On (s.ownerStartNow n cold) :=
  on_ite h (ownerRun_on (setOwnerSt_on (setOwner_on (ownerPrepare_on h))))

end

section
variable {p : RegProp} {s : State} (h : p.On s)
include h

theorem discardWork_on : p.On s.discardWork := forEach_on (fun _ _ h1 => stopTasks_on h1) (with_engines_on h)

theorem resetDevice_on : p.On s.resetDevice :=
  startPolicy_on (forEach_on (fun _ _ h2 => beginDrain_on h2) (enterMode_on (setMs_on (setActive_on (dropStart_on (on_if (dropVerified_on
    (discardWork_on h)) fun h1 => updFail_on h1))))))

theorem testPubs_on : p.On s.testPubs := forEach_on (fun _ _ h1 => forEach_on (fun _ _ h2 => on_ite (pubNew_on (setFld_on h2)) h2) h1) h

theorem enterTest_on : p.On s.enterTest := resumeAll_on (testPubs_on (enterMode_on h))

theorem cmdRej_on : p.On s.cmdRej := mgtNote2_on (setBit_on h)

end

/-! ### Drain -/

section
variable {p : RegProp} {s : State} (h : p.On s)
include h

theorem pdSwitch_on {d : Nat} {on : Bool} : p.On (s.pdSwitch d on) := on_ite h (mgtNote_on (on_if (setBit_on h) fun h1 => bump_on h1))

theorem pdSet_on {l : List Nat} {on : Bool} : p.On (s.pdSet l on) := forEach_on (fun _ _ h1 => pdSwitch_on h1) h

theorem mgtEngStop_on : p.On s.mgtEngStop := setBit_on (setMgt_on (setEng_on h))

theorem commitAll_on : p.On s.commitAll := forEach_on (fun _ _ h1 => commitNext_on h1) h

end

section
variable {s : State} (h : regForm.On s)
include h

theorem drainShut_on {safe : Bool} {wait : Nat} : regForm.On (s.drainShut safe wait) := by
  unfold State.drainShut
  refine setActive_on ?_
  refine pdSet_on ?_
  refine forEach_on ?_ ?_
  · exact fun _ _ h3 => on_ite (gateBent_on h3) h3
  · refine on_if ?_ fun h1 => ?_
    · exact arcStop_on (almRelease_on (lorEndAll_on (commitAll_on (mgtEngStop_on (forEach_on (fun _ _ h2 => stopTasks_on h2) h)))))
    · exact downlinkNow_on (advance_on h1)

theorem enterDrain_on {cause : Nat} : regForm.On (s.enterDrain cause) :=
  on_unless (setRed_on (setMs_on (enterMode_on (dropStart_on (sendLeave_on h))))) fun h1 => drainShut_on h1

theorem afterPower_on {mgt sto : Bool} : regForm.On (s.afterPower mgt sto) := formFilter_on h _

theorem powerOff_on : regForm.On s.powerOff := setMs_on (afterPower_on h)

theorem restartLean_on {cause : Nat} {sto : Bool} : regForm.On (s.restartLean cause sto) := setMs_on (afterPower_on (enterMode_on h))

end

section
variable {p : RegProp} {s : State} (h : p.On s)
include h

theorem drainRecords_on : p.On s.drainRecords :=
  with_sto_on (flushAll_on (mgtNote2_on (fresh_on (setAlm_on (almCheckpointNow_on (almBegin_on (almEvent_on (on_ite (mgtNote2_on h) h))))))))

theorem drainSave_on {ok : Bool} : p.On (s.drainSave ok) := by
  unfold State.drainSave
  refine on_ite ?_ ?_
  · exact drainRecords_on (on_unless (flushAll_on h) fun h1 => nvsSave_on h1)
  · exact on_unless (flushShare_on (fresh_on h)) fun h2 => nvsSave_on h2

end

section
variable {s : State} (h : regForm.On s)
include h

theorem drainDone_on {ok : Bool} : regForm.On (s.drainDone ok) := by
  unfold State.drainDone
  refine on_ite ?_ ?_
  · exact h
  · refine on_ite ?_ ?_
    · exact setMs_on (forEach_on (fun _ _ h1 => setBit_on h1) (drainSave_on h))
    · exact powerOff_on (forEach_on (fun _ _ h2 => setBit_on h2) (drainSave_on h))

end

/-! ### Red -/

section
variable {p : RegProp} {s : State} (h : p.On s)
include h

theorem pairRx_on {h' : PairHead} : p.On (s.pairRx h').2 := on_ite_snd h (on_ite_snd (bump_on h) (setRed_on h))

theorem redConfigure_on : p.On s.redConfigure := by
  unfold State.redConfigure
  dsimp only
  split
  · exact on_if (wr_on (wr_on (setBit_on h))) fun h1 => setActive_on (redUnpair_on h1)
  · exact wr_on (wr_on (setBit_on h))

theorem passOver_on {t : Nat} : p.On (s.passOver t) :=
  advance_on (forEach_on (fun _ _ h2 => on_if (setLoop_on h2) fun h3 => bump_on h3) (forEach_on (fun _ _ h1 => bump_on (setTask_on h1)) h))

theorem openUntil_on {bound : Nat} : p.On (s.openUntil bound).2 := fresh_on h

theorem handoverEnd_on : p.On s.handoverEnd := on_ite (resetDevice_on h) h

theorem throughHandover_on {t : Nat} {to_ : Mode} {mid : State → State} (hmid : ∀ t, p.On t → p.On (mid t)) : p.On (s.throughHandover t to_ mid) :=
  setMs_on (enterMode_on (hmid _ (passOver_on (enterMode_on (setMs_on h)))))

theorem xferPhase_on {p' : Nat} : p.On (s.xferPhase p') := setFld_on h

theorem joinPair_on : p.On s.joinPair := redFlag_on (xferPhase_on (wr_on (setRed_on (enterMode_on (setMs_on (setActive_on (dropStart_on h)))))))

theorem xferFail_on {code : Nat} : p.On (s.xferFail code) := by
  unfold State.xferFail
  refine on_ite ?_ ?_
  · exact h
  · refine on_if ?_ fun h1 => ?_
    · exact raise_on (setRed_on (redFlag_on (xferPhase_on (setFld_on h))))
    · exact handoverEnd_on (forEach_on (fun _ _ h2 => beginDrain_on h2) (enterMode_on (setMs_on h1)))

theorem helloSend_on : p.On s.helloSend := on_ite h (emit_on (with_free_on (setRed_on (advance_on h))))

theorem pairRefuse_on {code : Nat} : p.On (s.pairRefuse code) := raise_on (setRed_on (setFld_on (redFlag_on h)))

theorem helloRx_on {h' : Hello} : p.On (s.helloRx h') := by
  unfold State.helloRx
  refine on_ite ?_ ?_
  · exact h
  · refine on_ite ?_ ?_
    · exact pairRefuse_on h
    · exact on_ite (pairRefuse_on h) (on_ite (pairRefuse_on h) (on_unless (setRed_on h) fun h1 => emit_on h1))

theorem pairForm_on {h' : Hello} : p.On (s.pairForm h') := on_if (wr64_on (setPaired_on (setRed_on h))) fun h1 => joinPair_on h1

theorem keyConfRx_on {tag : Nat} : p.On (s.keyConfRx tag) := by
  unfold State.keyConfRx
  refine on_ite ?_ ?_
  · exact h
  · split
    · exact h
    · exact on_ite (pairForm_on h) (pairRefuse_on h)

end

section
variable {s : State} (h : regForm.On s)
include h

theorem installOwn_on : regForm.On s.installOwn := by
  unfold State.installOwn
  dsimp only
  refine fioCatchUp_on ?_
  refine forEach_on ?_ ?_
  · intro _ _ h1
    split
    · exact on_ite h1 (sourceWrite_on h1)
    · exact h1
  · exact setRed_on h

theorem becomeActive_on : regForm.On s.becomeActive := announceShared_on (seqJump_on (canTakeover_on (installOwn_on h)))

theorem takeover_on {cause : Nat} : regForm.On (s.takeover cause) := by
  unfold State.takeover
  exact handoverEnd_on (srcInvalid_on (throughHandover_on (openUntil_on (bound := 2000) (setRed_on (redFlag_on (redFlag_on (setActive_on h)))))
    (fun _ h1 => becomeActive_on h1)))

theorem activeLeft_on {cause : Nat} {keep : Bool} : regForm.On (s.activeLeft cause keep) :=
  on_if (on_ite (setRed_on (xferFail_on h)) (redUnpair_on (xferFail_on h))) fun h1 => takeover_on h1

end

section
variable {p : RegProp} {s : State} (h : p.On s)
include h

theorem switchDone_on : p.On s.switchDone := redFlag_on (setRed_on (wr64_on (bump_on (almEvent_on (raise_on (redSend_on h))))))

theorem takeoverDone_on : p.On s.takeoverDone := on_ite h (switchDone_on (advance_on (fresh_on h)))

end

section
variable {s : State} (h : regForm.On s)
include h

theorem partnerLost_on : regForm.On s.partnerLost := by
  unfold State.partnerLost
  refine on_ite ?_ ?_
  · exact h
  · refine on_ite ?_ ?_
    · refine on_ite ?_ ?_
      · exact takeover_on (redUnpair_on (xferFail_on (bump_on (advanceMono_on h))))
      · exact raise_on (suspectStop_on (redUnpair_on (xferFail_on (bump_on (advanceMono_on h)))))
    · exact raise_on (redUnpair_on (xferFail_on (bump_on (advanceMono_on h))))

theorem holdTakeover_on : regForm.On s.holdTakeover := by
  unfold State.holdTakeover
  split
  · exact on_ite (takeover_on (setRed_on (advanceMono_on h))) h
  · exact h

end

section
variable {p : RegProp} {s : State} (h : p.On s)
include h

theorem heartbeatSend_on : p.On s.heartbeatSend := on_ite h (redSend_on (advance_on h))

theorem partnerTime_on {off : Int} : p.On (s.partnerTime off) :=
  on_ite (applyStep_on (on_ite h (reselect_on (setSrc_on h)))) (srcSample_on (on_ite h (reselect_on (setSrc_on h))))

theorem heartbeatRx_on {mode role flevel suspect epoch : Nat} {off : Int} : p.On (s.heartbeatRx mode role flevel suspect epoch off) := by
  unfold State.heartbeatRx
  refine on_if ?_ fun h1 => ?_
  · refine on_if ?_ fun h2 => ?_
    · refine on_ite ?_ ?_
      · exact xferPhase_on (redFlag_on (setRed_on (on_ite (bump_on h) h)))
      · exact on_if (setRed_on (on_ite (bump_on h) h)) fun h3 => wr_on (setRed_on (redFlag_on h3))
    · exact partnerTime_on h2
  · exact joinPair_on h1

theorem stopStandby_on {cause : Nat} : p.On (s.stopStandby cause) := redSend_on h

theorem switchRequest_on {cause lead : Nat} : p.On (s.switchRequest cause lead) := redSend_on (redFlag_on (setRed_on h))

theorem mismatch_on {d : Dig} : p.On (s.mismatch d) := by
  unfold State.mismatch
  refine on_unless ?_ fun h1 => ?_
  · exact maxReg_on (setRed_on (redFlag_on (bump_on h)))
  · refine on_ite ?_ ?_
    · exact stopStandby_on h1
    · exact on_ite (on_ite (switchRequest_on h1) h1) (on_if (raise_on h1) fun h2 => raise_on (stopStandby_on (setRed_on h2)))

theorem redCompare_on : p.On s.redCompare := by
  unfold State.redCompare
  refine on_ite ?_ ?_
  · exact on_ite h (setRed_on h)
  · refine forEach_on ?_ ?_
    · intro _ _ h1
      split
      · exact h1
      · exact on_unless (setRed_on h1) fun h2 => on_ite (setRed_on h2) (mismatch_on h2)
    · exact h

theorem digestRx_on {l : List (Nat × Nat × Nat × Nat × Nat)} : p.On (s.digestRx l) := on_ite (setRed_on h) h

theorem digestMissing_on : p.On s.digestMissing := by
  unfold State.digestMissing
  split
  · exact h
  · exact on_if (setRed_on (advanceMono_on h)) fun h1 => mismatch_on (bump_on h1)

theorem switchCmd_on {cause : Nat} : p.On (s.switchCmd cause).2 := on_ite_snd (redReject_on h) (switchRequest_on h)

theorem switchAnswer_on {ok : Bool} : p.On (s.switchAnswer ok) := by
  unfold State.switchAnswer
  split
  · exact h
  · exact on_unless (setRed_on h) fun h1 => on_ite (lorAnswer_on h1) (lorAnswer_on h1)

theorem switchOff_on : p.On s.switchOff := redFlag_on (setRed_on h)

end

section
variable {s : State} (h : regForm.On s)
include h

theorem roleRx_on {op cause tForm : Nat} : regForm.On (s.roleRx op cause tForm) := by
  unfold State.roleRx
  refine on_ite ?_ ?_
  · exact on_unless (setRed_on h) fun h1 => on_ite (redSend_on (redFlag_on h1)) (redSend_on h)
  · refine on_ite ?_ ?_
    · exact on_ite h (on_if (switchAnswer_on (setRed_on h)) fun h2 => redSend_on (setRed_on h2))
    · refine on_ite ?_ ?_
      · exact on_ite h (on_if (switchAnswer_on (redReject_on (switchOff_on h))) fun h3 => enterDrain_on h3)
      · exact on_ite (on_ite (activeLeft_on h) h) (on_ite (on_if (on_ite h (switchOff_on h)) fun h4 => enterDrain_on h4) h)

theorem switchoverT_on : regForm.On s.switchoverT := by
  unfold State.switchoverT
  dsimp only
  refine on_ite ?_ ?_
  · exact h
  · refine on_ite ?_ ?_
    · exact handoverEnd_on (setRed_on (throughHandover_on (openUntil_on (bound := 2000) (setFio_on (setActive_on (advance_on h)))) (fun _ h1 => h1)))
    · refine on_ite ?_ ?_
      · exact handoverEnd_on (srcInvalid_on (setRed_on (throughHandover_on (openUntil_on (bound := 2000) (setActive_on (advance_on h)))
          (fun _ h2 => becomeActive_on h2))))
      · exact switchOff_on (advance_on h)

theorem switchoverDriversOff_on : regForm.On s.switchoverDriversOff := by
  unfold State.switchoverDriversOff
  split
  · exact h
  · exact drivenRegs_on (setFio_on (advance_on h))

end

section
variable {p : RegProp} {s : State} (h : p.On s)
include h

theorem switchoverDone_on : p.On s.switchoverDone := on_ite h (switchDone_on (advance_on (fresh_on h)))

theorem autoSwitch_on : p.On s.autoSwitch := by
  unfold State.autoSwitch
  split
  · exact h
  · exact on_ite h (on_if (setRed_on (on_ite h (advanceMono_on h))) fun h1 => switchCmd_on h1)

theorem clearSuspect_on : p.On s.clearSuspect := on_ite (drivenRegs_on (setFld_on (setBit_on h))) h

theorem redCmd_on {v : Nat} : p.On (s.redCmd v) := on_if (on_ite (switchCmd_on h) h) fun h1 => clearSuspect_on h1

end

section
variable {s : State} (h : regForm.On s)
include h

theorem leaveRx_on {cause : Nat} : regForm.On (s.leaveRx cause) := on_ite (activeLeft_on h) (raise_on (redUnpair_on (xferFail_on h)))

end

section
variable {p : RegProp} {s : State} (h : p.On s)
include h

theorem seqmapRx_on {l : List (Nat × Nat × Nat × Nat × Nat)} : p.On (s.seqmapRx l) :=
  on_ite h (forEach_on (fun _ _ h1 => on_ite h1 (raise_on (redFlag_on (bump_on (setNet_on (setPub_on h1)))))) h)

end

section
variable {s : State} (h : regForm.On s)
include h

theorem redClaimCycle_on {other : Nat} {bad : Bool} : regForm.On (s.redClaimCycle other bad) :=
  on_if (claimCycle_on h) fun h1 => raise_on (suspectStop_on (redFlag_on (setFio_on h1)))

end

section
variable {p : RegProp} {s : State} (h : p.On s)
include h

theorem inputDisagrees_on {k : Nat} : p.On (s.inputDisagrees k) := by
  unfold State.inputDisagrees
  split
  · exact h
  · exact on_ite (raise_on (bump_on (advance_on h))) h

theorem pairLinkLost_on {k : Nat} : p.On (s.pairLinkLost k) :=
  on_ite h (on_ite (xferFail_on (redFlag_on (setBit_on h))) (raise_on (redFlag_on (setBit_on h))))

end

/-! ### Upd -/

section
variable {p : RegProp} {s : State} (h : p.On s)
include h

theorem scnRefused_on {b : ScnBad} {start : Bool} : p.On (s.scnRefused b start) := emit_on (wr_on h)

theorem scnRef_on {b : ScnBad} : p.On (s.scnRef b).2 := scnRefused_on (setStore_on h)

theorem scnChunk_on {k off : Nat} {bytes : List Byte} {accept bad : Bool} : p.On (s.scnChunk k off bytes accept bad).2 := by
  unfold State.scnChunk
  dsimp only
  refine on_ite_snd ?_ ?_
  · exact scnRefused_on h
  · split
    · exact h
    · split
      · exact scnRef_on (wr_on (setStore_on h))
      · refine on_ite_snd ?_ ?_
        · exact wr_on (setStore_on h)
        · split
          · exact scnRef_on (wr_on (setStore_on h))
          · exact setStore_on (wr_on (setStore_on h))

theorem scnLoadTimeout_on : p.On s.scnLoadTimeout := by
  unfold State.scnLoadTimeout
  split
  · exact on_ite h (setStore_on (advanceMono_on h))
  · exact h

theorem keepKeys_on : p.On s.keepKeys := setStore_on h

theorem eraseKeys_on {n : Nat} : p.On (s.eraseKeys n) := setStore_on (with_mmu_on (wr_on (eraseOwner_on h)))

theorem drawKeys_on {n : Nat} : p.On (s.drawKeys n) := on_ite h (with_mmu_on h)

theorem commitKeys_on {x : Scn} {erase : Nat} : p.On (s.commitKeys x erase) :=
  forEach_on (fun _ _ h2 => drawKeys_on h2) (keepKeys_on (followKeys_on (setStore_on (forEach_on (fun _ _ h1 => eraseKeys_on h1) h))))

theorem scnCommit_on : p.On (s.scnCommit).2 := by
  unfold State.scnCommit
  split
  · refine on_ite_snd ?_ ?_
    · exact h
    · refine on_ite_snd ?_ ?_
      · exact almEvent_on (annexAll_on (forEach_on (fun _ _ h1 => dropWins_on h1) (commitKeys_on (stage_on (setStore_on (setSlot_on
          (setCurSlot_on h)))))))
      · exact setUpdState_on (setMgt_on (almEvent_on (annexAll_on (forEach_on (fun _ _ h2 => dropWins_on h2) (commitKeys_on (stage_on (setStore_on
          (setSlot_on (setCurSlot_on h)))))))))
  · exact h

theorem planeStreamed_on : p.On s.planeStreamed := on_ite h (setUpdState_on (setMgt_on (setStore_on (advanceMono_on (fresh_on h)))))

theorem updateFail_on : p.On s.updateFail := on_ite (updFail_on h) (on_ite (updFail_on (advanceMono_on h)) h)

end

section
variable {s : State} (h : regForm.On s)
include h

theorem bentsPlane_on {old : Part} : regForm.On (s.bentsPlane old) := by
  unfold State.bentsPlane
  refine forEach_on ?_ ?_
  · intro _ _ h1
    refine on_ite ?_ ?_
    · exact h1
    · exact on_if (on_unless (on_ite (gateBent_on h1) h1) fun h3 => emptyTlb_on h3) fun h2 => pdSwitch_on (setBent_on h2)
  · exact h

end

section
variable {p : RegProp} {s : State} (h : p.On s)
include h

theorem domainsPlane_on : p.On s.domainsPlane := forEach_on (fun _ _ h1 => pdSwitch_on h1) h

theorem planes_on {old : Scn} : p.On (s.planes old) :=
  forEach_on (fun _ _ h1 => ringStart_on h1) (nvsPlane_on (redConfigure_on (fltConfigure_on (lopConfigure_on (fioConfigure_on (canConfigure_on
    (timPlane_on (netConfigure_on h))))))))

theorem ownersPlane_on : p.On s.ownersPlane := forEach_on (fun _ _ h1 => on_ite (setOwner_on h1) (on_ite (setOwner_on h1) h1)) h

theorem pubsPlane_on {old : Scn} : p.On (s.pubsPlane old) := forEach_on (fun _ _ h1 => on_ite (pubBegin_on h1) (pubToStop_on h1)) h

theorem tasksPlane_on {old : SMap TaskRec} : p.On (s.tasksPlane old) := forEach_on (fun _ _ h1 => on_ite (setTask_on h1) h1) (with_tasks_on h)

theorem pinsPlane_on {before : List (Nat × List Nat)} : p.On (s.pinsPlane before) :=
  forEach_on (fun _ _ h1 => on_if (forEach_on (fun _ _ h3 => unpinPage_on h3) h1) fun h2 => pinHeld_on h2) h

end

section
variable {s : State} (h : regForm.On s)
include h

theorem swapTo_on {x : Scn} {slot : Slot} {inStop : Bool} : regForm.On (s.swapTo x slot inStop) := by
  unfold State.swapTo
  refine setStore_on ?_
  refine pubsPlane_on ?_
  refine forEach_on ?_ ?_
  · exact fun _ _ h5 => on_ite (poolRegs_on h5) h5
  · refine on_unless ?_ fun h1 => ?_
    · exact pinsPlane_on (tasksPlane_on (planes_on (forEach_on (fun _ _ h4 => initRows_on h4) (domainsPlane_on (bentsPlane_on (on_if (ownersPlane_on
        (with_cfg_on h)) fun h2 => forEach_on (fun _ _ h3 => setOwner_on h3) h2))))))
    · exact mgtEngReset_on h1

end

section
variable {p : RegProp} {s : State} (h : p.On s)
include h

theorem swapNow_on {mid : State → State} (hmid : ∀ t, p.On t → p.On (mid t)) : p.On (s.swapNow mid) :=
  on_ite (handoverEnd_on (throughHandover_on (openUntil_on (bound := 8000) (wr_on (wr64_on h))) hmid)) (hmid _ (wr_on (wr64_on h)))

end

section
variable {s : State} (h : regForm.On s)
include h

theorem planeSwap_on : regForm.On s.planeSwap := by
  unfold State.planeSwap
  split
  · exact h
  · refine on_ite ?_ ?_
    · exact h
    · exact almEvent_on (setUpdState_on (setMgt_on (setStore_on (swapNow_on h (fun _ h1 => nvsDropPw_on (nvsPark_on (swapTo_on h1)))))))

end

section
variable {p : RegProp} {s : State} (h : p.On s)
include h

theorem scnConfirm_on : p.On (s.scnConfirm).2 := by
  unfold scnConfirm
  extract_lets k x1 s1 x2 s2 s3 v x3 s4 q s5 s6
  have h1 : p.On s1 := stage_on (setCurSlot_on h)
  have h2 : p.On s2 := setUpdState_on (updOutcome_on (setStore_on h1))
  have h3 : p.On s3 := almEvent_on h2
  have h6 : p.On s6 := on_if h3 fun h3 => almEvent_on (setSlot_on (setStore_on h3))
  clear_value s6
  refine on_ite_snd h ?_
  exact h6

theorem rollbackBegin_on {code : Nat} : p.On (s.rollbackBegin code) := setUpdState_on (setMgt_on h)

theorem scnRollback_on : p.On (s.scnRollback).2 := on_ite_snd (rollbackBegin_on h) h

theorem updateExpire_on : p.On s.updateExpire := on_ite h (raise_on (rollbackBegin_on (advanceMono_on h)))

end

section
variable {s : State} (h : regForm.On s)
include h

theorem rollbackNow_on {code : Nat} : regForm.On (s.rollbackNow code) :=
  setUpdState_on (updOutcome_on (setMgt_on (nvsUnpark_on (revertTo_on (setStore_on (swapNow_on h (fun _ h1 => swapTo_on h1)))))))

theorem rollbackSwap_on {force : Bool} : regForm.On (s.rollbackSwap force) :=
  on_ite h (on_ite (on_ite (rollbackNow_on h) h) (on_ite h (setBit_on (setMgt_on (advanceMono_on h)))))

theorem rollbackForced_on : regForm.On s.rollbackForced := on_ite (almEvent_on (rollbackNow_on h)) h

end

/-! ### Power -/

section
variable {s : State} (h : regForm.On s)
include h

theorem bentFailed_on {m : Nat} : regForm.On (s.bentFailed m) := by
  unfold State.bentFailed
  refine on_if ?_ fun h1 => ?_
  · refine pdSwitch_on ?_
    refine gateBent_on ?_
    refine mgtNote_on ?_
    refine setBent_on ?_
    refine forEach_on ?_ ?_
    · intro _ _ h2
      split
      · exact stopRelease_on h2
      · exact h2
    · exact h
  · exact dispatch_on h1

theorem domainFailed_on {d : Nat} : regForm.On (s.domainFailed d) :=
  on_if (raise_on (mgtNote_on (setBit_on (setBit_on (setBit_on (bump_on h)))))) fun h1 => bentFailed_on h1

end

section
variable {p : RegProp} {s : State} (h : p.On s)
include h

theorem bankMeasured_on {c : Nat} : p.On (s.bankMeasured c) := on_if (setMgt_on (setBit_on (wr_on h))) fun h1 => raise_on (mgtNote2_on (setBit_on h1))

theorem bankDaily_on {c : Nat} : p.On (s.bankDaily c) := on_ite h (bankMeasured_on (advanceMono_on h))

theorem leanStep_on {ms : Nat} : p.On (s.leanStep ms) := advanceMono_on (fresh_on h)

theorem leanFail_on : p.On s.leanFail := setMs_on h

theorem enterRecovery_on {c : RecovCause} : p.On (s.enterRecovery c) := by
  unfold State.enterRecovery
  exact almEvent_on (setMs_on (enterMode_on h))

theorem slotFailed_on {k : Nat} {b : ScnBad} : p.On (s.slotFailed k b) := scnRefused_on (almEvent_on (setSlot_on (fresh_on h)))

theorem useSlotPrev_on {k : Nat} : p.On (s.useSlotPrev k) := almEvent_on (annexAll_on (followKeys_on (setMs_on (setStore_on h))))

theorem revertAtStart_on : p.On s.revertAtStart := on_unless (setStore_on h) fun h1 => setMs_on (updOutcome_on (revertTo_on (setSlot_on h1)))

theorem recallStep_on {newBad : Bool} : p.On (s.recallStep newBad) := by
  unfold recallStep
  extract_lets s1
  have h1 : p.On s1 := enterMode_on (pdSet_on h)
  split
  next e => exact pdSet_on (enterMode_on (setMs_on (snd_on e (nvsRecall_on (leanStep_on h1)))))

theorem slotStep_on {newBad : Bool} : p.On (s.slotStep newBad) := by
  unfold State.slotStep
  dsimp only
  refine on_ite ?_ ?_
  · exact enterRecovery_on (leanStep_on h)
  · split
    · exact recallStep_on (setSlot_on (revertAtStart_on (leanStep_on h)))
    · split
      · exact recallStep_on (useSlotPrev_on (setSlot_on (slotFailed_on (revertAtStart_on (leanStep_on h)))))
      · exact enterRecovery_on (slotFailed_on (slotFailed_on (revertAtStart_on (leanStep_on h))))

theorem mountStep_on : p.On s.mountStep :=
  almBegin_on (on_unless (leanStep_on h) fun h1 => winRegs_on (setBit_on (with_sto_on (on_ite h1 (raise_on (setBit_on h1))))))

end

section
variable {s : State} (h : regForm.On s)
include h

theorem bentStep_on {bad : List Nat} : regForm.On (s.bentStep bad) :=
  leanStep_on (forEach_on (fun _ _ h1 => on_ite (bentFailed_on (pdSwitch_on h1)) (pdSwitch_on (pdSwitch_on h1))) h)

end

section
variable {p : RegProp} {s : State} (h : p.On s)
include h

theorem calFound_on {cal : Nat} : p.On (s.calFound cal) :=
  on_ite (setBit_on (setCal_on (forEach_on (fun _ _ h1 => wr_on h1) h))) (on_ite (setBit_on h) h)

end

section
variable {s : State} (h : regForm.On s)
include h

theorem leanRun_on {p' : PowerUp} : regForm.On (s.leanRun p') := by
  unfold State.leanRun
  refine on_ite ?_ ?_
  · exact leanFail_on (forEach_on (fun _ _ h2 => domainFailed_on h2) (bankMeasured_on (pdSet_on (forEach_on (fun _ _ h1 => setBit_on h1)
      (setMs_on h)))))
  · refine on_ite ?_ ?_
    · exact leanFail_on (leanStep_on (leanStep_on (with_mmu_on (timSeed_on (leanStep_on (forEach_on (fun _ _ h4 => domainFailed_on h4)
        (bankMeasured_on (pdSet_on (forEach_on (fun _ _ h3 => setBit_on h3) (setMs_on h))))))))))
    · exact slotStep_on (mountStep_on (bentStep_on (leanStep_on (leanStep_on (with_mmu_on (timSeed_on (leanStep_on (forEach_on
        (fun _ _ h6 => domainFailed_on h6) (bankMeasured_on (pdSet_on (forEach_on (fun _ _ h5 => setBit_on h5) (setMs_on h))))))))))))

end

section
variable {p : RegProp} {s : State} (h : p.On s)
include h

theorem supplySeen_on {p' : PowerUp} : p.On (s.supplySeen p') := setBit_on (with_pw_on h)

end

section
variable {s : State} (h : regForm.On s)
include h

theorem supplyValid_on {p' : PowerUp} : regForm.On (s.supplyValid p') := by
  unfold State.supplyValid
  refine on_ite ?_ ?_
  · exact h
  · refine on_ite ?_ ?_
    · exact leanRun_on (supplySeen_on (advanceMono_on h))
    · exact leanRun_on (supplySeen_on (setMs_on (enterMode_on (almPowerUp_on (setMs_on (on_if (calFound_on (on_if
        (advanceMono_on h) fun h2 => setMs_on h2)) fun h1 => afterPower_on h1))))))

theorem leanRetry_on {p' : PowerUp} : regForm.On (s.leanRetry p') := on_ite h (leanRun_on (setMs_on (advanceMono_on h)))

end

section
variable {p : RegProp} {s : State} (h : p.On s)
include h

theorem placeLine_on {n va : Nat} {l : Line} : p.On (s.placeLine n va l) := by
  unfold State.placeLine
  split
  · exact on_ite (putLine_on h) h
  · split
    case h_1 _ t1 e2 =>
      have h3 : p.On t1 := snd_on e2 (allocPage_on h)
      exact putLine_on h3
    case h_2 t4 e5 =>
      have h6 : p.On t4 := snd_on e5 (allocPage_on h)
      exact h6
  · exact h

theorem retainLoad_on {n : Nat} : p.On (s.retainLoad n) := by
  unfold State.retainLoad
  refine forEach_on ?_ ?_
  · intro _ _ h1
    refine on_ite ?_ ?_
    · exact forEach_on (fun _ _ h2 => placeLine_on h2) (stoRead_on h1)
    · exact raise_on (setBit_on (bump_on (forEach_on (fun _ _ h3 => placeLine_on h3) (stoRead_on h1))))
  · exact h

theorem keysUnwrap_on {n : Nat} : p.On (s.keysUnwrap n) := on_ite (setFld_on (with_mmu_on h)) (raise_on (setFld_on h))

theorem ownersLoad_on : p.On s.ownersLoad :=
  forEach_on (fun _ _ h1 => annexRegs_on (splConfigure_on (initRows_on (loadConst_on (loadProgram_on (retainLoad_on (keysUnwrap_on h1))))))) h

theorem nvsSettle_on : p.On s.nvsSettle := nvsDropPw_on (on_ite (setNvs_on (nvsDefaults_on h)) (on_ite (nvsUnpark_on h) (nvsPark_on h)))

theorem storeRegs_on : p.On s.storeRegs := memRegs_on (setBit_on (setBit_on (setBit_on (winRegs_on (setBit_on (setBit_on (wr_on (wr_on h))))))))

end

section
variable {s : State} (h : regForm.On s)
include h

theorem configured_on : regForm.On s.configured :=
  startPolicy_on (enterMode_on (almEvent_on (forEach_on (fun _ _ h3 => on_ite (ownerResume_on h3) h3) (forEach_on (fun _ _ h2 => on_ite (pubStop_on
    (poolRegs_on h2)) h2) (storeRegs_on (mgtEngReset_on (nvsConfigure_on (wdgConfigure_on (timConfigure_on (domainsPlane_on (planes_on (nvsSettle_on
    (bentsPlane_on (forEach_on (fun _ _ h1 => on_ite (setOwner_on h1) h1) (ownersLoad_on (policyOwners_on (with_cfg_on h)))))))))))))))))

theorem configureComplete_on : regForm.On s.configureComplete := by
  unfold State.configureComplete
  dsimp only
  refine on_ite ?_ ?_
  · exact h
  · split
    · exact configured_on (leanStep_on h)
    · split
      · exact configured_on (useSlotPrev_on (slotFailed_on (leanStep_on h)))
      · exact enterRecovery_on (on_unless (slotFailed_on (leanStep_on h)) fun h1 => slotFailed_on h1)

theorem powerWarning_on : regForm.On s.powerWarning := by
  unfold State.powerWarning
  split
  · exact h
  · exact h
  · exact powerOff_on h
  · exact powerOff_on h
  · exact powerOff_on h
  · exact enterDrain_on (xferFail_on h)

theorem powerFail_on {cause busMv : Nat} : regForm.On (s.powerFail cause busMv) := by
  unfold State.powerFail
  refine on_ite ?_ ?_
  · split
    · exact powerWarning_on (advanceMono_on h)
    · exact h
  · exact on_ite (powerWarning_on (with_pw_on h)) h

theorem seatedBreak_on : regForm.On s.seatedBreak := on_unless (with_pw_on h) fun h1 => powerWarning_on h1

theorem supplyGone_on : regForm.On s.supplyGone := by
  unfold State.supplyGone
  split
  · exact powerOff_on (with_pw_on h)
  · exact powerOff_on (with_pw_on h)
  · exact powerOff_on (with_pw_on h)
  · exact on_ite (powerOff_on (with_pw_on h)) h
  · exact h

end

section
variable {p : RegProp} {s : State} (h : p.On s)
include h

theorem moduleSeated_on : p.On s.moduleSeated := with_pw_on h

theorem inputOut_on {v : Nat} : p.On (s.inputOut v) := on_ite h (with_pw_on h)

theorem inputBack_on {v : Nat} : p.On (s.inputBack v) := on_ite h (with_pw_on h)

end

section
variable {s : State} (h : regForm.On s)
include h

theorem removalRequest_on {held : Nat} : regForm.On (s.removalRequest held) := by
  unfold State.removalRequest
  refine on_ite ?_ ?_
  · exact h
  · split
    · exact h
    · exact setMs_on h
    · exact setMs_on h
    · exact setMs_on h
    · exact on_ite (restartLean_on h) h
    · exact enterDrain_on h
    · exact on_ite (switchRequest_on (setRed_on (setMs_on h))) (on_ite (setRed_on (setMs_on h)) (enterDrain_on (xferFail_on h)))

theorem modeDrain_on : regForm.On s.modeDrain := on_ite (on_if (setRed_on (setMs_on h)) fun h1 => switchRequest_on h1) (enterDrain_on (xferFail_on h))

theorem removalTimeout_on : regForm.On s.removalTimeout := on_ite h (enterDrain_on (setMs_on (advanceMono_on h)))

theorem strapRelease_on : regForm.On s.strapRelease := on_if (setBit_on (with_pw_on h)) fun h1 => restartLean_on (almEvent_on (lorEndAll_on h1))

theorem recoveryCommitted_on : regForm.On s.recoveryCommitted := restartLean_on (almEvent_on (lorEndAll_on h))

end

section
variable {p : RegProp} {s : State} (h : p.On s)
include h

theorem crossing_on {sensor : Option Nat} {src : Nat} : p.On (s.crossing sensor src) := by
  unfold State.crossing
  refine raise_on ?_
  split
  · exact mgtNote_on (setBit_on h)
  · exact mgtNote2_on (setBit_on h)

theorem tempSample_on {t : Nat} {v : Int} : p.On (s.tempSample t v) :=
  on_if (on_if (setMgt_on (on_if (wr_on h) fun h3 => wr_on h3)) fun h2 => crossing_on h2) fun h1 => crossing_on h1

theorem powerSample_on {k bound v : Nat} : p.On (s.powerSample k bound v) := on_if (setMgt_on h) fun h1 => crossing_on h1

end

section
variable {s : State} (h : regForm.On s)
include h

theorem voltSample_on {d mv : Nat} {sustained : Bool} : regForm.On (s.voltSample d mv sustained) :=
  on_unless (wr_on h) fun h1 => on_if (setMgt_on h1) fun h2 => domainFailed_on (setBit_on h2)

theorem sensorSample_on {x : Sensors} : regForm.On (s.sensorSample x) := by
  unfold State.sensorSample
  refine on_ite ?_ ?_
  · exact h
  · refine on_if ?_ fun h1 => ?_
    · refine setMgt_on ?_
      refine powerSample_on ?_
      refine powerSample_on ?_
      refine on_if ?_ fun h2 => ?_
      · exact setMgt_on (with_pw_on (wr_on (maxReg_on (wr_on (wr_on (wr_on (setBit_on (forEach_on (fun _ _ h4 => tempSample_on h4) (forEach_on
          (fun _ _ h3 => voltSample_on h3) (setMgt_on (advanceMono_on h)))))))))))
      · exact crossing_on h2
    · exact crossing_on h1

end

section
variable {p : RegProp} {s : State} (h : p.On s)
include h

theorem logSelect_on {num : Nat} : p.On (s.logSelect num) := forEach_on (fun _ _ h1 => wr_on h1) (setBit_on (wr_on h))

theorem factOutcome_on {code : Nat} : p.On (s.factOutcome code) := mgtLog_on (fresh_on (setBit_on (setFld_on h)))

theorem factGo_on : p.On s.factGo := by
  unfold State.factGo
  refine on_ite ?_ ?_
  · exact h
  · refine on_ite ?_ ?_
    · exact factOutcome_on h
    · refine on_ite ?_ ?_
      · exact factOutcome_on h
      · refine on_ite ?_ ?_
        · exact factOutcome_on h
        · split
          case h_1 t1 e2 =>
            have h3 : p.On t1 := snd_on e2 (pwTry_on h)
            exact setBit_on h3
          case h_2 t4 e5 =>
            have h6 : p.On t4 := snd_on e5 (pwTry_on h)
            exact factOutcome_on h6

theorem factDone_on : p.On s.factDone := by
  unfold State.factDone
  refine on_ite ?_ ?_
  · exact h
  · exact almEvent_on (factOutcome_on (setBit_on (forEach_on (fun _ _ h2 => wr_on h2) (forEach_on (fun _ _ h1 => wr_on (wr_on h1)) (setNvs_on
      (advance_on (fresh_on h)))))))

end

/-! ### Hold -/

section
variable {p : RegProp} {s : State} (h : p.On s)
include h

theorem holdReturn_on : p.On s.holdReturn := by
  unfold State.holdReturn
  exact on_ite (joinPair_on (setMs_on (enterMode_on h))) (resumeAll_on (setMs_on (enterMode_on h)))

theorem holdLimit_on : p.On s.holdLimit := raise_on (setBit_on (setBit_on (setMs_on (deviceStop_on h))))

theorem holdExpiry_on : p.On s.holdExpiry := by
  unfold State.holdExpiry
  refine on_ite ?_ ?_
  · exact h
  · exact on_ite (holdReturn_on (bump_on (setFlt_on (advanceMono_on h)))) (holdLimit_on (setFlt_on (advanceMono_on h)))

theorem ownerExpiry_on {n : Nat} : p.On (s.ownerExpiry n) := by
  unfold State.ownerExpiry
  refine on_ite ?_ ?_
  · exact h
  · refine on_ite ?_ ?_
    · exact on_if (bump_on (setFlt_on (advanceMono_on h))) fun h1 => setOwner_on h1
    · exact raise_on (ownerStop_on (bump_on (setFlt_on (advanceMono_on h))))

end

section
variable {s : State} (h : regForm.On s)
include h

theorem modePerform_on {target kind : Nat} : regForm.On (s.modePerform target kind) :=
  on_ite (on_ite (dropStart_on h) (deviceStop_on h)) (on_ite (startDevice_on h) (on_ite (enterTest_on h) (modeDrain_on h)))

theorem modeCmd_on {target kind : Nat} : regForm.On (s.modeCmd target kind) := on_ite (modePerform_on h) (cmdRej_on h)

theorem ownerStartDone_on {n t : Nat} : regForm.On (s.ownerStartDone n t) := by
  unfold State.ownerStartDone
  split
  · exact h
  · exact ownerStartNow_on (advance_on h)

theorem runStartAt_on {t : Nat} : regForm.On (s.runStartAt t) := by
  unfold State.runStartAt
  dsimp only
  split
  · exact h
  · refine on_ite ?_ ?_
    · exact h
    · split
      · exact runStart_on (advance_on h)
      · exact joinPair_on (advance_on h)
      · exact advance_on h

end

/-! ### SplCmd -/

section
variable {p : RegProp} {s : State} (h : p.On s)
include h

theorem splRefNow_on {n code : Nat} : p.On (s.splRef! n code).2 := splRefuse_on h

theorem splMsg_on {n op code e : Nat} : p.On (s.splMsg n op code e) := redSend_on h

theorem splWhole_on {n k seq : Nat} : p.On (s.splWhole n k seq).2 :=
  on_ite_snd (splDrop_on (splRefNow_on h)) (on_ite_snd (setSplice_on (splMsg_on (redSend_on h))) (splAccept_on h))

theorem splChunk_on {n k seq off : Nat} {bytes : List Byte} : p.On (s.splChunk n k seq off bytes).2 := by
  unfold State.splChunk
  refine on_ite_snd ?_ ?_
  · refine on_ite_snd ?_ ?_
    · exact h
    · refine on_ite_snd ?_ ?_
      · exact splRefNow_on h
      · refine on_ite_snd ?_ ?_
        · exact splDrop_on (splRefNow_on (setSplSt_on (setSplice_on h)))
        · refine on_ite_snd ?_ ?_
          · exact setSplSt_on (setSplice_on h)
          · refine on_ite_snd ?_ ?_
            · exact splDrop_on (splRefNow_on (setSplSt_on (setSplice_on h)))
            · exact on_ite_snd (setSplSt_on (setSplice_on h)) (splWhole_on (setSplSt_on (setSplice_on h)))
  · exact h

theorem splLoadTimeout_on {n : Nat} : p.On (s.splLoadTimeout n) := on_ite (splDrop_on (advanceMono_on h)) h

theorem splNominate_on {n from_ : Nat} : p.On (s.splNominate n from_) := splMsg_on (setSplice_on h)

theorem splArm_on {n : Nat} : p.On (s.splArm n) := on_ite (splNominate_on h) h

theorem splApply_on {n : Nat} {own : Bool} : p.On (s.splApply n own).2 :=
  on_ite_snd (splRefNow_on h) (on_ite_snd (splRefNow_on h) (splArm_on (wr_on (setSplSt_on (setSplice_on h)))))

theorem splConfirm_on {n : Nat} {own : Bool} : p.On (s.splConfirm n own).2 :=
  on_ite_snd (splRefNow_on h) (on_ite_snd (splRefNow_on h) (splConfirmNow_on (on_ite (splMsg_on h) h)))

theorem splRollback_on {n : Nat} {own : Bool} : p.On (s.splRollback n own).2 := by
  unfold State.splRollback
  refine on_ite_snd ?_ ?_
  · exact splRefNow_on h
  · refine on_ite_snd ?_ ?_
    · exact splRefNow_on h
    · exact on_ite_snd (splArm_on (splSeek_on (on_ite (splMsg_on h) h))) (splUndo_on (on_ite (splMsg_on h) h))

theorem splOutcome_on {n : Nat} : p.On (s.splOutcome n) := by
  unfold State.splOutcome
  dsimp only
  split
  · exact on_ite h (on_ite (setSplice_on (stopStandby_on (setBit_on h))) (on_ite (setSplice_on h) (splNominate_on h)))
  · exact h

theorem splReport_on {n e : Nat} {did : Bool} : p.On (s.splReport n e did) :=
  on_ite h (on_ite (splOutcome_on (setSplice_on (splMsg_on h))) (setSplice_on (setSplice_on (splMsg_on h))))

theorem splApplyAt_on {n : Nat} : p.On (s.splApplyAt n) := by
  unfold State.splApplyAt
  refine on_ite ?_ ?_
  · exact h
  · split
    · exact h
    · exact on_ite (splReport_on (splDo_on (splTry_on (advance_on h)))) (splReport_on (splTry_on (advance_on h)))

theorem splApplyTimeout_on {n : Nat} : p.On (s.splApplyTimeout n) := on_ite h (setSplice_on (setSplSt_on (splRefuse_on (advanceMono_on h))))

theorem splExpire_on {n : Nat} : p.On (s.splExpire n) := on_ite h (splArm_on (splSeek_on (advanceMono_on h)))

theorem splRollbackAt_on {n : Nat} : p.On (s.splRollbackAt n) := by
  unfold State.splRollbackAt
  refine on_ite ?_ ?_
  · exact h
  · split
    · exact h
    · refine on_ite ?_ ?_
      · exact on_unless (splReport_on (setSplice_on (splBack_on (splTry_on (advance_on h))))) fun h1 => setSplice_on h1
      · exact splReport_on (splTry_on (advance_on h))

theorem splForce_on {n : Nat} : p.On (s.splForce n) := on_ite h (setSplice_on (advanceMono_on h))

theorem splForcedDue_on : p.On s.splForcedDue := forEach_on (fun _ _ h1 => on_ite (splBack_on h1) h1) h

theorem splPkgRx_on {n off : Nat} {bytes : List Byte} : p.On (s.splPkgRx n off bytes) := on_ite h (on_ite h (setSplSt_on (setSplice_on h)))

theorem splStored_on {n : Nat} : p.On (s.splStored n) :=
  on_ite (splMsg_on h) (on_ite (splMsg_on (splAccept_on h)) (splMsg_on (splDrop_on (splRefuse_on h))))

theorem splAnswered_on {n : Nat} {ok : Bool} : p.On (s.splAnswered n ok) := by
  unfold State.splAnswered
  split
  · exact h
  · exact on_unless (on_ite (splAccept_on h) (splDrop_on (splRefuse_on h))) fun h1 => on_ite (lorAnswer_on h1) (lorAnswer_on h1)

theorem spliceRx_on {op code n eForm : Nat} : p.On (s.spliceRx op code n eForm) := by
  unfold State.spliceRx
  refine on_ite ?_ ?_
  · exact h
  · refine on_ite ?_ ?_
    · exact on_ite (splStored_on h) h
    · refine on_ite ?_ ?_
      · exact on_ite (splAnswered_on h) h
      · refine on_ite ?_ ?_
        · exact on_ite (splAnswered_on h) h
        · refine on_ite ?_ ?_
          · refine on_ite ?_ ?_
            · exact on_ite (setSplice_on (on_ite (wr_on (setSplSt_on (setSplice_on h))) h)) h
            · exact on_ite (on_ite (splConfirmNow_on h) h) (on_ite (on_ite (splSeek_on h) (on_ite (splUndo_on h) h)) h)
          · exact on_ite (splOutcome_on (setSplice_on h)) h

end

/-! ### Flt -/

section
variable {p : RegProp} {s : State} (h : p.On s)
include h

theorem reactHold_on : p.On s.reactHold := on_ite (setFlt_on h) (deviceHold_on h)

theorem reactSwitch_on : p.On s.reactSwitch := on_ite (on_ite (switchRequest_on h) h) (reactHold_on h)

theorem reactReset_on : p.On s.reactReset := on_ite (setMs_on h) (resetDevice_on h)

theorem reactOwner_on {n : Nat} : p.On (s.reactOwner n) := on_ite (setFlt_on h) (ownerHeld_on h)

theorem reactBatch_on {l : List Firing} : p.On (s.reactBatch l) := by
  unfold State.reactBatch
  refine on_ite ?_ ?_
  · exact reactReset_on h
  · refine on_ite ?_ ?_
    · exact reactSwitch_on h
    · exact on_unless (reactHold_on h) fun h1 => forEach_on (fun _ _ h2 => reactOwner_on h2) (on_ite h1 h)

theorem faultTriggers_on {f : Firing} : p.On (s.faultTriggers f) := forEach_on (fun _ _ h1 => on_ite (trigger_on h1) h1) h

theorem reactTask_on {f : Firing} {allowed : Bool} : p.On (s.reactTask f allowed) :=
  on_if (logFiring_on (on_if (on_ite (postEvent_on h) h) fun h2 => mgtNote2_on h2)) fun h1 => with_raised_on h1

theorem takeInstant_on {l : List Firing} : p.On (s.takeInstant l) :=
  forEach_on (fun _ _ h2 => reactTask_on h2) (reactBatch_on (forEach_on (fun _ _ h1 => faultTriggers_on (countFiring_on h1)) h))

theorem takeFirings_on : p.On s.takeFirings := by
  unfold State.takeFirings
  split
  · exact h
  · exact takeInstant_on (with_raised_on h)

end

/-! ### Bus -/

section
variable {p : RegProp} {s : State} (h : p.On s)
include h

theorem setEngLat_on {e : Nat} {l : Latches} : p.On (s.setEngLat e l) := setEng_on h

theorem setReqLat_on {r : Req} {l : Latches} : p.On (s.setReqLat r l) := by
  unfold State.setReqLat
  split
  · exact setEngLat_on h
  · exact setSess_on h
  · exact setEngLat_on h

theorem bentWake_on {m : Nat} : p.On (s.bentWake m) := by
  unfold State.bentWake
  refine on_ite ?_ ?_
  · exact h
  · refine dispatch_on ?_
    refine forEach_on ?_ ?_
    · intro _ _ h1
      split
      · exact startOn_on h1
      · exact h1
    · exact bump_on (setBent_on h)

theorem busWake_on {a : Nat} {h' : RegHit} : p.On (s.busWake a h') := on_ite (bentWake_on (advance_on (fresh_on h))) h

theorem rcClear_on {a : Nat} {h' : RegHit} : p.On (s.rcClear a h') := on_ite h (on_ite (forEach_on (fun _ _ h1 => clr_on h1) h) (wr_on h))

theorem readNow_on {r : Req} {a : Nat} {h' : RegHit} : p.On (s.readNow r a h').2 := by
  unfold State.readNow
  refine on_ite_snd ?_ ?_
  · exact portRead_on h
  · split
    · exact rcClear_on h
    · exact setReqLat_on h
    · split
      · exact h
      · exact h

theorem busRead_on {r : Req} {a : Nat} : p.On (s.busRead r a).2 := by
  unfold State.busRead
  split
  · exact on_ite (secEvent_on h) h
  · exact on_ite_snd (busWake_on h) (readNow_on (busWake_on h))

theorem selfTestRequest_on {n m : Nat} : p.On (s.selfTestRequest n m) := on_ite h (forEach_on (fun _ _ h1 => setBit_on h1) (setBent_on h))

theorem archiveDisable_on : p.On s.archiveDisable := on_ite h (arcStop_on (wr_on h))

theorem archiveEnable_on : p.On s.archiveEnable := on_ite h (with_sto_on (setBit_on (wr_on h)))

theorem eraseBegin_on {byO0 : Bool} {n : Nat} : p.On (s.eraseBegin byO0 n) := on_ite (setBit_on (with_mmu_on h)) h

theorem eraseDone_on {n : Nat} : p.On (s.eraseDone n) := on_ite (setBit_on (eraseOwner_on h)) h

theorem utcWrite_on {v : Nat} : p.On (s.utcWrite v) := on_ite h (setFld_on h)

theorem cuCtlWrite_on {u v : Nat} : p.On (s.cuCtlWrite u v) := setArm_on h

theorem wideWrite_on {a : Nat} {h' : RegHit} {v : Nat} : p.On (s.wideWrite a h' v) :=
  on_ite (calSecWrite_on h) (on_if (wr64_on h) fun h1 => portPassword_on h1)

theorem plainWrite_on {a : Nat} {h' : RegHit} {v : Nat} : p.On (s.plainWrite a h' v) := wr_on h

end

section
variable {s : State} (h : regForm.On s)
include h

theorem sysWriteHook_onSome {byO0 : Bool} {h' : RegHit} {v : Nat} : regForm.OnSome (s.sysWriteHook byO0 h' v) := by
  unfold sysWriteHook
  extract_lets b
  refine onSome_ite (modeCmd_on h) ?_
  refine onSome_ite (on_ite (factGo_on h) h) ?_
  refine onSome_ite (logSelect_on h) ?_
  refine onSome_ite (on_ite (redCmd_on h) h) ?_
  refine onSome_ite (on_ite (clearFirst_on h) h) ?_
  refine onSome_ite (plumbCtl_on h) ?_
  refine onSome_ite (forceWrite_on h) ?_
  refine onSome_ite (wdgCtl_on h) ?_
  refine onSome_ite (wdgKey_on h) ?_
  refine onSome_ite (wdgPeriod_on h) ?_
  refine onSome_ite (portSelect_on h) ?_
  refine onSome_ite (portWrite_on h) ?_
  refine onSome_ite (portCmd_on h) ?_
  refine onSome_ite (on_ite (selfTestRequest_on h) h) ?_
  refine onSome_ite (on_ite (eraseBegin_on h) h) ?_
  refine onSome_ite (on_ite (archiveEnable_on h) (archiveDisable_on h)) ?_
  exact onSome_none

theorem ioWriteHook_onSome {byO0 : Bool} {h' : RegHit} {v : Nat} : regForm.OnSome (s.ioWriteHook byO0 h' v) := by
  unfold ioWriteHook
  extract_lets b i
  refine onSome_ite (on_ite (ringEnable_on h) (ringDisable_on h)) ?_
  refine onSome_ite (on_ite (loopEnable_on h) (loopDisable_on h)) ?_
  refine onSome_ite (on_ite (portEnable_on h) (portDisable_on h)) ?_
  refine onSome_ite (canCtlWrite_on h) ?_
  refine onSome_ite (on_ite (canTxReq_on h) h) ?_
  refine onSome_ite (on_ite (wr_on h) h) ?_
  refine onSome_ite (dthrWrite_on h) ?_
  refine onSome_ite (trimWrite_on h) ?_
  refine onSome_ite (trimWrite_on h) ?_
  refine onSome_ite (utcWrite_on h) ?_
  refine onSome_ite (cuCtlWrite_on h) ?_
  refine onSome_ite (calCtlWrite_on h) ?_
  refine onSome_ite (calDateWrite_on h) ?_
  refine onSome_ite (calTimeWrite_on h) ?_
  exact onSome_none

theorem writeNow_on {r : Req} {a : Nat} {h' : RegHit} {v : Nat} : regForm.On (s.writeNow r a h' v) := by
  unfold writeNow
  extract_lets byO0 w l low s1 cur
  have h1 : regForm.On s1 := on_ite (setReqLat_on h) h
  clear_value s1 cur
  split
  · exact h
  split
  · exact on_ite h (setReqLat_on h)
  · split
    · exact h
    · exact wideWrite_on h1
  · split
    next t e => exact sysWriteHook_onSome h t e
    next =>
      split
      next t e => exact ioWriteHook_onSome h t e
      next => exact plainWrite_on h

theorem busWrite_on {r : Req} {a v : Nat} : regForm.On (s.busWrite r a v).2 := by
  unfold State.busWrite
  split
  · exact on_ite (secEvent_on h) h
  · exact writeNow_on (busWake_on h)

theorem busSet_on {r : Req} {a v : Nat} : regForm.On (s.busSet r a v) := on_ite (busWrite_on h) h

end

section
variable {p : RegProp} {s : State} (h : p.On s)
include h

theorem busGet_on {r : Req} {a : Nat} : p.On (s.busGet r a) := by
  unfold State.busGet
  refine on_ite ?_ ?_
  · exact h
  · split
    case h_1 _ t1 e2 =>
      have h3 : p.On t1 := snd_on e2 (busRead_on h)
      exact emit_on h3
    case h_2 _ t4 e5 =>
      have h6 : p.On t4 := snd_on e5 (busRead_on h)
      exact emit_on h6

end

section
variable {s : State} (h : regForm.On s)
include h

theorem busPut_on {r : Req} {a v : Nat} : regForm.On (s.busPut r a v) := by
  unfold State.busPut
  refine on_ite ?_ ?_
  · exact h
  · split
    case h_1 _ t1 e2 =>
      have h3 : regForm.On t1 := snd_on e2 (busWrite_on h)
      exact emit_on h3
    case h_2 _ t4 e5 =>
      have h6 : regForm.On t4 := snd_on e5 (busWrite_on h)
      exact emit_on h6

end

/-! ### Lorat -/

section
variable {p : RegProp} {s : State} (h : p.On s)
include h

theorem lorImgRead_on {n space rows first : Nat} : p.On (s.lorImgRead n space rows first).2 :=
  on_ite_snd h (on_ite_snd h (on_ite_snd h (forEach_on (fun _ _ h1 => eccRead_on h1) h)))

theorem lorImgWrite_on {n stamp : Nat} {entries : List (Nat × Row × Row)} : p.On (s.lorImgWrite n stamp entries).2 := by
  unfold State.lorImgWrite
  refine on_ite_snd ?_ ?_
  · exact h
  · refine on_ite_snd ?_ ?_
    · exact h
    · split
      · exact h
      · exact sourceWrite_on h

theorem forceInstall_on {n : Nat} {e : Nat × Nat × Nat × Row × Row} : p.On (s.forceInstall n e) :=
  on_ite h (on_if (install_on h) fun h1 => canOutHook_on (pubHook_on h1))

theorem lorImgForce_on {n : Nat} {entries : List (Nat × Nat × Nat × Row × Row)} : p.On (s.lorImgForce n entries).2 := by
  unfold State.lorImgForce
  refine on_ite_snd ?_ ?_
  · exact h
  · refine on_ite_snd ?_ ?_
    · exact h
    · split
      · exact h
      · exact on_ite_snd h (forEach_on (fun _ _ h1 => forceInstall_on h1) (with_img_on h))

theorem lorRegOne_on {k a : Nat} : p.On (s.lorRegOne k a).2 := by
  unfold State.lorRegOne
  split
  case h_1 _ t1 e2 =>
    have h3 : p.On t1 := snd_on e2 (busRead_on h)
    exact h3
  case h_2 _ t4 e5 =>
    have h6 : p.On t4 := snd_on e5 (busRead_on h)
    exact fresh_on h6

theorem lorRegRead_on {k : Nat} {addrs : List Nat} : p.On (s.lorRegRead k addrs).2 := by
  refine on_ite_snd h ?_
  split
  next e =>
    refine snd_on e (foldl_snd_on ?_ h)
    intro y x h1
    split
    next e1 => exact snd_on e1 (lorRegOne_on h1)

end

section
variable {s : State} (h : regForm.On s)
include h

theorem lorRegPut_on {k a v : Nat} : regForm.On (s.lorRegPut k a v).2 := by
  unfold State.lorRegPut
  split
  case h_1 _ t1 e2 =>
    have h3 : regForm.On t1 := snd_on e2 (busWrite_on h)
    exact h3
  case h_2 _ t4 e5 =>
    have h6 : regForm.On t4 := snd_on e5 (busWrite_on h)
    exact h6

theorem lorRegWrite_on {k : Nat} {entries : List (Nat × Nat)} : regForm.On (s.lorRegWrite k entries).2 := by
  refine on_ite_snd h ?_
  split
  next e =>
    refine snd_on e (foldl_snd_on ?_ h)
    intro y x h1
    split
    next e1 => exact snd_on e1 (lorRegPut_on h1)

end

section
variable {p : RegProp} {s : State} (h : p.On s)
include h

theorem lorNvsCheck_on {n r off len pw : Nat} {write : Bool} : p.On (s.lorNvsCheck n r off len pw write).2 := by
  unfold State.lorNvsCheck
  refine on_ite_snd ?_ ?_
  · exact h
  · refine on_ite_snd ?_ ?_
    · exact h
    · split
      case h_1 t1 e2 =>
        have h3 : p.On t1 := snd_on e2 (nvsCheck_on h)
        exact h3
      case h_2 t4 e5 =>
        have h6 : p.On t4 := snd_on e5 (nvsCheck_on h)
        exact h6
      case h_3 t7 e8 =>
        have h9 : p.On t7 := snd_on e8 (nvsCheck_on h)
        exact h9
      case h_4 _ t10 _ _ e11 =>
        have h12 : p.On t10 := snd_on e11 (nvsCheck_on h)
        exact h12

theorem lorNvsRead_on {n r len off pw : Nat} : p.On (s.lorNvsRead n r len off pw).2 := by
  unfold State.lorNvsRead
  split
  case h_1 _ t1 e2 =>
    have h3 : p.On t1 := snd_on e2 (lorNvsCheck_on h)
    exact h3
  case h_2 t4 e5 =>
    have h6 : p.On t4 := snd_on e5 (lorNvsCheck_on h)
    exact nvsRead_on h6

theorem lorNvsWrite_on {n r len off pw : Nat} {bytes : List Byte} : p.On (s.lorNvsWrite n r len off pw bytes).2 := by
  unfold State.lorNvsWrite
  refine on_ite_snd ?_ ?_
  · exact h
  · split
    case h_1 _ t1 e2 =>
      have h3 : p.On t1 := snd_on e2 (lorNvsCheck_on h)
      exact h3
    case h_2 t4 e5 =>
      have h6 : p.On t4 := snd_on e5 (lorNvsCheck_on h)
      exact nvsWrite_on h6

theorem lorAlmRead_on {count first : Nat} : p.On (s.lorAlmRead count first).2 := on_ite_snd h (almRead_on h)

theorem lorAlmFreeze_on {k op : Nat} : p.On (s.lorAlmFreeze k op).2 := by
  unfold State.lorAlmFreeze
  refine on_ite_snd ?_ ?_
  · split
    · exact almFreeze_on h
    · exact on_ite_snd h h
  · refine on_ite_snd ?_ ?_
    · split
      · exact h
      · exact on_ite_snd (almRelease_on h) h
    · exact h

theorem lorArcRead_on {n sub most lo hi cursor : Nat} : p.On (s.lorArcRead n sub most lo hi cursor).2 := by
  unfold lorArcRead
  split
  · exact h
  · refine on_ite_snd h (on_ite_snd h ?_)
    extract_lets recs
    split
    next e =>
      refine snd_on e (foldl_snd_on ?_ h)
      intro y x h1
      split
      next e1 => exact snd_on e1 (stoRead_on h1)

theorem lorArcTrig_on {n stamp t p' q : Nat} : p.On (s.lorArcTrig n stamp t p' q).2 := on_ite_snd h (on_ite_snd h (on_ite_snd h (trigger_on h)))

theorem lorSplLoad_on {k n seq off : Nat} {bytes : List Byte} : p.On (s.lorSplLoad k n seq off bytes).2 := on_ite_snd h (splChunk_on h)

theorem lorSplApply_on {n owner : Nat} : p.On (s.lorSplApply n owner).2 := on_ite_snd h (splApply_on h)

theorem lorSplConfirm_on {n owner : Nat} : p.On (s.lorSplConfirm n owner).2 := on_ite_snd h (splConfirm_on h)

theorem lorSplRollback_on {n owner : Nat} : p.On (s.lorSplRollback n owner).2 := on_ite_snd h (splRollback_on h)

theorem lorScnLoad_on {k off : Nat} {bytes : List Byte} {accept bad : Bool} : p.On (s.lorScnLoad k off bytes accept bad).2 :=
  on_ite_snd h (scnChunk_on h)

theorem modeDone_on : p.On (s.modeDone).2 := h

end

section
variable {s : State} (h : regForm.On s)
include h

theorem modeSetDevice_on {n target kind : Nat} : regForm.On (s.modeSetDevice n target kind).2 := on_ite_snd (modeDone_on (modePerform_on h)) h

end

section
variable {p : RegProp} {s : State} (h : p.On s)
include h

theorem modeSetOwner_on {n own target kind : Nat} : p.On (s.modeSetOwner n own target kind).2 := by
  unfold State.modeSetOwner
  refine on_ite_snd ?_ ?_
  · exact h
  · refine on_ite_snd ?_ ?_
    · exact h
    · refine on_ite_snd ?_ ?_
      · exact on_ite_snd (modeDone_on h) (on_ite_snd h (modeDone_on (ownerStop_on h)))
      · exact on_ite_snd (on_ite_snd (modeDone_on (setOwner_on h)) h) h

theorem modeSetPair_on {k n seq target : Nat} : p.On (s.modeSetPair k n seq target).2 := by
  unfold State.modeSetPair
  refine on_ite_snd ?_ ?_
  · split
    case h_1 t1 e2 =>
      have h3 : p.On t1 := snd_on e2 (switchCmd_on h)
      exact setRed_on h3
    case h_2 t4 e5 =>
      have h6 : p.On t4 := snd_on e5 (switchCmd_on h)
      exact h6
  · exact h

end

section
variable {s : State} (h : regForm.On s)
include h

theorem lorModeSet_on {k n seq scope own target kind : Nat} : regForm.On (s.lorModeSet k n seq scope own target kind).2 :=
  on_ite_snd h (on_ite_snd h (on_ite_snd (modeSetDevice_on h) (on_ite_snd (modeSetOwner_on h) (modeSetPair_on h))))

theorem lorPlumb_on {t : Nat} : regForm.On (s.lorPlumb t).2 := on_ite_snd (plumbNow_on h) (setBit_on (setFlt_on h))

theorem lorDo_on {k n seq flags stamp : Nat} {c : LorCmd} : regForm.On (s.lorDo k n seq flags stamp c).2 := by
  unfold State.lorDo
  refine on_ite_snd ?_ ?_
  · exact h
  · refine on_ite_snd ?_ ?_
    · exact fresh_on h
    · split
      · exact h
      · exact h
      · exact lorImgRead_on h
      · exact lorImgWrite_on h
      · exact lorImgForce_on h
      · exact lorRegRead_on h
      · exact lorRegWrite_on h
      · exact lorNvsRead_on h
      · exact lorNvsWrite_on h
      · exact lorAlmRead_on h
      · exact lorAlmFreeze_on h
      · exact lorArcRead_on h
      · exact lorArcTrig_on h
      · exact lorSplLoad_on h
      · exact lorSplApply_on h
      · exact lorSplConfirm_on h
      · exact lorSplRollback_on h
      · exact lorScnLoad_on h
      · exact scnCommit_on h
      · exact scnConfirm_on h
      · exact scnRollback_on h
      · exact lorModeSet_on h
      · exact lorPlumb_on h

end

section
variable {p : RegProp} {s : State} (h : p.On s)
include h

theorem lorFinish_on {k seq : Nat} {c : LorCmd} {r : LorRes} : p.On (s.lorFinish k seq c r) := by
  unfold State.lorFinish
  split
  · exact setSess_on h
  · refine on_ite ?_ ?_
    · exact emit_on h
    · split
      · exact on_if (lorAnswer_on h) fun h1 => lorEnd_on h1
      · exact lorAnswer_on h

end

section
variable {s : State} (h : regForm.On s)
include h

theorem lorExec_on {k seq flags stamp : Nat} {c : LorCmd} : regForm.On (s.lorExec k seq flags stamp c) :=
  lorFinish_on (lorDo_on (on_if (setSess_on (advance_on (fresh_on h))) fun h1 => bump_on h1))

theorem lorPumpOne_on : regForm.On s.lorPumpOne := by
  unfold State.lorPumpOne
  split
  · exact h
  · exact lorExec_on (setSess_on h)

theorem lorPumpN_on {n : Nat} : regForm.On (s.lorPumpN n) := by
  induction n generalizing s with
  | zero => exact h
  | succ n ih => exact ih (lorPumpOne_on h)

theorem lorPump_on : regForm.On s.lorPump := lorPumpN_on h

end

section
variable {p : RegProp} {s : State} (h : p.On s)
include h

theorem lorSeq_on {k : Nat} {h' : LorHead} {c : LorCmd} {exec : State → State} (hexec : ∀ t, p.On t → p.On (exec t)) : p.On
  (s.lorSeq k h' c exec) := by
  unfold State.lorSeq
  refine on_ite ?_ ?_
  · exact lorBad_on h
  · refine on_ite ?_ ?_
    · split
      · exact h
      · exact on_if (emit_on h) fun h1 => bump_on h1
    · exact on_ite (hexec _ h) (on_ite h (setSess_on h))

end

section
variable {s : State} (h : regForm.On s)
include h

theorem lorRequest_on {h' : LorHead} {c : LorCmd} : regForm.On (s.lorRequest h' c) := by
  unfold State.lorRequest
  refine on_ite ?_ ?_
  · exact secEvent_on (advance_on h)
  · refine on_unless ?_ fun h1 => ?_
    · exact lorBad_on (advance_on h)
    · refine on_ite ?_ ?_
      · exact secEvent_on h1
      · exact lorSeq_on (on_ite (setSess_on (advance_on h)) (on_if (advance_on h) fun h3 => setSess_on h3)) (fun _ h2 => lorExec_on h2)

end

section
variable {p : RegProp} {s : State} (h : p.On s)
include h

theorem recovDo_on {k flags : Nat} {c : LorCmd} : p.On (s.recovDo k flags c).2 := by
  unfold State.recovDo
  split
  · exact on_ite_snd (fresh_on h) h
  · exact on_ite_snd (fresh_on h) (lorScnLoad_on h)
  · exact on_ite_snd (fresh_on h) (scnCommit_on h)
  · exact h

end

section
variable {s : State} (h : regForm.On s)
include h

theorem recovExec_on {k seq flags : Nat} {c : LorCmd} : regForm.On (s.recovExec k seq flags c) :=
  on_if (lorFinish_on (recovDo_on (setSess_on (advance_on (fresh_on h))))) fun h1 => recoveryCommitted_on h1

theorem recovPump_on {k n : Nat} : regForm.On (s.recovPump k n) := by
  induction n generalizing s with
  | zero => exact h
  | succ n ih =>
    unfold recovPump
    split
    · exact h
    · exact ih (recovExec_on (setSess_on h))

theorem recovRequest_on {h' : LorHead} {c : LorCmd} : regForm.On (s.recovRequest h' c) :=
  on_unless (advance_on h) fun h1 => on_ite (recovPump_on (recovExec_on (setSess_on h1))) (lorSeq_on (setSess_on h1) (fun _ h2 => h2))

theorem lorRun_on {h' : LorHead} {c : LorCmd} : regForm.On (s.lorRun h' c) := on_ite (recovRequest_on h) (on_ite (lorRequest_on h) h)

end

section
variable {p : RegProp} {s : State} (h : p.On s)
include h

theorem openReject_on {n code : Nat} : p.On (s.openReject n code) := on_ite (secEvent_on (emit_on h)) (secEvent_on (emit_on h))

theorem lorOpen_on {h' : LorHead} {n serial : Nat} : p.On (s.lorOpen h' n serial) := by
  unfold State.lorOpen
  refine on_ite ?_ ?_
  · exact h
  · refine on_ite ?_ ?_
    · exact secEvent_on (advance_on h)
    · refine on_ite ?_ ?_
      · exact openReject_on (advance_on h)
      · refine on_ite ?_ ?_
        · exact openReject_on (advance_on h)
        · split
          · exact openReject_on (advance_on h)
          · exact on_ite (openReject_on (advance_on h)) (emit_on (setSess_on (forEach_on (fun _ _ h1 => clr_on h1) (advance_on h))))

theorem halfOpenTimeout_on {k : Nat} : p.On (s.halfOpenTimeout k) := on_ite (lorEnd_on (advanceMono_on h)) h

theorem sessionTimeout_on {k : Nat} : p.On (s.sessionTimeout k) := on_ite (lorEnd_on (advanceMono_on h)) h

theorem heldTimeout_on {k : Nat} : p.On (s.heldTimeout k) := by
  unfold State.heldTimeout
  dsimp only
  split
  · exact h
  · exact setSess_on (advanceMono_on h)

end

/-! ### RedXfer -/

section
variable {p : RegProp} {s : State} (h : p.On s)
include h

theorem installFwd_on {row : Nat} {mask val : Row} {stamp writer : Nat} : p.On (s.installFwd row mask val stamp writer) := by
  unfold State.installFwd
  split
  · exact bump64_on (install_on (healWords_on h))
  · exact h

theorem rowsRx_on {l : List (Nat × Nat × Nat × Row × Row)} : p.On (s.rowsRx l) :=
  on_ite h (on_ite (setRed_on h) (forEach_on (fun _ _ h1 => installFwd_on h1) (maxReg_on (fresh_on h))))

theorem ringeRx_on {q esize pidx : Nat} {bytes : List Byte} : p.On (s.ringeRx q esize pidx bytes) := by
  unfold State.ringeRx
  dsimp only
  split
  · exact h
  · refine on_ite ?_ ?_
    · exact h
    · split
      case h_1 t1 e2 =>
        have h3 : p.On t1 := snd_on e2 (hwWrite_on (ringSet_on h))
        exact ringAdvance_on h3
      case h_2 t4 e5 =>
        have h6 : p.On t4 := snd_on e5 (hwWrite_on (ringSet_on h))
        exact setBit_on (ringDrop_on (ringSet_on h6))

theorem eventRx_on {k instant : Nat} : p.On (s.eventRx k instant) := by
  unfold State.eventRx
  split
  · exact h
  · exact on_ite (postBound_on h) h

theorem xferAnnex_on {n num : Nat} {recs : List (Nat × List Byte)} : p.On (s.xferAnnex n num recs) :=
  annexRegs_on (setCurSlot_on (setAnnex_on (forEach_on (fun _ _ h1 => on_ite (on_ite h1 (splReplay_on h1)) (splAccept_on h1)) h)))

theorem xferSpl_on {n st left : Nat} : p.On (s.xferSpl n st left) :=
  on_ite (setSplSt_on (withSizes_on (with_cfg_on (setSplice_on h)))) (setSplSt_on h)

theorem xferItem_on {n : Nat} {it : XferItem} : p.On (s.xferItem n it) := by
  unfold State.xferItem
  split
  · exact ownWrite_on h
  · exact setRow_on h
  · exact with_img_on h
  · exact setTask_on h
  · exact setLoop_on (setFld_on (wr_on (wr_on (wr_on (wr_on (wr_on h))))))
  · exact setBit_on (setFld_on (ringSet_on h))
  · exact setOwner_on (setOwnerSt_on h)
  · exact xferAnnex_on h
  · exact xferSpl_on h

theorem xferRx_on {kind n count : Nat} {items : List XferItem} : p.On (s.xferRx kind n count items) := by
  unfold State.xferRx
  refine on_ite ?_ ?_
  · exact h
  · refine on_ite ?_ ?_
    · refine on_if ?_ fun h1 => ?_
      · exact setFld_on (forEach_on (fun _ _ h2 => xferItem_on h2) (on_ite (setRed_on (xferPhase_on h)) h))
      · exact setRed_on (xferPhase_on h1)
    · refine on_if ?_ fun h3 => ?_
      · exact forEach_on (fun _ _ h4 => xferItem_on h4) (on_ite (setRed_on (xferPhase_on h)) h)
      · exact forEach_on (fun _ _ h5 => installFwd_on h5) (setRed_on (xferPhase_on h3))

theorem xferShadow_on : p.On s.xferShadow := by
  unfold State.xferShadow
  split
  · exact h
  · refine on_ite ?_ ?_
    · exact h
    · exact handoverEnd_on (mgtEngReset_on (forEach_on (fun _ _ h2 => forEach_on (fun _ _ h3 => on_ite h3 (setTask_on h3)) h2) (forEach_on
        (fun _ _ h1 => pubStart_on h1) (enterMode_on (setMs_on (setRed_on (redFlag_on (xferPhase_on (advance_on h)))))))))

theorem xferCut_on : p.On s.xferCut := on_ite h (xferPhase_on (setRed_on (redSend_on h)))

theorem xferTimeout_on : p.On s.xferTimeout := by
  unfold State.xferTimeout
  refine on_ite ?_ ?_
  · exact h
  · refine on_ite ?_ ?_
    · exact xferFail_on (advanceMono_on h)
    · exact on_ite (xferFail_on (advanceMono_on h)) (on_ite (xferFail_on (advanceMono_on h)) h)

theorem startWaitDone_on : p.On s.startWaitDone := by
  unfold State.startWaitDone
  split
  · exact on_ite (setRed_on (advanceMono_on h)) h
  · exact h

end

/-! ### Act -/

section
variable {s : State} (h : regForm.On s)
include h

theorem settleOnce_on : regForm.On s.settleOnce := lorPump_on (redCompare_on (rollbackForced_on (splForcedDue_on (settleDrains_on (takeFirings_on h)))))

theorem settleN_on {n : Nat} : regForm.On (s.settleN n) := by
  induction n generalizing s with
  | zero => exact h
  | succ n ih =>
    unfold settleN
    exact on_ite (settleOnce_on h) (ih (settleOnce_on h))

theorem settle_on : regForm.On s.settle := settleN_on h

end

/-! ### CmdCan -/

section
variable {p : RegProp} {s : State} (h : p.On s)
include h

theorem canCaptureAll_on : p.On s.canCaptureAll := forEach_on (fun _ _ h1 => canCapture_on h1) (advance_on h)

end

/-! ### CmdFlt -/

section
variable {p : RegProp} {s : State} (h : p.On s)
include h

theorem firing_on {src task det1 det2 : Nat} : p.On (s.firing src task det1 det2) := on_ite (raise_on h) h

end

/-! ### CmdMode -/

section
variable {p : RegProp} {s : State} (h : p.On s)
include h

theorem loadTimeout_on {n : Nat} : p.On (s.loadTimeout n) := on_ite (splLoadTimeout_on h) (scnLoadTimeout_on h)

end

/-! ### CmdNet -/

section
variable {p : RegProp} {s : State} (h : p.On s)
include h

theorem netLinkDown_on {i : Nat} : p.On (s.netLinkDown i) := on_if (linkDown_on h) fun h1 => pairLinkLost_on h1

theorem netLinkUp_on {i : Nat} : p.On (s.netLinkUp i) := on_if (linkUp_on h) fun h1 => setBit_on h1

end

/-! ### CmdRed -/

section
variable {p : RegProp} {s : State} (h : p.On s)
include h

theorem paired_on {h' : PairHead} {f : State → State} (hf : ∀ t, p.On t → p.On (f t)) : p.On (s.paired h' f) := by
  unfold State.paired
  split
  case h_1 t1 e2 =>
    have h3 : p.On t1 := snd_on e2 (pairRx_on h)
    exact hf _ h3
  case h_2 t4 e5 =>
    have h6 : p.On t4 := snd_on e5 (pairRx_on h)
    exact h6

end

section
variable {s : State} (h : regForm.On s)
include h

theorem stopCmd_on {cause : Nat} : regForm.On (s.stopCmd cause) := on_ite h (suspectStop_on h)

end

/-! ### GuTask -/

section
variable {p : RegProp} {s : State} (h : p.On s)
include h

theorem flowOp_on {q : Issue} {word nin rout off : Nat} {taken : Row → Bool} {call : Bool} : p.On (s.flowOp q word nin rout off taken call) :=
  runOp_on h (fun _ _ h1 => bodyOn_ite ⟨trivial, h1⟩ ⟨fun _ h => h, h1⟩)

theorem saveCtx_on {e k : Nat} {st : TaskSt} : p.On (s.saveCtx e k st) := setBent_on (freeEng_on (setTask_on h))

theorem yieldPost_on {e k : Nat} : p.On (State.yieldPost e k s) := by
  unfold State.yieldPost
  dsimp only
  split
  · exact h
  · exact dispatch_on (startOn_on (saveCtx_on (bump64_on h)))

theorem takeToken_on {n tok : Nat} : p.On (s.takeToken n tok) := setOwner_on h

theorem waitNow_on {n : Nat} {w : WaitDesc} : p.On (s.waitNow n w).2 := on_ite_snd h (on_ite_snd (on_ite (takeToken_on h) h) (on_ite_snd h h))

theorem waitPost_on {e k : Nat} {w : WaitDesc} : p.On (State.waitPost e k w s) := dispatch_on (setTask_on (saveCtx_on (bump64_on h)))

theorem signalToken_on {n tok : Nat} : p.On (s.signalToken n tok) := on_ite (wakeWhere_on h) (setOwner_on h)

theorem endPost_on {e k : Nat} : p.On (State.endPost e k s) :=
  on_ite (dispatch_on (pendAfter_on (endRelease_on h))) (dispatch_on (endRelease_on (with_img_on h)))

theorem mgtEnd_on : p.On s.mgtEnd := setBit_on (bump_on (setEng_on (with_mgt_on h)))

theorem enqOp_on {q : Issue} {two : Bool} : p.On (s.enqOp q two) :=
  runOp_on h (fun _ _ h1 => by
  dsimp only
  refine bodyOn_ite ?_ ?_
  · exact ⟨trivial, h1⟩
  · refine bodyOn_ite ?_ ?_
    · exact ⟨trivial, h1⟩
    · split
      · split
        case h_1 _ _ t2 e3 =>
          have h4 : p.On t2 := snd_on e3 (engXlat_on h1)
          exact ⟨trivial, h4⟩
        case h_2 t5 e6 =>
          have h7 : p.On t5 := snd_on e6 (engXlat_on h1)
          split
          case h_1 _ _ _ t8 e9 =>
            have h10 : p.On t8 := snd_on e9 (pageWait_on h7)
            exact ⟨trivial, h10⟩
          case h_2 _ t11 _ e12 =>
            have h13 : p.On t11 := snd_on e12 (pageWait_on h7)
            exact ⟨trivial, h13⟩
        case h_3 _ t14 _ _ e15 =>
          have h16 : p.On t14 := snd_on e15 (engXlat_on h1)
          split
          case h_1 t17 e18 =>
            have h19 : p.On t17 := snd_on e18 (hwWrite_on h16)
            exact ⟨fun _ h => h, ringAdvance_on (loseResv_on h19)⟩
          case h_2 t20 e21 =>
            have h22 : p.On t20 := snd_on e21 (hwWrite_on h16)
            exact ⟨trivial, h22⟩
      · exact ⟨fun _ h => h, on_ite (bump_on h1) h1⟩)

theorem deqOp_on {q : Issue} {two : Bool} : p.On (s.deqOp q two) :=
  runOp_on h (fun _ _ h1 => by
  dsimp only
  refine bodyOn_ite ?_ ?_
  · exact ⟨trivial, h1⟩
  · refine bodyOn_ite ?_ ?_
    · exact ⟨trivial, h1⟩
    · split
      · split
        case h_1 _ _ t2 e3 =>
          have h4 : p.On t2 := snd_on e3 (engXlat_on h1)
          exact ⟨trivial, h4⟩
        case h_2 t5 e6 =>
          have h7 : p.On t5 := snd_on e6 (engXlat_on h1)
          split
          case h_1 _ _ _ t8 e9 =>
            have h10 : p.On t8 := snd_on e9 (pageWait_on h7)
            exact ⟨trivial, h10⟩
          case h_2 _ t11 _ e12 =>
            have h13 : p.On t11 := snd_on e12 (pageWait_on h7)
            exact ⟨trivial, h13⟩
        case h_3 _ t14 _ _ e15 =>
          have h16 : p.On t14 := snd_on e15 (engXlat_on h1)
          split
          case h_1 _ t17 e18 =>
            have h19 : p.On t17 := snd_on e18 (hwRead_on h16)
            exact ⟨fun _ h => h, ringConsume_on h19⟩
          case h_2 t20 e21 =>
            have h22 : p.On t20 := snd_on e21 (hwRead_on h16)
            exact ⟨trivial, h22⟩
      · exact ⟨fun _ h => h, h1⟩)

end

/-! ### CmdSeq -/

section
variable {p : RegProp} {s : State} (h : p.On s)
include h

theorem lineWritten_on {e : Nat} : p.On (s.lineWritten e) := by
  unfold State.lineWritten
  split
  case h_1 _ t1 e2 =>
    have h3 : p.On t1 := snd_on e2 (lineOut_on h)
    exact takeExc_on h3
  case h_2 t4 e5 =>
    have h6 : p.On t4 := snd_on e5 (lineOut_on h)
    exact h6

theorem resvGone_on {e : Nat} : p.On (s.resvGone e) := setEng_on h

theorem paceReport_on {m ps : Nat} : p.On (s.paceReport m ps) :=
  on_ite h (on_if (forEach_on (fun _ _ h2 => maxReg_on (wr_on h2)) h) fun h1 => raise_on h1)

end

section
variable {s : State} (h : regForm.On s)
include h

theorem selfTestDone_on {m : Nat} {pass : Bool} : regForm.On (s.selfTestDone m pass) := by
  unfold State.selfTestDone
  refine on_ite ?_ ?_
  · exact h
  · refine on_if ?_ fun h1 => ?_
    · exact forEach_on (fun _ _ h3 => wr_on h3) (on_unless (setBent_on (advance_on (fresh_on h))) fun h2 => bentFailed_on h2)
    · exact dispatch_on (forEach_on (fun _ _ h4 => pendAfter_on h4) h1)

theorem bentGateOff_on {m : Nat} : regForm.On (s.bentGateOff m) := on_ite h (gateBent_on (advance_on h))

end

section
variable {p : RegProp} {s : State} (h : p.On s)
include h

theorem bentWoken_on {m : Nat} : p.On (s.bentWoken m) := on_ite h (bentWake_on (advance_on (fresh_on h)))

theorem dispatchFor_on {ks : List Nat} : p.On (s.dispatchFor ks) := forEach_on (fun _ _ h1 => dispatch_on h1) h

theorem cyclicRelease_on : p.On s.cyclicRelease := by
  unfold State.cyclicRelease
  split
  · exact h
  · exact dispatchFor_on (forEach_on (fun _ _ h1 => setTask_on (boundary_on h1)) (advance_on h))

theorem eventRelease_on : p.On s.eventRelease := by
  unfold State.eventRelease
  split
  · exact h
  · exact dispatchFor_on (forEach_on (fun _ _ h1 => forEach_on (fun _ _ h2 => eventAt_on h2) (setTask_on h1)) (advance_on h))

theorem pendingRelease_on : p.On s.pendingRelease := by
  unfold State.pendingRelease
  split
  · exact h
  · exact dispatchFor_on (forEach_on (fun _ _ h1 => pendDue_on h1) (advance_on h))

theorem preempt_on {e : Nat} : p.On (s.preempt e) := by
  unfold State.preempt
  dsimp only
  split
  · refine on_ite ?_ ?_
    · exact h
    · split
      case h_1 _ t1 e2 =>
        have h3 : p.On t1 := snd_on e2 (drain_on h)
        exact takeExc_on h3
      case h_2 t4 e5 =>
        have h6 : p.On t4 := snd_on e5 (drain_on h)
        exact dispatch_on (startOn_on (saveCtx_on (bump_on h6)))
  · exact h

theorem budgetExceeded_on {k : Nat} : p.On (s.budgetExceeded k) := on_ite h (raise_on (setBit_on (bump_on (setTask_on h))))

theorem deadlineMiss_on {k : Nat} : p.On (s.deadlineMiss k) := on_ite h (raise_on (setBit_on (bump_on (setTask_on (advance_on h)))))

theorem mutualWaitSeen_on {n : Nat} : p.On (s.mutualWaitSeen n) := by
  unfold State.mutualWaitSeen
  refine on_ite ?_ ?_
  · exact h
  · refine on_unless ?_ fun h1 => ?_
    · exact raise_on (setBit_on (bump_on (fresh_on h)))
    · exact dispatch_on (forEach_on (fun _ _ h2 => finishWait_on (setBit_on h2)) h1)

theorem waitEvent_on {k : Nat} : p.On (s.waitEvent k) := by
  unfold State.waitEvent
  dsimp only
  split
  · exact on_ite (dispatch_on (finishWait_on h)) h
  · exact h

theorem waitDeadline_on {k : Nat} : p.On (s.waitDeadline k) := by
  unfold State.waitDeadline
  dsimp only
  split
  · exact on_ite (dispatch_on (finishWait_on (advance_on h))) h
  · exact h

theorem releaseHoldEnd_on : p.On s.releaseHoldEnd := by
  unfold State.releaseHoldEnd
  refine on_ite ?_ ?_
  · exact h
  · exact dispatchFor_on (forEach_on (fun _ _ h1 => on_if (setTask_on h1) fun h2 => pendDue_on h2) (setBit_on (with_relHold_on (advance_on h))))

theorem stagedStore_on {e : Nat} : p.On (s.stagedStore e) := by
  unfold stagedStore
  dsimp only
  split
  · exact on_ite h (complete_on (stageBits_on (setEng_on h)) fun _ h1 => h1)
  · exact h

theorem poolLimit_on {e : Nat} : p.On (s.poolLimit e) := by
  unfold State.poolLimit
  dsimp only
  split
  · exact raise_on (setBit_on (setEng_on (advance_on h)))
  · exact h

theorem sysRowUpdate_on {n row : Nat} : p.On (s.sysRowUpdate n row) := on_ite (sysWrite_on h) (on_ite (on_ite h (sysWrite_on (advance_on h))) h)

theorem hwRingEntry_on {q : Nat} {bytes : List Byte} : p.On (s.hwRingEntry q bytes) := on_ite (hwEnq_on h) h

theorem hwRingTake_on {q : Nat} : p.On (s.hwRingTake q) := by
  unfold State.hwRingTake
  refine on_ite ?_ ?_
  · split
    · exact udpTake_on h
    · exact h
  · exact on_ite (forEach_on (fun _ _ h1 => canTake_on h1) h) h

end

/-! ### CmdSto -/

section
variable {p : RegProp} {s : State} (h : p.On s)
include h

theorem wakeStalled_on {p' : Stall → Bool} : p.On (s.wakeStalled p') := with_engines_on h

theorem pageIn_on {n page t : Nat} : p.On (s.pageIn n page t) := on_ite h (on_unless (pageInDone_on (advance_on h)) fun h1 => wakeStalled_on h1)

theorem framePrepared_on : p.On s.framePrepared := on_unless (prepareOne_on h) fun h1 => wakeStalled_on h1

theorem flushSome_on {n : Nat} : p.On (s.flushSome n) := by
  induction n generalizing s with
  | zero => exact h
  | succ n ih =>
    unfold flushSome
    split
    · exact ih (flushOne_on h)
    · exact h

theorem stagingFlush_on {k avg most : Nat} : p.On (s.stagingFlush k avg most) :=
  on_if (wr_on (on_if (flushSome_on h) fun h2 => setBit_on h2)) fun h1 => raise_on h1

theorem packageFailed_on {spare : Nat} {lost : List Nat} : p.On (s.packageFailed spare lost) :=
  on_if (raise_on (wr_on (setBit_on (with_sto_on h)))) fun h1 => raise_on (setBit_on h1)

theorem rebuildDone_on : p.On s.rebuildDone := setBit_on (with_sto_on h)

theorem windowEnd_on : p.On s.windowEnd := by
  unfold State.windowEnd
  split
  · exact winRegs_on (advance_on h)
  · exact h

end

/-! ### CmdTim -/

section
variable {p : RegProp} {s : State} (h : p.On s)
include h

theorem oscStopped_on : p.On s.oscStopped := setBit_on (setCal_on (fresh_on h))

end

/-! ### GuMem -/

section
variable {p : RegProp} {s : State} (h : p.On s)
include h

theorem memEnd_on {e md base : Nat} {outs : List Row} : p.BodyOn (s.memEnd e md base outs) := by
  unfold State.memEnd
  refine bodyOn_ite ?_ ?_
  · split
    case h_1 _ t1 e2 =>
      have h3 : p.On t1 := snd_on e2 (drain_on h)
      exact ⟨trivial, h3⟩
    case h_2 t4 e5 =>
      have h6 : p.On t4 := snd_on e5 (drain_on h)
      exact ⟨fun _ h => h, h6⟩
  · exact ⟨fun _ h => h, h⟩

theorem loadElem_on {e : Nat} {o : MemOp} {sp a : Nat} {k : Row → Nat → State → Res × State} (hk : ∀ r n t, p.On t → p.BodyOn (k r n t)) : p.BodyOn
  (s.loadElem e o sp a k) := by
  unfold State.loadElem
  split
  · exact ⟨trivial, h⟩
  · exact hk _ _ _ (imageRead_on h)
  · split
    case h_1 _ _ t1 e2 =>
      have h3 : p.On t1 := snd_on e2 (loadBytes_on h)
      exact hk _ _ _ h3
    case h_2 _ _ _ t4 e5 =>
      have h6 : p.On t4 := snd_on e5 (loadBytes_on h)
      exact ⟨trivial, h6⟩
    case h_3 _ t7 e8 =>
      have h9 : p.On t7 := snd_on e8 (loadBytes_on h)
      exact ⟨trivial, h9⟩

theorem loadOp_on {q : Issue} {o : MemOp} {sp md : Nat} : p.On (s.loadOp q o sp md) :=
  runOp_on h (fun _ _ h1 => loadElem_on h1 (fun _ _ _ h2 => memEnd_on h2))

theorem storeElem_on {e : Nat} {o : MemOp} {sp md a word : Nat} {v mask : Row} {outs rest : List Row} : p.BodyOn
  (s.storeElem e o sp md a word v mask outs rest) := by
  unfold State.storeElem
  dsimp only
  split
  · exact ⟨trivial, h⟩
  · refine bodyOn_ite ?_ ?_
    · exact memEnd_on (semWrite_on h)
    · split
      · exact memEnd_on h
      · refine bodyOn_ite ?_ ?_
        · split
          · exact ⟨trivial, on_ite_snd (drain_on h) h⟩
          · exact ⟨trivial, bump_on (on_ite_snd (drain_on h) h)⟩
        · exact memEnd_on (stageBits_on h)
  · split
    case h_1 _ _ t1 e2 =>
      have h3 : p.On t1 := snd2_on e2 (storeBytes_on h)
      exact memEnd_on h3
    case h_2 _ _ _ t4 e5 =>
      have h6 : p.On t4 := snd2_on e5 (storeBytes_on h)
      exact ⟨trivial, h6⟩
    case h_3 _ _ _ _ t7 e8 =>
      have h9 : p.On t7 := snd2_on e8 (storeBytes_on h)
      exact ⟨trivial, h9⟩
    case h_4 _ _ t10 e11 =>
      have h12 : p.On t10 := snd2_on e11 (storeBytes_on h)
      exact ⟨trivial, h12⟩

theorem storeOp_on {q : Issue} {o : MemOp} {sp md : Nat} : p.On (s.storeOp q o sp md) := runOp_on h (fun _ _ h1 => storeElem_on h1)

theorem scWrite_on {e sp off v : Nat} : p.On (s.scWrite e sp off v).2 := by
  unfold State.scWrite
  dsimp only
  refine on_ite_snd ?_ ?_
  · exact mgtStore_on h
  · split
    case h_1 _ t1 e2 =>
      have h3 : p.On t1 := snd_on e2 (lineFrame_on h)
      exact h3
    case h_2 _ t4 e5 =>
      have h6 : p.On t4 := snd_on e5 (lineFrame_on h)
      split
      case h_1 t7 e8 =>
        have h9 : p.On t7 := snd_on e8 (mergeLine_on h6)
        exact loseResv_on h9
      case h_2 t10 e11 =>
        have h12 : p.On t10 := snd_on e11 (mergeLine_on h6)
        exact h12

theorem edgeOp_on {q : Issue} {word : Nat} {f : Row → Row → Row} : p.On (s.edgeOp q word f) :=
  runOp_on h (fun _ _ h1 => by
  dsimp only
  split
  · exact ⟨trivial, h1⟩
  · split
    case h_1 _ _ _ t2 e3 =>
      have h4 : p.On t2 := snd_on e3 (loadBytes_on h1)
      exact ⟨trivial, h4⟩
    case h_2 _ t5 e6 =>
      have h7 : p.On t5 := snd_on e6 (loadBytes_on h1)
      exact ⟨trivial, h7⟩
    case h_3 _ _ t8 e9 =>
      have h10 : p.On t8 := snd_on e9 (loadBytes_on h1)
      split
      case h_1 _ _ t11 e12 =>
        have h13 : p.On t11 := snd2_on e12 (storeBytes_on h10)
        exact ⟨fun _ h => h, h13⟩
      case h_2 _ _ _ t14 e15 =>
        have h16 : p.On t14 := snd2_on e15 (storeBytes_on h10)
        exact ⟨trivial, h16⟩
      case h_3 _ _ _ _ t17 e18 =>
        have h19 : p.On t17 := snd2_on e18 (storeBytes_on h10)
        exact ⟨trivial, h19⟩
      case h_4 _ _ t20 e21 =>
        have h22 : p.On t20 := snd2_on e21 (storeBytes_on h10)
        exact ⟨trivial, h22⟩)

theorem blockRead_on {e sp off : Nat} {l : List Nat} : p.On (s.blockRead e sp off l).2 := by
  induction l generalizing s with
  | nil => exact h
  | cons j l ih =>
    unfold blockRead
    split
    case h_1 _ _ t e1 =>
      have ht : p.On t := snd_on e1 (loadBytes_on h)
      split
      case h_1 _ t' e2 => exact snd_on e2 (ih ht)
      case h_2 _ t' e2 => exact snd_on e2 (ih ht)
    case h_2 _ t _ e1 => exact snd_on e1 (loadBytes_on h)

theorem blockWrite_on {e sp off : Nat} {l : List (Nat × Nat)} : p.On (s.blockWrite e sp off l).2 := by
  induction l generalizing s with
  | nil => exact h
  | cons x l ih =>
    unfold blockWrite
    refine on_ite_snd (ih (mgtStore_on h)) ?_
    dsimp only
    split
    case h_1 _ t e1 => exact snd_on e1 (lineFrame_on h)
    case h_2 _ t e1 =>
      have ht : p.On t := snd_on e1 (lineFrame_on h)
      split
      case h_1 _ t' e2 => exact snd_on e2 (ih ht)
      case h_2 t' e2 => exact writeLine_on (loseResv_on (snd_on e2 (ih ht)))

theorem blockOvl_on {e sp off : Nat} : p.On (s.blockOvl e sp off).2 := on_ite_snd h (drainSb_on h)

theorem timerOp_on {q : Issue} {word : Nat} {kind : TimerKind} : p.On (s.timerOp q word kind) :=
  runOp_on h (fun _ _ h1 => by
  dsimp only
  split
  · exact ⟨trivial, h1⟩
  · split
    case h_1 _ t2 e3 =>
      have h4 : p.On t2 := snd_on e3 (blockOvl_on h1)
      exact ⟨trivial, h4⟩
    case h_2 t5 e6 =>
      have h7 : p.On t5 := snd_on e6 (blockOvl_on h1)
      split
      case h_1 _ _ _ t8 e9 =>
        have h10 : p.On t8 := snd_on e9 (blockRead_on h7)
        exact ⟨trivial, h10⟩
      case h_2 _ t11 e12 =>
        have h13 : p.On t11 := snd_on e12 (blockRead_on h7)
        exact ⟨trivial, h13⟩
      case h_3 _ _ t14 e15 =>
        have h16 : p.On t14 := snd_on e15 (blockRead_on h7)
        exact ⟨trivial, h16⟩
      case h_4 _ t17 e18 =>
        have h19 : p.On t17 := snd_on e18 (blockRead_on h7)
        split
        case h_1 _ _ _ t20 e21 =>
          have h22 : p.On t20 := snd_on e21 (blockRead_on h19)
          exact ⟨trivial, h22⟩
        case h_2 _ t23 e24 =>
          have h25 : p.On t23 := snd_on e24 (blockRead_on h19)
          exact ⟨trivial, h25⟩
        case h_3 _ _ t26 e27 =>
          have h28 : p.On t26 := snd_on e27 (blockRead_on h19)
          exact ⟨trivial, h28⟩
        case h_4 _ t29 e30 =>
          have h31 : p.On t29 := snd_on e30 (blockRead_on h19)
          split
          case h_1 _ _ _ t32 e33 =>
            have h34 : p.On t32 := snd_on e33 (blockWrite_on h31)
            exact ⟨trivial, h34⟩
          case h_2 _ t35 e36 =>
            have h37 : p.On t35 := snd_on e36 (blockWrite_on h31)
            exact ⟨trivial, h37⟩
          case h_3 _ t38 _ _ e39 =>
            have h40 : p.On t38 := snd_on e39 (blockWrite_on h31)
            exact ⟨fun _ h => h, h40⟩)

theorem trstOp_on {q : Issue} : p.On (s.trstOp q) :=
  runOp_on h (fun _ _ h1 => by
  dsimp only
  split
  · exact ⟨trivial, h1⟩
  · split
    case h_1 _ t2 e3 =>
      have h4 : p.On t2 := snd_on e3 (blockOvl_on h1)
      exact ⟨trivial, h4⟩
    case h_2 t5 e6 =>
      have h7 : p.On t5 := snd_on e6 (blockOvl_on h1)
      split
      case h_1 _ _ _ t8 e9 =>
        have h10 : p.On t8 := snd_on e9 (blockRead_on h7)
        exact ⟨trivial, h10⟩
      case h_2 _ t11 e12 =>
        have h13 : p.On t11 := snd_on e12 (blockRead_on h7)
        exact ⟨trivial, h13⟩
      case h_3 _ _ t14 e15 =>
        have h16 : p.On t14 := snd_on e15 (blockRead_on h7)
        exact ⟨trivial, h16⟩
      case h_4 _ t17 e18 =>
        have h19 : p.On t17 := snd_on e18 (blockRead_on h7)
        split
        case h_1 _ _ _ t20 e21 =>
          have h22 : p.On t20 := snd_on e21 (blockWrite_on h19)
          exact ⟨trivial, h22⟩
        case h_2 _ t23 e24 =>
          have h25 : p.On t23 := snd_on e24 (blockWrite_on h19)
          exact ⟨trivial, h25⟩
        case h_3 _ t26 _ _ e27 =>
          have h28 : p.On t26 := snd_on e27 (blockWrite_on h19)
          exact ⟨fun _ h => h, h28⟩)

end

end RegProp
end Sys2Proof.Machine
end

section
/-! SUPPORT. Every command keeps the registers in canonical form. -/
namespace Sys2Proof.Machine.RegProp
open State

section
variable {s : State} (h : regForm.On s)

theorem act_ends {f : State → State} (hf : regForm.On (f s)) : regForm.EndsOn (act f s) := by
  intro t e
  unfold act at e
  injection e with e
  subst e
  exact with_pending_on (settle_on hf)

include h

theorem comp_ends {q : Issue} {word nin nout base : Nat} {f : List Row → List Row} : regForm.EndsOn (comp q word nin nout base f s) :=
  act_ends (runOp_on h (fun _ _ h1 => pureBody_on h1))

theorem comp1_ends {q : Issue} {word base : Nat} {f : Row → Row} : regForm.EndsOn (comp1 q word base f s) :=
  comp_ends h

theorem comp2_ends {q : Issue} {word base : Nat} {f : Row → Row → Row} : regForm.EndsOn (comp2 q word base f s) :=
  comp_ends h

theorem compDiv_ends {q : Issue} {word : Nat} {f : Row → Row → Row} : regForm.EndsOn (compDiv q word f s) :=
  act_ends (runOp_on h (fun _ _ h1 => bodyOn_ite ⟨trivial, h1⟩ ⟨fun _ h => h, h1⟩))

theorem timeOp_ends {q : Issue} {word : Nat} {f : State → Nat} : regForm.EndsOn (timeOp q word f s) :=
  act_ends (runOp_on h (fun _ _ h1 => ⟨fun _ h => h, h1⟩))

theorem execSignal_ends {q : Issue} : regForm.EndsOn (execSignal q s) :=
  act_ends (runOp_on h (fun _ _ h1 => bodyOn_ite ⟨trivial, h1⟩ ⟨fun _ h => h, signalToken_on h1⟩))

theorem execRcnt_ends {q : Issue} : regForm.EndsOn (execRcnt q s) :=
  act_ends (runOp_on h (fun _ _ h1 => bodyOn_ite ⟨trivial, h1⟩ ⟨fun _ h => h, h1⟩))

theorem execPick_ends {q : Issue} : regForm.EndsOn (execPick q s) :=
  act_ends (runOp_on h (fun _ _ h1 => bodyOn_ite ⟨trivial, h1⟩ ⟨fun _ h => h, h1⟩))

theorem execRet_ends {q : Issue} : regForm.EndsOn (execRet q s) :=
  act_ends (runOp_on h (fun _ _ h1 => ⟨fun _ h => h, h1⟩))

theorem execSc_ends {q : Issue} {sp md : Nat} : regForm.EndsOn (execSc q sp md s) :=
  act_ends (runOp_on h (fun _ _ h1 => by
    dsimp only
    split
    · exact ⟨trivial, h1⟩
    · exact ⟨trivial, h1⟩
    · refine bodyOn_ite ?_ ?_
      · split
        case h_1 _ _ _ t2 e3 =>
          have h4 : regForm.On t2 := snd_on e3 (scWrite_on h1)
          exact ⟨trivial, h4⟩
        case h_2 _ t5 e6 =>
          have h7 : regForm.On t5 := snd_on e6 (scWrite_on h1)
          exact ⟨trivial, h7⟩
        case h_3 _ t8 _ _ e9 =>
          have h10 : regForm.On t8 := snd_on e9 (scWrite_on h1)
          exact memEnd_on (setEng_on h10)
      · exact memEnd_on (setEng_on h1)))

theorem execTset_ends {q : Issue} {sp md : Nat} : regForm.EndsOn (execTset q sp md s) :=
  act_ends (runOp_on h (fun _ _ h1 => by
    dsimp only
    split
    · exact memEnd_on (semWrite_on h1)
    · exact ⟨trivial, h1⟩
    · exact ⟨trivial, h1⟩))

theorem execLdc_ends {q : Issue} {sp md : Nat} : regForm.EndsOn (execLdc q sp md s) :=
  act_ends (runOp_on h (fun _ _ h1 => by
    dsimp only
    split
    · exact ⟨trivial, h1⟩
    · split
      case h_1 _ _ t2 e3 =>
        have h4 : regForm.On t2 := snd_on e3 (loadInit_on h1)
        exact memEnd_on h4
      case h_2 _ _ _ t5 e6 =>
        have h7 : regForm.On t5 := snd_on e6 (loadInit_on h1)
        exact ⟨trivial, h7⟩
      case h_3 _ t8 e9 =>
        have h10 : regForm.On t8 := snd_on e9 (loadInit_on h1)
        exact ⟨trivial, h10⟩
    · split
      case h_1 _ _ t11 e12 =>
        have h13 : regForm.On t11 := snd_on e12 (loadInit_on h1)
        exact memEnd_on h13
      case h_2 _ _ _ t14 e15 =>
        have h16 : regForm.On t14 := snd_on e15 (loadInit_on h1)
        exact ⟨trivial, h16⟩
      case h_3 _ t17 e18 =>
        have h19 : regForm.On t17 := snd_on e18 (loadInit_on h1)
        exact ⟨trivial, h19⟩))

theorem execYield_ends {q : Issue} : regForm.EndsOn (execYield q s) :=
  act_ends (runOp_on h fun _ t h1 => by
    refine ⟨fun _ h2 => ?_, h1⟩
    dsimp only
    cases (t.eng q.eng).task with
    | none => exact h2
    | some k => exact yieldPost_on h2)

theorem execWait_ends {q : Issue} : regForm.EndsOn (execWait q s) :=
  act_ends (runOp_on h fun _ _ h1 => by
    dsimp only
    split
    · exact ⟨trivial, h1⟩
    · split
      next e => exact ⟨fun _ h2 => h2, snd_on e (waitNow_on h1)⟩
      next _ t e =>
        refine ⟨fun _ h2 => ?_, snd_on e (waitNow_on h1)⟩
        dsimp only
        cases (t.eng q.eng).task with
        | none => exact h2
        | some k => exact waitPost_on h2)

theorem execEnd_ends {q : Issue} : regForm.EndsOn (execEnd q s) :=
  act_ends (runOp_on h fun _ t h1 => by
    refine ⟨fun _ h2 => ?_, h1⟩
    dsimp only
    split
    · exact mgtEnd_on h2
    · cases (t.eng q.eng).task with
      | none => exact h2
      | some k => exact endPost_on h2)

theorem execDin_ends {q : Issue} : regForm.EndsOn (execDin q s) :=
  act_ends (runOp_on h fun _ _ h1 => by
    refine bodyOn_ite ⟨trivial, h1⟩ ?_
    split
    next e => exact ⟨fun _ h2 => h2, snd_on e (busRead_on h1)⟩
    next e => exact ⟨trivial, snd_on e (busRead_on h1)⟩)

theorem execDout_ends {q : Issue} : regForm.EndsOn (execDout q s) :=
  act_ends (runOp_on h fun _ _ h1 => by
    refine bodyOn_ite ⟨trivial, h1⟩ ?_
    split
    · exact ⟨fun _ h2 => busSet_on h2, h1⟩
    · exact ⟨trivial, busSet_on h1⟩)

theorem execLr_ends {q : Issue} {sp md : Nat} : regForm.EndsOn (execLr q sp md s) :=
  act_ends (runOp_on h fun ins t h1 => by
    have hb : regForm.BodyOn (t.loadElem q.eng .lr sp (scalar (inp ins 0))
        (fun v base s => s.memEnd q.eng md base (v :: kept .lr sp md (inp ins 0)))) := loadElem_on h1 fun _ _ _ h2 => memEnd_on h2
    unfold BodyOn at hb
    dsimp only
    split
    next e =>
      rw [e] at hb
      exact ⟨fun _ h2 => setEng_on h2, hb.2⟩
    next => exact hb)

/-- The next state of every command, from registers in canonical form, has them so. -/
theorem exec_ends (c : Instr) : regForm.EndsOn (exec c s) := by
  cases c
  case supplyValid => exact (act_ends (supplyValid_on h) : regForm.EndsOn (execSupplyValid _ s))
  case leanRetry => exact (act_ends (leanRetry_on h) : regForm.EndsOn (execLeanRetry _ s))
  case configureComplete => exact (act_ends (configureComplete_on h) : regForm.EndsOn (execConfigureComplete s))
  case powerFailWarning => exact (act_ends (powerFail_on h) : regForm.EndsOn (execPowerFailWarning _ _ s))
  case seatedLoopBreak => exact (act_ends (seatedBreak_on h) : regForm.EndsOn (execSeatedLoopBreak s))
  case drainComplete => exact (act_ends (drainDone_on h) : regForm.EndsOn (execDrainComplete _ s))
  case supplyLossNoDrain => exact (act_ends (supplyGone_on h) : regForm.EndsOn (execSupplyLossNoDrain s))
  case removalRequest => exact (act_ends (removalRequest_on h) : regForm.EndsOn (execRemovalRequest _ s))
  case removalConfirmTimeout => exact (act_ends (removalTimeout_on h) : regForm.EndsOn (execRemovalConfirmTimeout s))
  case modecmdStop => exact (act_ends (busSet_on h) : regForm.EndsOn (execModecmdStop _ _ s))
  case modecmdRun => exact (act_ends (busSet_on h) : regForm.EndsOn (execModecmdRun _ _ s))
  case modecmdTest => exact (act_ends (busSet_on h) : regForm.EndsOn (execModecmdTest _ _ s))
  case modecmdDrain => exact (act_ends (busSet_on h) : regForm.EndsOn (execModecmdDrain _ _ s))
  case runStart => exact (act_ends (runStartAt_on h) : regForm.EndsOn (execRunStart _ s))
  case holdQuietExpiry => exact (act_ends (holdExpiry_on h) : regForm.EndsOn (execHoldQuietExpiry s))
  case ownerQuietExpiry => exact (act_ends (ownerExpiry_on h) : regForm.EndsOn (execOwnerQuietExpiry _ s))
  case ownerStop => exact (act_ends (ownerStop_on h) : regForm.EndsOn (execOwnerStop _ s))
  case ownerStart => exact (act_ends (ownerStartDone_on h) : regForm.EndsOn (execOwnerStart _ _ s))
  case scnLoad => exact (act_ends (lorRun_on h) : regForm.EndsOn (execScnLoad _ _ _ _ s))
  case loadTimeout => exact (act_ends (loadTimeout_on h) : regForm.EndsOn (execLoadTimeout _ s))
  case scnCommit => exact (act_ends (lorRun_on h) : regForm.EndsOn (execScnCommit _ s))
  case planeStreamDone => exact (act_ends (planeStreamed_on h) : regForm.EndsOn (execPlaneStreamDone s))
  case planeSwap => exact (act_ends (planeSwap_on h) : regForm.EndsOn (execPlaneSwap s))
  case updateFail => exact (act_ends (updateFail_on h) : regForm.EndsOn (execUpdateFail s))
  case scnConfirm => exact (act_ends (lorRun_on h) : regForm.EndsOn (execScnConfirm _ s))
  case scnRollback => exact (act_ends (lorRun_on h) : regForm.EndsOn (execScnRollback _ s))
  case updateWindowExpiry => exact (act_ends (updateExpire_on h) : regForm.EndsOn (execUpdateWindowExpiry s))
  case rollbackSwap => exact (act_ends (rollbackSwap_on h) : regForm.EndsOn (execRollbackSwap _ s))
  case nop => exact (comp_ends h : regForm.EndsOn (execNop _ s))
  case dup => exact (comp_ends h : regForm.EndsOn (execDup _ s))
  case drop => exact (comp_ends h : regForm.EndsOn (execDrop _ s))
  case swap => exact (comp_ends h : regForm.EndsOn (execSwap _ s))
  case rot => exact (comp_ends h : regForm.EndsOn (execRot _ s))
  case nip => exact (comp_ends h : regForm.EndsOn (execNip _ s))
  case pick => exact (execPick_ends h : regForm.EndsOn (execPick _ s))
  case and_ => exact (comp2_ends h : regForm.EndsOn (execAnd _ s))
  case or_ => exact (comp2_ends h : regForm.EndsOn (execOr _ s))
  case xor => exact (comp2_ends h : regForm.EndsOn (execXor _ s))
  case not_ => exact (comp1_ends h : regForm.EndsOn (execNot _ s))
  case andn => exact (comp2_ends h : regForm.EndsOn (execAndn _ s))
  case orn => exact (comp2_ends h : regForm.EndsOn (execOrn _ s))
  case mux => exact (comp_ends h : regForm.EndsOn (execMux _ s))
  case lshu => exact (comp2_ends h : regForm.EndsOn (execLshu _ s))
  case lshd => exact (comp2_ends h : regForm.EndsOn (execLshd _ s))
  case lrot => exact (comp2_ends h : regForm.EndsOn (execLrot _ s))
  case bcast => exact (comp2_ends h : regForm.EndsOn (execBcast _ s))
  case any => exact (comp1_ends h : regForm.EndsOn (execAny _ s))
  case all => exact (comp1_ends h : regForm.EndsOn (execAll _ s))
  case popc => exact (comp1_ends h : regForm.EndsOn (execPopc _ s))
  case lmask => exact (comp1_ends h : regForm.EndsOn (execLmask _ s))
  case rise => exact (act_ends (edgeOp_on h) : regForm.EndsOn (execRise _ s))
  case fall => exact (act_ends (edgeOp_on h) : regForm.EndsOn (execFall _ s))
  case ton => exact (act_ends (timerOp_on h) : regForm.EndsOn (execTon _ s))
  case tof => exact (act_ends (timerOp_on h) : regForm.EndsOn (execTof _ s))
  case tp => exact (act_ends (timerOp_on h) : regForm.EndsOn (execTp _ s))
  case trst => exact (act_ends (trstOp_on h) : regForm.EndsOn (execTrst _ s))
  case add => exact (comp2_ends h : regForm.EndsOn (execAdd _ s))
  case sub => exact (comp2_ends h : regForm.EndsOn (execSub _ s))
  case neg => exact (comp1_ends h : regForm.EndsOn (execNeg _ s))
  case inc => exact (comp1_ends h : regForm.EndsOn (execInc _ s))
  case dec => exact (comp1_ends h : regForm.EndsOn (execDec _ s))
  case mul => exact (comp2_ends h : regForm.EndsOn (execMul _ s))
  case mulh => exact (comp2_ends h : regForm.EndsOn (execMulh _ s))
  case mulhu => exact (comp2_ends h : regForm.EndsOn (execMulhu _ s))
  case div => exact (compDiv_ends h : regForm.EndsOn (execDiv _ s))
  case divu => exact (compDiv_ends h : regForm.EndsOn (execDivu _ s))
  case rem => exact (compDiv_ends h : regForm.EndsOn (execRem _ s))
  case remu => exact (compDiv_ends h : regForm.EndsOn (execRemu _ s))
  case shl => exact (comp2_ends h : regForm.EndsOn (execShl _ s))
  case shr => exact (comp2_ends h : regForm.EndsOn (execShr _ s))
  case sar => exact (comp2_ends h : regForm.EndsOn (execSar _ s))
  case min => exact (comp2_ends h : regForm.EndsOn (execMin _ s))
  case max => exact (comp2_ends h : regForm.EndsOn (execMax _ s))
  case minu => exact (comp2_ends h : regForm.EndsOn (execMinu _ s))
  case maxu => exact (comp2_ends h : regForm.EndsOn (execMaxu _ s))
  case abs => exact (comp1_ends h : regForm.EndsOn (execAbs _ s))
  case addsat => exact (comp2_ends h : regForm.EndsOn (execAddsat _ s))
  case subsat => exact (comp2_ends h : regForm.EndsOn (execSubsat _ s))
  case fadd => exact (comp2_ends h : regForm.EndsOn (execFadd _ _ s))
  case fsub => exact (comp2_ends h : regForm.EndsOn (execFsub _ _ s))
  case fmul => exact (comp2_ends h : regForm.EndsOn (execFmul _ _ s))
  case fdiv => exact (comp2_ends h : regForm.EndsOn (execFdiv _ _ s))
  case fsqrt => exact (comp1_ends h : regForm.EndsOn (execFsqrt _ _ s))
  case fma => exact (comp_ends h : regForm.EndsOn (execFma _ _ s))
  case fneg => exact (comp1_ends h : regForm.EndsOn (execFneg _ _ s))
  case fabs => exact (comp1_ends h : regForm.EndsOn (execFabs _ _ s))
  case fmin => exact (comp2_ends h : regForm.EndsOn (execFmin _ _ s))
  case fmax => exact (comp2_ends h : regForm.EndsOn (execFmax _ _ s))
  case eq => exact (comp2_ends h : regForm.EndsOn (execEq _ s))
  case ne => exact (comp2_ends h : regForm.EndsOn (execNe _ s))
  case lt => exact (comp2_ends h : regForm.EndsOn (execLt _ s))
  case le => exact (comp2_ends h : regForm.EndsOn (execLe _ s))
  case gt => exact (comp2_ends h : regForm.EndsOn (execGt _ s))
  case ge => exact (comp2_ends h : regForm.EndsOn (execGe _ s))
  case ltu => exact (comp2_ends h : regForm.EndsOn (execLtu _ s))
  case leu => exact (comp2_ends h : regForm.EndsOn (execLeu _ s))
  case gtu => exact (comp2_ends h : regForm.EndsOn (execGtu _ s))
  case geu => exact (comp2_ends h : regForm.EndsOn (execGeu _ s))
  case req => exact (comp2_ends h : regForm.EndsOn (execReq _ s))
  case feq => exact (comp2_ends h : regForm.EndsOn (execFeq _ _ s))
  case flt => exact (comp2_ends h : regForm.EndsOn (execFlt _ _ s))
  case fle => exact (comp2_ends h : regForm.EndsOn (execFle _ _ s))
  case sx => exact (comp1_ends h : regForm.EndsOn (execSx _ _ s))
  case zx => exact (comp1_ends h : regForm.EndsOn (execZx _ _ s))
  case i2s => exact (comp1_ends h : regForm.EndsOn (execI2s _ s))
  case i2d => exact (comp1_ends h : regForm.EndsOn (execI2d _ s))
  case u2s => exact (comp1_ends h : regForm.EndsOn (execU2s _ s))
  case u2d => exact (comp1_ends h : regForm.EndsOn (execU2d _ s))
  case s2i => exact (comp1_ends h : regForm.EndsOn (execS2i _ s))
  case d2i => exact (comp1_ends h : regForm.EndsOn (execD2i _ s))
  case s2d => exact (comp1_ends h : regForm.EndsOn (execS2d _ s))
  case d2s => exact (comp1_ends h : regForm.EndsOn (execD2s _ s))
  case wext => exact (comp2_ends h : regForm.EndsOn (execWext _ s))
  case wins => exact (comp_ends h : regForm.EndsOn (execWins _ s))
  case yield => exact (execYield_ends h : regForm.EndsOn (execYield _ s))
  case wait => exact (execWait_ends h : regForm.EndsOn (execWait _ s))
  case signal => exact (execSignal_ends h : regForm.EndsOn (execSignal _ s))
  case end_ => exact (execEnd_ends h : regForm.EndsOn (execEnd _ s))
  case ret => exact (execRet_ends h : regForm.EndsOn (execRet _ s))
  case trap => exact (act_ends (runOp_on h (fun _ _ h1 => ⟨trivial, h1⟩)) : regForm.EndsOn (execTrap _ s))
  case enq => exact (act_ends (enqOp_on h) : regForm.EndsOn (execEnq _ s))
  case enq2 => exact (act_ends (enqOp_on h) : regForm.EndsOn (execEnq2 _ s))
  case deq => exact (act_ends (deqOp_on h) : regForm.EndsOn (execDeq _ s))
  case deq2 => exact (act_ends (deqOp_on h) : regForm.EndsOn (execDeq2 _ s))
  case rcnt => exact (execRcnt_ends h : regForm.EndsOn (execRcnt _ s))
  case din => exact (execDin_ends h : regForm.EndsOn (execDin _ s))
  case dout => exact (execDout_ends h : regForm.EndsOn (execDout _ s))
  case now => exact (timeOp_ends h : regForm.EndsOn (execNow _ s))
  case nowe => exact (timeOp_ends h : regForm.EndsOn (execNowe _ s))
  case elapsed => exact (timeOp_ends h : regForm.EndsOn (execElapsed _ s))
  case elapsedh => exact (timeOp_ends h : regForm.EndsOn (execElapsedh _ s))
  case br => exact (act_ends (flowOp_on h) : regForm.EndsOn (execBr _ _ s))
  case bz => exact (act_ends (flowOp_on h) : regForm.EndsOn (execBz _ _ s))
  case bnz => exact (act_ends (flowOp_on h) : regForm.EndsOn (execBnz _ _ s))
  case call => exact (act_ends (flowOp_on h) : regForm.EndsOn (execCall _ _ s))
  case lit => exact (comp_ends h : regForm.EndsOn (execLit _ _ s))
  case ext => exact (comp1_ends h : regForm.EndsOn (execExt _ _ s))
  case ldb => exact (act_ends (loadOp_on h) : regForm.EndsOn (execLdb _ _ _ s))
  case stb => exact (act_ends (storeOp_on h) : regForm.EndsOn (execStb _ _ _ s))
  case ldr => exact (act_ends (loadOp_on h) : regForm.EndsOn (execLdr _ _ _ s))
  case str => exact (act_ends (storeOp_on h) : regForm.EndsOn (execStr _ _ _ s))
  case strm => exact (act_ends (storeOp_on h) : regForm.EndsOn (execStrm _ _ _ s))
  case ldw => exact (act_ends (loadOp_on h) : regForm.EndsOn (execLdw _ _ _ s))
  case stw => exact (act_ends (storeOp_on h) : regForm.EndsOn (execStw _ _ _ s))
  case ldl => exact (act_ends (loadOp_on h) : regForm.EndsOn (execLdl _ _ _ s))
  case stl => exact (act_ends (storeOp_on h) : regForm.EndsOn (execStl _ _ _ s))
  case lr => exact (execLr_ends h : regForm.EndsOn (execLr _ _ _ s))
  case sc => exact (execSc_ends h : regForm.EndsOn (execSc _ _ _ s))
  case tset => exact (execTset_ends h : regForm.EndsOn (execTset _ _ _ s))
  case ldc => exact (execLdc_ends h : regForm.EndsOn (execLdc _ _ _ s))
  case storeLineWrite => exact (act_ends (lineWritten_on h) : regForm.EndsOn (execStoreLineWrite _ s))
  case reservationExpiry => exact (act_ends (resvGone_on h) : regForm.EndsOn (execReservationExpiry _ s))
  case paceReport => exact (act_ends (paceReport_on h) : regForm.EndsOn (execPaceReport _ _ s))
  case bentSelfTest => exact (act_ends (busSet_on h) : regForm.EndsOn (execBentSelfTest _ _ s))
  case selfTestDone => exact (act_ends (selfTestDone_on h) : regForm.EndsOn (execSelfTestDone _ _ s))
  case bentGateOff => exact (act_ends (bentGateOff_on h) : regForm.EndsOn (execBentGateOff _ s))
  case bentWakeComplete => exact (act_ends (bentWoken_on h) : regForm.EndsOn (execBentWakeComplete _ s))
  case cyclicRelease => exact (act_ends (cyclicRelease_on h) : regForm.EndsOn (execCyclicRelease s))
  case eventRelease => exact (act_ends (eventRelease_on h) : regForm.EndsOn (execEventRelease s))
  case pendingRelease => exact (act_ends (pendingRelease_on h) : regForm.EndsOn (execPendingRelease s))
  case preemption => exact (act_ends (preempt_on h) : regForm.EndsOn (execPreemption _ s))
  case budgetExceeded => exact (act_ends (budgetExceeded_on h) : regForm.EndsOn (execBudgetExceeded _ s))
  case deadlineMiss => exact (act_ends (deadlineMiss_on h) : regForm.EndsOn (execDeadlineMiss _ s))
  case mutualWaitDetected => exact (act_ends (mutualWaitSeen_on h) : regForm.EndsOn (execMutualWaitDetected _ s))
  case waitEvent => exact (act_ends (waitEvent_on h) : regForm.EndsOn (execWaitEvent _ s))
  case waitDeadline => exact (act_ends (waitDeadline_on h) : regForm.EndsOn (execWaitDeadline _ s))
  case releaseHoldEnd => exact (act_ends (releaseHoldEnd_on h) : regForm.EndsOn (execReleaseHoldEnd s))
  case commit => exact (act_ends (commitNext_on h) : regForm.EndsOn (execCommit _ s))
  case stagedStoreResume => exact (act_ends (stagedStore_on h) : regForm.EndsOn (execStagedStoreResume _ s))
  case poolStallLimit => exact (act_ends (poolLimit_on h) : regForm.EndsOn (execPoolStallLimit _ s))
  case sysRowUpdate => exact (act_ends (sysRowUpdate_on h) : regForm.EndsOn (execSysRowUpdate _ _ s))
  case ringEnable => exact (act_ends (busSet_on h) : regForm.EndsOn (execRingEnable _ _ s))
  case ringEnableDone => exact (act_ends (ringEnableDone_on h) : regForm.EndsOn (execRingEnableDone _ s))
  case ringDisable => exact (act_ends (busSet_on h) : regForm.EndsOn (execRingDisable _ _ s))
  case ringDisableDone => exact (act_ends (ringDisableDone_on h) : regForm.EndsOn (execRingDisableDone _ s))
  case hwRingEntry => exact (act_ends (hwRingEntry_on h) : regForm.EndsOn (execHwRingEntry _ _ s))
  case hwRingTake => exact (act_ends (hwRingTake_on h) : regForm.EndsOn (execHwRingTake _ s))
  case splLoad => exact (act_ends (lorRun_on h) : regForm.EndsOn (execSplLoad _ _ _ s))
  case splApply => exact (act_ends (lorRun_on h) : regForm.EndsOn (execSplApply _ _ s))
  case spliceApplyInstant => exact (act_ends (splApplyAt_on h) : regForm.EndsOn (execSpliceApplyInstant _ s))
  case spliceApplyTimeout => exact (act_ends (splApplyTimeout_on h) : regForm.EndsOn (execSpliceApplyTimeout _ s))
  case splConfirm => exact (act_ends (lorRun_on h) : regForm.EndsOn (execSplConfirm _ _ s))
  case splRollback => exact (act_ends (lorRun_on h) : regForm.EndsOn (execSplRollback _ _ s))
  case spliceWindowExpiry => exact (act_ends (splExpire_on h) : regForm.EndsOn (execSpliceWindowExpiry _ s))
  case spliceRollbackInstant => exact (act_ends (splRollbackAt_on h) : regForm.EndsOn (execSpliceRollbackInstant _ s))
  case spliceForcedRollback => exact (act_ends (splForce_on h) : regForm.EndsOn (execSpliceForcedRollback _ s))
  case hello => exact (act_ends (helloRx_on h) : regForm.EndsOn (execHello _ s))
  case helloSend => exact (act_ends (helloSend_on h) : regForm.EndsOn (execHelloSend s))
  case keyconf => exact (act_ends (keyConfRx_on h) : regForm.EndsOn (execKeyconf _ s))
  case heartbeatSend => exact (act_ends (heartbeatSend_on h) : regForm.EndsOn (execHeartbeatSend s))
  case heartbeat => exact (act_ends (paired_on h (fun _ h1 => heartbeatRx_on h1)) : regForm.EndsOn (execHeartbeat _ _ _ _ _ _ _ s))
  case partnerLost => exact (act_ends (partnerLost_on h) : regForm.EndsOn (execPartnerLost s))
  case takeoverComplete => exact (act_ends (takeoverDone_on h) : regForm.EndsOn (execTakeoverComplete s))
  case holdTakeover => exact (act_ends (holdTakeover_on h) : regForm.EndsOn (execHoldTakeover s))
  case digest => exact (act_ends (paired_on h (fun _ h1 => digestRx_on h1)) : regForm.EndsOn (execDigest _ _ s))
  case digestMissing => exact (act_ends (digestMissing_on h) : regForm.EndsOn (execDigestMissing s))
  case role => exact (act_ends (paired_on h (fun _ h1 => roleRx_on h1)) : regForm.EndsOn (execRole _ _ _ _ s))
  case leave => exact (act_ends (paired_on h (fun _ h1 => leaveRx_on h1)) : regForm.EndsOn (execLeave _ _ s))
  case stopcmd => exact (act_ends (paired_on h (fun _ h1 => stopCmd_on h1)) : regForm.EndsOn (execStopcmd _ _ s))
  case seqmap => exact (act_ends (paired_on h (fun _ h1 => seqmapRx_on h1)) : regForm.EndsOn (execSeqmap _ _ s))
  case splice => exact (act_ends (paired_on h (fun _ h1 => spliceRx_on h1)) : regForm.EndsOn (execSplice _ _ _ _ _ s))
  case event => exact (act_ends (paired_on h (fun _ h1 => eventRx_on h1)) : regForm.EndsOn (execEvent _ _ _ s))
  case rows => exact (act_ends (paired_on h (fun _ h1 => rowsRx_on h1)) : regForm.EndsOn (execRows _ _ s))
  case ringe => exact (act_ends (paired_on h (fun _ h1 => ringeRx_on h1)) : regForm.EndsOn (execRinge _ _ _ _ _ s))
  case xfer => exact (act_ends (paired_on h (fun _ h1 => xferRx_on h1)) : regForm.EndsOn (execXfer _ _ _ _ _ s))
  case pkg => exact (act_ends (paired_on h (fun _ h1 => splPkgRx_on h1)) : regForm.EndsOn (execPkg _ _ _ _ s))
  case xferCut => exact (act_ends (xferCut_on h) : regForm.EndsOn (execXferCut s))
  case xferShadowEntry => exact (act_ends (xferShadow_on h) : regForm.EndsOn (execXferShadowEntry s))
  case xferTimeout => exact (act_ends (xferTimeout_on h) : regForm.EndsOn (execXferTimeout s))
  case switch => exact (act_ends (busSet_on h) : regForm.EndsOn (execSwitch _ s))
  case clrsusp => exact (act_ends (busSet_on h) : regForm.EndsOn (execClrsusp _ s))
  case switchoverT => exact (act_ends (switchoverT_on h) : regForm.EndsOn (execSwitchoverT s))
  case switchoverDriversOff => exact (act_ends (switchoverDriversOff_on h) : regForm.EndsOn (execSwitchoverDriversOff s))
  case switchoverComplete => exact (act_ends (switchoverDone_on h) : regForm.EndsOn (execSwitchoverComplete s))
  case autoSwitchover => exact (act_ends (autoSwitch_on h) : regForm.EndsOn (execAutoSwitchover s))
  case claimCycle => exact (act_ends (redClaimCycle_on h) : regForm.EndsOn (execClaimCycle _ _ s))
  case inputDisagreement => exact (act_ends (inputDisagrees_on h) : regForm.EndsOn (execInputDisagreement _ s))
  case pairLinkDown => exact (act_ends (on_ite (pairLinkLost_on (linkDown_on h)) h) : regForm.EndsOn (execPairLinkDown _ s))
  case pageInDone => exact (act_ends (pageIn_on h) : regForm.EndsOn (execPageInDone _ _ _ s))
  case pageOutDone => exact (act_ends (pageOutDone_on h) : regForm.EndsOn (execPageOutDone _ _ s))
  case erase => exact (act_ends (busSet_on h) : regForm.EndsOn (execErase _ _ s))
  case eraseComplete => exact (act_ends (eraseDone_on h) : regForm.EndsOn (execEraseComplete _ s))
  case stagingFlush => exact (act_ends (stagingFlush_on h) : regForm.EndsOn (execStagingFlush _ _ _ s))
  case packageFailed => exact (act_ends (packageFailed_on h) : regForm.EndsOn (execPackageFailed _ _ s))
  case rebuildDone => exact (act_ends (rebuildDone_on h) : regForm.EndsOn (execRebuildDone s))
  case archiveWindowEnd => exact (act_ends (windowEnd_on h) : regForm.EndsOn (execArchiveWindowEnd s))
  case archiveDisable => exact (act_ends (busSet_on h) : regForm.EndsOn (execArchiveDisable _ s))
  case archiveEnable => exact (act_ends (busSet_on h) : regForm.EndsOn (execArchiveEnable _ s))
  case gooseFrame => exact (act_ends (gooseRx_on h) : regForm.EndsOn (execGooseFrame _ _ s))
  case gooseTalExpiry => exact (act_ends (gsExpire_on h) : regForm.EndsOn (execGooseTalExpiry _ s))
  case gooseRetransmit => exact (act_ends (pubRetransmit_on h) : regForm.EndsOn (execGooseRetransmit _ s))
  case svFrame => exact (act_ends (svRx_on h) : regForm.EndsOn (execSvFrame _ _ s))
  case svMissExpiry => exact (act_ends (svExpire_on h) : regForm.EndsOn (execSvMissExpiry _ s))
  case supervisionFrame => exact (act_ends (supervisionRx_on h) : regForm.EndsOn (execSupervisionFrame _ s))
  case supervisionSend => exact (act_ends (supervisionTx_on h) : regForm.EndsOn (execSupervisionSend s))
  case dupEntryAging => exact (act_ends (dupAge_on h) : regForm.EndsOn (execDupEntryAging s))
  case udpDatagram => exact (act_ends (udpRx_on h) : regForm.EndsOn (execUdpDatagram _ _ _ s))
  case udpSend => exact (act_ends (udpTake_on h) : regForm.EndsOn (execUdpSend _ _ s))
  case arpRequest => exact (act_ends (arpRequest_on h) : regForm.EndsOn (execArpRequest _ _ _ s))
  case icmpEcho => exact (act_ends (icmpEcho_on h) : regForm.EndsOn (execIcmpEcho _ _ _ _ _ s))
  case ndp => exact (act_ends (ndp_on h) : regForm.EndsOn (execNdp _ _ _ s))
  case neighbourTimeout => exact (act_ends (nbrTimeout_on h) : regForm.EndsOn (execNeighbourTimeout _ _ _ s))
  case portDisable => exact (act_ends (busSet_on h) : regForm.EndsOn (execPortDisable _ _ s))
  case portEnable => exact (act_ends (busSet_on h) : regForm.EndsOn (execPortEnable _ _ s))
  case linkDown => exact (act_ends (netLinkDown_on h) : regForm.EndsOn (execLinkDown _ s))
  case linkUp => exact (act_ends (netLinkUp_on h) : regForm.EndsOn (execLinkUp _ s))
  case open_ => exact (act_ends (lorOpen_on h) : regForm.EndsOn (execOpen _ _ _ s))
  case halfOpenTimeout => exact (act_ends (halfOpenTimeout_on h) : regForm.EndsOn (execHalfOpenTimeout _ s))
  case sessionTimeout => exact (act_ends (sessionTimeout_on h) : regForm.EndsOn (execSessionTimeout _ s))
  case heldRequestTimeout => exact (act_ends (heldTimeout_on h) : regForm.EndsOn (execHeldRequestTimeout _ s))
  case status => exact (act_ends (lorRun_on h) : regForm.EndsOn (execStatus _ s))
  case imgRead => exact (act_ends (lorRun_on h) : regForm.EndsOn (execImgRead _ _ _ _ s))
  case imgWrite => exact (act_ends (lorRun_on h) : regForm.EndsOn (execImgWrite _ _ s))
  case imgForce => exact (act_ends (lorRun_on h) : regForm.EndsOn (execImgForce _ _ s))
  case regRead => exact (act_ends (lorRun_on h) : regForm.EndsOn (execRegRead _ _ s))
  case regWrite => exact (act_ends (lorRun_on h) : regForm.EndsOn (execRegWrite _ _ s))
  case nvsRead => exact (act_ends (lorRun_on h) : regForm.EndsOn (execNvsRead _ _ _ _ _ s))
  case nvsWrite => exact (act_ends (lorRun_on h) : regForm.EndsOn (execNvsWrite _ _ _ _ _ _ s))
  case almRead => exact (act_ends (lorRun_on h) : regForm.EndsOn (execAlmRead _ _ _ s))
  case almFreeze => exact (act_ends (lorRun_on h) : regForm.EndsOn (execAlmFreeze _ _ s))
  case arcRead => exact (act_ends (lorRun_on h) : regForm.EndsOn (execArcRead _ _ _ _ _ _ s))
  case arcTrig => exact (act_ends (lorRun_on h) : regForm.EndsOn (execArcTrig _ _ _ _ s))
  case modeSet => exact (act_ends (lorRun_on h) : regForm.EndsOn (execModeSet _ _ _ _ _ s))
  case plumb => exact (act_ends (lorRun_on h) : regForm.EndsOn (execPlumb _ _ s))
  case ptpSync => exact (act_ends (ptpSync_on h) : regForm.EndsOn (execPtpSync _ _ _ _ _ _ _ _ s))
  case ptpAnnounce => exact (act_ends (ptpAnnounce_on h) : regForm.EndsOn (execPtpAnnounce _ _ _ _ _ _ s))
  case pdelayReq => exact (act_ends (pdelayReq_on h) : regForm.EndsOn (execPdelayReq _ _ _ s))
  case pdelayResp => exact (act_ends (pdelayResp_on h) : regForm.EndsOn (execPdelayResp _ _ _ _ _ _ s))
  case syncSend => exact (act_ends (syncSend_on h) : regForm.EndsOn (execSyncSend _ _ s))
  case announceTimeout => exact (act_ends (ptpTimeout_on h) : regForm.EndsOn (execAnnounceTimeout _ s))
  case holdoverDegrade => exact (act_ends (holdDegrade_on h) : regForm.EndsOn (execHoldoverDegrade s))
  case ppsEdge => exact (act_ends (ppsEdge_on h) : regForm.EndsOn (execPpsEdge _ _ s))
  case irigFrame => exact (act_ends (irigFrame_on h) : regForm.EndsOn (execIrigFrame _ _ _ _ _ _ _ _ _ _ s))
  case sourceQualified => exact (act_ends (srcQualify_on h) : regForm.EndsOn (execSourceQualified _ s))
  case timeStep => exact (act_ends (timeStep_on h) : regForm.EndsOn (execTimeStep s))
  case compareFire => exact (act_ends (compareFire_on h) : regForm.EndsOn (execCompareFire _ s))
  case compareTargetWrite => exact (act_ends (busSet_on (busSet_on h)) : regForm.EndsOn (execCompareTargetWrite _ _ _ s))
  case compareArm => exact (act_ends (busSet_on h) : regForm.EndsOn (execCompareArm _ _ _ s))
  case ppsOutput => exact (act_ends (ppsOutput_on h) : regForm.EndsOn (execPpsOutput s))
  case calendarAutoWrite => exact (act_ends (calAutoWrite_on h) : regForm.EndsOn (execCalendarAutoWrite s))
  case calendarHold => exact (act_ends (busSet_on h) : regForm.EndsOn (execCalendarHold _ _ s))
  case calendarModeChange => exact (act_ends (busSet_on h) : regForm.EndsOn (execCalendarModeChange _ s))
  case oscillatorStopped => exact (act_ends (oscStopped_on h) : regForm.EndsOn (execOscillatorStopped s))
  case canFrameReceived => exact (act_ends (canReceive_on h) : regForm.EndsOn (execCanFrameReceived _ _ _ s))
  case canFrameSent => exact (act_ends (canSent_on h) : regForm.EndsOn (execCanFrameSent _ _ _ s))
  case canTxreq => exact (act_ends (busSet_on h) : regForm.EndsOn (execCanTxreq _ _ _ s))
  case canPeriodicTx => exact (act_ends (canPeriodic_on h) : regForm.EndsOn (execCanPeriodicTx _ _ s))
  case canBusError => exact (act_ends (canError_on h) : regForm.EndsOn (execCanBusError _ _ _ _ s))
  case canRejoin => exact (act_ends (canRejoin_on h) : regForm.EndsOn (execCanRejoin _ s))
  case recover => exact (act_ends (busSet_on h) : regForm.EndsOn (execRecover _ _ s))
  case capreq => exact (act_ends (busSet_on h) : regForm.EndsOn (execCapreq _ _ s))
  case canCapture => exact (act_ends (canCaptureAll_on h) : regForm.EndsOn (execCanCapture s))
  case canModeWrite => exact (act_ends (busSet_on h) : regForm.EndsOn (execCanModeWrite _ _ _ s))
  case canDisable => exact (act_ends (busSet_on h) : regForm.EndsOn (execCanDisable _ _ s))
  case canEnable => exact (act_ends (busSet_on h) : regForm.EndsOn (execCanEnable _ _ s))
  case barrierDownlink => exact (act_ends (downlink_on h) : regForm.EndsOn (execBarrierDownlink _ s))
  case barrierUplink => exact (act_ends (uplink_on h) : regForm.EndsOn (execBarrierUplink _ _ _ _ s))
  case inputChange => exact (act_ends (inputChange_on h) : regForm.EndsOn (execInputChange _ _ _ s))
  case sillRefreshLost => exact (act_ends (sillRefreshLost_on h) : regForm.EndsOn (execSillRefreshLost s))
  case logicRefreshLost => exact (act_ends (logicRefreshLost_on h) : regForm.EndsOn (execLogicRefreshLost s))
  case groupSupplyFault => exact (act_ends (supplyFault_on h) : regForm.EndsOn (execGroupSupplyFault _ _ s))
  case groupSupplyReturn => exact (act_ends (supplyReturn_on h) : regForm.EndsOn (execGroupSupplyReturn _ _ s))
  case outputFault => exact (act_ends (outputFault_on h) : regForm.EndsOn (execOutputFault _ _ s))
  case outputRetry => exact (act_ends (outputRetry_on h) : regForm.EndsOn (execOutputRetry _ _ s))
  case complianceLost => exact (act_ends (complianceLost_on h) : regForm.EndsOn (execComplianceLost _ s))
  case complianceRestored => exact (act_ends (complianceBack_on h) : regForm.EndsOn (execComplianceRestored _ s))
  case calibrationWrite => exact (act_ends (busSet_on h) : regForm.EndsOn (execCalibrationWrite _ _ _ _ s))
  case loopSample => exact (act_ends (loopSample_on h) : regForm.EndsOn (execLoopSample s))
  case loopDisable => exact (act_ends (busSet_on h) : regForm.EndsOn (execLoopDisable _ _ s))
  case loopEnable => exact (act_ends (busSet_on h) : regForm.EndsOn (execLoopEnable _ _ s))
  case faultFiring => exact (act_ends (firing_on h) : regForm.EndsOn (execFaultFiring _ _ _ _ s))
  case historyWrite => exact (act_ends (historyWrite_on h) : regForm.EndsOn (execHistoryWrite s))
  case stormEnd => exact (act_ends (stormEnd_on h) : regForm.EndsOn (execStormEnd s))
  case sourceInactive => exact (act_ends (sourceInactive_on h) : regForm.EndsOn (execSourceInactive _ s))
  case force => exact (act_ends (busSet_on h) : regForm.EndsOn (execForce _ _ _ s))
  case clr => exact (act_ends (busSet_on h) : regForm.EndsOn (execClr _ s))
  case nowPlumb => exact (act_ends (busSet_on h) : regForm.EndsOn (execNowPlumb _ s))
  case armPlumb => exact (act_ends (busSet_on h) : regForm.EndsOn (execArmPlumb _ s))
  case cancelPlumb => exact (act_ends (busSet_on h) : regForm.EndsOn (execCancelPlumb _ s))
  case scheduledPlumb => exact (act_ends (plumbDue_on h) : regForm.EndsOn (execScheduledPlumb s))
  case wdgWindowOpen => exact (act_ends (wdgWindow_on h) : regForm.EndsOn (execWdgWindowOpen _ s))
  case wdgExpiry => exact (act_ends (wdgExpire_on h) : regForm.EndsOn (execWdgExpiry _ s))
  case serviceArm => exact (act_ends (busSet_on h) : regForm.EndsOn (execServiceArm _ _ s))
  case service => exact (act_ends (busSet_on h) : regForm.EndsOn (execService _ _ s))
  case disableArm => exact (act_ends (busSet_on h) : regForm.EndsOn (execDisableArm _ _ s))
  case wdgDisable => exact (act_ends (busSet_on h) : regForm.EndsOn (execWdgDisable _ _ s))
  case wdgPeriod => exact (act_ends (busSet_on h) : regForm.EndsOn (execWdgPeriod _ _ _ s))
  case wdgEnable => exact (act_ends (busSet_on h) : regForm.EndsOn (execWdgEnable _ _ s))
  case wdgLock => exact (act_ends (busSet_on h) : regForm.EndsOn (execWdgLock _ _ s))
  case wdgFallback => exact (act_ends (wdgFallback_on h) : regForm.EndsOn (execWdgFallback _ s))
  case wdgTimebaseReturn => exact (act_ends (wdgReturn_on h) : regForm.EndsOn (execWdgTimebaseReturn _ s))
  case nvsPsel => exact (act_ends (busSet_on h) : regForm.EndsOn (execNvsPsel _ _ _ _ s))
  case nvsPpwd => exact (act_ends (busSet_on (busSet_on h)) : regForm.EndsOn (execNvsPpwd _ _ _ s))
  case nvsPdataRead => exact (act_ends (busGet_on h) : regForm.EndsOn (execNvsPdataRead _ _ s))
  case nvsPdataWrite => exact (act_ends (busSet_on h) : regForm.EndsOn (execNvsPdataWrite _ _ _ s))
  case setrd => exact (act_ends (busSet_on h) : regForm.EndsOn (execSetrd _ _ s))
  case setwr => exact (act_ends (busSet_on h) : regForm.EndsOn (execSetwr _ _ s))
  case almanacWrite => exact (act_ends (almWrite_on h) : regForm.EndsOn (execAlmanacWrite s))
  case almanacCheckpoint => exact (act_ends (almCheckpoint_on h) : regForm.EndsOn (execAlmanacCheckpoint s))
  case mgtEngineRelease => exact (act_ends (mgtEngBoundary_on h) : regForm.EndsOn (execMgtEngineRelease s))
  case sensorSample => exact (act_ends (sensorSample_on h) : regForm.EndsOn (execSensorSample _ s))
  case bankMeasure => exact (act_ends (bankDaily_on h) : regForm.EndsOn (execBankMeasure _ s))
  case mgtLogsel => exact (act_ends (busSet_on h) : regForm.EndsOn (execMgtLogsel _ _ s))
  case go => exact (act_ends (busSet_on h) : regForm.EndsOn (execGo _ s))
  case strapRelease => exact (act_ends (strapRelease_on h) : regForm.EndsOn (execStrapRelease s))
  case registerWrite => exact (act_ends (busPut_on h) : regForm.EndsOn (execRegisterWrite _ _ _ s))
  case rcRegisterRead => exact (act_ends (busGet_on h) : regForm.EndsOn (execRcRegisterRead _ _ s))
  case rlLowRead => exact (act_ends (busGet_on h) : regForm.EndsOn (execRlLowRead _ _ s))
  case startwaitExpiry => exact (act_ends (startWaitDone_on h) : regForm.EndsOn (execStartwaitExpiry s))
  case referenceInputLost => exact (act_ends (inputLost_on h) : regForm.EndsOn (execReferenceInputLost _ s))
  case referenceInputReturn => exact (act_ends (inputReturn_on h) : regForm.EndsOn (execReferenceInputReturn s))
  case ocxoFault => exact (act_ends (ocxoFault_on h) : regForm.EndsOn (execOcxoFault s))
  case leapSecond => exact (act_ends (leapSecond_on h) : regForm.EndsOn (execLeapSecond s))
  case pdelayReqSend => exact (act_ends (pdelaySend_on h) : regForm.EndsOn (execPdelayReqSend s))
  case transceiverFault => exact (act_ends (canXcvr_on h) : regForm.EndsOn (execTransceiverFault _ s))
  case arpReply => exact (act_ends (nbrReply_on h) : regForm.EndsOn (execArpReply _ _ s))
  case arpRequestRepeat => exact (act_ends (arpRepeat_on h) : regForm.EndsOn (execArpRequestRepeat _ _ s))
  case arpCacheAging => exact (act_ends (arpAge_on h) : regForm.EndsOn (execArpCacheAging _ s))
  case duplicateAddressDetectionDone => exact (act_ends (dadDone_on h) : regForm.EndsOn (execDuplicateAddressDetectionDone _ s))
  case framePrepared => exact (act_ends (framePrepared_on h) : regForm.EndsOn (execFramePrepared s))
  case restoreFactoryDone => exact (act_ends (factDone_on h) : regForm.EndsOn (execRestoreFactoryDone s))
  case moduleSeated => exact (act_ends (moduleSeated_on h) : regForm.EndsOn (execModuleSeated s))
  case stationInputOutOfRange => exact (act_ends (inputOut_on h) : regForm.EndsOn (execStationInputOutOfRange _ s))
  case stationInputInRange => exact (act_ends (inputBack_on h) : regForm.EndsOn (execStationInputInRange _ s))
  -- left are OVER, FUN and CLOSE, whose names are keywords of Lean
  · exact (comp_ends h : regForm.EndsOn (execOver _ s))
  · exact (comp2_ends h : regForm.EndsOn (execFun _ _ s))
  · exact (act_ends (lorRun_on h) : regForm.EndsOn (execClose _ s))

end

end Sys2Proof.Machine.RegProp
end

section
open Sys2Proof Sys2Proof.Machine Sys2Proof.Machine.State Sys2Proof.Machine.RegProp

/-- Settles O60: what follows at once from a command's effect included, every change of a register is a write (`exec_ends`, from one lemma for each
operation), a plumb or a loss of supply, and the queue only loses its front command. -/
theorem stepsKeepRegistersAndQueueInForm : Obligations.StepsKeepRegistersAndQueueInForm := by
  unfold Obligations.StepsKeepRegistersAndQueueInForm stepKeeps
  refine ⟨fun s t e h => ?_, fun s t e h => ?_⟩
  · unfold step at e
    split at e
    next =>
      injection e with e
      exact e ▸ h
    next c rest _ => exact exec_ends (s := { s with pending := rest }) h c t e
  · unfold step at e
    split at e
    next =>
      injection e with e
      exact e ▸ h
    next c rest hp =>
      have h : s.queueWf = true := h
      unfold queueWf at h ⊢
      rw [hp, List.all_cons, Bool.and_eq_true] at h
      rw [exec_pending e]
      exact h.2
end

section
/-! SUPPORT. Field I/O and the loops: what the frames of the barrier leave alone, and O57, which says what the commands of chapters 17 and 18 do. -/
namespace Sys2Proof.Machine.State

/-! ### The barrier's registers -/

/-- The field I/O state is `f`: a property of a state that every register write keeps. -/
def fioIs (f : Fio) : RegProp where
  holds _ x := x = f
  write _ _ h := h

/-- What an uplink frame leaves to its own words: the changes queued, the pair measured, the frames missed and the compliance read. -/
def upView (x : Fio) : List FioChg × Nat × Nat × Bool × Nat := (x.queue, x.pair, x.upMiss, x.upSeen, x.complUp)

/-- The view of an uplink frame is `v`. -/
def upIs (v : List FioChg × Nat × Nat × Bool × Nat) : RegProp where
  holds _ x := upView x = v
  write _ _ h := h

@[simp] theorem drivenRegs_fio (s : State) : s.drivenRegs.fio = s.fio := RegProp.drivenRegs_on (p := fioIs s.fio) rfl

@[simp] theorem linkReg_fio (s : State) : s.linkReg.fio = s.fio := setBit_fio _ _ _ _

@[simp] theorem linkReg_now (s : State) : s.linkReg.now = s.now := setBit_now _ _ _ _

@[simp] theorem fioCrc_fio (s : State) : s.fioCrc.fio = s.fio := RegProp.fioCrc_on (p := fioIs s.fio) rfl

@[simp] theorem fioCrc_now (s : State) : s.fioCrc.now = s.now := by
  unfold fioCrc
  rw [raise_now, setBit_now, bump_now]

@[simp] theorem setFio_now (s : State) (f : Fio) : (s.setFio f).now = s.now := rfl

@[simp] theorem setFio_fio (s : State) (f : Fio) : (s.setFio f).fio = f := rfl

@[simp] theorem rd_setFio (s : State) (f : Fio) (a : Nat) : (s.setFio f).rd a = s.rd a := rfl

theorem forEach_now {α : Type} {f : State → α → State} (h : ∀ s x, (f s x).now = s.now) (l : List α) (s : State) : (forEach l f s).now = s.now :=
  forEach_keeps f (·.now) h l s

theorem forEach_fio {α : Type} {f : State → α → State} (h : ∀ s x, (f s x).fio = s.fio) (l : List α) (s : State) : (forEach l f s).fio = s.fio :=
  forEach_keeps f (·.fio) h l s

@[simp] theorem drivenRegs_now (s : State) : s.drivenRegs.now = s.now := by
  unfold drivenRegs
  extract_lets f ord s1 s2 s3
  have h1 : s1.now = s.now := forEach_now (fun s x => by split <;> simp) _ _
  have h2 : s2.now = s1.now := forEach_now (fun s x => setBit_now _ _ _ _) _ _
  have h3 : s3.now = s2.now := by
    show ((s2.setBit _ 6 _).setBit _ 7 _).now = _
    rw [setBit_now, setBit_now]
  split
  · rw [setBit_now, setBit_now, h3, h2, h1]
  · rw [h3, h2, h1]

theorem dCommanded_now (s : State) (k : Nat) (new : Bool) : (s.dCommanded k new).now = s.now := by
  unfold dCommanded
  split
  · rfl
  · rw [wr64_now, bump_now, setBit_now, setBit_now]

theorem dCommanded_fio (s : State) (k : Nat) (new : Bool) : (s.dCommanded k new).fio = s.fio := RegProp.dCommanded_on (p := fioIs s.fio) rfl

/-! ### Downlink frames -/

theorem lt_nextMultiple {p : Nat} (t : Nat) (hp : 0 < p) : t < nextMultiple p t := by
  unfold nextMultiple
  rw [Nat.mul_comm]
  exact Nat.lt_mul_div_succ t hp

/-- A downlink frame departs at the next multiple of 8 µs with the next sequence number; one that arrives resets the sill's count of missed frames,
another is counted missed (R404, R409, R411). -/
theorem downlinkNow_frame (s : State) (kind : Nat) : (s.downlinkNow kind).now = nextMultiple (us 8) s.now ∧
    (s.downlinkNow kind).fio.seq = (s.fio.seq + 1) % 256 ∧ (s.downlinkNow kind).fio.cfgIdx = (s.fio.cfgIdx + 1) % 64 ∧
    (kind = 0 → (s.downlinkNow kind).fio.downMiss = 0 ∧ (s.downlinkNow kind).fio.sillSeen = true ∧ (s.downlinkNow kind).fio.sillLost = false ∧
      (s.downlinkNow kind).fio.lastDown = (s.downlinkNow kind).now ∧ (s.downlinkNow kind).fio.sp5 = true) ∧
    (kind ≠ 0 → (s.downlinkNow kind).fio.downMiss = s.fio.downMiss + 1) := by
  have ht : max s.now (nextMultiple (us 8) s.now) = nextMultiple (us 8) s.now := Nat.max_eq_right (Nat.le_of_lt (lt_nextMultiple _ (by decide)))
  unfold downlinkNow
  extract_lets s1 s2 s3 cmd codes en claim idx s4 f0 f1 f2 okAll f3 s5 s6 s7
  have hn2 : s2.now = s1.now := forEach_now (fun s p => by split <;> [exact dCommanded_now _ _ _; rfl]) _ _
  have hf2 : s2.fio = s1.fio := forEach_fio (fun s p => by split <;> [exact dCommanded_fio _ _ _; rfl]) _ _
  have hn3 : s3.now = s2.now := forEach_now (fun s p => by split; split <;> [exact setBit_now _ _ _ _; rfl]) _ _
  have hf3 : s3.fio = s2.fio := forEach_fio (fun s p => by split; split <;> [exact setBit_fio _ _ _ _; rfl]) _ _
  have hnow : s4.now = nextMultiple (us 8) s.now := (hn3.trans hn2).trans ht
  have hfio : s4.fio = s.fio := hf3.trans hf2
  have hf : f2.seq = (s.fio.seq + 1) % 256 ∧ f2.cfgIdx = (s.fio.cfgIdx + 1) % 64 ∧ f2.downMiss = s.fio.downMiss := by
    rw [← hfio]
    unfold f2
    split <;> exact ⟨rfl, rfl, rfl⟩
  clear_value s4 f2
  obtain ⟨hseq, hcfg, hmiss⟩ := hf
  by_cases hk : kind = 0
  · have hs : ∀ u, u = s5 ∨ u = s5.setBit Reg.FIO_STAT 0 true → u.now = s4.now ∧ u.fio = f3 := by
      rintro u (rfl | rfl)
      · exact ⟨by rw [drivenRegs_now, linkReg_now, setFio_now], by rw [drivenRegs_fio, linkReg_fio, setFio_fio]⟩
      · exact ⟨by rw [setBit_now, drivenRegs_now, linkReg_now, setFio_now], by rw [setBit_fio, drivenRegs_fio, linkReg_fio, setFio_fio]⟩
    rw [if_pos hk]
    obtain ⟨hun, huf⟩ := hs (if idx = 63 ∧ okAll = true then s5.setBit Reg.FIO_STAT 0 true else s5) (by split <;> [exact .inr rfl; exact .inl rfl])
    rw [hun, huf]
    exact ⟨hnow, hseq, hcfg, fun _ => ⟨rfl, rfl, rfl, rfl, rfl⟩, fun h => absurd hk h⟩
  · have h7 : s7.now = s4.now ∧ s7.fio = { f2 with downMiss := f2.downMiss + 1, cfgOk := false } := by
      unfold s7
      split
      · rw [fioCrc_now, fioCrc_fio, bump_now, bump_fio]
        exact ⟨rfl, rfl⟩
      · rw [bump_now, bump_fio]
        exact ⟨rfl, rfl⟩
    rw [if_neg hk, linkReg_now, linkReg_fio, h7.1, h7.2]
    exact ⟨hnow, hseq, hcfg, fun h => absurd h hk, fun _ => congrArg (· + 1) hmiss⟩

theorem downlink_off {s : State} {kind : Nat} (h : s.fioOn = false) : s.downlink kind = s := if_neg (by rw [h]; exact Bool.false_ne_true)

theorem downlink_on {s : State} {kind : Nat} (h : s.fioOn = true) : s.downlink kind = s.downlinkNow kind := if_pos h

/-! ### Uplink frames -/

theorem uplink_off {s : State} {kind term codeA codeB : Nat} (h : s.fioOn = false ∨ s.fio.inRange = 0) : s.uplink kind term codeA codeB = s := by
  refine if_pos ?_
  rcases h with h | h <;> simp [h]

section
variable {v : List FioChg × Nat × Nat × Bool × Nat} {s : State} (h : (upIs v).On s)
include h

theorem setInst_up (n : Nat) : (upIs v).On (s.setFio { s.fio with inst := n }) := h

theorem setFresh_up (l : List Nat) : (upIs v).On (s.setFio { s.fio with fresh := l }) := h

theorem installInputs_up (chs : List (Nat × Bool)) (stamp : Nat) : (upIs v).On (s.installInputs chs stamp) :=
  setInst_up (RegProp.forEach_on (fun _ _ h2 => RegProp.setBit_on h2) (RegProp.forEach_on (fun _ _ h1 => RegProp.sourceWrite_on h1) h)) _

theorem installChanges_up (fuel : Nat) (l : List FioChg) : (upIs v).On (s.installChanges fuel l) := by
  induction fuel generalizing s l with
  | zero => exact h
  | succ fuel ih =>
    unfold installChanges
    split
    · exact h
    · exact ih (installInputs_up h _ _) _

theorem fioResync_up (stamp : Nat) (resync : Bool) : (upIs v).On (s.fioResync stamp resync) := by
  unfold fioResync
  extract_lets f diff s1
  have h1 : (upIs v).On s1 := installInputs_up h _ _
  refine RegProp.forEach_on (fun _ _ h2 => ?_) h1
  exact RegProp.on_if (RegProp.fioRecord_on (RegProp.dChanged_on h2)) fun h3 => RegProp.raise_on (RegProp.setBit_on (RegProp.bump_on h3))

end

/-- An uplink frame takes the changes that are ready, at most eight, with it and measures the next pair; one that arrives resets the count of missed
frames, another is counted missed and asks for a resynchronisation (R409, R411). -/
theorem uplink_frame {s : State} (kind term codeA codeB : Nat) (hon : s.fioOn = true) (hr : s.fio.inRange ≠ 0) :
    let latch := max s.now (nextMultiple (us 8) (s.now + us 4) - us 4)
    let ready := (s.fio.queue.filter (fun c => decide (c.stamp ≤ latch))).take 8
    let t := s.uplink kind term codeA codeB
    t.fio.queue = s.fio.queue.filter (fun c => !ready.contains c) ∧ t.fio.pair = (s.fio.pair + 1) % 8 ∧
      (kind = 0 → t.fio.upMiss = 0 ∧ t.fio.upSeen = true ∧ t.fio.complUp = s.fio.compl) ∧
      (kind ≠ 0 → t.fio.upMiss = s.fio.upMiss + 1 ∧ t.fio.resync = true) := by
  intro latch ready t
  have hc : ¬ (!s.fioOn || s.fio.inRange == 0) = true := by
    rw [hon]
    simpa using hr
  unfold t uplink
  rw [if_neg hc]
  extract_lets s1 latch1 f ready1 f1 s2 s3 s4 s5 s6 s7 s8 s9 s10 s11 k chg s12 s13
  have h2 : (if kind = 1 then s2.fioCrc else s2).linkReg.fio = s2.fio := by
    rw [linkReg_fio]
    split
    · exact fioCrc_fio _
    · rfl
  have h2f : s2.fio = { f1 with upMiss := f.upMiss + 1, resync := true } := bump_fio _ _ _
  have h3 : (upIs (upView s3.fio)).On s3 := rfl
  have h5 : (upIs (upView s3.fio)).On s5 :=
    RegProp.forEach_on (fun _ _ h => RegProp.fioRecord_on (RegProp.dChanged_on (RegProp.bump64_on h))) (installChanges_up h3 _ _)
  have h8 : (upIs (upView s3.fio)).On s8 := setFresh_up (fioResync_up h5 _ _) _
  have h11 : (upIs (upView s3.fio)).On s11 :=
    RegProp.forEach_on (fun _ _ h => RegProp.setBit_on h) (RegProp.setFld_on (RegProp.setFld_on (RegProp.setFld_on h8)))
  have h12 : (upIs (upView s3.fio)).On s12 := RegProp.forEach_on (fun _ _ h => RegProp.on_ite (RegProp.wr_on h) h) h11
  have h13 : (upIs (upView s3.fio)).On s13 := RegProp.forEach_on (fun _ _ h => RegProp.readback_on h) h12
  have hv : upView s13.linkReg.drivenRegs.fio = upView s3.fio := RegProp.drivenRegs_on (RegProp.linkReg_on h13)
  clear_value s2 s13
  by_cases hk : kind = 0
  · rw [if_neg (not_not_intro hk)]
    simp only [upView, Prod.mk.injEq] at hv
    obtain ⟨hq, hp, hm, hs, hcu⟩ := hv
    exact ⟨hq, hp, fun _ => ⟨hm, hs, hcu⟩, fun h => absurd hk h⟩
  · rw [if_pos hk, h2, h2f]
    exact ⟨rfl, rfl, fun h => absurd h hk, fun _ => ⟨rfl, rfl⟩⟩

/-! ### Changes of the inputs -/

/-- The stamp of a change while the sill hears the logic side: whole microseconds of sill time (R410). -/
theorem sillStamp_fresh {s : State} (h1 : s.fio.sillSeen = true) (h2 : s.fio.downMiss < 3) (h3 : s.fio.sillLost = false) :
    s.sillStamp = ((s.now + us 1 - 1) / us 1 * us 1, false, s) := by
  unfold sillStamp
  rw [if_neg (by simp [h1]), if_pos ⟨h2, by simp [h3]⟩]

theorem inputChange_unknown {s : State} {k t : Nat} {new : Bool} (h : s.cfg.dch.find? k = none) : s.inputChange k new t = s := by
  unfold inputChange
  rw [h]

theorem inputChange_still {s : State} {k t : Nat} {new : Bool} {d : DRec} (hd : s.cfg.dch.find? k = some d)
    (h : d.out = true ∨ s.groupOk (dGroup k) = false ∨ bit s.fio.filt k = new) : s.inputChange k new t = s := by
  unfold inputChange
  rw [hd]
  refine if_pos ?_
  rcases h with h | h | h <;> simp [h]

/-- A change with its stamp: queued, or lost when 64 wait (R401, R409). -/
theorem inputChange_stamped {s u : State} {k t w : Nat} {new free : Bool} {d : DRec} (hd : s.cfg.dch.find? k = some d) (hout : d.out = false)
    (hg : s.groupOk (dGroup k) = true) (hb : bit s.fio.filt k ≠ new) (hs : (s.advance t).sillStamp = (w, free, u)) :
    let f := { u.fio with filt := putBits u.fio.filt k 1 (b2n new) }
    let c : FioChg := { ch := k, st := new, stamp := w, lost := u.fio.lostNext, notInStep := free }
    (u.fio.queue.length < 64 → s.inputChange k new t = u.setFio { f with queue := u.fio.queue ++ [c], lostNext := false }) ∧
    (64 ≤ u.fio.queue.length → s.inputChange k new t =
      (((u.setFio { f with lostNext := true }).bump Reg.FIO_EVTLOST 1).setBit Reg.FIO_STAT 18 true).raise 1113 0xFFFF k) := by
  intro f c
  have hc : ¬ (d.out || !s.groupOk (dGroup k) || bit s.fio.filt k == new) = true := by simp [hout, hg, hb]
  unfold inputChange
  rw [hd]
  dsimp only
  rw [if_neg hc, hs]
  exact ⟨fun hl => if_pos hl, fun hl => if_neg (Nat.not_lt.2 hl)⟩

/-! ### Lost refreshes -/

/-- One group section of an uplink: when its refresh is lost, the flag of its group reads 1. -/
def upLost (g : Nat) (s : State) : Prop := (3 ≤ s.fio.upMiss ∨ bit s.fio.reporting g = false) → s.fld Reg.FIO_STAT (2 + g) 1 = 1

theorem upLost_iff (g : Nat) (s : State) :
    upLost g s ↔ ((3 ≤ s.fio.upMiss ∨ bit s.fio.reporting g = false) → (s.rd Reg.FIO_STAT).testBit (2 + g) = true) := by
  unfold upLost
  rw [← fld_one_beq, beq_iff_eq]

/-- What the logic side does about one group section. -/
def groupLost (s : State) (g : Nat) : State :=
  if (3 ≤ s.fio.upMiss ∨ !bit s.fio.reporting g) ∧ s.fld Reg.FIO_STAT (2 + g) 1 = 0 then
    let s := (s.setBit Reg.FIO_STAT (2 + g) true).setBit Reg.FIO_STAT 17 true
    let s := if bit s.fio.reporting g then s else s.setFio { s.fio with fresh := g :: s.fio.fresh.filter (· != g) }
    (s.bump Reg.FIO_RLOSTCNT 1).raise (1024 + g) 0xFFFF g
  else s

/-- A group's refresh is lost and its flag reads 0. -/
def groupDue (s : State) (g : Nat) : Prop := (3 ≤ s.fio.upMiss ∨ !bit s.fio.reporting g) ∧ s.fld Reg.FIO_STAT (2 + g) 1 = 0

theorem groupLost_not {s : State} {g : Nat} (h : ¬ s.groupDue g) : s.groupLost g = s := if_neg h

/-- A turn that finds the refresh lost sets two flags and counts; nothing else of FIO_STAT changes. -/
theorem groupLost_due {s : State} {g : Nat} (h : s.groupDue g) :
    ((s.groupLost g).fio.upMiss, (s.groupLost g).fio.reporting) = (s.fio.upMiss, s.fio.reporting) ∧
    (s.groupLost g).rd Reg.FIO_STAT = ((s.setBit Reg.FIO_STAT (2 + g) true).setBit Reg.FIO_STAT 17 true).rd Reg.FIO_STAT := by
  unfold groupDue at h
  unfold groupLost
  rw [if_pos h]
  extract_lets s1 x s2
  have h0 : s1 = (s.setBit Reg.FIO_STAT (2 + g) true).setBit Reg.FIO_STAT 17 true := rfl
  have h1 : s1.fio = s.fio := (setBit_fio _ _ _ _).trans (setBit_fio _ _ _ _)
  clear_value s1
  have h2 : (s2.fio.upMiss, s2.fio.reporting) = (s1.fio.upMiss, s1.fio.reporting) ∧ s2.rd Reg.FIO_STAT = s1.rd Reg.FIO_STAT := by
    unfold s2
    split
    · exact ⟨rfl, rfl⟩
    · rw [setFio_fio, rd_setFio]
      exact ⟨rfl, rfl⟩
  have h3 : ((s2.bump Reg.FIO_RLOSTCNT 1).raise (1024 + g) 0xFFFF g).rd Reg.FIO_STAT = s2.rd Reg.FIO_STAT :=
    rd_wr_other s2 (a := Reg.FIO_RLOSTCNT) _ (by decide)
  rw [raise_fio, bump_fio, h2.1, h1, h3, h2.2, h0]
  exact ⟨rfl, rfl⟩

theorem groupLost_view (s : State) (g : Nat) : ((s.groupLost g).fio.upMiss, (s.groupLost g).fio.reporting) = (s.fio.upMiss, s.fio.reporting) := by
  by_cases h : s.groupDue g
  · exact (groupLost_due h).1
  · rw [groupLost_not h]

/-- A group's turn keeps the flags of the four groups that are set. -/
theorem groupLost_keeps (s : State) {g x : Nat} (hg : g < 4) (h : (s.rd Reg.FIO_STAT).testBit (2 + g) = true) :
    ((s.groupLost x).rd Reg.FIO_STAT).testBit (2 + g) = true := by
  by_cases hd : s.groupDue x
  · rw [(groupLost_due hd).2, testBit_rd_setBit_other _ _ _ _ (by omega) (by omega)]
    by_cases hx : x = g
    · subst hx
      exact testBit_rd_setBit_same _ _ _ (by omega)
    · rwa [testBit_rd_setBit_other _ _ _ _ (by omega) (by omega)]
  · rwa [groupLost_not hd]

/-- After a group's turn its flag reads 1 where its refresh is lost. -/
theorem groupLost_sets (s : State) {g : Nat} (hg : g < 4) : upLost g (s.groupLost g) := by
  rw [upLost_iff]
  intro hl
  obtain ⟨hm, hr⟩ := Prod.mk.inj (groupLost_view s g)
  rw [hm, hr] at hl
  by_cases h1 : (s.rd Reg.FIO_STAT).testBit (2 + g) = true
  · exact groupLost_keeps s hg h1
  · have h0 : s.fld Reg.FIO_STAT (2 + g) 1 = 0 := by
      rw [← fld_one_beq, beq_iff_eq] at h1
      have : s.fld Reg.FIO_STAT (2 + g) 1 < 2 := Nat.mod_lt _ (by decide)
      omega
    have hd : s.groupDue g := ⟨hl.imp id fun h => by rw [h]; rfl, h0⟩
    rw [(groupLost_due hd).2, testBit_rd_setBit_other _ _ _ _ (by omega) (by omega)]
    exact testBit_rd_setBit_same _ _ _ (by omega)

/-- After the turns of all groups every group whose refresh is lost has its flag (R411). -/
theorem logicRefreshLost_flags {s : State} (hon : s.fioOn = true) (hs : s.fio.upSeen = true) {g : Nat} (hg : g < 4)
    (hl : 3 ≤ s.fio.upMiss ∨ bit s.fio.reporting g = false) : s.logicRefreshLost.fld Reg.FIO_STAT (2 + g) 1 = 1 := by
  have e : s.logicRefreshLost = forEach [0, 1, 2, 3] groupLost s := if_neg (by simp [hon, hs])
  have hv : ((forEach [0, 1, 2, 3] groupLost s).fio.upMiss, (forEach [0, 1, 2, 3] groupLost s).fio.reporting) = (s.fio.upMiss, s.fio.reporting) :=
    forEach_keeps groupLost (fun s => (s.fio.upMiss, s.fio.reporting)) groupLost_view _ _
  have hb : upLost g (forEach [0, 1, 2, 3] groupLost s) := by
    refine forEach_brings groupLost (upLost g) (fun s => groupLost_sets s hg) (fun s x h => ?_) (a := g) ?_ s
    · rw [upLost_iff] at h ⊢
      obtain ⟨hm, hr⟩ := Prod.mk.inj (groupLost_view s x)
      rw [hm, hr]
      exact fun hl => groupLost_keeps s hg (h hl)
    · simp only [List.mem_cons, List.not_mem_nil]
      omega
  obtain ⟨hm, hr⟩ := Prod.mk.inj hv
  rw [e]
  exact hb (by rwa [hm, hr])

theorem sillRefreshLost_still {s : State} (h : s.fio.sillSeen = false ∨ s.fio.sillLost = true) : s.sillRefreshLost = s := by
  refine if_neg ?_
  rcases h with h | h <;> simp [h]

/-- The sill has missed three frames: it holds its ordinary outputs, claims 0 and opens SP5 (R411, R259). -/
theorem sillRefreshLost_lost {s : State} (h1 : s.fio.sillSeen = true) (h2 : s.fio.sillLost = false) (h3 : s.fioOn = false ∨ 3 ≤ s.fio.downMiss) :
    s.sillRefreshLost = ((s.advance (s.fio.lastDown + us 24)).setFio
      { s.fio with sillLost := true, sillClaim := 0, sp5 := false, downMiss := max 3 s.fio.downMiss }).linkReg.drivenRegs := by
  unfold sillRefreshLost
  rw [if_pos (by simp [h1, h2])]
  extract_lets t s1 x y
  have e : s1 = s.advance t := by
    unfold s1
    rcases h3 with h3 | h3
    · rw [if_neg (by simp [h3])]
    · rw [if_neg (Nat.not_lt.2 h3)]
      split <;> rfl
  clear_value s1
  subst e
  rw [if_neg]
  · rfl
  · rcases h3 with h3 | h3
    · have : (s.advance t).fioOn = false := h3
      simp [this]
    · have hm : decide ((s.advance t).fio.downMiss < 3) = false := decide_eq_false (Nat.not_lt.2 h3)
      rw [hm, Bool.and_false]
      exact Bool.false_ne_true

theorem logicRefreshLost_still {s : State} (h : s.fioOn = false ∨ s.fio.upSeen = false) : s.logicRefreshLost = s := by
  refine if_pos ?_
  rcases h with h | h <;> simp [h]

/-! ### Group supplies -/

theorem supplyFault_of {s : State} {g volt : Nat} (hg : g < 4) : let u := s.wr (Reg.FIO_GVOLT g) (volt % 1024)
    (s.groupOk g = false → s.supplyFault g volt = u) ∧
    (s.groupOk g = true →
      let f := { s.fio with inRange := putBits s.fio.inRange g 1 0, reporting := putBits s.fio.reporting g 1 0 }
      let v := forEach [4 * g, 4 * g + 1, 4 * g + 2, 4 * g + 3] (fun s k => s.complLost k) ((u.setFio f).raise (1028 + g) 0xFFFF g)
      s.supplyFault g volt = (if f.inRange = 0 then v.sillOff else v).linkReg.drivenRegs) := by
  have hu : (s.wr (Reg.FIO_GVOLT g) (volt % 1024)).groupOk g = s.groupOk g := rfl
  unfold supplyFault
  rw [if_neg (Nat.not_le.2 hg)]
  dsimp only
  rw [hu, wr_fio]
  exact ⟨fun h => if_pos (by rw [h]; rfl), fun h => if_neg (by rw [h]; exact Bool.false_ne_true)⟩

theorem supplyReturn_of {s : State} {g volt : Nat} (hg : g < 4) : let u := s.wr (Reg.FIO_GVOLT g) (volt % 1024)
    (s.groupOk g = true → s.supplyReturn g volt = u) ∧
    (s.groupOk g = false →
      let f := { s.fio with inRange := putBits s.fio.inRange g 1 1, reporting := putBits s.fio.reporting g 1 1 }
      s.supplyReturn g volt =
        (u.setFio { f with filt := putBits s.fio.filt (16 * g) 16 0, fresh := g :: s.fio.fresh.filter (· != g) }).drivenRegs) := by
  have hu : (s.wr (Reg.FIO_GVOLT g) (volt % 1024)).groupOk g = s.groupOk g := rfl
  unfold supplyReturn
  rw [if_neg (Nat.not_le.2 hg)]
  dsimp only
  rw [hu, wr_fio]
  exact ⟨fun h => if_pos h, fun h => if_neg (by rw [h]; exact Bool.false_ne_true)⟩

/-! ### Outputs -/

theorem outputFault_still {s : State} {k kind : Nat} {d : DRec} (hd : s.cfg.dch.find? k = some d)
    (h : d.out = false ∨ s.fld (Reg.FIO_DSTAT k) 2 1 = 0) : s.outputFault k kind = s := by
  unfold outputFault
  rw [hd]
  refine if_pos ?_
  rcases h with h | h <;> simp [h]

theorem outputFault_of {s : State} {k kind : Nat} {d : DRec} (hd : s.cfg.dch.find? k = some d) (ho : d.out = true)
    (hf : s.fld (Reg.FIO_DSTAT k) 2 1 = 1) :
    (kind = 0 → let u := (s.setBit (Reg.FIO_DSTAT k) 3 true).setBit (Reg.FIO_DSTAT k) 17 true
      s.outputFault k kind = (u.setFio { u.fio with limitAt := u.fio.limitAt.insert k (u.mono + msec 10) }).raise (1048 + k) 0xFFFF k) ∧
    (kind ≠ 0 → s.outputFault k kind = (s.setBit (Reg.FIO_DSTAT k) 18 true).raise (1048 + k) 0xFFFF k) := by
  unfold outputFault
  rw [hd]
  dsimp only
  rw [if_neg (by simp [ho, hf])]
  exact ⟨fun h => if_pos h, fun h => if_neg h⟩

theorem outputRetry_of {s : State} {k t : Nat} (h : s.fio.limitAt.find? k = some t) : let u := s.advanceMono t
    s.outputRetry k true = u.setFio { u.fio with limitAt := u.fio.limitAt.insert k (u.mono + msec 10) } ∧
    s.outputRetry k false = (u.setFio { u.fio with limitAt := u.fio.limitAt.erase k }).setBit (Reg.FIO_DSTAT k) 3 false := by
  unfold outputRetry
  rw [h]
  exact ⟨rfl, rfl⟩

/-! ### Compliance -/

theorem complianceLost_still {s : State} {k : Nat} (h : s.rd (Reg.FIO_ASET k) < 2000 ∨ s.fio.driven = false) : s.complianceLost k = s := by
  refine if_neg fun hc => ?_
  rcases h with h | h
  · exact absurd hc.1 (Nat.not_le.2 h)
  · rw [h] at hc
    exact Bool.false_ne_true hc.2

theorem complianceLost_of {s : State} {k : Nat} (h1 : 2000 ≤ s.rd (Reg.FIO_ASET k)) (h2 : s.fio.driven = true)
    (h3 : (s.cfg.ach.find? k).isSome = true) (h4 : bit s.fio.compl k = false) :
    let u := s.setFio { s.fio with compl := putBits s.fio.compl k 1 1 }
    s.complianceLost k = (((u.setBit (Reg.FIO_ASTAT k) 0 true).setBit (Reg.FIO_ASTAT k) 16 true).bump (Reg.FIO_ACOMPL k) 1).raise
      (1032 + k) 0xFFFF k := by
  have h5 : (s.cfg.ach.find? k).isNone = false := by
    rw [← Option.not_isSome, h3]
    rfl
  unfold complianceLost complLost
  rw [if_pos ⟨h1, h2⟩]
  exact if_neg (by rw [h5, h4]; exact Bool.false_ne_true)

theorem complianceBack_of {s : State} {k : Nat} (h1 : bit s.fio.compl k = true) (h2 : s.groupOk (aGroup k) = true) :
    s.complianceBack k = (s.setFio { s.fio with compl := putBits s.fio.compl k 1 0 }).setBit (Reg.FIO_ASTAT k) 0 false :=
  if_pos (by rw [h1, h2]; rfl)

/-! ### Calibration -/

theorem calOk_false {s : State} {o0 : Bool} (h : o0 = false ∨ (s.ms.mode ≠ .stop ∧ s.ms.mode ≠ .test)) : s.calOk o0 = false := by
  unfold calOk
  rcases h with h | ⟨h1, h2⟩
  · rw [h, Bool.false_and]
  · simp [h1, h2]

theorem dthrWrite_refused {s : State} {k v : Nat} {o0 : Bool} (h : s.calOk o0 = false) : s.dthrWrite k v o0 = s.setBit Reg.FIO_STAT 19 true := by
  unfold dthrWrite
  exact if_neg (by rw [h, Bool.false_and]; exact Bool.false_ne_true)

theorem trimWrite_refused {s : State} {k v : Nat} {gain o0 : Bool} (h : s.calOk o0 = false) :
    s.trimWrite k v gain o0 = s.setBit Reg.FIO_STAT 19 true := by
  unfold trimWrite
  exact if_neg (by simp [h])

theorem trimWrite_wide {s : State} {k v : Nat} {gain o0 : Bool} (h : 3000 < (signed 16 v).natAbs) :
    s.trimWrite k v gain o0 = s.setBit Reg.FIO_STAT 19 true := by
  have hl : ∀ l : Int, l = 3000 ∨ l = 400 → ¬ (-l ≤ signed 16 v ∧ signed 16 v ≤ l) := by omega
  have hg : (if gain = true then (3000 : Int) else 400) = 3000 ∨ (if gain = true then (3000 : Int) else 400) = 400 := by
    cases gain
    · exact .inr rfl
    · exact .inl rfl
  unfold trimWrite
  refine if_neg fun hc => hl _ hg ?_
  simp only [Bool.and_eq_true, decide_eq_true_eq] at hc
  exact ⟨hc.1.1.2, hc.1.2⟩

/-! ### Loops -/

/-- What a sample instant does to one loop once its pending output is committed (R430, R432). -/
def loopTurn (s : State) (i t : Nat) : State :=
  if s.fld (Reg.LOP_STAT i) 9 1 = 1 then (if s.loopRuns i then s.loopDrained i else s.bump (Reg.LOP_MISSED i) 1)
  else if s.fld (Reg.LOP_STAT i) 8 1 = 0 then s
  else if s.loopRuns i then s.loopCompute i t
  else s.bump (Reg.LOP_MISSED i) 1

theorem loopSample_none {s : State} (h : s.loopsTimed = []) : s.loopSample = s := by
  unfold loopSample
  rw [h]

/-- One loop with a sample instant. -/
theorem loopSample_one {s : State} {i t : Nat} (h : s.loopsTimed = [(i, t)]) : let v := s.advance t
    let u := v.setLoop i { v.loop i with next := some (v.loopNext i t) }
    s.loopSample = (if u.loopRuns i then u.loopOut i else u).loopTurn i t := by
  intro v u
  have hv : (s.advance t).loopsTimed = [(i, t)] := h
  have hf : (([(i, t)] : List (Nat × Nat)).filter fun p => p.2 == t).map (·.1) = [i] := by simp
  unfold loopSample
  rw [h]
  dsimp only [List.foldl]
  rw [hv, hf, forEach_one, forEach_one, forEach_one]
  rfl

/-- ENABLED (bit 8) and DRAINING (bit 9) are the two bits of one field. -/
theorem fld_loop_bits (s : State) (a : Nat) : s.fld a 8 1 = s.fld a 8 2 % 2 ∧ s.fld a 9 1 = s.fld a 8 2 / 2 := by
  unfold fld bits
  simp only [Nat.shiftRight_eq_div_pow]
  omega

theorem loopTurn_idle {s : State} {i t : Nat} (h : s.fld (Reg.LOP_STAT i) 8 2 = 0) : s.loopTurn i t = s := by
  obtain ⟨h8, h9⟩ := fld_loop_bits s (Reg.LOP_STAT i)
  unfold loopTurn
  rw [if_neg (by omega), if_pos (by omega)]

theorem loopTurn_missed {s : State} {i t : Nat} (h : s.fld (Reg.LOP_STAT i) 8 2 = 1) (hr : s.loopRuns i = false) :
    s.loopTurn i t = s.bump (Reg.LOP_MISSED i) 1 := by
  obtain ⟨h8, h9⟩ := fld_loop_bits s (Reg.LOP_STAT i)
  unfold loopTurn
  rw [if_neg (by omega), if_neg (by omega), if_neg (by rw [hr]; exact Bool.false_ne_true)]

theorem loopTurn_computes {s : State} {i t : Nat} (h : s.fld (Reg.LOP_STAT i) 8 2 = 1) (hr : s.loopRuns i = true) :
    s.loopTurn i t = s.loopCompute i t := by
  obtain ⟨h8, h9⟩ := fld_loop_bits s (Reg.LOP_STAT i)
  unfold loopTurn
  rw [if_neg (by omega), if_neg (by omega), if_pos hr]

theorem loopTurn_drained {s : State} {i t : Nat} (h : 2 ≤ s.fld (Reg.LOP_STAT i) 8 2) (hr : s.loopRuns i = true) :
    s.loopTurn i t = s.setFld (Reg.LOP_STAT i) 8 2 0 := by
  obtain ⟨h8, h9⟩ := fld_loop_bits s (Reg.LOP_STAT i)
  have hl : s.fld (Reg.LOP_STAT i) 8 2 < 4 := Nat.mod_lt _ (by decide)
  unfold loopTurn
  rw [if_pos (by omega), if_pos hr]
  rfl

/-- A NaN among a loop's inputs: the sample ends with its status alone (R423). -/
theorem loopCompute_nan {s : State} {i t : Nat} (hw : (s.loop i).weak = false) (hb : (s.loop i).bad = false)
    (hn : f32.isNan (((s.wr64 (Reg.LOP_LASTK i) (form64 t)).loopWord (s.loopCfg i).owner (Reg.LOP_PVADDR i) t).getD 0) = true) :
    s.loopCompute i t = (((s.wr64 (Reg.LOP_LASTK i) (form64 t)).setBit (Reg.LOP_STAT i) 20 true).raise (1176 + (s.loopCfg i).owner) 0xFFFF
      i).loopStatus i t (s.loopCfg i) true false 0 := by
  unfold loopCompute
  extract_lets c x s1 x1 s2 s3 s4 pv sp w s5
  have e1 : s1 = s := if_neg (by rw [hw]; exact Bool.false_ne_true)
  have e3 : s3 = s := (if_neg (by rw [hb]; exact Bool.false_ne_true)).trans e1
  have e4 : s4 = s.wr64 (Reg.LOP_LASTK i) (form64 t) := congrArg (fun u : State => u.wr64 (Reg.LOP_LASTK i) (form64 t)) e3
  clear_value s4
  subst e4
  exact if_pos (by rw [hn, Bool.true_or])

theorem loopEnable_of {s : State} {i : Nat} (h : s.loopDef i = true) :
    let u := (s.setBit (Reg.LOP_CTL i) 0 true).setFld (Reg.LOP_STAT i) 8 2 1
    s.loopEnable i = u.setLoop i { u.loop i with init := true, pend := none } := if_neg (by rw [h]; exact Bool.false_ne_true)

theorem loopDisable_of (s : State) (i : Nat) : let u := s.setBit (Reg.LOP_CTL i) 0 false
    (u.fld (Reg.LOP_STAT i) 8 1 = 0 → s.loopDisable i = u) ∧
    (u.fld (Reg.LOP_STAT i) 8 1 = 1 → (s.loop i).pend.isSome = true → s.loopDisable i = u.setBit (Reg.LOP_STAT i) 9 true) ∧
    (u.fld (Reg.LOP_STAT i) 8 1 = 1 → (s.loop i).pend = none → s.loopDisable i = u.setFld (Reg.LOP_STAT i) 8 2 0) := by
  have hl : (s.setBit (Reg.LOP_CTL i) 0 false).loop i = s.loop i := rfl
  unfold loopDisable
  dsimp only
  rw [hl]
  refine ⟨fun h => if_pos h, fun h hp => ?_, fun h hp => ?_⟩
  · rw [if_neg (by rw [h]; exact one_ne_zero), if_pos hp]
  · rw [if_neg (by rw [h]; exact one_ne_zero), if_neg (by rw [hp]; exact Bool.false_ne_true)]
    rfl

/-! ### Register writes that act -/

/-- A write whose register's own action is `t`: an I/O register. -/
theorem busSet_io {s t : State} {r : Req} {a base i v : Nat} (hw : s.writes r a base i)
    (hs : ∀ (o0 : Bool) (hit : RegHit), hit.desc.base = base → s.sysWriteHook o0 hit (v % 2 ^ 32) = none)
    (hi : ∀ hit : RegHit, hit.desc.base = base → hit.i = i → s.ioWriteHook (s.reqOwner r == 0) hit (v % 2 ^ 32) = some t) : s.busSet r a v = t := by
  obtain ⟨hit, hb, hx, hset⟩ := busSet_writes hw
  rw [hset, hs _ hit hb, hi hit hb hx]

theorem busSet_dthr {s : State} {r : Req} {k v : Nat} (hw : s.writes r (Reg.FIO_DTHR k) (Reg.FIO_DTHR 0) k) :
    s.busSet r (Reg.FIO_DTHR k) v = s.dthrWrite k (v % 2 ^ 32) (s.reqOwner r == 0) :=
  busSet_io hw (fun _ hit hb => by unfold sysWriteHook; rw [hb]; rfl) fun hit hb hi => by
    subst hi
    unfold ioWriteHook
    rw [hb]
    rfl

theorem busSet_trimg {s : State} {r : Req} {k v : Nat} (hw : s.writes r (Reg.FIO_ATRIMG k) (Reg.FIO_ATRIMG 0) k) :
    s.busSet r (Reg.FIO_ATRIMG k) v = s.trimWrite k (v % 2 ^ 32) true (s.reqOwner r == 0) :=
  busSet_io hw (fun _ hit hb => by unfold sysWriteHook; rw [hb]; rfl) fun hit hb hi => by
    subst hi
    unfold ioWriteHook
    rw [hb]
    rfl

theorem busSet_trimo {s : State} {r : Req} {k v : Nat} (hw : s.writes r (Reg.FIO_ATRIMO k) (Reg.FIO_ATRIMO 0) k) :
    s.busSet r (Reg.FIO_ATRIMO k) v = s.trimWrite k (v % 2 ^ 32) false (s.reqOwner r == 0) :=
  busSet_io hw (fun _ hit hb => by unfold sysWriteHook; rw [hb]; rfl) fun hit hb hi => by
    subst hi
    unfold ioWriteHook
    rw [hb]
    rfl

theorem busSet_lopctl {s : State} {r : Req} {i : Nat} (hw : s.writes r (Reg.LOP_CTL i) (Reg.LOP_CTL 0) i) :
    s.busSet r (Reg.LOP_CTL i) 1 = s.loopEnable i ∧ s.busSet r (Reg.LOP_CTL i) 0 = s.loopDisable i := by
  have hs (v : Nat) (o0 : Bool) (hit : RegHit) (hb : hit.desc.base = Reg.LOP_CTL 0) : s.sysWriteHook o0 hit v = none := by
    unfold sysWriteHook
    rw [hb]
    rfl
  have hi (v : Nat) (hit : RegHit) (hb : hit.desc.base = Reg.LOP_CTL 0) (h : hit.i = i) :
      s.ioWriteHook (s.reqOwner r == 0) hit v = some (if bit v 0 then s.loopEnable i else s.loopDisable i) := by
    subst h
    unfold ioWriteHook
    rw [hb]
    rfl
  exact ⟨busSet_io hw (hs _) fun hit hb h => hi _ hit hb h, busSet_io hw (hs _) fun hit hb h => hi _ hit hb h⟩

end Sys2Proof.Machine.State

open Sys2Proof Sys2Proof.Machine Sys2Proof.Machine.State

/-- Settles O57, from one lemma for each operation of field I/O and the loops. -/
theorem fieldIoAndLoopsAct : Obligations.FieldIoAndLoopsAct := by
  unfold Obligations.FieldIoAndLoopsAct
  refine ⟨fun s kind h => ?_, fun s kind h => ?_, fun s kind term codeA codeB => ⟨fun h => ?_, fun hon hr => ?_⟩, fun s k t new h => ?_,
    fun s k t new d hd => ⟨fun h => ?_, fun h1 h2 h3 h4 h5 h6 => ?_⟩, fun s => ⟨fun h => ?_, fun h1 h2 h3 => ?_⟩, fun s h => ?_, fun s h1 h2 => ?_,
    fun s g volt hg => ⟨fun h => ?_, fun h => ?_, fun h => ?_, fun h => ?_⟩, fun s k kind d hd => ⟨fun h => ?_, fun h1 h2 => ⟨fun h => ?_, fun h => ?_⟩⟩,
    fun s k t h => ⟨?_, ?_⟩, fun s k => ⟨fun h => ?_, fun h1 h2 h3 h4 => ?_, fun h1 h2 => ?_⟩,
    fun s r k v => ⟨fun h => ?_, fun h => ?_, fun h => ?_, fun gain o0 h => ?_, fun gain h => ?_⟩, fun s h => ?_, fun s i t h => ⟨fun h1 h2 => ?_,
    fun h1 h2 => ?_, fun h1 h2 => ⟨fun h3 => ?_, fun h3 => ?_⟩⟩, fun s i t h1 h2 h3 => ?_, fun s r i h => ⟨fun h1 => ?_, fun h1 => ?_, fun h1 h2 => ?_,
    fun h1 h2 => ?_⟩⟩
  · exact congrArg (done s) (downlink_off h)
  · exact ⟨_, congrArg (done s) (downlink_on h), downlinkNow_frame s kind⟩
  · exact congrArg (done s) (uplink_off h)
  · exact ⟨_, rfl, uplink_frame kind term codeA codeB hon hr⟩
  · exact congrArg (done s) (inputChange_unknown h)
  · exact congrArg (done s) (inputChange_still hd h)
  · obtain ⟨hq, hf⟩ := inputChange_stamped hd h1 h2 h3 (sillStamp_fresh (s := s.advance t) h4 h5 h6)
    exact ⟨fun h => congrArg (done s) (hq h), fun h => congrArg (done s) (hf h)⟩
  · exact congrArg (done s) (sillRefreshLost_still h)
  · exact congrArg (done s) (sillRefreshLost_lost h1 h2 h3)
  · exact congrArg (done s) (logicRefreshLost_still h)
  · exact ⟨_, rfl, fun g hg hl => logicRefreshLost_flags h1 h2 hg hl⟩
  · exact congrArg (done s) ((supplyFault_of hg).1 h)
  · exact congrArg (done s) ((supplyFault_of hg).2 h)
  · exact congrArg (done s) ((supplyReturn_of hg).1 h)
  · exact congrArg (done s) ((supplyReturn_of hg).2 h)
  · exact congrArg (done s) (outputFault_still hd h)
  · exact congrArg (done s) ((outputFault_of hd h1 h2).1 h)
  · exact congrArg (done s) ((outputFault_of hd h1 h2).2 h)
  · exact congrArg (done s) (outputRetry_of h).1
  · exact congrArg (done s) (outputRetry_of h).2
  · exact congrArg (done s) (complianceLost_still h)
  · exact congrArg (done s) (complianceLost_of h1 h2 h3 h4)
  · exact congrArg (done s) (complianceBack_of h1 h2)
  · exact congrArg (done s) (busSet_dthr h)
  · exact congrArg (done s) (busSet_trimg h)
  · exact congrArg (done s) (busSet_trimo h)
  · exact ⟨dthrWrite_refused (calOk_false h), trimWrite_refused (calOk_false h)⟩
  · exact trimWrite_wide h
  · exact congrArg (done s) (loopSample_none h)
  · refine congrArg (done s) ((loopSample_one h).trans ?_)
    rw [if_neg (by rw [h1]; exact Bool.false_ne_true)]
    exact loopTurn_missed h2 h1
  · refine congrArg (done s) ((loopSample_one h).trans ?_)
    rw [if_neg (by rw [h2]; exact Bool.false_ne_true)]
    exact loopTurn_idle h1
  · refine congrArg (done s) ((loopSample_one h).trans ?_)
    rw [if_pos h1]
    exact loopTurn_computes h3 h2
  · refine congrArg (done s) ((loopSample_one h).trans ?_)
    rw [if_pos h1]
    exact loopTurn_drained h3 h2
  · exact loopCompute_nan h1 h2 h3
  · exact congrArg (done s) ((busSet_lopctl h).1.trans (loopEnable_of h1))
  · exact congrArg (done s) ((busSet_lopctl h).2.trans ((loopDisable_of s i).1 h1))
  · exact congrArg (done s) ((busSet_lopctl h).2.trans ((loopDisable_of s i).2.1 h1 h2))
  · exact congrArg (done s) ((busSet_lopctl h).2.trans ((loopDisable_of s i).2.2 h1 h2))
end

section
/-! SUPPORT. The access ports of NVS and their passwords (R464 to R468). -/
namespace Sys2Proof.Machine.State

/-! ### The registers of a port -/

theorem psel_ne_pstat (n : Nat) : Reg.NVS_PSEL n ≠ Reg.NVS_PSTAT n := by
  simp only [Reg.NVS_PSEL, Reg.NVS_PSTAT]
  omega

theorem pstat_ne_rstat (n r : Nat) : Reg.NVS_PSTAT n ≠ Reg.NVS_RSTAT r := by
  simp only [Reg.NVS_RSTAT, Reg.NVS_PSTAT]
  omega

theorem rd_setBit_other (s : State) {a b : Nat} (i : Nat) (v : Bool) (h : b ≠ a) : (s.setBit a i v).rd b = s.rd b := rd_wr_other _ _ h

theorem rd_setFld_other (s : State) {a b : Nat} (lo len v : Nat) (h : b ≠ a) : (s.setFld a lo len v).rd b = s.rd b := rd_wr_other _ _ h

theorem rd_bump_other (s : State) {a b : Nat} (n : Nat) (h : b ≠ a) : (s.bump a n).rd b = s.rd b := rd_wr_other _ _ h

theorem portUnlocked_eq (s : State) (n : Nat) : s.portUnlocked n = (s.rd (Reg.NVS_PSTAT n)).testBit 0 := fld_one_beq _ _ _

theorem region_congr {s t : State} (h : t.cfg = s.cfg) (r : Nat) : t.region r = s.region r := by
  unfold region
  rw [h]

theorem portReach_congr {s t : State} (h : t.cfg = s.cfg) (n r : Nat) : t.portReach n r = s.portReach n r := by
  unfold portReach
  rw [region_congr h]

theorem pwWrite_congr {s t : State} (h : t.nvs = s.nvs) (r : Nat) : t.pwWrite r = s.pwWrite r := by
  unfold pwWrite
  rw [h]

theorem pwRead_congr {s t : State} (h : t.nvs = s.nvs) (r : Nat) : t.pwRead r = s.pwRead r := by
  unfold pwRead
  rw [h]

/-! ### Selecting a region (R467) -/

/-- A port that takes a selection: the selection stands, the port is locked, LOCKED follows the region. -/
def portTaken (s : State) (n v : Nat) : State :=
  ((s.wr (Reg.NVS_PSEL n) (bits v 0 6 + b2n (bit v 8) * 256)).setBit (Reg.NVS_PSTAT n) 0 false).portLockReg n

theorem portTaken_cfg (s : State) (n v : Nat) : (s.portTaken n v).cfg = s.cfg := ((setBit_cfg _ _ _ _).trans (setBit_cfg _ _ _ _)).trans (wr_cfg _ _ _)

theorem portTaken_nvs (s : State) (n v : Nat) : (s.portTaken n v).nvs = s.nvs := ((setBit_nvs _ _ _ _).trans (setBit_nvs _ _ _ _)).trans (wr_nvs _ _ _)

theorem rd_psel_portTaken (s : State) (n v : Nat) : (s.portTaken n v).rd (Reg.NVS_PSEL n) = (bits v 0 6 + b2n (bit v 8) * 256) % 2 ^ 32 := by
  unfold portTaken portLockReg
  rw [rd_setBit_other _ _ _ (psel_ne_pstat n), rd_setBit_other _ _ _ (psel_ne_pstat n), rd_wr_same]

theorem portTaken_locked (s : State) (n v : Nat) : ((s.portTaken n v).rd (Reg.NVS_PSTAT n)).testBit 0 = false := by
  unfold portTaken portLockReg
  rw [testBit_rd_setBit_other _ _ _ _ (by omega) (by omega)]
  exact testBit_rd_setBit_same _ _ _ (by omega)

/-- A selection locks the port and unlocks it at once where the direction has no password. -/
theorem portSelect_frame (s : State) (n v : Nat) :
    (s.portSelect n v).rd (Reg.NVS_PSEL n) = (bits v 0 6 + b2n (bit v 8) * 256) % 2 ^ 32 ∧
    (s.portSelect n v).portUnlocked n = (s.portReach n (bits v 0 6) && !s.nvs.locked.contains (bits v 0 6) &&
      (if bit v 8 then s.pwWrite (bits v 0 6) else s.pwRead (bits v 0 6)) == 0) := by
  have e : s.portSelect n v = (let u := s.portTaken n v
      if !u.portReach n (bits v 0 6) then u.portBad n
      else if u.nvs.locked.contains (bits v 0 6) then u
      else if (if bit v 8 then u.pwWrite (bits v 0 6) else u.pwRead (bits v 0 6)) = 0 then u.setBit (Reg.NVS_PSTAT n) 0 true
      else u) := rfl
  have hl := portTaken_locked s n v
  have hs := rd_psel_portTaken s n v
  rw [e, portUnlocked_eq]
  dsimp only
  rw [portReach_congr (portTaken_cfg s n v), portTaken_nvs, pwWrite_congr (portTaken_nvs s n v), pwRead_congr (portTaken_nvs s n v)]
  generalize s.portTaken n v = u at hl hs
  cases s.portReach n (bits v 0 6)
  · refine ⟨(rd_setBit_other _ _ _ (psel_ne_pstat n)).trans hs, ?_⟩
    exact (testBit_rd_setBit_other u _ 17 true (by omega) (by omega)).trans hl
  · cases s.nvs.locked.contains (bits v 0 6)
    · by_cases hp : (if bit v 8 then s.pwWrite (bits v 0 6) else s.pwRead (bits v 0 6)) = 0
      · simp only [hp, Bool.not_true, Bool.false_eq_true, if_false, if_true, Bool.not_false, Bool.and_true, BEq.rfl]
        exact ⟨(rd_setBit_other _ _ _ (psel_ne_pstat n)).trans hs, testBit_rd_setBit_same _ _ _ (by omega)⟩
      · simp only [hp, Bool.not_true, Bool.false_eq_true, if_false, Bool.not_false, Bool.and_true, Bool.true_and, beq_eq_false_iff_ne.2 hp]
        exact ⟨hs, hl⟩
    · exact ⟨hs, hl⟩

theorem busSet_sys {s t : State} {r : Req} {a base i v : Nat} (hw : s.writes r a base i)
    (hs : ∀ (o0 : Bool) (hit : RegHit), hit.desc.base = base → hit.i = i → s.sysWriteHook o0 hit (v % 2 ^ 32) = some t) : s.busSet r a v = t := by
  obtain ⟨hit, hb, hi, hset⟩ := busSet_writes hw
  rw [hset, hs _ hit hb hi]

theorem busSet_psel {s : State} {r : Req} {n v : Nat} (hw : s.writes r (Reg.NVS_PSEL n) (Reg.NVS_PSEL 0) n) :
    s.busSet r (Reg.NVS_PSEL n) v = s.portSelect n (v % 2 ^ 32) :=
  busSet_sys hw fun _ hit hb hi => by subst hi; unfold sysWriteHook; rw [hb]; rfl

theorem busSet_pdata {s : State} {r : Req} {n v : Nat} (hw : s.writes r (Reg.NVS_PDATA n) (Reg.NVS_PDATA 0) n) :
    s.busSet r (Reg.NVS_PDATA n) v = s.portWrite n (v % 2 ^ 32) :=
  busSet_sys hw fun _ hit hb hi => by subst hi; unfold sysWriteHook; rw [hb]; rfl

theorem busSet_pcmd {s : State} {r : Req} {n v : Nat} (hw : s.writes r (Reg.NVS_PCMD n) (Reg.NVS_PCMD 0) n) :
    s.busSet r (Reg.NVS_PCMD n) v = s.portCmd n (v % 2 ^ 32) :=
  busSet_sys hw fun _ hit hb hi => by subst hi; unfold sysWriteHook; rw [hb]; rfl

theorem busSet_logsel {s : State} {r : Req} {v : Nat} (hw : s.writes r Reg.MGT_LOGSEL Reg.MGT_LOGSEL 0) :
    s.busSet r Reg.MGT_LOGSEL v = s.logSelect (v % 2 ^ 32) :=
  busSet_sys hw fun _ hit hb _ => by unfold sysWriteHook; rw [hb]; rfl

theorem busSet_go {s : State} {r : Req} (hw : s.writes r Reg.MGT_FACTCMD Reg.MGT_FACTCMD 0) : s.busSet r Reg.MGT_FACTCMD 1 = s.factGo :=
  busSet_sys hw fun _ hit hb _ => by unfold sysWriteHook; rw [hb]; rfl

theorem selection_bits {region dir : Nat} (hr : region < 64) (hd : dir < 2) :
    bits ((region % 256 + dir % 2 * 256) % 2 ^ 32) 0 6 = region ∧ bit ((region % 256 + dir % 2 * 256) % 2 ^ 32) 8 = (dir == 1) := by
  unfold bits bit
  rw [Nat.shiftRight_eq_div_pow, Nat.shiftRight_eq_div_pow, Bool.eq_iff_iff, beq_iff_eq, beq_iff_eq]
  omega

theorem portSelect_selects (s : State) (n : Nat) {region dir : Nat} (hr : region < 64) (hd : dir < 2) :
    let t := s.portSelect n ((region % 256 + dir % 2 * 256) % 2 ^ 32)
    t.portRegion n = region ∧ t.portDir n = (dir == 1) ∧
      t.portUnlocked n = (s.portReach n region && !s.nvs.locked.contains region && (if dir = 1 then s.pwWrite region else s.pwRead region) == 0) := by
  intro t
  obtain ⟨hreg, hdir⟩ := selection_bits hr hd
  obtain ⟨hsel, hopen⟩ := s.portSelect_frame n ((region % 256 + dir % 2 * 256) % 2 ^ 32)
  rw [hreg, hdir] at hsel hopen
  have hb : b2n (dir == 1) = dir := by
    obtain rfl | rfl : dir = 0 ∨ dir = 1 := by omega
    · rfl
    · rfl
  rw [hb] at hsel
  refine ⟨?_, ?_, ?_⟩
  · unfold portRegion fld bits
    rw [hsel, Nat.shiftRight_eq_div_pow]
    omega
  · unfold portDir fld bits
    rw [hsel, Nat.shiftRight_eq_div_pow, Bool.eq_iff_iff, beq_iff_eq, beq_iff_eq]
    omega
  · rw [hopen]
    simp only [beq_iff_eq]

theorem busSet_ppwd {s : State} {n pw : Nat} {h h2 : RegHit} (hpw : pw < 2 ^ 64) (hc : s.busCheck .mgt (Reg.NVS_PPWD n) true = .ok h)
    (hc2 : s.busCheck .mgt (Reg.NVS_PPWD_H n) true = .ok h2) (hbase : h2.desc.base = Reg.NVS_PPWD_H 0) (hs : h.shadow = false) (hs2 : h2.shadow = false)
    (hi : h2.i = n) (hp : h.desc.pair = .lo) (hp2 : h2.desc.pair = .hi) (hw : h.desc.rw ||| h.desc.wo = 0xFFFFFFFF)
    (hw2 : h2.desc.rw ||| h2.desc.wo = 0xFFFFFFFF) (hd : s.itemDefined (Reg.NVS_PPWD n) h = true) (hd2 : s.itemDefined (Reg.NVS_PPWD_H n) h2 = true)
    (hb : blockOf (Reg.NVS_PPWD n) ≠ 0) (hb2 : blockOf (Reg.NVS_PPWD_H n) ≠ 0) :
    (s.busSet .mgt (Reg.NVS_PPWD n) pw).busSet .mgt (Reg.NVS_PPWD_H n) (pw / 2 ^ 32) =
      ((s.setReqLat .mgt { s.reqLat .mgt with lo := none }).wr64 (Reg.NVS_PPWD n) pw).portPassword n pw := by
  have ha : Reg.NVS_PPWD_H n = Reg.NVS_PPWD n + 4 := by
    simp only [Reg.NVS_PPWD_H, Reg.NVS_PPWD]
    omega
  rw [ha] at hc2 hd2 hb2 ⊢
  rw [busSet_wide hpw hc hc2 hs hs2 hp hp2 hw hw2 hd hd2 hb hb2]
  unfold wideWrite
  rw [hbase, if_neg (by decide), if_pos rfl, hi, Nat.add_sub_cancel]

/-! ### Passwords (R465, R466) -/

theorem nvsRegs_nvs (s : State) (r : Nat) : (s.nvsRegs r).nvs = s.nvs := by
  unfold nvsRegs
  split
  · exact setFld_nvs _ _ _ _ _
  · rfl

theorem rd_nvsRegs (s : State) {a r : Nat} (h : a ≠ Reg.NVS_RSTAT r) : (s.nvsRegs r).rd a = s.rd a := by
  unfold nvsRegs
  split
  · exact rd_setFld_other _ _ _ _ h
  · rfl

theorem almEvent_nvs (s : State) (code block arg det : Nat) : (s.almEvent code block arg det).nvs = s.nvs := by
  unfold almEvent
  split
  · rfl
  · split <;> simp

theorem almEvent_now (s : State) (code block arg det : Nat) : (s.almEvent code block arg det).now = s.now := by
  unfold almEvent
  split
  · rfl
  · split <;> simp

@[simp] theorem rd_raise (s : State) (src task d1 d2 a : Nat) : (s.raise src task d1 d2).rd a = s.rd a := rfl

/-- An Almanac event writes the Almanac's registers alone. -/
theorem rd_almEvent (s : State) (code block arg det : Nat) {a : Nat} (h : a < Reg.ALM_STAT) : (s.almEvent code block arg det).rd a = s.rd a := by
  have hne {b : Nat} (hb : Reg.ALM_STAT ≤ b) : a ≠ b := Nat.ne_of_lt (Nat.lt_of_lt_of_le h hb)
  unfold almEvent
  dsimp only
  split
  · rfl
  · split
    · exact (rd_wr_other _ _ (hne (by decide))).trans (rd_wr_other _ _ (hne (by decide)))
    · rw [rd_raise]
      exact (rd_setBit_other _ _ _ (hne (by decide))).trans (rd_bump_other _ _ (hne (by decide)))

/-- A wrong password counted in the region's failures; the eighth in a row locks the region out. -/
def wrongNvs (x : Nvs) (r : Nat) : Nvs :=
  let k := x.fails.get 0 r + 1
  { x with fails := x.fails.set 0 r k, locked := if 8 ≤ k then r :: x.locked else x.locked }

theorem pwWrong_nvs (s : State) (r : Nat) : (s.pwWrong r).nvs = wrongNvs s.nvs r := by
  unfold pwWrong wrongNvs
  dsimp only
  rw [nvsRegs_nvs]
  split
  · rw [almEvent_nvs, raise_nvs, setBit_nvs]
    rfl
  · rfl

theorem rd_setNvs (s : State) (x : Nvs) (a : Nat) : (s.setNvs x).rd a = s.rd a := rfl

theorem rd_pstat_pwWrong (s : State) (r : Nat) {n : Nat} (hn : n < 8) : (s.pwWrong r).rd (Reg.NVS_PSTAT n) = s.rd (Reg.NVS_PSTAT n) := by
  have hstat : Reg.NVS_PSTAT n ≠ Reg.NVS_STAT := by
    simp only [Reg.NVS_PSTAT, Reg.NVS_STAT]
    omega
  have halm : Reg.NVS_PSTAT n < Reg.ALM_STAT := by
    simp only [Reg.NVS_PSTAT, Reg.ALM_STAT]
    omega
  unfold pwWrong
  dsimp only
  rw [rd_nvsRegs _ (pstat_ne_rstat n r)]
  split
  · rw [rd_almEvent _ _ _ _ _ halm, rd_raise, rd_setBit_other _ _ _ hstat, rd_setNvs, rd_setBit_other _ _ _ (pstat_ne_rstat n r), rd_setNvs]
  · rw [rd_setBit_other _ _ _ (pstat_ne_rstat n r), rd_setNvs]

theorem portPassword_refused {s : State} {n : Nat}
    (h : s.portReach n (s.portRegion n) = false ∨ s.portUnlocked n = true ∨ s.nvs.locked.contains (s.portRegion n) = true) (pw : Nat) :
    s.portPassword n pw = s.portBad n := by
  unfold portPassword
  refine if_pos ?_
  obtain h | h | h := h <;> rw [h] <;> simp

/-- A password that is tried opens the direction. -/
theorem portPassword_opens {s : State} {n pw : Nat} (hr : s.portReach n (s.portRegion n) = true) (hu : s.portUnlocked n = false)
    (hl : s.nvs.locked.contains (s.portRegion n) = false) (ho : s.pwOpens (s.portRegion n) (s.portDir n) pw = true) :
    s.portPassword n pw = ((s.setNvs { s.nvs with fails := s.nvs.fails.erase (s.portRegion n) }).nvsRegs (s.portRegion n)).setBit (Reg.NVS_PSTAT n) 0 true := by
  unfold portPassword pwTry
  dsimp only
  rw [hr, hu, hl, ho]
  rfl

theorem portPassword_wrong {s : State} {n pw : Nat} (hr : s.portReach n (s.portRegion n) = true) (hu : s.portUnlocked n = false)
    (hl : s.nvs.locked.contains (s.portRegion n) = false) (ho : s.pwOpens (s.portRegion n) (s.portDir n) pw = false) :
    s.portPassword n pw = ((s.pwWrong (s.portRegion n)).setBit (Reg.NVS_PSTAT n) 18 true).portLockReg n := by
  unfold portPassword pwTry
  dsimp only
  rw [hr, hu, hl, ho]
  rfl

theorem portPassword_opens_frame {s : State} {n pw : Nat} (hr : s.portReach n (s.portRegion n) = true) (hu : s.portUnlocked n = false)
    (hl : s.nvs.locked.contains (s.portRegion n) = false) (ho : s.pwOpens (s.portRegion n) (s.portDir n) pw = true) :
    (s.portPassword n pw).portUnlocked n = true ∧ (s.portPassword n pw).nvs.fails = s.nvs.fails.erase (s.portRegion n) := by
  rw [portPassword_opens hr hu hl ho]
  refine ⟨?_, ?_⟩
  · rw [portUnlocked_eq]
    exact testBit_rd_setBit_same _ _ _ (by omega)
  · rw [setBit_nvs, nvsRegs_nvs]
    rfl

theorem portPassword_wrong_frame {s : State} {n pw : Nat} (hn : n < 8) (hr : s.portReach n (s.portRegion n) = true) (hu : s.portUnlocked n = false)
    (hl : s.nvs.locked.contains (s.portRegion n) = false) (ho : s.pwOpens (s.portRegion n) (s.portDir n) pw = false) :
    (s.portPassword n pw).portUnlocked n = false ∧ (s.portPassword n pw).nvs = wrongNvs s.nvs (s.portRegion n) := by
  rw [portPassword_wrong hr hu hl ho]
  unfold portLockReg
  refine ⟨?_, ?_⟩
  · rw [portUnlocked_eq, testBit_rd_setBit_other _ _ _ _ (by omega) (by omega), testBit_rd_setBit_other _ _ _ _ (by omega) (by omega),
      rd_pstat_pwWrong _ _ hn, ← portUnlocked_eq, hu]
  · rw [setBit_nvs, setBit_nvs, pwWrong_nvs]

theorem wrongNvs_locked {x : Nvs} {r : Nat} (h : x.locked.contains r = false) : 7 ≤ x.fails.get 0 r ↔ (wrongNvs x r).locked.contains r = true := by
  unfold wrongNvs
  dsimp only
  by_cases hk : 8 ≤ x.fails.get 0 r + 1
  · rw [if_pos hk, List.contains_cons, BEq.rfl, Bool.true_or]
    exact iff_of_true (by omega) rfl
  · rw [if_neg hk, h]
    exact iff_of_false (by omega) Bool.false_ne_true

/-! ### The data of a port (R467, R468) -/

theorem busGet_pdata {s : State} {r : Req} {n : Nat} {h : RegHit} (hl : s.reqLive r = true) (hc : s.busCheck r (Reg.NVS_PDATA n) false = .ok h)
    (hb : h.desc.base = Reg.NVS_PDATA 0) (hi : h.i = n) (hs : h.desc.scope = .own) (hblk : blockOf (Reg.NVS_PDATA n) ≠ 0) :
    s.busGet r (Reg.NVS_PDATA n) = (s.portRead n).2.emit (.reg (Reg.NVS_PDATA n) (s.portRead n).1 0) := by
  have hf : s.foreignWord (s.reqOwner r) (Reg.NVS_PDATA n) h = false := by
    unfold foreignWord
    rw [hs, show (Scope.own == Scope.src) = false from rfl, show (Scope.own == Scope.hist) = false from rfl, Bool.or_self, Bool.and_false, Bool.false_and]
  have hread : s.readNow r (Reg.NVS_PDATA n) h = s.portRead n := by
    unfold readNow
    rw [if_pos hb, hi]
  rw [busGet_performed hl hc (fun hg => hblk hg.1) hf, hread]

/-- Words that hold no error are read as they are. -/
theorem nvsRead_sound {s : State} {r off len : Nat}
    (h : ∀ w ∈ nvsWords (s.nvsAddrs r off len), w ∉ s.nvs.badWords ∧ w ∉ s.nvs.weakWords) :
    s.nvsRead r off len = ((s.nvsAddrs r off len).map (fun a => s.nvs.mem.get 0 a), false, s) := by
  unfold nvsRead
  dsimp only
  have hfold : (nvsWords (s.nvsAddrs r off len)).foldl (fun (acc : Bool × State) w =>
      ((acc.1 || (acc.2.nvsWord w).1), (acc.2.nvsWord w).2)) (false, s) = (false, s) := by
    generalize nvsWords (s.nvsAddrs r off len) = ws at h
    induction ws with
    | nil => rfl
    | cons w ws ih =>
      obtain ⟨hbad, hweak⟩ := h w List.mem_cons_self
      have hw : s.nvsWord w = (false, s) := by
        unfold nvsWord
        rw [if_neg (by simpa using hbad), if_neg (by simpa using hweak)]
      rw [List.foldl_cons, hw]
      exact ih fun w' hw' => h w' (List.mem_cons_of_mem _ hw')
  rw [hfold]

theorem portRead_refused {s : State} {n : Nat} (h : s.portOk n false = false) : s.portRead n = (0, s.portBad n) := by
  unfold portRead
  rw [h]
  rfl

theorem portRead_sound {s : State} {n : Nat} (h : s.portOk n false = true)
    (hw : ∀ w ∈ nvsWords (s.nvsAddrs (s.portRegion n) (s.rd (Reg.NVS_POFF n)) 4), w ∉ s.nvs.badWords ∧ w ∉ s.nvs.weakWords) :
    s.portRead n = (leNat ((s.nvsAddrs (s.portRegion n) (s.rd (Reg.NVS_POFF n)) 4).map (fun a => s.nvs.mem.get 0 a)), s.portStep n) := by
  unfold portRead
  rw [h, if_pos rfl, nvsRead_sound hw]
  rfl

theorem portCmd_setrd (s : State) (n : Nat) : s.portCmd n (1 % 2 ^ 32) = s.portSetRd n := by
  unfold portCmd
  dsimp only
  rw [show bit (1 % 2 ^ 32) 0 = true by decide, show bit (1 % 2 ^ 32) 1 = false by decide, if_neg Bool.false_ne_true, if_pos rfl]

theorem portCmd_setwr (s : State) (n : Nat) : s.portCmd n (2 % 2 ^ 32) = s.portSetWr n := by
  unfold portCmd
  dsimp only
  rw [show bit (2 % 2 ^ 32) 0 = false by decide, show bit (2 % 2 ^ 32) 1 = true by decide, if_neg Bool.false_ne_true, if_pos rfl]

end Sys2Proof.Machine.State
end

section
/-! SUPPORT. The Almanac's records and checkpoints (R471 to R475). -/
namespace Sys2Proof.Machine.State

/-! ### The Almanac's records (R471 to R475) -/

@[simp] theorem flushOne_alm (s : State) (share : Nat) : (s.flushOne share).alm = s.alm := by
  unfold flushOne
  split <;> rfl

/-- What `makeRoom` keeps is what every flush of one write keeps. -/
theorem makeRoom_keeps {β : Type} (g : State → β) (h : ∀ s share, g (s.flushOne share) = g s) (s : State) (share len k : Nat) :
    g (s.makeRoom share len k) = g s := by
  induction k generalizing s with
  | zero => rfl
  | succ k ih =>
    unfold makeRoom
    split
    · rw [ih, h]
    · rfl

@[simp] theorem stage_alm (s : State) (share len : Nat) (w : StoWrite) : (s.stage share len w).alm = s.alm := by
  unfold stage
  dsimp only
  rw [maxReg_alm, wr_alm, bump64_alm]
  refine (makeRoom_keeps (·.alm) flushOne_alm _ _ _ _).trans ?_
  rw [apply_ite State.alm, raise_alm, setBit_alm, bump_alm, ite_self]

@[simp] theorem stage_now (s : State) (share len : Nat) (w : StoWrite) : (s.stage share len w).now = s.now := by
  unfold stage
  dsimp only
  rw [maxReg_now, wr_now, bump64_now]
  refine (makeRoom_keeps (·.now) (fun s share => by unfold flushOne; split <;> rfl) _ _ _ _).trans ?_
  rw [apply_ite State.now, raise_now, setBit_now, bump_now, ite_self]

@[simp] theorem stage_skew (s : State) (share len : Nat) (w : StoWrite) : (s.stage share len w).skew = s.skew := by
  unfold stage
  dsimp only
  rw [maxReg_skew, wr_skew, bump64_skew]
  refine (makeRoom_keeps (·.skew) (fun s share => by unfold flushOne; split <;> rfl) _ _ _ _).trans ?_
  rw [apply_ite State.skew, raise_skew, setBit_skew, bump_skew, ite_self]

theorem mono_congr {s t : State} (hn : t.now = s.now) (hk : t.skew = s.skew) : t.mono = s.mono := by
  unfold mono
  rw [hn, hk]

theorem almWrite_none {s : State} (h : s.alm.fifo = [] ∨ s.alm.writing = false ∨ s.alm.frozenBy.isSome = true) : s.almWrite = s := by
  unfold almWrite
  split
  · rfl
  · next x rest hf =>
    refine if_pos ?_
    obtain h | h | h := h
    · exact absurd (hf.symm.trans h) (List.cons_ne_nil _ _)
    · rw [h]
      rfl
    · rw [h, Bool.or_true]

theorem almWrite_one {s : State} {x : AlmRec} {rest : List AlmRec} (hf : s.alm.fifo = x :: rest) (hw : s.alm.writing = true) (hz : s.alm.frozenBy = none)
    (hh : s.almHeld < 16777216) :
    s.almWrite = ((((s.stage 1 32 (.alm (s.rd Reg.ALM_NEXT) { x with qual := putBits x.qual 4 1 (b2n s.alm.lostBefore) })).setAlm
      { s.alm with fifo := rest, lostBefore := false, wrapped := s.alm.wrapped || decide (s.rd Reg.ALM_NEXT + 1 = almMod) }).wr Reg.ALM_NEXT
        ((s.rd Reg.ALM_NEXT + 1) % almMod)).wr Reg.ALM_FIFO rest.length) := by
  unfold almWrite
  rw [hf]
  dsimp only
  rw [if_neg (by rw [hw, hz]; exact Bool.false_ne_true), decide_eq_false (Nat.not_le.2 hh), if_neg Bool.false_ne_true, stage_alm]

/-- A checkpoint holds the counts as they stand, the one before it kept as the second copy. -/
theorem almCheckpointNow_alm (s : State) : s.almCheckpointNow.alm = { s.alm with
    ckptB := s.alm.ckptA, ckptA := some { secs := s.opSecs, cycles := s.rd Reg.ALM_CYCLES, wrapped := s.alm.wrapped }, lastCkpt := s.mono } := by
  unfold almCheckpointNow
  rw [stage_alm]
  rfl

theorem almCheckpointNow_mono (s : State) : s.almCheckpointNow.mono = s.mono := by
  unfold almCheckpointNow
  rw [mono_congr (stage_now _ _ _ _) (stage_skew _ _ _ _)]
  rfl

theorem almCheckpointNow_opSecs (s : State) : s.almCheckpointNow.opSecs = s.opSecs := by
  unfold opSecs
  rw [almCheckpointNow_mono, almCheckpointNow_alm]

theorem rd_advanceMono (s : State) (t a : Nat) : (s.advanceMono t).rd a = s.rd a := rfl

theorem almCheckpoint_idle {s : State} (hw : s.alm.writing = false) : s.almCheckpoint = s := by
  unfold almCheckpoint
  rw [hw]
  rfl

theorem almCheckpoint_writing {s : State} (hw : s.alm.writing = true) :
    s.almCheckpoint = (s.advanceMono (s.alm.lastCkpt + 3600 * 1000000000 * 65536)).almCheckpointNow := by
  unfold almCheckpoint
  rw [hw]
  exact if_neg Bool.false_ne_true

end Sys2Proof.Machine.State
end

section
/-! SUPPORT. The management log's port and restore-factory (R488, R500, R501). -/
namespace Sys2Proof.Machine.State

/-! ### The log's port (R488) -/

theorem fld_one (s : State) (a i : Nat) : s.fld a i 1 = b2n ((s.rd a).testBit i) := by
  have hlt : s.fld a i 1 < 2 := Nat.mod_lt _ (by omega)
  have hbit := s.fld_one_beq a i
  cases hb : (s.rd a).testBit i
  · rw [hb, beq_eq_false_iff_ne] at hbit
    show s.fld a i 1 = 0
    omega
  · rw [hb, beq_iff_eq] at hbit
    exact hbit

theorem fld_setBit_same (s : State) (a : Nat) {i : Nat} (b : Bool) (hi : i < 32) : (s.setBit a i b).fld a i 1 = b2n b := by
  rw [fld_one, testBit_rd_setBit_same _ _ _ hi]

theorem fld_congr {s t : State} {a : Nat} (h : t.rd a = s.rd a) (lo len : Nat) : t.fld a lo len = s.fld a lo len := by
  unfold fld
  rw [h]

/-- The words of an entry in MGT_LOGDATA. -/
def logWords (l : List (Nat × Nat)) (s : State) : State := forEach l (fun s w => s.wr (Reg.MGT_LOGDATA w.2) w.1) s

theorem rd_logWords_other {l : List (Nat × Nat)} {a : Nat} (h : ∀ p ∈ l, a ≠ Reg.MGT_LOGDATA p.2) (s : State) : (logWords l s).rd a = s.rd a := by
  induction l generalizing s with
  | nil => rfl
  | cons p l ih => exact (ih (fun q hq => h q (List.mem_cons_of_mem _ hq)) _).trans (rd_wr_other _ _ (h p List.mem_cons_self))

theorem rd_logWords (ws : List Nat) (k : Nat) (s : State) {j : Nat} (hj : j < ws.length) :
    (logWords (ws.zipIdx k) s).rd (Reg.MGT_LOGDATA (k + j)) = ws[j] % 2 ^ 32 := by
  induction ws generalizing k s j with
  | nil => exact absurd hj (Nat.not_lt_zero _)
  | cons x ws ih =>
    rw [List.zipIdx_cons]
    show (logWords (ws.zipIdx (k + 1)) (s.wr (Reg.MGT_LOGDATA k) x)).rd _ = _
    cases j with
    | zero =>
      rw [Nat.add_zero, rd_logWords_other (fun p hp => ?_)]
      · exact rd_wr_same _ _ _
      · have hk := List.le_snd_of_mem_zipIdx hp
        simp only [Reg.MGT_LOGDATA]
        omega
    | succ j =>
      rw [show k + (j + 1) = k + 1 + j by omega]
      exact ih (k + 1) _ (Nat.lt_of_succ_lt_succ hj)

/-- The entry MGT_LOGSEL selects, if the log holds it. -/
def logFound (s : State) (num : Nat) : Option MgtEntry :=
  match s.sto.ack.mlog.find? (num % 4096) with | some e => if e.num = num then some e else none | none => none

theorem logFound_some {s : State} {num : Nat} {e : MgtEntry} (h : s.sto.ack.mlog.find? (num % 4096) = some e) (hn : e.num = num) :
    s.logFound num = some e := by
  unfold logFound
  rw [h]
  exact if_pos hn

theorem logFound_none {s : State} {num : Nat} (h : ∀ e, s.sto.ack.mlog.find? (num % 4096) = some e → e.num ≠ num) : s.logFound num = none := by
  unfold logFound
  split
  · next e he => exact if_neg (h e he)
  · rfl

/-- The eight words MGT_LOGDATA shows of what was found. -/
def logShown (x : Option MgtEntry) : List Nat :=
  match x with
  | some e => (List.range 8).map (fun w => field (mgtBytesOf e) (4 * w) 4)
  | none => List.replicate 8 0

theorem logShown_length (x : Option MgtEntry) : (logShown x).length = 8 := by
  cases x <;> rfl

theorem logSelect_eq (s : State) (num : Nat) :
    s.logSelect num = logWords (logShown (s.logFound num)).zipIdx ((s.wr Reg.MGT_LOGSEL num).setBit Reg.MGT_LOGSTAT 0 (s.logFound num).isNone) := by
  unfold logSelect logWords logShown logFound
  rfl

theorem rd_logSelect_below (s : State) (num : Nat) {a : Nat} (h : a < Reg.MGT_LOGDATA 0) :
    (s.logSelect num).rd a = ((s.wr Reg.MGT_LOGSEL num).setBit Reg.MGT_LOGSTAT 0 (s.logFound num).isNone).rd a := by
  rw [logSelect_eq]
  refine rd_logWords_other (fun p _ => ?_) _
  simp only [Reg.MGT_LOGDATA] at h ⊢
  omega

theorem rd_logsel_logSelect (s : State) {num : Nat} (h : num < 2 ^ 32) : (s.logSelect num).rd Reg.MGT_LOGSEL = num := by
  rw [rd_logSelect_below _ _ (by decide), rd_setBit_other _ _ _ (by decide), rd_wr_same, Nat.mod_eq_of_lt h]

theorem fld_logstat_logSelect (s : State) (num : Nat) : (s.logSelect num).fld Reg.MGT_LOGSTAT 0 1 = b2n (s.logFound num).isNone := by
  rw [fld_congr (rd_logSelect_below s num (by decide)), fld_setBit_same _ _ _ (by omega)]

theorem rd_logdata_logSelect (s : State) (num : Nat) {w : Nat} (hw : w < 8) :
    (s.logSelect num).rd (Reg.MGT_LOGDATA w) = (logShown (s.logFound num))[w]'(by rw [logShown_length]; exact hw) % 2 ^ 32 := by
  rw [logSelect_eq]
  have h := rd_logWords (logShown (s.logFound num)) 0 ((s.wr Reg.MGT_LOGSEL num).setBit Reg.MGT_LOGSTAT 0 (s.logFound num).isNone) (j := w)
    (by rw [logShown_length]; exact hw)
  rwa [Nat.zero_add] at h

theorem leNat_lt (bs : List Byte) : leNat bs < 256 ^ bs.length := by
  induction bs with
  | nil => exact Nat.one_pos
  | cons b bs ih =>
    have hb := b.isLt
    rw [List.length_cons, Nat.pow_succ]
    show b.toNat + 256 * leNat bs < _
    omega

/-- A field of n bytes is below 256^n. -/
theorem field_lt (bs : List Byte) (o n : Nat) : field bs o n < 256 ^ n :=
  Nat.lt_of_lt_of_le (leNat_lt _) (Nat.pow_le_pow_right (by omega) (List.length_take_le _ _))

theorem logSelect_found {s : State} {num : Nat} {e : MgtEntry} (h : s.sto.ack.mlog.find? (num % 4096) = some e) (hn : e.num = num) :
    (s.logSelect num).fld Reg.MGT_LOGSTAT 0 1 = 0 ∧ ∀ w < 8, (s.logSelect num).rd (Reg.MGT_LOGDATA w) = field (mgtBytesOf e) (4 * w) 4 := by
  refine ⟨?_, fun w hw => ?_⟩
  · rw [fld_logstat_logSelect, logFound_some h hn]
    rfl
  · rw [rd_logdata_logSelect _ _ hw]
    simp only [logFound_some h hn, logShown, List.getElem_map, List.getElem_range]
    exact Nat.mod_eq_of_lt (field_lt _ _ _)

theorem logSelect_missing {s : State} {num : Nat} (h : ∀ e, s.sto.ack.mlog.find? (num % 4096) = some e → e.num ≠ num) :
    (s.logSelect num).fld Reg.MGT_LOGSTAT 0 1 = 1 ∧ ∀ w < 8, (s.logSelect num).rd (Reg.MGT_LOGDATA w) = 0 := by
  refine ⟨?_, fun w hw => ?_⟩
  · rw [fld_logstat_logSelect, logFound_none h]
    rfl
  · rw [rd_logdata_logSelect _ _ hw]
    simp only [logFound_none h, logShown, List.getElem_replicate, Nat.zero_mod]

/-! ### Restore-factory (R500, R501) -/

theorem factGo_waits {s : State} (h : s.fld Reg.MGT_FACTSTAT 0 1 = 1) : s.factGo = s := if_pos h

theorem factGo_mode {s : State} (h : s.fld Reg.MGT_FACTSTAT 0 1 = 0) (hm : s.ms.mode ≠ .stop) : s.factGo = s.factOutcome 2 := by
  unfold factGo
  rw [h]
  exact if_pos hm

/-- In Stop with none under way the checks begin with the region. -/
theorem factGo_stop {s : State} (h : s.fld Reg.MGT_FACTSTAT 0 1 = 0) (hm : s.ms.mode = .stop) :
    s.factGo = if s.cfg.mode.factreg = 255 ∨ (!(s.region s.cfg.mode.factreg).defined) = true ∨ (s.region s.cfg.mode.factreg).owner ≠ 0 then s.factOutcome 3
      else if s.nvs.locked.contains s.cfg.mode.factreg = true then s.factOutcome 5
      else match s.pwTry s.cfg.mode.factreg true (s.rd64 Reg.MGT_FACTPWD) with
        | (true, s) => s.setBit Reg.MGT_FACTSTAT 0 true
        | (false, s) => s.factOutcome 4 := by
  unfold factGo
  rw [h, if_neg (by decide), hm]
  exact if_neg fun hne => hne rfl

theorem factGo_region {s : State} (h : s.fld Reg.MGT_FACTSTAT 0 1 = 0) (hm : s.ms.mode = .stop)
    (hg : s.cfg.mode.factreg = 255 ∨ (s.region s.cfg.mode.factreg).defined = false ∨ (s.region s.cfg.mode.factreg).owner ≠ 0) :
    s.factGo = s.factOutcome 3 := by
  rw [factGo_stop h hm]
  exact if_pos (hg.imp_right (Or.imp_left fun hd => by rw [hd]; rfl))

/-- The region is O0's: the lockout and the password decide. -/
theorem factGo_password {s : State} (h : s.fld Reg.MGT_FACTSTAT 0 1 = 0) (hm : s.ms.mode = .stop) (h1 : s.cfg.mode.factreg ≠ 255)
    (h2 : (s.region s.cfg.mode.factreg).defined = true) (h3 : (s.region s.cfg.mode.factreg).owner = 0) :
    (s.nvs.locked.contains s.cfg.mode.factreg = true → s.factGo = s.factOutcome 5) ∧
    (s.nvs.locked.contains s.cfg.mode.factreg = false → s.pwOpens s.cfg.mode.factreg true (s.rd64 Reg.MGT_FACTPWD) = true → s.factGo =
      ((s.setNvs { s.nvs with fails := s.nvs.fails.erase s.cfg.mode.factreg }).nvsRegs s.cfg.mode.factreg).setBit Reg.MGT_FACTSTAT 0 true) ∧
    (s.nvs.locked.contains s.cfg.mode.factreg = false → s.pwOpens s.cfg.mode.factreg true (s.rd64 Reg.MGT_FACTPWD) = false →
      s.factGo = (s.pwWrong s.cfg.mode.factreg).factOutcome 4) := by
  have hno : ¬(s.cfg.mode.factreg = 255 ∨ (!(s.region s.cfg.mode.factreg).defined) = true ∨ (s.region s.cfg.mode.factreg).owner ≠ 0) := by
    rw [h2, h3]
    simp [h1]
  rw [factGo_stop h hm, if_neg hno]
  unfold pwTry
  refine ⟨fun hl => if_pos hl, fun hl ho => ?_, fun hl ho => ?_⟩ <;> rw [hl, ho, if_neg Bool.false_ne_true]
  · rfl
  · rfl

theorem setFld_fld_same (s : State) (a lo len v : Nat) (h : lo + len ≤ 32) : (s.setFld a lo len v).fld a lo len = v % 2 ^ len := by
  refine Nat.eq_of_testBit_eq fun i => ?_
  unfold fld bits
  rw [Nat.testBit_mod_two_pow, Nat.testBit_mod_two_pow, Nat.testBit_shiftRight]
  by_cases hi : i < len
  · rw [testBit_rd_setFld _ _ _ _ _ (by omega)]
    simp [hi]
  · simp [hi]

theorem setFld_fld_other (s : State) (a lo len v lo2 len2 : Nat) (h : lo + len ≤ lo2 ∨ lo2 + len2 ≤ lo) (h2 : lo2 + len2 ≤ 32) :
    (s.setFld a lo len v).fld a lo2 len2 = s.fld a lo2 len2 := by
  refine Nat.eq_of_testBit_eq fun i => ?_
  unfold fld bits
  rw [Nat.testBit_mod_two_pow, Nat.testBit_mod_two_pow, Nat.testBit_shiftRight, Nat.testBit_shiftRight]
  by_cases hi : i < len2
  · rw [testBit_rd_setFld _ _ _ _ _ (by omega), if_neg (by omega)]
  · simp [hi]

theorem rd_mgtLog (s : State) (code arg det : Nat) {a : Nat} (h : a ≠ Reg.MGT_LOGNEXT) : (s.mgtLog code arg det).rd a = s.rd a := rd_wr_other _ _ h

@[simp] theorem mgtLog_nvs (s : State) (code arg det : Nat) : (s.mgtLog code arg det).nvs = s.nvs := wr_nvs _ _ _

@[simp] theorem mgtLog_now (s : State) (code arg det : Nat) : (s.mgtLog code arg det).now = s.now := wr_now _ _ _

theorem rd_fresh (s : State) (a : Nat) : s.fresh.2.rd a = s.rd a := rfl

/-- The outcome's code and flag in MGT_FACTSTAT. -/
def outcomeSet (s : State) (code : Nat) : State := (s.setFld Reg.MGT_FACTSTAT 8 8 code).setBit Reg.MGT_FACTSTAT 16 true

theorem factOutcome_eq (s : State) (code : Nat) :
    s.factOutcome code = (s.outcomeSet code).fresh.2.mgtLog 0x09 ((s.outcomeSet code).fresh.1 % 65536) code := by
  unfold factOutcome outcomeSet
  rfl

theorem rd_factOutcome (s : State) (code : Nat) {a : Nat} (h : a ≠ Reg.MGT_LOGNEXT) : (s.factOutcome code).rd a = (s.outcomeSet code).rd a := by
  rw [factOutcome_eq, rd_mgtLog _ _ _ _ h, rd_fresh]

theorem factOutcome_nvs (s : State) (code : Nat) : (s.factOutcome code).nvs = s.nvs := by
  rw [factOutcome_eq, mgtLog_nvs, fresh_nvs, outcomeSet, setBit_nvs, setFld_nvs]

theorem factOutcome_now (s : State) (code : Nat) : (s.factOutcome code).now = s.now := by
  rw [factOutcome_eq, mgtLog_now, fresh_now, outcomeSet, setBit_now, setFld_now]

theorem factstat_factOutcome (s : State) (code : Nat) :
    (s.factOutcome code).fld Reg.MGT_FACTSTAT 0 1 = s.fld Reg.MGT_FACTSTAT 0 1 ∧ (s.factOutcome code).fld Reg.MGT_FACTSTAT 8 8 = code % 2 ^ 8 := by
  have hrd := s.rd_factOutcome code (a := Reg.MGT_FACTSTAT) (by decide)
  refine ⟨?_, ?_⟩
  · rw [fld_congr hrd, outcomeSet, setBit, setFld_fld_other _ _ _ _ _ _ _ (by omega) (by omega), setFld_fld_other _ _ _ _ _ _ _ (by omega) (by omega)]
  · rw [fld_congr hrd, outcomeSet, setBit, setFld_fld_other _ _ _ _ _ _ _ (by omega) (by omega), setFld_fld_same _ _ _ _ _ (by omega)]

/-- The user calibration erased. -/
def calErased (x : Nvs) : Nvs := { x with sys := { x.sys with dthr := [], trimG := [], trimO := [], ocxo := 0 } }

/-- The calibration registers at their factory values. -/
def calFactory (s : State) : State :=
  forEach ([0, 1, 2, 3] : List Nat) (fun s g => s.wr (Reg.FIO_DTHR g) (dthrFactory (bit s.cfg.part.grpv g)))
    (forEach s.cfg.ach (fun s p => (s.wr (Reg.FIO_ATRIMG p.1) 0).wr (Reg.FIO_ATRIMO p.1) 0) s)

theorem calFactory_nvs (s : State) : s.calFactory.nvs = s.nvs := by
  unfold calFactory
  refine (forEach_keeps _ (·.nvs) (fun _ _ => wr_nvs _ _ _) _ _).trans ?_
  exact forEach_keeps _ (·.nvs) (fun _ _ => (wr_nvs _ _ _).trans (wr_nvs _ _ _)) _ _

theorem calFactory_now (s : State) : s.calFactory.now = s.now := by
  unfold calFactory
  refine (forEach_now (fun _ _ => wr_now _ _ _) _ _).trans ?_
  exact forEach_now (fun _ _ => (wr_now _ _ _).trans (wr_now _ _ _)) _ _

theorem factDone_idle {s : State} (h : s.fld Reg.MGT_FACTSTAT 0 1 = 0) : s.factDone = s := if_pos h

theorem factDone_eq {s : State} (h : s.fld Reg.MGT_FACTSTAT 0 1 = 1) :
    ∃ u : State, s.now ≤ u.now ∧ u.now ≤ s.now + msec 1 ∧ u.nvs = calErased s.nvs ∧
      s.factDone = ((u.calFactory.setBit Reg.MGT_FACTSTAT 0 false).factOutcome 1).almEvent 0x0120 15 0 0 := by
  have hv := Nat.le_of_lt_succ (Nat.mod_lt s.fresh.1 (Nat.succ_pos (msec 1)))
  refine ⟨(s.fresh.2.advance (s.fresh.2.now + s.fresh.1 % (msec 1 + 1))).setNvs (calErased s.nvs), ?_, ?_, rfl, ?_⟩
  · exact le_max_left _ _
  · exact max_le (Nat.le_add_right _ _) (Nat.add_le_add_left hv _)
  · unfold factDone
    rw [h, if_neg (by decide)]
    rfl

theorem factDone_frame {s : State} (h : s.fld Reg.MGT_FACTSTAT 0 1 = 1) :
    s.now ≤ s.factDone.now ∧ s.factDone.now ≤ s.now + msec 1 ∧ s.factDone.nvs = calErased s.nvs ∧
      s.factDone.fld Reg.MGT_FACTSTAT 0 1 = 0 ∧ s.factDone.fld Reg.MGT_FACTSTAT 8 8 = 1 := by
  obtain ⟨u, h1, h2, hn, he⟩ := factDone_eq h
  obtain ⟨hrun, hcode⟩ := factstat_factOutcome (u.calFactory.setBit Reg.MGT_FACTSTAT 0 false) 1
  have hfld (lo len : Nat) := fld_congr (rd_almEvent ((u.calFactory.setBit Reg.MGT_FACTSTAT 0 false).factOutcome 1) 0x0120 15 0 0
    (a := Reg.MGT_FACTSTAT) (by decide)) lo len
  have hnow : s.factDone.now = u.now := by rw [he, almEvent_now, factOutcome_now, setBit_now, calFactory_now]
  have hnvs : s.factDone.nvs = u.nvs := by rw [he, almEvent_nvs, factOutcome_nvs, setBit_nvs, calFactory_nvs]
  rw [hnow, hnvs, he, hfld, hfld, hrun, hcode, fld_setBit_same _ _ _ (by omega)]
  exact ⟨h1, h2, hn, rfl, rfl⟩

end Sys2Proof.Machine.State
end

section
/-! SUPPORT. The sensors (R483, R484); and O58, assembled from the four parts. -/
namespace Sys2Proof.Machine.State

/-! ### The sensors (R483) -/

/-- What the marks and the log entries of the sensors leave: the time, the sample's instant and the supply. -/
def sampleView (s : State) : Nat × Int × Nat × Power := (s.now, s.skew, s.mgt.sampled, s.pw)

theorem wr_sampleView (s : State) (a v : Nat) : (s.wr a v).sampleView = s.sampleView := rfl

theorem setBit_sampleView (s : State) (a i : Nat) (b : Bool) : (s.setBit a i b).sampleView = s.sampleView := wr_sampleView _ _ _

theorem raise_sampleView (s : State) (src task d1 d2 : Nat) : (s.raise src task d1 d2).sampleView = s.sampleView := rfl

theorem setMgt_sampleView {s : State} {m : Mgt} (h : m.sampled = s.mgt.sampled) : (s.setMgt m).sampleView = s.sampleView := by
  unfold sampleView
  rw [← h]
  rfl

theorem mgtLog_sampleView (s : State) (code arg det : Nat) : (s.mgtLog code arg det).sampleView = s.sampleView := wr_sampleView _ _ _

theorem fresh_sampleView (s : State) : s.fresh.2.sampleView = s.sampleView := rfl

theorem mgtNote_sampleView (s : State) (code arg : Nat) : (s.mgtNote code arg).sampleView = s.sampleView :=
  (mgtLog_sampleView _ _ _ _).trans (fresh_sampleView s)

theorem mgtNote2_sampleView (s : State) (code : Nat) : (s.mgtNote2 code).sampleView = s.sampleView :=
  (mgtNote_sampleView _ _ _).trans (fresh_sampleView s)

theorem crossing_sampleView (s : State) (sensor : Option Nat) (src : Nat) : (s.crossing sensor src).sampleView = s.sampleView := by
  unfold crossing
  dsimp only
  rw [raise_sampleView]
  split
  · rw [mgtNote_sampleView, setBit_sampleView]
  · rw [mgtNote2_sampleView, setBit_sampleView]

theorem rd_mgtNote (s : State) (code arg : Nat) {a : Nat} (h : a ≠ Reg.MGT_LOGNEXT) : (s.mgtNote code arg).rd a = s.rd a := rd_mgtLog _ _ _ _ h

theorem rd_crossing (s : State) (sensor : Option Nat) (src : Nat) {a : Nat} (h : a ≠ Reg.MGT_LOGNEXT) (hs : a ≠ Reg.MGT_STAT) :
    (s.crossing sensor src).rd a = s.rd a := by
  unfold crossing
  dsimp only
  rw [rd_raise]
  split
  · rw [rd_mgtNote _ _ _ h, rd_setBit_other _ _ _ hs]
  · rw [rd_mgtNote2 _ _ h, rd_setBit_other _ _ _ hs]

theorem setMgt_self (s : State) : s.setMgt s.mgt = s := rfl

theorem rd_setMgt (s : State) (m : Mgt) (a : Nat) : (s.setMgt m).rd a = s.rd a := rfl

/-- A state with new marks, and a crossing where one fires. -/
def markThen (s : State) (m : Mgt) (fires : Bool) (sensor : Option Nat) (src : Nat) : State :=
  if fires then (s.setMgt m).crossing sensor src else s.setMgt m

theorem markThen_sampleView {s : State} {m : Mgt} (h : m.sampled = s.mgt.sampled) (fires : Bool) (sensor : Option Nat) (src : Nat) :
    (s.markThen m fires sensor src).sampleView = s.sampleView := by
  unfold markThen
  split
  · rw [crossing_sampleView, setMgt_sampleView h]
  · exact setMgt_sampleView h

theorem rd_markThen (s : State) (m : Mgt) (fires : Bool) (sensor : Option Nat) (src : Nat) {a : Nat} (h : a ≠ Reg.MGT_LOGNEXT) (hs : a ≠ Reg.MGT_STAT) :
    (s.markThen m fires sensor src).rd a = s.rd a := by
  unfold markThen
  split
  · rw [rd_crossing _ _ _ h hs, rd_setMgt]
  · exact rd_setMgt _ _ _

theorem powerSample_eq (s : State) (k bound v : Nat) :
    ∃ m f, m.sampled = s.mgt.sampled ∧ s.powerSample k bound v = s.markThen m f none 1924 := by
  unfold powerSample
  extract_lets from_ long l
  split
  · next l' f _ =>
    refine ⟨_, f, ?_, rfl⟩
    split
    · rfl
    · rfl

/-! #### One temperature -/

theorem tempLimits_hyst (t : Nat) : 0 ≤ (tempLimits t).2.2 := by
  unfold tempLimits
  split
  · exact (by decide : (0 : Int) ≤ 50)
  · split
    · exact (by decide : (0 : Int) ≤ 50)
    · split
      · exact (by decide : (0 : Int) ≤ 50)
      · exact (by decide : (0 : Int) ≤ 30)

theorem mark_new {l : List Nat} {id : Nat} (h : id ∉ l) (back : Bool) : mark l id true back = (id :: l, true) := by
  unfold mark
  rw [if_pos (by simpa using h)]

theorem mark_held {l : List Nat} {id : Nat} (h : id ∈ l) : mark l id true false = (l, false) := by
  unfold mark
  rw [if_neg (by simpa using h), if_neg Bool.false_ne_true]

theorem mark_between (l : List Nat) (id : Nat) : mark l id false false = (l, false) := by
  unfold mark
  rw [if_neg (by simp), if_neg Bool.false_ne_true]

/-- The registers of a temperature: its own, and the highest of the sensors that keep one. -/
def tempRegs (s : State) (t : Nat) (v : Int) : State :=
  let u := s.wr (Reg.MGT_TEMP t) (unsigned 16 v)
  if t < 16 ∧ signed 16 (u.rd Reg.MGT_TEMPMAX) < v then u.wr Reg.MGT_TEMPMAX (unsigned 16 v + t * 65536) else u

theorem tempRegs_upper (s : State) {t : Nat} (v : Int) (ht : 16 ≤ t) : s.tempRegs t v = s.wr (Reg.MGT_TEMP t) (unsigned 16 v) :=
  if_neg fun h => Nat.not_lt.2 ht h.1

theorem tempRegs_sampleView (s : State) (t : Nat) (v : Int) : (s.tempRegs t v).sampleView = s.sampleView := by
  unfold tempRegs
  dsimp only
  split
  · rw [wr_sampleView, wr_sampleView]
  · exact wr_sampleView _ _ _

/-- Both marks of a temperature, and the crossings that fire. -/
theorem tempSample_eq (s : State) (t : Nat) (v : Int) :
    s.tempSample t v =
      (let u := s.tempRegs t v
       let w := mark u.mgt.warn t (decide ((tempLimits t).1 < v)) (decide (v ≤ (tempLimits t).1 - (tempLimits t).2.2))
       let l := mark u.mgt.limit t (decide ((tempLimits t).2.1 < v)) (decide (v ≤ (tempLimits t).2.1 - (tempLimits t).2.2))
       let x := u.markThen { u.mgt with warn := w.1, limit := l.1 } w.2 (some t) 1922
       if l.2 then x.crossing (some t) 1923 else x) := by
  unfold tempSample markThen tempRegs
  rfl

theorem tempSample_sampleView (s : State) (t : Nat) (v : Int) : (s.tempSample t v).sampleView = s.sampleView := by
  rw [tempSample_eq]
  dsimp only
  split
  · rw [crossing_sampleView, markThen_sampleView, tempRegs_sampleView]
    rfl
  · rw [markThen_sampleView, tempRegs_sampleView]
    rfl

theorem tempSample_warm {s : State} {t : Nat} {v : Int} (ht : 16 ≤ t) (hw : (tempLimits t).1 < v) (hl : v ≤ (tempLimits t).2.1)
    (hb : (tempLimits t).2.1 - (tempLimits t).2.2 < v) :
    s.tempSample t v = (let w := mark s.mgt.warn t true false
      (s.wr (Reg.MGT_TEMP t) (unsigned 16 v)).markThen { s.mgt with warn := w.1 } w.2 (some t) 1922) := by
  have hh := tempLimits_hyst t
  rw [tempSample_eq, tempRegs_upper _ _ ht, decide_eq_true hw, decide_eq_false (show ¬ v ≤ (tempLimits t).1 - (tempLimits t).2.2 by omega),
    decide_eq_false (Int.not_lt.2 hl), decide_eq_false (Int.not_le.2 hb)]
  dsimp only
  rw [mark_between, if_neg Bool.false_ne_true, wr_mgt]

theorem tempSample_fires {s : State} {t : Nat} {v : Int} (ht : 16 ≤ t) (hw : (tempLimits t).1 < v) (hl : v ≤ (tempLimits t).2.1)
    (hb : (tempLimits t).2.1 - (tempLimits t).2.2 < v) (hn : t ∉ s.mgt.warn) :
    s.tempSample t v = ((s.wr (Reg.MGT_TEMP t) (unsigned 16 v)).setMgt { s.mgt with warn := t :: s.mgt.warn }).crossing (some t) 1922 := by
  rw [tempSample_warm ht hw hl hb, mark_new hn]
  exact if_pos rfl

theorem tempSample_held {s : State} {t : Nat} {v : Int} (ht : 16 ≤ t) (hw : (tempLimits t).1 < v) (hl : v ≤ (tempLimits t).2.1)
    (hb : (tempLimits t).2.1 - (tempLimits t).2.2 < v) (hm : t ∈ s.mgt.warn) :
    s.tempSample t v = s.wr (Reg.MGT_TEMP t) (unsigned 16 v) := by
  rw [tempSample_warm ht hw hl hb, mark_held hm]
  exact (if_neg Bool.false_ne_true).trans (setMgt_self _)

/-! #### One sample -/

/-- A sample comes at least 1 ms after the one before. -/
def sampleBegun (s : State) : State :=
  let u := s.advanceMono (s.mgt.sampled + msec 1)
  u.setMgt { u.mgt with sampled := u.mono }

/-- The domains and the temperatures of a sample. -/
def sampleDomains (s : State) (x : Sensors) : State :=
  let u := forEach (x.volts.filter (fun v => decide (v.1 < 80))) (fun s v => s.voltSample v.1 v.2 (x.sustained.contains v.1)) s
  let u := forEach ((x.temps.take 24).zipIdx) (fun s t => s.tempSample t.2 t.1) u
  u.setBit Reg.MGT_STAT 2 (((x.temps.take 24).zipIdx).any (fun t => decide ((tempLimits t.2).1 < t.1)))

/-- The input's registers of a sample. -/
def sampleRegs (s : State) (x : Sensors) : State :=
  let u := ((s.wr Reg.MGT_VIN (x.vin % 4096)).wr Reg.MGT_IIN (x.iin % 65536)).wr Reg.MGT_PIN (x.pin % 8192)
  (u.maxReg Reg.MGT_PINMAX (x.pin % 8192)).wr Reg.MGT_V48 (x.v48 % 8192)

/-- The supply as a sample shows it. -/
def sampleSupply (s : State) (x : Sensors) : State := { s with pw := { s.pw with inputV := x.vin, busMv := x.v48 * 10 } }

/-- The marks of the input voltage. -/
def sampleInput (s : State) (x : Sensors) : State :=
  let f := mark s.mgt.limit 24 (decide (x.vin < s.inputRange.1) || decide (s.inputRange.2 < x.vin))
    (decide (s.inputRange.1 * 101 ≤ x.vin * 100) && decide (x.vin * 100 ≤ s.inputRange.2 * 99))
  s.markThen { s.mgt with limit := f.1 } f.2 none 1924

/-- The marks of the 48 V bus. -/
def sampleBus (s : State) (x : Sensors) : State :=
  let f := mark s.mgt.warn 26 (decide (x.v48 < 4600)) (decide (4650 ≤ x.v48))
  s.markThen { s.mgt with warn := f.1 } f.2 none 1924

theorem sensorSample_eq {s : State} (hm : s.ms.mode ≠ .backup) (x : Sensors) :
    s.sensorSample x =
      ((((((s.sampleBegun.sampleDomains x).sampleRegs x).sampleSupply x).sampleInput x).powerSample 0 3600 x.pin).powerSample 1 3900 x.pin).sampleBus x := by
  unfold sensorSample
  rw [if_neg hm]
  unfold sampleBus sampleInput sampleSupply sampleRegs sampleDomains sampleBegun markThen
  rfl

theorem powerSample_sampleView (s : State) (k bound v : Nat) : (s.powerSample k bound v).sampleView = s.sampleView := by
  obtain ⟨m, f, hm, he⟩ := s.powerSample_eq k bound v
  rw [he, markThen_sampleView hm]

theorem rd_powerSample (s : State) (k bound v : Nat) {a : Nat} (h : a ≠ Reg.MGT_LOGNEXT) (hs : a ≠ Reg.MGT_STAT) :
    (s.powerSample k bound v).rd a = s.rd a := by
  obtain ⟨m, f, _, he⟩ := s.powerSample_eq k bound v
  rw [he, rd_markThen _ _ _ _ _ h hs]

theorem sampleInput_sampleView (s : State) (x : Sensors) : (s.sampleInput x).sampleView = s.sampleView := by
  unfold sampleInput
  dsimp only
  rw [markThen_sampleView]
  rfl

theorem rd_sampleInput (s : State) (x : Sensors) {a : Nat} (h : a ≠ Reg.MGT_LOGNEXT) (hs : a ≠ Reg.MGT_STAT) : (s.sampleInput x).rd a = s.rd a := by
  unfold sampleInput
  exact rd_markThen _ _ _ _ _ h hs

theorem sampleBus_sampleView (s : State) (x : Sensors) : (s.sampleBus x).sampleView = s.sampleView := by
  unfold sampleBus
  dsimp only
  rw [markThen_sampleView]
  rfl

theorem rd_sampleBus (s : State) (x : Sensors) {a : Nat} (h : a ≠ Reg.MGT_LOGNEXT) (hs : a ≠ Reg.MGT_STAT) : (s.sampleBus x).rd a = s.rd a := by
  unfold sampleBus
  exact rd_markThen _ _ _ _ _ h hs

theorem sampleRegs_sampleView (s : State) (x : Sensors) : (s.sampleRegs x).sampleView = s.sampleView := by
  unfold sampleRegs maxReg
  simp only [wr_sampleView]

/-- The registers of a sample hold its values. -/
theorem rd_sampleRegs (s : State) (x : Sensors) : (s.sampleRegs x).rd Reg.MGT_VIN = x.vin % 4096 ∧ (s.sampleRegs x).rd Reg.MGT_IIN = x.iin % 65536 ∧
    (s.sampleRegs x).rd Reg.MGT_PIN = x.pin % 8192 ∧ (s.sampleRegs x).rd Reg.MGT_V48 = x.v48 % 8192 := by
  unfold sampleRegs maxReg
  dsimp only
  refine ⟨?_, ?_, ?_, ?_⟩
  · rw [rd_wr_other _ _ (by decide), rd_wr_other _ _ (by decide), rd_wr_other _ _ (by decide), rd_wr_other _ _ (by decide), rd_wr_same]
    omega
  · rw [rd_wr_other _ _ (by decide), rd_wr_other _ _ (by decide), rd_wr_other _ _ (by decide), rd_wr_same]
    omega
  · rw [rd_wr_other _ _ (by decide), rd_wr_other _ _ (by decide), rd_wr_same]
    omega
  · rw [rd_wr_same]
    omega

theorem sampleDomains_sampleView {x : Sensors} (h : x.volts = []) (s : State) : (s.sampleDomains x).sampleView = s.sampleView := by
  unfold sampleDomains
  dsimp only
  rw [setBit_sampleView, h, forEach_keeps _ sampleView (fun s t => tempSample_sampleView s _ _)]
  rfl

/-- All a sample does after its registers leaves them and the time as they stand. -/
def sampleMarks (s : State) (x : Sensors) : State := (((s.sampleInput x).powerSample 0 3600 x.pin).powerSample 1 3900 x.pin).sampleBus x

theorem sampleMarks_sampleView (s : State) (x : Sensors) : (s.sampleMarks x).sampleView = s.sampleView := by
  unfold sampleMarks
  rw [sampleBus_sampleView, powerSample_sampleView, powerSample_sampleView, sampleInput_sampleView]

theorem rd_sampleMarks (s : State) (x : Sensors) {a : Nat} (h : a ≠ Reg.MGT_LOGNEXT) (hs : a ≠ Reg.MGT_STAT) : (s.sampleMarks x).rd a = s.rd a := by
  unfold sampleMarks
  rw [rd_sampleBus _ _ h hs, rd_powerSample _ _ _ _ h hs, rd_powerSample _ _ _ _ h hs, rd_sampleInput _ _ h hs]

theorem sensorSample_marks {s : State} (hm : s.ms.mode ≠ .backup) (x : Sensors) :
    s.sensorSample x = (((s.sampleBegun.sampleDomains x).sampleRegs x).sampleSupply x).sampleMarks x := sensorSample_eq hm x

theorem rd_sampleSupply (s : State) (x : Sensors) (a : Nat) : (s.sampleSupply x).rd a = s.rd a := rfl

theorem sampleSupply_mono (s : State) (x : Sensors) : (s.sampleSupply x).mono = s.mono := rfl

theorem sampleSupply_mgt (s : State) (x : Sensors) : (s.sampleSupply x).mgt = s.mgt := rfl

theorem sampleSupply_inputV (s : State) (x : Sensors) : (s.sampleSupply x).pw.inputV = x.vin := rfl

theorem rd_sensorSample {s : State} (hm : s.ms.mode ≠ .backup) (x : Sensors) :
    (s.sensorSample x).rd Reg.MGT_VIN = x.vin % 4096 ∧ (s.sensorSample x).rd Reg.MGT_IIN = x.iin % 65536 ∧
    (s.sensorSample x).rd Reg.MGT_PIN = x.pin % 8192 ∧ (s.sensorSample x).rd Reg.MGT_V48 = x.v48 % 8192 := by
  rw [sensorSample_marks hm, rd_sampleMarks _ _ (by decide) (by decide), rd_sampleMarks _ _ (by decide) (by decide),
    rd_sampleMarks _ _ (by decide) (by decide), rd_sampleMarks _ _ (by decide) (by decide)]
  simp only [rd_sampleSupply]
  exact rd_sampleRegs _ _

/-- A view that stands has the time, the sample's instant and the supply stand. -/
theorem of_sampleView {s t : State} (h : t.sampleView = s.sampleView) : t.mono = s.mono ∧ t.mgt.sampled = s.mgt.sampled ∧ t.pw = s.pw := by
  unfold sampleView at h
  rw [Prod.mk.injEq, Prod.mk.injEq, Prod.mk.injEq] at h
  obtain ⟨hn, hk, hsam, hp⟩ := h
  exact ⟨mono_congr hn hk, hsam, hp⟩

theorem inputV_sensorSample {s : State} (hm : s.ms.mode ≠ .backup) (x : Sensors) : (s.sensorSample x).pw.inputV = x.vin := by
  rw [sensorSample_marks hm, (of_sampleView (sampleMarks_sampleView _ _)).2.2, sampleSupply_inputV]

theorem setMgt_mono (s : State) (m : Mgt) : (s.setMgt m).mono = s.mono := rfl

theorem setMgt_mgt (s : State) (m : Mgt) : (s.setMgt m).mgt = m := rfl

theorem sampleBegun_time (s : State) : s.mgt.sampled + msec 1 ≤ s.sampleBegun.mono ∧ s.sampleBegun.mgt.sampled = s.sampleBegun.mono := by
  unfold sampleBegun
  dsimp only
  rw [setMgt_mono, setMgt_mgt]
  exact ⟨s.le_mono_advanceMono _, rfl⟩

theorem sensorSample_time {s : State} (hm : s.ms.mode ≠ .backup) {x : Sensors} (hx : x.volts = []) :
    s.mgt.sampled + msec 1 ≤ (s.sensorSample x).mono ∧ (s.sensorSample x).mgt.sampled = (s.sensorSample x).mono := by
  obtain ⟨hmono, hsam, _⟩ := of_sampleView (sampleMarks_sampleView (((s.sampleBegun.sampleDomains x).sampleRegs x).sampleSupply x) x)
  obtain ⟨hmono2, hsam2, _⟩ := of_sampleView ((sampleRegs_sampleView (s.sampleBegun.sampleDomains x) x).trans (sampleDomains_sampleView hx s.sampleBegun))
  rw [sensorSample_marks hm, hmono, hsam, sampleSupply_mono, sampleSupply_mgt, hmono2, hsam2]
  exact s.sampleBegun_time

theorem bankDaily_idle {s : State} (h : s.ms.mode = .backup ∨ s.ms.begun = false) (c : Nat) : s.bankDaily c = s :=
  if_pos (h.imp_right fun hb => by rw [hb]; rfl)

theorem bankDaily_measures {s : State} (hm : s.ms.mode ≠ .backup) (hb : s.ms.begun = true) (c : Nat) :
    s.bankDaily c = (s.advanceMono (s.mgt.lastBank + 86400 * secU)).bankMeasured c :=
  if_neg fun h => h.elim hm fun hn => by rw [hb] at hn; exact Bool.false_ne_true hn

end Sys2Proof.Machine.State
end

section
open Sys2Proof Sys2Proof.Machine Sys2Proof.Machine.State

/-- Settles O58: the ports' operations (`portSelect_selects`, `portPassword_…`, `portRead_…`), the Almanac's write and checkpoint, one sample and its
marks, the log's port and restore-factory, each by its own equation. -/
theorem nvsAlmanacAndManagementAct : Obligations.NvsAlmanacAndManagementAct := by
  unfold Obligations.NvsAlmanacAndManagementAct
  refine ⟨?psel, ?ppwd, ?password, ?pdataRead, ?portRead, ?pdataWrite, ?pcmd,
    ?almIdle, ?almWrite, ?checkpoint, ?sample, ?temp, ?bank, ?logsel, ?go, ?done⟩
  case psel =>
    intro s r n region dir _ hw hr hd
    exact ⟨_, congrArg (done s) (busSet_psel hw), portSelect_selects s n hr hd⟩
  case ppwd =>
    intro s n pw h h2 hpw hc hc2 _ hbase hs hs2 hi hp hp2 hrw hrw2 hd hd2 hb hb2
    exact congrArg (done s) (busSet_ppwd hpw hc hc2 hbase hs hs2 hi hp hp2 hrw hrw2 hd hd2 hb hb2)
  case password =>
    intro s n pw hn r
    refine ⟨fun h => portPassword_refused h pw, fun hr hu hl => ⟨portPassword_opens_frame hr hu hl, fun ho => ?_⟩⟩
    obtain ⟨hlock, hnvs⟩ := portPassword_wrong_frame hn hr hu hl ho
    refine ⟨hlock, ?_, ?_⟩
    · rw [hnvs]
      rfl
    · rw [hnvs]
      exact wrongNvs_locked hl
  case pdataRead =>
    intro s r n h hl hc hb hi hs hblk
    exact congrArg (done s) (busGet_pdata hl hc hb hi hs hblk)
  case portRead =>
    intro s n
    refine ⟨portRead_refused, fun hok => ?_⟩
    intro as hws
    exact portRead_sound hok hws
  case pdataWrite =>
    intro s r n v hw
    refine ⟨fun hok => congrArg (done s) ((busSet_pdata hw).trans ?_), fun hok => congrArg (done s) ((busSet_pdata hw).trans ?_)⟩
    · exact if_neg (by rw [hok]; exact Bool.false_ne_true)
    · exact if_pos hok
  case pcmd =>
    intro s r n hw g
    have hrd := (busSet_pcmd (v := 1) hw).trans (portCmd_setrd s n)
    have hwr := (busSet_pcmd (v := 2) hw).trans (portCmd_setwr s n)
    refine ⟨fun hok => ?_, fun hok => ?_⟩
    · have hno : ¬ s.portCmdOk n = true := by rw [hok]; exact Bool.false_ne_true
      exact ⟨congrArg (done s) (hrd.trans (if_neg hno)), congrArg (done s) (hwr.trans (if_neg hno))⟩
    · exact ⟨congrArg (done s) (hrd.trans (if_pos hok)), congrArg (done s) (hwr.trans (if_pos hok))⟩
  case almIdle =>
    intro s h
    exact congrArg (done s) (almWrite_none h)
  case almWrite =>
    intro s x rest hf hw hz hh n u
    exact congrArg (done s) (almWrite_one hf hw hz hh)
  case checkpoint =>
    intro s
    refine ⟨fun hw => congrArg (done s) (almCheckpoint_idle hw), fun hw => ⟨_, congrArg (done s) (almCheckpoint_writing hw), ?_⟩⟩
    rw [almCheckpointNow_alm, almCheckpointNow_mono, almCheckpointNow_opSecs, advanceMono_alm, rd_advanceMono]
    exact ⟨rfl, rfl, s.le_mono_advanceMono _, rfl⟩
  case sample =>
    intro s x
    refine ⟨fun hm => congrArg (done s) (if_pos hm), fun hm => ⟨s.sensorSample x, rfl, fun hx => sensorSample_time hm hx, ?_⟩⟩
    obtain ⟨hvin, hiin, hpin, hv48⟩ := rd_sensorSample hm x
    exact ⟨hvin, hiin, hpin, hv48, inputV_sensorSample hm x⟩
  case temp =>
    intro s t v ht hw hl hb u
    exact ⟨tempSample_fires ht hw hl hb, tempSample_held ht hw hl hb⟩
  case bank =>
    intro s c
    exact ⟨fun h => congrArg (done s) (bankDaily_idle h c), fun hm hb => congrArg (done s) (bankDaily_measures hm hb c)⟩
  case logsel =>
    intro s r num hw hnum
    have hset : s.busSet r Reg.MGT_LOGSEL num = s.logSelect num := by rw [busSet_logsel hw, Nat.mod_eq_of_lt hnum]
    exact ⟨_, congrArg (done s) hset, rd_logsel_logSelect s hnum, fun e he hn => logSelect_found he hn, logSelect_missing⟩
  case go =>
    intro s r hw g
    have hgo := busSet_go hw
    refine ⟨fun h => congrArg (done s) (hgo.trans (factGo_waits h)), fun h hm => congrArg (done s) (hgo.trans (factGo_mode h hm)), fun h hm =>
      ⟨fun hg => congrArg (done s) (hgo.trans (factGo_region h hm hg)), fun h1 h2 h3 => ?_⟩⟩
    obtain ⟨hlock, hopen, hwrong⟩ := factGo_password h hm h1 h2 h3
    exact ⟨fun hl => congrArg (done s) (hgo.trans (hlock hl)), fun hl ho => congrArg (done s) (hgo.trans (hopen hl ho)),
      fun hl ho => congrArg (done s) (hgo.trans (hwrong hl ho))⟩
  case done =>
    intro s
    refine ⟨fun h => congrArg (done s) (factDone_idle h), fun h => ⟨s.factDone, rfl, ?_⟩⟩
    obtain ⟨h1, h2, hn, hrun, hcode⟩ := factDone_frame h
    rw [hn]
    exact ⟨h1, h2, rfl, hrun, hcode⟩
end
